-- ==== Sys2Proof/Word.lean ====
section
/-!
DEFINITION. Word.lean: the word types of the device and the index types of its units.
-/
namespace Sys2Proof

/-- A byte. -/
abbrev Byte := BitVec 8
/-- A register: 32 bits, little-endian (R8 and the notation of the scope chapter). -/
abbrev Word := BitVec 32
/-- A row of a stone data store: 64 lanes, lane b being bit b (R26). -/
abbrev Row := BitVec 64
/-- An instruction word of a BP (R31). -/
abbrev IWord := BitVec 96
/-- A unit of the race: 128 bits (R85). -/
abbrev Unit128 := BitVec 128

/-- Partition P0 to P3. -/
abbrev Part := Fin 4
/-- Physical quadrant Q0 to Q3. -/
abbrev Quad := Fin 4
/-- Physical mill: quadrant × 64 + row × 8 + column. -/
abbrev Mill := Fin 256
/-- Stone of a mill. -/
abbrev Stone := Fin 16
/-- BP, and lane, of a stone. -/
abbrev Bp := Fin 64
/-- Step of a turn: slot of the instruction store. -/
abbrev Step := Fin 2048
/-- DRAM channel. -/
abbrev Chan := Fin 16
/-- Spoke. -/
abbrev Spoke := Fin 16
/-- Miller core. -/
abbrev Core := Fin 32
/-- Sluice. -/
abbrev Sluice := Fin 256

end Sys2Proof
end

