-- ==== Sys2Proof/Machine/SMap.lean ====
section
/-!
DEFINITION. Machine/SMap.lean: sparse stores as plain data. A store is a list of (key, value) pairs in one canonical form:
keys strictly rising, and no entry equal to what its key reads as when unlisted. Equal stores are equal lists.
-/
namespace Sys2Proof.Machine

/-- A sparse store. -/
abbrev SMap (α : Type) := List (Nat × α)

/-- What a key reads as; `d` gives what an unlisted key reads as. -/
def mget {α : Type} (d : Nat → α) : SMap α → Nat → α
  | [], k => d k
  | (k', v) :: t, k => if k = k' then v else mget d t k

/-- Writing a key keeps the canonical form: a value equal to the unlisted one removes the entry, any other takes its place in the
rising order. -/
def mset {α : Type} [DecidableEq α] (d : Nat → α) : SMap α → Nat → α → SMap α
  | [], k, v => if v = d k then [] else [(k, v)]
  | (k', v') :: t, k, v =>
    if v = d k then (if k = k' then mset d t k v else (k', v') :: mset d t k v)
    else if k < k' then (k, v) :: (k', v') :: t
    else if k = k' then (k, v) :: t
    else (k', v') :: mset d t k v

/-- Every key of a store is above `b`. -/
def mabove {α : Type} (b : Nat) : SMap α → Bool
  | [] => true
  | (k, _) :: t => decide (b < k) && mabove b t

/-- The canonical form of a store. -/
def mwf {α : Type} [DecidableEq α] (d : Nat → α) : SMap α → Bool
  | [] => true
  | (k, v) :: t => !decide (v = d k) && mabove k t && mwf d t

/-- Every listed value changed by `f`, the canonical form kept. -/
def mmap {α : Type} [DecidableEq α] (d : Nat → α) (f : Nat → α → α) (m : SMap α) : SMap α :=
  m.foldr (fun e acc => mset d acc e.1 (f e.1 e.2)) []

/-- Keys listed in a store that satisfy `f`, dropped. -/
def mdrop {α : Type} (f : Nat → Bool) (m : SMap α) : SMap α := m.filter (fun e => !f e.1)

/-- Little-endian bytes of a store of bytes: n bytes from address a, byte 0 first. -/
def mbytes (d : Nat → BitVec 8) (m : SMap (BitVec 8)) (a : Nat) : Nat → List (BitVec 8)
  | 0 => []
  | n + 1 => mget d m a :: mbytes d m (a + 1) n

/-- Store bytes from address a upward. -/
def mputBytes (d : Nat → BitVec 8) (m : SMap (BitVec 8)) (a : Nat) : List (BitVec 8) → SMap (BitVec 8)
  | [] => m
  | b :: t => mputBytes d (mset d m a b) (a + 1) t

/-- The number a little-endian byte list spells. -/
def leNat : List (BitVec 8) → Nat
  | [] => 0
  | b :: t => b.toNat + 256 * leNat t

/-- The n little-endian bytes of a number. -/
def natLe : Nat → Nat → List (BitVec 8)
  | 0, _ => []
  | n + 1, v => BitVec.ofNat 8 v :: natLe n (v / 256)

end Sys2Proof.Machine
end

