-- ==== Sys2Proof/Machine/Types.lean ====
section
/-!
DEFINITION. Machine/Types.lean: the records State is made of, chapter by chapter. Registers that software sees are not
here: their one home is State.regs.
-/
namespace Sys2Proof.Machine

/-! ## Stones (chapter 02) -/

/-- A write into a stone's data store in the turn in progress. It enters the store at the end of step + 1 (R29). `site` is
mill × 16 + stone, `row` the 12-bit operand row number. -/
structure TurnWrite where
  site : Nat
  row : Nat
  lane : Nat
  step : Nat
  val : Bool
  deriving DecidableEq, Repr

/-- The stones' memories. `rows`: physical rows of every data store as they stood at the end of the previous turn (R26);
`writes`: the turn's writes, newest first; `words`: instruction stores, 0 is a NOP (R31, R33); `ueRows`, `ueWords`: code
words that are uncorrectable (R456), a row by 1 + the step of the turn in progress at which it was found so, 1 when that was
in an earlier turn. -/
structure Stones where
  rows : SMap Row := []
  writes : List TurnWrite := []
  words : SMap IWord := []
  ueRows : SMap Nat := []
  ueWords : SMap Bool := []
  /-- tap map (R242): capture bit + 1 of a tapped instruction word, by word key; 0 is none. -/
  tapBit : SMap Nat := []
  deriving DecidableEq, Repr

/-! ## Partitions, turns and brakes (chapters 01, 03, 14) -/

/-- A brake vote that has been raised: `hold` step and `next` (the hold step lies in the next turn, R69), round and cause
(R68, R71), and whether another module raised it (R77). -/
structure Vote where
  hold : Nat
  next : Bool
  round : Nat
  cause : Nat
  remote : Bool := false
  deriving DecidableEq, Repr

/-- A result whose check has failed and that is checked again every 32 cycles (R71). `origin` is the partition cycle of the first
check, `ref` the consuming BP, as (mill × 16 + stone) × 64 + BP. -/
structure Recheck where
  hold : Nat
  next : Bool
  round : Nat
  cause : Nat
  origin : Nat
  ref : Nat
  deriving DecidableEq, Repr

/-- Votes of one cycle for one hold step, as a spoke record announces them (R188): the raise cycle, the hold step mod 512, the
causes, the crossings so far, and the role of the spoke they came by (0 for the module's own). -/
structure VoteOut where
  raised : Nat
  hold : Nat
  causes : Nat
  hops : Nat := 0
  role : Nat := 0
  deriving DecidableEq, Repr

/-- What is kept of a loaded image's header (R239). -/
structure ImageHdr where
  buildId : Nat := 0
  topology : Nat := 0
  hopBudget : Nat := 0
  deriving DecidableEq, Repr

/-- A ring command waiting for a partition: its command ring and the number of the command (`Ring.running`), and its op. -/
structure Waiter where
  ring : Nat
  serial : Nat
  op : Nat
  deriving DecidableEq, Repr

/-- State of one partition beside its PART and TURN registers. -/
structure PartSt where
  /-- released by CFG_DONE, or by stage 3 on a single module (R254). -/
  released : Bool := false
  /-- the turn in progress, or next to run, is turn 0 (R15). -/
  turn0 : Bool := false
  /-- turns ended since the turn 0 of the image (R357). -/
  sinceZero : Nat := 0
  /-- committed state bank: bank 1 when set (R14). -/
  bank : Bool := false
  /-- partition cycle of step 0 of the turn in progress, quanta of the turn not counted (R70). -/
  turnBase : Nat := 0
  lossless : Bool := false
  breakEn : Bool := false
  /-- mask of halt reasons raised for the turn end (bit r: reason r of PART_STATE.halt_reason). -/
  causes : Nat := 0
  /-- turn in which the first of them arose. -/
  causeTurn : Nat := 0
  /-- the turn in progress is marked invalid. -/
  invalid : Bool := false
  /-- every turn up to the halt is marked invalid (R23). -/
  invalidToHalt : Bool := false
  /-- every turn until the next turn 0 is marked invalid (R197); from the next turn on. -/
  invalidToTurn0 : Bool := false
  invalidFromNext : Bool := false
  /-- every turn until the partition is reloaded is marked invalid (R133). -/
  invalidToLoad : Bool := false
  /-- a mark that arose while no turn ran (R459). -/
  pendInvalid : Bool := false
  /-- the pending mark covers every later turn (R133). -/
  pendSticky : Bool := false
  /-- STORE_ECC_UNCORRECTABLE was raised in this turn; the first error of the step in progress, by its place and as the event's
  data, not yet raised (R57). -/
  storeUe : Bool := false
  storeErr : Option (Nat × List Nat) := none
  /-- PART_VOTE writes accepted during a hold: quanta and the first step executed after it (R68). -/
  votePend : List (Nat × Nat) := []
  /-- BREAK recorded in this turn, as mill, stone, lane, step key (R53, R339). -/
  breakKey : Option Nat := none
  votes : List Vote := []
  /-- records to announce on the spokes, oldest first, and those received or sent, for relaying (R188, R189). -/
  outVotes : List VoteOut := []
  seenVotes : List VoteOut := []
  /-- hold steps of this turn and of the last with their quanta, and the cycle the last turn began at (R188). -/
  holdLog : List (Nat × Nat) := []
  prevLog : List (Nat × Nat) := []
  prevBase : Nat := 0
  rechecks : List Recheck := []
  /-- hold step in force, quanta held before it and their causes. -/
  hold : Nat := 0
  served : Nat := 0
  servedCauses : Nat := 0
  /-- hold steps of this turn at which brake_limit was reached (R74). -/
  limitSteps : List Nat := []
  /-- quanta of the turn in progress, and how many of them each cause voted. -/
  quanta : Nat := 0
  causeQuanta : SMap Nat := []
  lastHold : Option (Nat × Nat × Nat) := none
  /-- a start is pending (R333). -/
  startPend : Bool := false
  /-- the bit of DBG_HALTREQ that asked for the pending start: 1 run, 2 step, 0 neither. -/
  dbgReq : Nat := 0
  /-- the controllers still drain the admissions of a halt (R152). -/
  draining : Bool := false
  /-- armed run count (R335, R336). -/
  armed : Option Nat := none
  /-- halt captured on HALT_N and acted on: the partition halts at this turn's end, or, when the edge lies in the next turn, at that
  one's (R194, R337). -/
  haltActed : Bool := false
  haltNext : Bool := false
  /-- REFCLK edge and partition cycle of the last start or resume (R194). -/
  startEdge : Nat := 0
  startCycle : Nat := 0
  /-- commands waiting for the partition to start, run or halt. -/
  waiters : List Waiter := []
  hdr : ImageHdr := {}
  /-- a spoke fault has discarded frames until the halt (R197). -/
  spokeFault : Bool := false
  /-- measurement since the halt is due: a spoke left state 5, or the pace changed (R195). -/
  remeasure : Bool := false
  /-- context lost by a forced Sleep or Off (R407). -/
  contextLost : Bool := false
  /-- chosen by the SYNC_N edge in progress to start, and measured for it (R195). -/
  syncStart : Bool := false
  measure : Bool := false
  /-- TB1's step, and whether an invalid turn has ended since turn 0 (R387). -/
  step : Nat := 0
  anyInvalid : Bool := false
  /-- turn bits tapped so far: key mill × 16 + stone (R351). -/
  taps : SMap Row := []
  deriving DecidableEq, Repr

/-! ## The race (chapter 04) -/

/-- A packet on the race: the header unit (R92), its data units and which of them are poisoned (R85). -/
structure Pkt where
  hdr : Unit128
  data : List Unit128 := []
  poison : List Bool := []
  deriving DecidableEq, Repr

/-- A packet waiting in a router's buffer: router, input port, virtual channel (R97), output port chosen. Packets of one input and
virtual channel stand in the order they came. -/
structure BufPkt where
  router : Nat
  input : Nat
  vc : Nat
  output : Nat
  pkt : Pkt
  deriving DecidableEq, Repr

/-- A packet that has been sent and not yet delivered (R98): its header as issued, for a response the target it comes from, and for a
far port's request whether its turn has been marked for it (R159). -/
structure Flight where
  hdr : Unit128
  source : Nat := 0
  marked : Bool := false
  deriving DecidableEq, Repr

/-- A non-posted request whose initiator waits for its response (R102, R105): its header, whether it has reached its target,
and whether it has been answered. -/
structure RaceReq where
  hdr : Unit128
  delivered : Bool := false
  answered : Bool := false
  deriving DecidableEq, Repr

/-- What a statistics slot has counted in the window in progress (R106). -/
structure StatAcc where
  units : Nat := 0
  reqs : Nat := 0
  sumLat : Nat := 0
  maxLat : Nat := 0
  changed : Bool := false
  deriving DecidableEq, Repr

/-- The race. `slots`: slot tables, key (mill × 6 + port) × 2048 + entry, 0xFF when none; `routes`: route bytes, key
(mill × 6 + port) × 4 + channel; `bufs`: packets in routers, in order of arrival; `reqs`: requests without a response; `flight`:
packets not yet delivered, in order of issue (R98); `turnOf`: the input that an output has served last, by router × 6 + output
(R100); `lost`: initiators whose access in progress the race has lost (R105). -/
structure RaceSt where
  slots : SMap (BitVec 8) := []
  routes : SMap (BitVec 8) := []
  bufs : List BufPkt := []
  reqs : List RaceReq := []
  flight : List Flight := []
  turnOf : SMap Nat := []
  lost : List Nat := []
  readmitting : List Nat := []
  stats : SMap StatAcc := []
  /-- packets the device has sent into the race, newest first. -/
  sent : List Pkt := []
  deriving DecidableEq, Repr

/-! ## The governor (chapter 10) -/

/-- The governor's own state. `run`: running targets in mV by quadrant (R232); `holdoff`: windows left without lowering;
`win`, `mov`: fires of each region and bin in the window and while the rail moved, key region × 16 + bin; `ramp`: bit q: rail
q is moving; `wide`: bit q: held at the ceiling until one full window has run (R232); `ceil`: bit q: GOV_FLUME_CEILING was
raised and every window since has wanted a raise; `wanted`: bit q: a raise was wanted in this window; `power`: the last ten
power samples in mW, newest first; `credit`: cycles × 1,024 by partition, up to partition cycle `creditAt`; `capRaised`:
GOV_CAP_UNMET was raised; `capRun`, `capAll`: 100 µs samples at 960 with the average above the cap, in a row and since reset;
`oscAt`, `oscUp`, `centre0`: by channel × 512 + rank × 32 + lane, the oscillator count of the last write-delay change, the
direction training recorded and the trained centre (R225); `eqCode`: linear equaliser code by lane; `trials`: lane trials under
way, code and fom before; `up`: the next trial goes down; `foms`: fom of a lane when its spoke last entered state 2 (R228);
`log`: newest first; `vcore`: commanded VCORE in mV (R434); `vcoreRamp`: its regulator has not reported it yet. -/
structure GovSt where
  run : SMap Nat := []
  holdoff : SMap Nat := []
  win : SMap Nat := []
  mov : SMap Nat := []
  ramp : Nat := 0
  wide : Nat := 0
  ceil : Nat := 0
  wanted : Nat := 0
  power : List Nat := []
  credit : SMap Nat := []
  creditAt : SMap Nat := []
  capRaised : Bool := false
  capRun : Nat := 0
  capAll : Nat := 0
  oscAt : SMap Nat := []
  oscUp : SMap Bool := []
  centre0 : SMap Nat := []
  eqCode : SMap Nat := []
  trials : SMap (Option (Nat × Nat)) := []
  up : SMap Bool := []
  foms : SMap Nat := []
  log : List (Nat × Nat × Nat × Nat) := []
  vcore : Nat := 800
  vcoreRamp : Bool := false
  deriving DecidableEq, Repr

/-- Clocks. `paceWait`: an accepted faster pace waits for VCORE (R434); `paceTo`: the pace being switched to (R400). -/
structure ClkSt where
  paceWait : Option Nat := none
  paceTo : Option Nat := none
  deriving DecidableEq, Repr

/-! ## The flume (chapter 05) -/

/-- What a sender puts on a signal's two rails (R109): both 0, or one of them 1. The illegal code is a fault, which the commands of
the receivers carry. -/
inductive DualRail where
  | spacer
  | data (v : Bool)
  deriving DecidableEq, Repr, Inhabited

/-- A launch port beside its FLM_PORTSTAT fields: the launch bits it claims, its fire bit, the held word, the last word
sent (0 before the first; log entry 24), and the phase of its nets: 0 free, 1 data, 2 spacer and still acknowledged. -/
structure LaunchPort where
  bits : Row := 0
  fireBit : Nat := 0
  held : Option Row := none
  last : Row := 0
  phase : Nat := 0
  /-- partition cycle of the latest fire: LAUNCHes of the same step still belong to its word (R114). -/
  fireCycle : Option Nat := none
  deriving DecidableEq, Repr

/-- A landing port beside its FLM_PORTSTAT fields: the landing bits it claims, its ack bit and the net that feeds each bit;
whether a word has been accepted and not yet taken, whether it owes an acknowledgement (R122), whether it is in drain (R124),
and its acknowledge (R109). -/
structure LandPort where
  bits : Row := 0
  ackBit : Nat := 0
  nets : List (Nat × Nat) := []
  accepted : Bool := false
  /-- partition cycle of the step whose LAND took the word: LANDs of the same step still find it there (R117). -/
  takenAt : Option Nat := none
  owes : Bool := false
  /-- a budget miss has been raised for the fire in progress (R19). -/
  missed : Bool := false
  drain : Bool := false
  ack : Bool := false
  deriving DecidableEq, Repr

/-- A region (R113), keyed by its physical ID. -/
structure Region where
  used : Bool := false
  launched : Bool := false
  budget : Nat := 0
  /-- keys of its launch ports and of its landing ports (mill × 8 + port). -/
  launches : List Nat := []
  lands : List Nat := []
  /-- pins of its step-synchronous input and output ports (R427). -/
  pinsIn : List Nat := []
  pinsOut : List Nat := []
  /-- landing ports, and step-synchronous pin output ports (4096 + pin), still to accept the latest fire's word. -/
  awaiting : List Nat := []
  /-- partition cycle at which the last landing port accepted, and whether the fire's slack has been counted (R123). -/
  acceptCycle : Option Nat := none
  counted : Bool := true
  /-- stage a commit has released the region to: 3 when no release of its own is under way (R257). -/
  stage : Nat := 3
  deriving DecidableEq, Repr

/-- A cell's configuration and its four read-back bits (R110, R111, R132). Inputs name nets of the quadrant (R131);
`used` bit i: input i takes part. -/
structure Cell where
  region : Nat := 0
  table : BitVec 8 := 0
  used : BitVec 3 := 0
  inA : Nat := 0
  inB : Nat := 0
  inC : Nat := 0
  /-- 0 cell, 1 member of a MUX4 quad, 2 member of a MUX16 cluster. -/
  mux : Nat := 0
  rail0 : Bool := false
  rail1 : Bool := false
  celem : Bool := false
  ack : Bool := false
  /-- the level a probe shows: rail 1, held through the spacer (R131). -/
  level : Bool := false
  deriving DecidableEq, Repr

/-- A pin port, keyed by physical quadrant × 160 + its target I/O pin (R127, R427): in or out, step-synchronous, region. An
input's sampled bit and the phase of its net; an output's net, acknowledge, level and whether it has driven since the outputs
stage (R428), the value it holds until its update step, and whether it discards a late wave. `unserved`: R428. -/
structure PinPort where
  used : Bool := false
  out : Bool := false
  sync : Bool := false
  region : Nat := 0
  bit : Bool := false
  phase : Nat := 0
  net : Nat := 0
  ack : Bool := false
  drive : Bool := false
  live : Bool := false
  held : Option Bool := none
  owes : Bool := false
  unserved : Bool := false
  deriving DecidableEq, Repr

/-- A flume memory block (R125): mode 0 unused, 1 FIFO, 2 RAM, 3 delay line. `insW`, `insA`, `insD`: nets of the write bit, the
address and the data of its input, bit 0 first. `last`: the word last sent, on the lowest `sent` bits of its output port, whose
nets are in `phase` 0 free, 1 data, 2 spacer; `ack`: it acknowledges its input. -/
structure MemBlock where
  mode : Nat := 0
  width : Nat := 1
  region : Nat := 0
  wp : Nat := 0
  rp : Nat := 0
  occ : Nat := 0
  delayN : Nat := 0
  data : SMap Row := []
  ue : SMap Bool := []
  insW : List Nat := []
  insA : List Nat := []
  insD : List Nat := []
  last : Row := 0
  sent : Nat := 0
  phase : Nat := 0
  ack : Bool := false
  deriving DecidableEq, Repr

/-- The flume. Launch and landing bits: key mill, one bit a lane. `hist`: slack histogram, key region × 16 + bin. -/
structure FlumeSt where
  launchBits : SMap Row := []
  landBits : SMap Row := []
  launch : SMap LaunchPort := []
  land : SMap LandPort := []
  regions : SMap Region := []
  cells : SMap Cell := []
  mems : SMap MemBlock := []
  hist : SMap Nat := []
  pins : SMap PinPort := []
  deriving DecidableEq, Repr

/-! ## Design memory (chapter 06) -/

/-- A request waiting in a far port's request queue. `marked`: its target was isolated when it was issued (R159). -/
structure FpReq where
  write : Bool
  addr : Nat
  len : Nat
  tail : Nat
  urg : Nat
  stamp : Nat
  slot : Nat
  index : Nat := 0
  data : List Byte := []
  marked : Bool := false
  deriving DecidableEq, Repr

/-- A read slot of a far port (R146, R157, R158): the read's stone, BP and step, its stamp and issue cycle, and its data. -/
structure RSlot where
  busy : Bool := false
  done : Bool := false
  owed : Bool := false
  ok : Bool := false
  stone : Nat := 0
  bp : Nat := 0
  step : Nat := 0
  stamp : Nat := 0
  cycle : Nat := 0
  /-- byte offset of the entry in the first unit of the response. -/
  offset : Nat := 0
  index : Nat := 0
  /-- the target of the request, to free the slot when the target is isolated. -/
  target : Nat := 0
  data : BitVec 512 := 0
  deriving DecidableEq, Repr

/-- A far port's queues (R143 to R158); its binding stands in the MPORT registers of the port. -/
structure FarPort where
  reqs : List FpReq := []
  slots : SMap RSlot := []
  prefetch : List FpReq := []
  deriving DecidableEq, Repr

/-- A mill-memory read waiting for its WAIT (R139). -/
structure MmResult where
  index : Nat
  mill : Nat
  stone : Nat
  bp : Nat
  step : Nat
  /-- entry width of the descriptor, 512 for a read out of range. -/
  width : Nat
  data : BitVec 512
  ue : Bool
  row : Nat
  deriving DecidableEq, Repr

/-- A run-ahead entry of a channel (R154). -/
structure RunAhead where
  port : Nat
  line : Nat
  stamp : Nat
  data : List Byte
  deriving DecidableEq, Repr

/-- A memory descriptor of a mill (R136). -/
structure Desc where
  valid : Bool := false
  base : Nat := 0
  rows : Nat := 0
  width : Nat := 1
  deriving DecidableEq, Repr

/-- A write of mill memory in the turn in progress (R139): bits [lsb + width − 1 : lsb] of a row, seen by a read at step
`vis` or later. -/
structure MmWrite where
  mill : Nat
  row : Nat
  lsb : Nat
  width : Nat
  vis : Nat
  val : BitVec 512
  deriving DecidableEq, Repr

/-- Mill memories and far ports. `mem`: rows of 512 bits, key mill × 16384 + row; `ue`: uncorrectable 64-bit words, key
row key × 8 + word, by 2 + the step of the turn in progress at which the word was found so, 1 when that was earlier. -/
structure DesignMem where
  mem : SMap (BitVec 512) := []
  ue : SMap Nat := []
  /-- descriptors, key mill × 16 + number. -/
  descs : SMap Desc := []
  /-- this turn's design writes, newest first. -/
  writes : List MmWrite := []
  results : List MmResult := []
  ports : SMap FarPort := []
  deriving DecidableEq, Repr

/-! ## DRAM (chapter 09) -/

/-- A request that waits in a channel controller: its packet, the cycle it arrived in, its admission cycle (R152), for an admitted
read the data it will return, for a write the lines that the read of its read-modify-write will find uncorrectable (R457), whether a
run-ahead entry serves it (R154), and whether it waits for the channel to leave self-refresh (R217). -/
structure DramReq where
  pk : Pkt
  arrival : Nat := 0
  admitAt : Nat := 0
  data : List Byte := []
  ue : List Nat := []
  ahead : Bool := false
  held : Bool := false
  deriving DecidableEq, Repr

/-- A write in a subchannel's write queue (R212): its line, the bytes of it that are written, the urgency it came with, and whether
the read of its read-modify-write finds the line uncorrectable (R457). -/
structure QWrite where
  line : Nat
  mask : BitVec 64
  urg : Nat := 0
  ue : Bool := false
  deriving DecidableEq, Repr

/-- A channel controller beside its registers. `waiting`: Interleaved requests before their admission (R152); `reads`: admitted
reads, oldest first; `writes`: the write queues, oldest first, whose data every read already sees (R212); `rows`: the open row + 1
of each bank (R214); `ahead`: run-ahead entries, oldest first (R154); `postponed`, `doubled`: by physical rank (R216, R215);
`powerDown`: by logical rank (R217); `hot`: DRAM_HOT has been raised (R221); `rated`: slowest module's rated speed in MT/s. -/
structure Channel where
  waiting : List DramReq := []
  reads : List DramReq := []
  writes : List QWrite := []
  rows : SMap Nat := []
  ahead : List RunAhead := []
  postponed : SMap Nat := []
  powerDown : SMap Bool := []
  doubled : SMap Bool := []
  hot : Bool := false
  rated : Nat := 0
  deriving DecidableEq, Repr

/-- DRAM. `mem`: bytes, key channel × 2^38 + channel address; `ue`: uncorrectable lines, key channel × 2^32 + line. -/
structure DramSt where
  mem : SMap Byte := []
  ue : SMap Bool := []
  chans : SMap Channel := []
  deriving DecidableEq, Repr

/-! ## Spokes (chapter 08) -/

/-- What a lane has seen since its block boundary was last set (R182): training blocks in a row, plain and inverted. -/
structure LaneSt where
  boundary : Nat := 0
  plain : Nat := 0
  inverted : Nat := 0
  /-- the last 31 bits of the PRBS31 sequence, newest in bit 0, once the checker has taken it (R180). -/
  prbs : Option Nat := none
  deriving DecidableEq, Repr

/-- A spoke frame (R185). Payload: for each cycle, channels 0 and 1; records: 24 bits each; crc: its check as it was sent or received. -/
structure Frame where
  kind : Nat
  stamp : Nat
  payload : List (Unit128 × Unit128) := []
  records : List Nat := []
  crc : Nat := 0
  deriving DecidableEq, Repr

/-- A spoke beside its registers. `peerInfo`: info words 0, 1, 2 as last received (R181); `rxNext`, `txNext`: first cycle of the next
frame to be received and sent (R187); `measuring`: largest M of the measurement in progress; `lowSent`: SPOKE_EYE_LOW has been raised and
the eye has not recovered; `freezes`: how often eq_freeze has been set (R179). -/
structure SpokeSt where
  lanes : SMap LaneSt := []
  peerInfo : SMap (Option Nat) := []
  rxNext : Nat := 0
  txNext : Nat := 0
  measuring : Option Nat := none
  lowSent : Bool := false
  freezes : Nat := 0
  /-- frames the module has sent, newest first. -/
  sent : List Frame := []
  deriving DecidableEq, Repr

/-! ## Host rings and sluices (chapter 12) -/

/-- A ring beside its registers (R268, R269, R279, R281): number 0 to 12, or 16 + s for the ring of sluice s. `dev` and `host`
are the device's and the host's counts; `fetched`: descriptors fetched and not yet begun, oldest first; `running`: number and
descriptor of the command in progress; `held`: completions that wait for room, bytes 0 to 59; `told`: the host has been told
that the ring is unacknowledged. -/
structure Ring where
  dev : Nat := 0
  host : Nat := 0
  fetched : List (BitVec 512) := []
  /-- buffers the host has posted in the ring of a sluice it consumes (R292). -/
  posts : Nat := 0
  running : Option (Nat × BitVec 512) := none
  held : List (List Byte) := []
  told : Bool := false
  deriving DecidableEq, Repr

/-- A posted write into host memory. -/
structure HostWrite where
  addr : Nat
  data : List Byte
  deriving DecidableEq, Repr

/-- A host window (R272): host address, size in 4 KiB units, design writes allowed. -/
structure HostWin where
  haddr : Nat := 0
  size : Nat := 0
  write : Bool := false
  deriving DecidableEq, Repr

/-- A read of a host window by a far port that has not completed (R272): its request header. -/
structure HostRead where
  hdr : Unit128
  addr : Nat
  deriving DecidableEq, Repr

/-- The host interface. `writes`, `msgs`: posted writes and MSI-X messages, newest first; `poll`: device counts by ring as they
stood when the poll in flight was issued (R280); `serial`: number of the next ring command; `msix`, `fmask`: MSI-X enable and
function mask of the configuration space; `table`, `pba`: MSI-X table and pending bits, by dword. -/
structure HostSt where
  rings : SMap Ring := []
  writes : List HostWrite := []
  msgs : List Nat := []
  poll : Option (List (Nat × Nat)) := none
  serial : Nat := 0
  msix : Bool := false
  fmask : Bool := false
  table : SMap Word := []
  pba : SMap Word := []
  reads : List HostRead := []
  /-- a BAR4 access not answered OK has been raised since PCIE_BARDENY was last cleared (R267). -/
  barRaised : Bool := false
  /-- scope of the session that set PCIE_BAR4CTL.en, as a partition mask and the shell bit (R267). -/
  bar4Scope : Nat := 0
  /-- BAR4 accesses whose response has not come: tag, aperture offset, channel, channel address, and bytes asked for. -/
  barReqs : List (Nat × Nat × Nat × Nat × Nat) := []
  barTag : Nat := 0
  /-- bytes the last read of BAR2 or BAR4 returned to the host. -/
  readBytes : List Byte := []
  deriving DecidableEq, Repr

/-- An item of a sluice (R284 to R289): priority, length, the bytes arrived, whether it is a gap marker and its drop count, TB0
at admission, order of admission, and whether the rest is dropped as it arrives. -/
structure SlItem where
  prio : Nat
  len : Nat
  data : List Byte := []
  gap : Bool := false
  drops : Nat := 0
  tb0 : Nat := 0
  order : Nat := 0
  deriving DecidableEq, Repr

/-- A host payload being fetched (R292): the order of its item, if it was admitted, and the bytes still to come. -/
structure HostIn where
  order : Option Nat
  left : Nat
  deriving DecidableEq, Repr

/-- A sluice beside its registers: filling and draining bank in order of admission, the item the consumer has begun and how far,
orders of items whose remainder is discarded as it arrives, reads of far ports that wait (R288), writes of far ports that have
arrived and are not yet admitted, whether notify is owed (R314), the host payload in transfer, and whether the consumer's
buffer has been started. -/
structure SluiceSt where
  fill : List SlItem := []
  drain : List SlItem := []
  cur : Option (SlItem × Nat) := none
  discard : List Nat := []
  waits : List Unit128 := []
  arrive : List Pkt := []
  next : Nat := 0
  notify : Bool := false
  hostIn : Option HostIn := none
  deriving DecidableEq, Repr

/-! ## Hopper, scheduler and millers (chapter 13) -/

/-- The hopper. `mem`: bytes by hopper offset; `ue`: uncorrectable 64-bit words, by offset ÷ 8; `to`: handover in progress of a
bank: new owner and scrub (R316). -/
structure HopSt where
  mem : SMap Byte := []
  ue : SMap Bool := []
  heir : SMap (Option (Nat × Bool)) := []
  deriving DecidableEq, Repr

/-- A work item (R303): the four words of its descriptor, and its sequence number. -/
structure WItem where
  w0 : BitVec 64
  w1 : BitVec 64
  w2 : BitVec 64
  w3 : BitVec 64
  seq : Nat := 0
  deriving DecidableEq, Repr

/-- An item of the ready pool, and the core in whose prefetch slot it sits (R310). -/
structure ReadyItem where
  item : WItem
  held : Option Nat := none
  deriving DecidableEq, Repr

/-- An item of the delay pool: its list and due tick (R307). -/
structure DelayItem where
  item : WItem
  list : Nat
  due : Nat
  deriving DecidableEq, Repr

/-- A core as the scheduler sees it: the item dispatched and not yet taken, the running item and those it suspends, newest
first, the item the mwi CSRs show, and whether the watchdog has expired once since it was restarted (R309, R312). -/
structure SchedCore where
  waiting : Option WItem := none
  stack : List WItem := []
  shown : Option WItem := none
  expired : Bool := false
  deriving DecidableEq, Repr

/-- The scheduler. `ready`: the ready pool in order of arrival; `delayed`: each list in due order; `port`: words written to the
enqueue port (0 to 3), and SEL and BUF of the sluice port (4, 5), key core × 8 + word; `count`: enqueues accepted; `ticks`: µs of
TB0 counted (R308). -/
structure SchedSt where
  ready : List ReadyItem := []
  delayed : List DelayItem := []
  cores : SMap SchedCore := []
  port : SMap (BitVec 64) := []
  count : Nat := 0
  ticks : Nat := 0
  deriving DecidableEq, Repr

/-- A miller core (R296 to R302). `x`: integer registers; `csr`: control and status registers by number, an unlisted one at its
value at reset; `resv`: the granule reserved (R299); `icache`, `dcache`: resident lines by address ÷ 64; `halted`, `stepping`:
debug halt, and one instruction to execute before the next (R345, R346). -/
structure MillerSt where
  pc : BitVec 64 := 0
  x : SMap (BitVec 64) := []
  machine : Bool := true
  csr : SMap (BitVec 64) := []
  resv : Option Nat := none
  wfi : Bool := false
  icache : SMap (Option (BitVec 512)) := []
  dcache : SMap (Option (BitVec 512)) := []
  msip : Bool := false
  mtimecmp : BitVec 64 := 0
  halted : Bool := false
  stepping : Bool := false
  /-- a read of the sluice port's GET waits for a piece (R313). -/
  getWait : Bool := false
  /-- pc of the latest instruction retired (R348). -/
  lastPc : BitVec 64 := 0
  /-- an instruction is executing: false in the state after a command. -/
  busy : Bool := false
  deriving DecidableEq, Repr

/-! ## Time bases (chapter 16) -/

/-- An entry of a PTP timestamp queue (R393): the stamp in 2^-32 ns, and the values TS_ID and TS_SRC show. -/
structure PtpStamp where
  at_ : Nat
  id : BitVec 32
  clockId : BitVec 64
  port : BitVec 16
  deriving DecidableEq, Repr

/-! ## Sessions (chapter 14) -/

/-- A session port beside its AUTH registers (R328, R329): the challenge drawn and not yet answered, the level and scope asked for,
the response words written so far, the lockout in force in seconds, and BDCTRL's owner. -/
structure AuthPort where
  chal : Option (BitVec 256) := none
  level : Nat := 0
  scope : Nat := 0
  resp : SMap Word := []
  lock : Nat := 0
  deriving DecidableEq, Repr

/-- The debugger's state: the ports; holding registers of _HI reads, by address, + 2^28 for a debugger (R81, R332); odd ranges
of a miller that the range below has armed, key core × 16 + range (R347). -/
structure DbgSt where
  ports : SMap AuthPort := []
  hold : SMap (Option Word) := []
  rangeHit : SMap Bool := []
  deriving DecidableEq, Repr

/-! ## Loading (chapter 11) -/

/-- A command the loader serves or queues (R247): 1 LOAD, 2 STAGE, 3 COMMIT; its partition; the staging channel, address and
length; the binding value named; the ring command that waits for it; the pass (0 queued, 1 header, 2 verify, 3 write, 4
emptying, 5 release) and segments done in it; whether it is to be abandoned, and whether it has locked its staging area; the keys so far, the plaintext authenticated so
far and the frames of the check record (R249). -/
structure LoadJob where
  cmd : Nat
  part : Nat
  chan : Nat := 0
  addr : Nat := 0
  len : Nat := 0
  m : Option Nat := none
  waiter : Option Waiter := none
  pass : Nat := 0
  seg : Nat := 0
  abandon : Bool := false
  locked : Bool := false
  /-- module count of the authenticated header (R253). -/
  modules : Nat := 0
  /-- physical quadrants whose regions the commit releases, and these regions (R257). -/
  regions : List Nat := []
  key0 : BitVec 256 := 0
  key : BitVec 256 := 0
  plain : List Byte := []
  frames : List (Nat × List Byte) := []
  deriving DecidableEq, Repr

/-- A staging area the loader has locked (R248). -/
structure StageLock where
  part : Nat
  chan : Nat
  addr : Nat
  len : Nat
  deriving DecidableEq, Repr

/-- A verified partial image (R256): where it is staged, its header and frames. -/
structure Staged where
  chan : Nat
  addr : Nat
  len : Nat
  frames : List (Nat × List Byte)
  hdr : List Byte
  deriving DecidableEq, Repr

/-- The loader. `record`: frames of the loaded image of each partition (R256); `staged`: its staged partial; `unload`: ring
commands that wait for an UNLOAD, by partition; `order`: the order in which shell streams were tried. -/
structure LoaderSt where
  active : Option LoadJob := none
  queue : List LoadJob := []
  locks : List StageLock := []
  record : SMap (List (Nat × List Byte)) := []
  /-- header bytes of the loaded image of each partition (R256). -/
  hdrs : SMap (List Byte) := []
  staged : SMap (Option Staged) := []
  /-- UNLOAD commands that wait for their partition to be empty: partition and, for a ring command, its waiter. -/
  unloads : List (Nat × Option Waiter) := []
  /-- partitions whose emptying is under way. -/
  emptying : List Nat := []
  /-- release in progress: partition, last stage, and for a commit the regions released. -/
  release : SMap (Option Nat) := []
  deriving DecidableEq, Repr

/-- Boot (R259): the module pulls XRETRY_N low. -/
structure BootSt where
  xretry : Bool := false
  deriving DecidableEq, Repr

/-- Key RAM (R263): eight slots; none is empty. -/
structure KeySt where
  slots : SMap (Option (BitVec 256)) := []
  deriving DecidableEq, Repr

/-- A quadrant's flume configuration as its frames give it (R113, R125, R127, R242, R427): what is configured, and no state. Regions,
cells, blocks and ports name the region by its index in the quadrant, mills by their number in it; an input names the drivers that
the switch boxes connect to it, as nets (R131); `frame` is the address of the frame that holds the item. -/
structure FlmPort where
  land : Bool
  mill : Nat
  port : Nat
  mode : Nat
  region : Nat
  bits : Row
  keyBit : Nat
  nets : List (Nat × List Nat)
  frame : Nat
  deriving DecidableEq, Repr, Inhabited

structure FlmRegion where
  idx : Nat
  launched : Bool
  budget : Nat
  frame : Nat
  deriving DecidableEq, Repr, Inhabited

structure FlmCell where
  idx : Nat
  region : Nat
  table : BitVec 8
  used : BitVec 3
  mux : Nat
  inA : List Nat
  inB : List Nat
  inC : List Nat
  frame : Nat
  deriving DecidableEq, Repr, Inhabited

/-- `fill`: entries a FIFO starts with; `data`: initial contents by entry. -/
structure FlmMem where
  block : Nat
  region : Nat
  mode : Nat
  width : Nat
  delayN : Nat
  fill : Nat
  data : List (Nat × Row)
  insW : List (List Nat)
  insA : List (List Nat)
  insD : List (List Nat)
  frame : Nat
  deriving DecidableEq, Repr, Inhabited

structure FlmPin where
  pin : Nat
  out : Bool
  sync : Bool
  region : Nat
  net : List Nat
  frame : Nat
  deriving DecidableEq, Repr, Inhabited

structure FlmImg where
  regions : List FlmRegion
  ports : List FlmPort
  cells : List FlmCell
  mems : List FlmMem
  pins : List FlmPin
  deriving DecidableEq, Repr, Inhabited

/-! ## Capture (chapter 15) -/

/-- What waits to enter a partition's stream, in order (R355 to R362): kind 1 a turn, 2 the end of an interval, 3 a mark, 6 a stop.
`missing`: mills whose words of the turn have not arrived; `words`: by mill × 16 + stone; `idle`: a mark made while the partition
did not run. -/
structure CapItem where
  kind : Nat
  turn : Nat
  valid : Bool := true
  mills : List Nat := []
  missing : List Nat := []
  words : SMap Row := []
  incomplete : Bool := false
  sources : Nat := 0
  step : Nat := 0
  units : Nat := 0
  idle : Bool := false
  reason : Nat := 0
  deriving DecidableEq, Repr

/-- A record that waits in the staging buffer (R367): its type, turn, the turns it stands for and its bytes. -/
structure CapStaged where
  kind : Nat
  turn : Nat
  turns : Nat
  bytes : List Byte
  deriving DecidableEq, Repr

/-- Capture of one partition. `marks`, `step`, `units`: sources, and step and units of watch firings, of the turn in progress;
`nextMarks`: sources that belong to the turn after it (R358); `auto`: turns since the last mark; `post`: the turn at whose end the post-trigger action takes effect; the interval in progress
(first turn, turns, valid turns, whether one is incomplete, minimum and maximum by group); `seq`: number of the next record; `written`, `copied`: bytes of the
stream written to the ring and copied to the host; `recs`: offset, type and turn of records not yet copied; `gap`: first turn
dropped, turns dropped, marks lost; `chunks`: descriptor count and length of chunks the host has not freed. -/
structure CapPart where
  marks : Nat := 0
  nextMarks : Nat := 0
  step : Nat := 0
  units : Nat := 0
  auto : Nat := 0
  post : Option Nat := none
  items : List CapItem := []
  iFirst : Nat := 0
  iTurns : Nat := 0
  iValid : Nat := 0
  iInc : Bool := false
  iMin : SMap Int := []
  iMax : SMap Int := []
  seq : Nat := 0
  written : Nat := 0
  copied : Nat := 0
  recs : List (Nat × Nat × Nat) := []
  staged : List CapStaged := []
  gap : Option (Nat × Nat × Nat) := none
  chunks : List (Nat × Nat) := []
  deriving DecidableEq, Repr

/-- The acquisition engine. -/
structure AcqSt where
  parts : SMap CapPart := []
  deriving DecidableEq, Repr

end Sys2Proof.Machine
end

