-- ==== Sys2Proof/Syntax.lean ====
section
/-!
DEFINITION. Syntax.lean: the commands the block takes, one constructor for each row of spec/opcode_table.json, with the
row's operands. What the device's surroundings decide (a reading, a received word, an error seen) is an operand; what the
device decides is not.
-/
namespace Sys2Proof

open Sys2Proof.Machine

/-- What the SECDED decoders of a stone see while a command runs (R57): corrected errors, group members whose instruction
word has become uncorrectable, and operand rows (12-bit row numbers) that have. -/
structure StoreEcc where
  ce : Nat := 0
  ueFetch : List Nat := []
  ueRows : List Nat := []
  deriving DecidableEq, Repr

/-- What a router's SECDED decoders see on the scheduled word a NOP imports (R104): corrected errors, and for an
uncorrectable word the bit as received and the input it came by. -/
structure LinkEcc where
  ce : Nat := 0
  ue : Option (Bool × Nat × Nat × Nat) := none
  deriving DecidableEq, Repr

/-- Link errors on an arriving packet (R104): none, corrected ones, an uncorrectable header on a channel, or uncorrectable
data units. -/
inductive HdrEcc where
  | clean
  | corrected (n : Nat)
  | badHeader (channel : Nat)
  | badData (units : List Nat) (channel : Nat)
  deriving DecidableEq, Repr

/-- A watched target of the race (R102): the mill (dport 0 to 3), or the X endpoint at the mill's router. -/
structure RaceTarget where
  xep : Bool
  mill : Mill
  deriving DecidableEq, Repr

/-- What a SECDED decoder sees on one word. -/
inductive WordEcc where
  | clean
  | corrected
  | uncorrectable
  deriving DecidableEq, Repr

/-- Who makes a register access: the host, a debug session's port, shell firmware (machine mode) or a handler (user mode)
on a miller. -/
inductive Requester where
  | host
  | jtag
  | mgmt
  | mbox
  | shell (core : Core)
  | handler (core : Core)
  deriving DecidableEq, Repr

/-- What the decoders of a wide memory see on one access (R141, R219): corrected errors, and what has become uncorrectable: 64-bit words
of a row of mill memory, or lines of DRAM by channel address ÷ 64. -/
structure RowEcc where
  ce : Nat := 0
  ue : List Nat := []
  deriving DecidableEq, Repr

/-- What the SPD of a module says (R202, R203): an RDIMM or 3DS RDIMM; two 40-bit subchannels with side-band ECC; x4 devices; 16 or 32 Gb
(none: another density); physical ranks; stack height 1, 2 or 4; rated speed in MT/s. -/
structure Spd where
  registered : Bool
  sideEcc : Bool
  x4 : Bool
  density : Option Bool
  ranks : Nat
  height : Nat
  rated : Nat
  deriving DecidableEq, Repr

/-- What training found for a nibble lane of a rank (R206, R223); `up`: the write delay follows a rising oscillator count
upwards (R225). -/
structure LaneTrain where
  rank : Fin 16
  lane : Fin 20
  left : BitVec 8
  right : BitVec 8
  centre : BitVec 8
  delay : BitVec 8
  wrVref : BitVec 8
  rdVref : BitVec 8
  osc : BitVec 16
  up : Bool
  deriving DecidableEq, Repr


/-- What one interval measured on a nibble lane of a rank (R225, R226): read bursts, margins before and after the centre,
vertical centre in 0.5 % of VDDQ, the oscillator count (none: its run was abandoned), and the line of a probe read that met
an uncorrectable error. -/
structure LaneMeas where
  bursts : Nat
  left : BitVec 8
  right : BitVec 8
  vertical : BitVec 8
  osc : Option (BitVec 16)
  probeUe : Option Nat
  deriving DecidableEq, Repr

/-- What an AVSBus rail reports: mV and A; none where it gave no answer (R237). -/
abbrev RailRead := Option (BitVec 16 × BitVec 16)


/-- Who gives a loader command or a run request: a command ring, or shell firmware by a write of CFG_Pp_STATE.cmd (R247). -/
inductive LoadSrc where
  | ring (i : Fin 4)
  | shell (p : Part)
  deriving DecidableEq, Repr

/-- An error a PCIe read completes with (R282, R293): the kind as PCIE_ERR codes it, and the first dwords of the header. -/
structure PcieErr where
  kind : Fin 8
  hdr0 : Word
  hdr1 : Word
  deriving DecidableEq, Repr

/-- What surrounds a register access: the value a register shows that measures something; what decoders see on a memory access it makes,
and those of a DRAM channel on a miller's own access;
whether an insertion queue it enqueues into is full; the host window table as the device reads it; the step a vote arrives at; the partition cycle each
partition stands at. -/
structure RegEnv where
  sampled : Word := 0
  ecc : RowEcc := {}
  dram : RowEcc := {}
  full : Bool := false
  wins : List HostWin := []
  step : Step := 0
  cycles : List Nat := []
  deriving DecidableEq, Repr

/-- What surrounds one miller instruction (R296 to R319): cycles it took; lines evicted from the caches before it, by address ÷ 64
(true: I-cache), and lines whose parity failed; what the hopper's decoders see on its accesses, words by offset ÷ 8; the cycles each of
its hopper accesses loses at a bank (R318); what its register accesses meet. -/
structure MilObs where
  cycles : Nat := 1
  evict : List (Bool × Nat) := []
  parity : List (Bool × Nat) := []
  hop : RowEcc := {}
  stall : List (Nat × Nat) := []
  env : RegEnv := {}
  deriving DecidableEq, Repr

/-- A PTP event message at its timestamp point (R392, R393): 0 Sync, 1 Delay_Req, 2 Pdelay_Req, 3 Pdelay_Resp; domain; sequence
number; source clock identity and port; transport 0 Annex C, 1 Annex D, 2 Annex E. -/
structure PtpMsg where
  mtype : Fin 4
  domain : BitVec 8
  seq : BitVec 16
  clockId : BitVec 64
  port : BitVec 16
  transport : Fin 3
  deriving DecidableEq, Repr

/-- What the fuses of a module give (R411, R453): GLB_PART, GLB_ROMVER, GLB_VTARGET, GLB_CAPS, GLB_SUBSYS, the identifier, and the
generation of the fuse key where there is one (R263). -/
structure Fuses where
  part : Word
  romver : Word
  vtarget : Word
  caps : Word
  subsys : Word
  uid : BitVec 128
  fuseKey : Option (BitVec 8) := none
  deriving DecidableEq, Repr

/-- A command. -/
inductive Instr where
  /-- NOP (R35): A BP executes NOP, importing one bit from the crossbar or the arrival word into its own step-row lane, or doing nothing. -/
  | nop (m : Mill) (st : Stone) (b : Bp) (n : Step) (e : StoreEcc) (lk : LinkEcc)
  /-- EVAL (R33): A BP evaluates a 4-input truth table and writes the result into its own lane of step row n. -/
  | eval (m : Mill) (st : Stone) (b : Bp) (n : Step) (e : StoreEcc)
  /-- EVAL3_ST (R40): A BP evaluates a 3-input function and writes one bit of the shadow state bank. -/
  | eval3St (m : Mill) (st : Stone) (b : Bp) (n : Step) (e : StoreEcc)
  /-- FUSE2 (R42): An aligned BP pair evaluates a 5-input function and both members write the result. -/
  | fuse2 (m : Mill) (st : Stone) (k : Fin 32) (n : Step) (e : StoreEcc)
  /-- FUSE4 (R45): An aligned BP group of four evaluates a 6-input function or a 16:1 multiplexer and all members write the result. -/
  | fuse4 (m : Mill) (st : Stone) (k : Fin 16) (n : Step) (e : StoreEcc)
  /-- MRD (R47): A BP issues a design-memory read to mill memory or a far port. -/
  | mrd (m : Mill) (st : Stone) (b : Bp) (n : Step) (e : StoreEcc) (mm : RowEcc)
  /-- MWR (R47): A BP issues a design-memory write of 1 to 8 rows to mill memory or a far port. -/
  | mwr (m : Mill) (st : Stone) (b : Bp) (n : Step) (e : StoreEcc) (mm : RowEcc)
  /-- WAIT (R48): A BP consumes a read, writing its data into port rows and a status bit into its own lane. -/
  | wait (m : Mill) (st : Stone) (b : Bp) (n : Step) (e : StoreEcc)
  /-- LAUNCH (R50): A BP drives a mill launch bit with the value of operand A. -/
  | launch (m : Mill) (st : Stone) (b : Bp) (n : Step) (e : StoreEcc) (pads : List Nat)
  /-- LAND (R51): A BP copies a mill landing bit into a landing-row lane and its own lane. -/
  | land (m : Mill) (st : Stone) (b : Bp) (n : Step) (e : StoreEcc)
  /-- BREAK (R53): A BP evaluates a truth table and, when the result is 1 and BREAK is enabled, records the break and requests a halt. -/
  | break_ (m : Mill) (st : Stone) (b : Bp) (n : Step) (e : StoreEcc)
  /-- TURN_END (R22): After step D-1 the partition closes the shadow bank, advances TB1, closes capture and evaluates halt conditions. -/
  | turnEnd (p : Part)
  /-- BRAKE_CHECK (R17): At a check point K steps before a consuming step the result is checked and a round-0 vote is raised if not ready. -/
  | brakeCheck (m : Mill) (st : Stone) (b : Bp) (n : Step) (next : Bool)
  /-- BRAKE_RECHECK (R71): Every 32 partition cycles a still-unready result is re-checked and votes its round if it fails. -/
  | brakeRecheck (m : Mill) (st : Stone) (b : Bp) (n : Step)
  /-- VOTE_TAKES_EFFECT (R72): K partition cycles after its raise a vote round takes effect and a 32-cycle quantum begins before the hold step. -/
  | voteTakesEffect (p : Part) (hold : Step) (round : Nat)
  /-- BRAKE_QUANTUM_END (R72): A 32-cycle brake quantum ends and the next quantum or the hold step follows. -/
  | brakeQuantumEnd (p : Part)
  /-- PART_VOTE (R71): A write of PART_VOTE raises n SOFTWARE rounds for hold step s + K. -/
  | partVote (p : Part) (quanta : BitVec 8) (n : Step)
  /-- POWER_VOTE (R233): The governor's hold credit reaches 32 cycles and it votes one POWER round. -/
  | powerVote (p : Part) (n : Step)
  /-- CAPTURE_CHECK (R366): Every 32 partition cycles in lossless capture the ring and mill buffers are checked and a CAPTURE vote raised on failure. -/
  | captureCheck (p : Part) (n : Step)
  /-- PART_QMASK_WRITE (R79): A write of PART_QMASK.qmask sets the partition's quadrants or is refused. -/
  | partQmaskWrite (p : Part) (value : BitVec 4)
  /-- TURN_CTRL_CLEAR (R82): A write of TURN_CTRL.clear zeroes the turn counters at once or at the next turn end. -/
  | turnCtrlClear (p : Part)
  /-- PACE_CHANGE (R63): A write of CLK_PACE is checked and, if accepted, stops the step clocks and switches the divider. -/
  | paceChange (pace : BitVec 2)
  /-- PACE_SWITCH_DONE (R400): The step clocks restart at the new pace and the switch time is recorded. -/
  | paceSwitchDone (us : BitVec 16)
  /-- PACKET_HEADER_ARRIVAL (R96): A packet header arrives at a router input and is routed, checked and buffered. -/
  | packetHeaderArrival (router : Mill) (input : Fin 6) (pk : Pkt) (ecc : HdrEcc) (waited : Nat)
  /-- RD (R93): A read request packet reaches its target and is served. -/
  | rd (pk : Pkt) (cycle : Nat) (ecc : RowEcc) (waited : Nat)
  /-- WR (R93): A posted write request packet reaches its target and is written. -/
  | wr (pk : Pkt) (cycle : Nat) (ecc : RowEcc) (waited : Nat)
  /-- WRA (R93): An acknowledged write request packet reaches its target and is written and acknowledged. -/
  | wra (pk : Pkt) (cycle : Nat) (ecc : RowEcc) (waited : Nat)
  /-- RDR (R93): A read response packet reaches its initiator and completes the read. -/
  | rdr (pk : Pkt) (cycle : Nat) (lat : Nat) (waited : Nat)
  /-- ACK (R93): A write acknowledgement packet reaches its initiator. -/
  | ack (pk : Pkt) (lat : Nat) (waited : Nat)
  /-- MSG (R93): A posted message packet reaches its target. -/
  | msg (pk : Pkt) (waited : Nat)
  /-- URGENCY_AGEING (R99): A waiting header's count reaches 4 x step_u and its urgency rises by one. -/
  | urgencyAgeing (i : Nat)
  /-- DEAD_TARGET_TIMEOUT (R102): A target leaves a request unanswered or credit withheld for RACE_DEADTO and is isolated. -/
  | deadTargetTimeout (t : RaceTarget) (credit : Bool)
  /-- ISOLATE (R102): A write of RACE_DEADCTRL.isolate isolates the selected target now. -/
  | isolate (t : RaceTarget)
  /-- READMIT (R103): A write of RACE_DEADCTRL.readmit starts readmission of the selected target. -/
  | readmit (t : RaceTarget)
  /-- READMIT_QUIET_END (R103): After one quiet RACE_DEADTO period the target's bit clears and delivery resumes. -/
  | readmitQuietEnd (t : RaceTarget)
  /-- RACE_DEADCNT_CLEAR (R107): A write of RACE_DEADCTRL.cnt_clear zeroes RACE_DEADCNT and RACE_DROP. -/
  | raceDeadcntClear
  /-- RACE_ECC_CE_CLEAR (R107): A write of RACE_ECC.ce_clear zeroes the corrected-error count. -/
  | raceEccCeClear
  /-- REQUEST_TIMEOUT (R105): A non-far-port initiator's request unanswered for twice RACE_DEADTO completes with TIMEOUT. -/
  | requestTimeout (init : BitVec 10) (tag : BitVec 12)
  /-- STAT_WINDOW_END (R106): At each statistics window end the slot counts are copied into the STAT registers. -/
  | statWindowEnd
  /-- RACE_STCTRL_CLEAR (R106): A write of RACE_STCTRL.clear zeroes the statistics and starts a new window. -/
  | raceStctrlClear
  /-- MILL_ECC_CE_CLEAR (R58): A write of MILL_ECC.ce_clear zeroes the mill's correctable-error count. -/
  | millEccCeClear (m : Mill)
  /-- FLUME_HELD_WORD_SEND (R114): A launch port holding a captured word sends it once the region becomes idle. -/
  | flumeHeldWordSend (m : Mill) (port : Fin 8)
  /-- LEVEL_PORT_SEND (R115): A level-mode launch port sends its changed bits as a data wave when the region is idle. -/
  | levelPortSend (m : Mill) (port : Fin 8)
  /-- LANDING_WORD_ACCEPT (R116): A completed word at a landing port crosses into the step domain and is written into the landing register. -/
  | landingWordAccept (m : Mill) (port : Fin 8) (illegal : Row) (cycle : Nat)
  /-- FLUME_STALL_DRAIN (R124): A word complete for FLM_STALLTO without a step clock puts the landing port into drain. -/
  | flumeStallDrain (m : Mill) (port : Fin 8)
  /-- DRAIN_EXIT (R124): A draining port leaves drain after its step clock has run one full cycle. -/
  | drainExit (m : Mill) (port : Fin 8)
  /-- FLUME_CELL_WAVE (R110): A flume cell takes data or spacer on its used inputs, moves its output and handshakes. -/
  | flumeCellWave (q : Quad) (cell : Fin 196608) (illegal : BitVec 3)
  /-- FIFO_WRITE (R125): A write wave adds an entry to a FIFO-mode memory block. -/
  | fifoWrite (q : Quad) (block : Fin 512) (illegal : List Nat)
  /-- FIFO_READ (R125): A read wave removes the oldest entry of a FIFO-mode memory block. -/
  | fifoRead (q : Quad) (block : Fin 512) (ecc : WordEcc)
  /-- RAM_REQUEST (R125): A RAM-mode memory block performs one read or write access for a request word. -/
  | ramRequest (q : Quad) (block : Fin 512) (illegal : List Nat) (ecc : WordEcc)
  /-- DELAY_LINE_INPUT (R125): An input word to a delay-line block sends out its oldest entry. -/
  | delayLineInput (q : Quad) (block : Fin 512) (illegal : List Nat) (ecc : WordEcc)
  /-- PIN_INPUT_WAVE (R127): A pin input port sends a data wave of the pin level when its receiver is ready. -/
  | pinInputWave (q : Quad) (pin : Fin 160) (level : Option Bool)
  /-- PIN_OUTPUT_WAVE (R127): A pin output port drives the pin with a data wave's value and acknowledges. -/
  | pinOutputWave (q : Quad) (pin : Fin 160) (illegal : Bool) (cycle : Nat)
  /-- PARITY_SCAN (R133): The background scan checks configuration column parity of powered fabrics. -/
  | parityScan (q : Quad) (column : Fin 384) (good : Bool)
  /-- FLM_QUIESCE_WRITE (R132): A write of FLM_QUIESCE starts or releases quiescing of a quadrant's fabric. -/
  | flmQuiesceWrite (value : BitVec 4)
  /-- QUIESCE_COMPLETE (R132): Every wave in flight completes and FLM_STATUS.quiesced reads 1 for the quadrant. -/
  | quiesceComplete (q : Quad)
  /-- FLM_RBDATA_READ (R132): A read of FLM_RBDATA returns a read-back word and advances the index, or is refused. -/
  | flmRbdataRead (peek : Bool)
  /-- FLM_PROBE_ENABLE (R131): A write enabling a probe channel drives a pin with a net, or is refused. -/
  | flmProbeEnable (by_ : Requester) (c : Fin 64) (value : Word)
  /-- FLM_CNT_CLEAR (R135): A write of FLM_CTRL.cnt_clear zeroes FLM_DROPCNT. -/
  | flmCntClear
  /-- FLM_SLACK_CLEAR (R123): A write of FLM_SLACKSEL.clear zeroes every bin of the selected region. -/
  | flmSlackClear (region : Fin 2048)
  /-- FLM_ECC_CE_CLEAR (R135): A write of FLM_ECC.ce_clear zeroes the corrected memory-block error count. -/
  | flmEccCeClear
  /-- RELEASE_OUTPUTS (R254): At the outputs stage, owned pins drive their reset levels and flume stage 1 takes effect. -/
  | releaseOutputs (p : Part)
  /-- RELEASE_WRITE_ENABLES (R254): At the write-enable stage memory-block handshakes proceed. -/
  | releaseWriteEnables (p : Part)
  /-- RELEASE_DESIGN_RESETS (R254): At the design-reset stage cells leave reset and the partition is released. -/
  | releaseDesignResets (p : Part) (us : Word)
  /-- FARPORT_REQUEST_SEND (R146): A queued far-port request leaves its request queue on a free race channel. -/
  | farportRequestSend (m : Mill) (f : Fin 2)
  /-- PREFETCH_SEND (R154): A queued prefetch leaves on a channel no design request of its port can use. -/
  | prefetchSend (m : Mill) (f : Fin 2)
  /-- RUNAHEAD_EXPIRE (R154): A run-ahead entry unused for 4,096 partition cycles is discarded. -/
  | runaheadExpire (ch : Chan) (m : Mill) (f : Fin 2) (line : Nat)
  /-- INTERLEAVED_ADMISSION (R152): At cycle c + 64 an Interleaved request is admitted into its channel's queues with forwarding. -/
  | interleavedAdmission (ch : Chan)
  /-- HALT_DRAIN_END (R152): 64 step-clock cycles after a halt the controller's admission drain of the partition ends. -/
  | haltDrainEnd (p : Part)
  /-- FAR_TIMEOUT (R157): A far-port read's port time-out expires; it completes with an error, the turn is marked invalid and the partition halts. -/
  | farTimeout (m : Mill) (f : Fin 2) (slot : Fin 32)
  /-- MPORT_CNT_CLEAR (R162): A write of MPORT_CTRL.cnt_clear zeroes the prefetch, range and maxlat counters. -/
  | mportCntClear
  /-- SPD_READ_COMPLETE (R203): A channel controller finishes reading the SPD of its modules and fills DDRC_POP. -/
  | spdReadComplete (ch : Chan) (modules : List Spd)
  /-- DDRC_TRAIN (R206): A write of DDRC_CTRL.train starts DDR5 initialisation and training of the channel. -/
  | ddrcTrain (ch : Chan)
  /-- TRAINING_COMPLETE (R206): Channel training ends, entering state 4 or state 5. -/
  | trainingComplete (ch : Chan) (fail : Option (Fin 8 × Fin 16 × Fin 20)) (found : List LaneTrain) (ms : BitVec 16)
  /-- DDRC_OWN_WRITE (R209): A write of DDRC_OWN_LO or DDRC_OWN_HI changes slice owners or is refused. -/
  | ddrcOwnWrite (ch : Chan) (hi : Bool) (value : Word)
  /-- REFRESH_DUE (R216): A rank's refresh falls due and is issued, postponed or forced. -/
  | refreshDue (ch : Chan) (rank : Fin 16) (now : List Nat)
  /-- REFRESH_MAKEUP (R216): Postponed refreshes are made up back to back once no urgent request waits. -/
  | refreshMakeup (ch : Chan) (rank : Fin 16) (n : Nat) (now : List Nat)
  /-- POWER_DOWN_ENTRY (R217): A rank idle for DDRC_PD.idle x 10 ns enters power-down. -/
  | powerDownEntry (ch : Chan) (rank : Fin 16)
  /-- DRAM_READ_COMPLETE (R219): A DRAM burst read returns, corrected or flagged by ECC. -/
  | dramReadComplete (ch : Chan) (sub : Fin 2) (line : Nat) (ecc : WordEcc) (now closed : List Nat)
  /-- PATROL_SCRUB (R220): Patrol scrub reads a line, correcting or recording its errors. -/
  | patrolScrub (ch : Chan) (line : Nat) (ecc : WordEcc)
  /-- ALERT_N (R221): An ALERT_n makes the controller replay commands since the last good one. -/
  | alertN (ch : Chan) (replayed : Nat) (failed : Bool)
  /-- DDRC_CE_CLEAR (R222): A write of DDRC_CE.clear zeroes the channel's error and refresh counters. -/
  | ddrcCeClear (ch : Chan)
  /-- SPOKE_CTRL_WRITE (R183): A write of SPK_CTRL powers lanes, sets the transmit mode and role of a spoke. -/
  | spokeCtrlWrite (sp : Spoke) (value : Word)
  /-- TRAINING_BLOCK_RECEIVE (R182): A lane receives a training block, checking pattern, polarity and peer information. -/
  | trainingBlockReceive (sp : Spoke) (lane : Fin 8) (sync : BitVec 2) (block : BitVec 64) (skew : Nat)
  /-- LANE_SLIP (R182): A write of LANE_STAT.slip moves the lane's block boundary one unit interval later. -/
  | laneSlip (sp : Spoke) (lane : Fin 8)
  /-- FOM_REFRESH (R180): Every 10 us a lane's eye figure of merit is re-estimated. -/
  | fomRefresh (sp : Spoke) (lane : Fin 8) (fom : BitVec 8)
  /-- SPOKE_LANE_DOWN (R196): A lane loses block lock, a spoke fault that launches HALT_N. -/
  | spokeLaneDown (sp : Spoke) (lane : Fin 8)
  /-- SPOKE_FRAME_SEND (R185): Every F partition cycles a spoke sends a frame of payload, vote records and CRC. -/
  | spokeFrameSend (sp : Spoke)
  /-- SPOKE_FRAME_RECEIVE (R187): A received frame is checked, its words buffered for slot s + L and its vote records applied. -/
  | spokeFrameReceive (sp : Spoke) (frame : Frame) (ready : Nat)
  /-- SPOKE_LATE_FRAME (R192): A frame not ready by its hop budget is a spoke fault. -/
  | spokeLateFrame (sp : Spoke)
  /-- SPK_LAT_CLEAR (R200): A write of SPK_LAT.clear resets min_slack and SPK_ERR.count. -/
  | spkLatClear (sp : Spoke)
  /-- SYSTEM_LINE_EDGE (R418): An edge on a shared system line is captured and passed or rejected by its glitch filter. -/
  | systemLineEdge (line : Fin 5) (level : Bool) (cycles : Nat)
  /-- SYNC_N_ACTED (R195): At capture + 64 a SYNC_N edge begins measurement and start checks of multi-module partitions. -/
  | syncNActed
  /-- MEASUREMENT_END (R195): At E + 2,048 measure frames end and each spoke's M is compared with its budget. -/
  | measurementEnd
  /-- SYNC_START (R195): At E + 4,096 with HALT_N high, partition cycle P_s begins on every module. -/
  | syncStart (high : Bool) (edge : Nat)
  /-- HALT_N_ACTED (R197): At capture + 64 a HALT_N edge halts multi-module partitions at turn end, as a fault if still low. -/
  | haltNActed (low : Bool) (edge : Nat)
  /-- HALT_PULSE_END (R198): After 32 REFCLK cycles a halt request pulse on HALT_N is released. -/
  | haltPulseEnd
  /-- CFG_DONE_RISE_ACTED (R254): At capture + 64 a CFG_DONE rise starts the staged release of LOADED multi-module partitions. -/
  | cfgDoneRiseActed
  /-- TRIG_IN_ACTED (R358): An acted TRIG_IN edge marks or drives a capture trigger. -/
  | trigInActed (edge : Nat)
  /-- TRIG_X_ACTED (R359): An acted TRIG_X edge is marked by every partition with src_x = 1. -/
  | trigXActed (edge : Nat)
  /-- TRIG_X_PULSE_END (R359): After x_width REFCLK cycles the module releases TRIG_X. -/
  | trigXPulseEnd
  /-- GOV_DRAM_INTERVAL (R225): Each interval the governor adjusts read centre, receiver Vref and write delay of every lane. -/
  | govDramInterval (ch : Chan) (rank : Fin 8) (lane : Fin 20) (m : LaneMeas)
  /-- GOV_LANE_INTERVAL (R228): Each interval the governor may try one step of a lane's linear equaliser code. -/
  | govLaneInterval (sp : Spoke) (lane : Fin 8) (tapEnd : Bool) (code : BitVec 8)
  /-- GOV_LANE_TRIAL_END (R228): After trial_ms the lane code step is kept or restored. -/
  | govLaneTrialEnd (sp : Spoke) (lane : Fin 8)
  /-- GOV_FLUME_WINDOW (R230): At a window end the governor raises, lowers or holds the quadrant's VFLUME target. -/
  | govFlumeWindow (q : Quad)
  /-- GOV_POWER_SAMPLE (R233): Every 100 us rail telemetry is summed and the hold fraction adjusted. -/
  | govPowerSample (rails : List RailRead) (cycles : List Nat)
  /-- GOV_FREEZE (R234): A write of GOV_CTRL.freeze stops calibration loops after adjustments in progress complete. -/
  | govFreeze (on : Bool)
  /-- GOV_VFLUME_WRITE (R234): A write of GOV_VFLUMEq.target while frozen commands the rail. -/
  | govVflumeWrite (q : Quad) (value : Word)
  /-- REGULATOR_TARGET_REACHED (R232): The AVSBus regulator reports a commanded target reached, ending a wait. -/
  | regulatorTargetReached (rail : Fin 5)
  /-- STATE_MISMATCH (R235): A commanded/observed mismatch lasting 1 ms sets GOV_SMMIS and raises the event. -/
  | stateMismatch (unit : Fin 44)
  /-- LOAD (R249): A LOAD command starts a full load of a design image into an EMPTY partition. -/
  | load (src : LoadSrc) (wins : List HostWin)
  /-- STAGE (R256): A STAGE command verifies a partial image against the loaded one. -/
  | stage (src : LoadSrc)
  /-- COMMIT (R257): A COMMIT command writes the staged partial into a halted partition. -/
  | commit (src : LoadSrc) (wins : List HostWin)
  /-- DISCARD (R247): A DISCARD command drops a staged partial or abandons a STAGE. -/
  | discard (src : LoadSrc)
  /-- UNLOAD (R252): An UNLOAD command abandons the partition's loader commands and returns it to EMPTY. -/
  | unload (src : LoadSrc)
  /-- LOADER_COMMAND_START (R247): The loader begins serving the next queued command and checks its staging placement. -/
  | loaderCommandStart (ecc : RowEcc) (us : Word)
  /-- LOAD_VERIFY_PASS_END (R249): The verify pass ends and checks 5 to 9 run on the check record. -/
  | loadVerifyPassEnd (us : Word)
  /-- LOAD_WRITE_PASS_END (R249): The write pass ends and the partition becomes LOADED or the commit takes effect. -/
  | loadWritePassEnd (us : Word)
  /-- EMPTY_RETURN_COMPLETE (R251): Refill of NOPs, slot tables, regions and bindings completes and the partition reads EMPTY. -/
  | emptyReturnComplete (p : Part)
  /-- HOLD_DONE_WRITE (R253): A write of CFG_CTRL.hold_done holds or releases CFG_DONE. -/
  | holdDoneWrite (hold : Bool)
  /-- XSPI_STREAM_END (R259): A flash stream ends and modules load it or request a retry. -/
  | xspiStreamEnd (stream : Fin 3) (image : List Byte) (ms : BitVec 16)
  /-- BOOT_HOPPER (R261): A write of CFG_CTRL.boot_hopper in recovery checks and starts the hopper image. -/
  | bootHopper (ms : BitVec 16)
  /-- KEY_WRITE (R263): A write of KEY_CTRL.write stores KEY_WDATA into the selected slot. -/
  | keyWrite (who : Requester) (sel : Fin 8)
  /-- KEY_ZEROISE (R263): A write of KEY_CTRL.zeroise erases the selected unlocked slot. -/
  | keyZeroise (who : Requester) (sel : Fin 8)
  /-- KEY_ZEROISE_ALL (R263): A write of KEY_CTRL.zeroise_all erases every slot and lock. -/
  | keyZeroiseAll (who : Requester)
  /-- KEY_RAM_LOSS (R263): Loss of both VBAT and main power erases key RAM. -/
  | keyRamLoss
  /-- DOORBELL_POLL (R271): The device issues a read of the doorbell block on schedule or after a posting. -/
  | doorbellPoll
  /-- POLL_RETURN (R280): A doorbell poll returns, updating counts, HRDY and MSI-X messages. -/
  | pollReturn (words : List Word) (sluices : List Word) (err : Option PcieErr)
  /-- DESCRIPTOR_FETCH_COMPLETE (R276): Fetched command descriptors arrive and are checked before execution. -/
  | descriptorFetchComplete (ring : Fin 4) (descs : List (BitVec 512)) (err : Option PcieErr)
  /-- NOP_COMMAND (R274): A NOP command completes at once. -/
  | nopCommand (ring : Fin 4)
  /-- RING_BAD_OPCODE (R274): A command with an unknown op completes with RING_BAD_OPCODE. -/
  | ringBadOpcode (ring : Fin 4)
  /-- COPY_IN (R275): A COPY_IN command moves host bytes into device DRAM. -/
  | copyIn (ring : Fin 4)
  /-- COPY_OUT (R275): A COPY_OUT command moves device DRAM bytes into host memory. -/
  | copyOut (ring : Fin 4)
  /-- COPY_COMPLETE (R275): A copy finishes or stops and its completion is posted. -/
  | copyComplete (ring : Fin 4) (data : List Byte) (err : Option PcieErr) (ecc : RowEcc)
  /-- RUN (R334): A RUN command starts a partition for n turns, or arms the count on a non-lead module. -/
  | run (ring : Fin 4)
  /-- HALT (R337): A HALT command halts a running partition at a turn boundary. -/
  | halt (ring : Fin 4)
  /-- STEP (R333): A STEP command runs one turn and halts. -/
  | step (ring : Fin 4)
  /-- PARTITION_START (R334): At C + 64 after a run request, once wakes and owed slots allow, a single-module partition starts. -/
  | partitionStart (p : Part) (edge : Nat)
  /-- SLUICE_DROP (R289): A SLUICE_DROP command drops the rest of the current item. -/
  | sluiceDrop (ring : Fin 4)
  /-- HOST_LINK_DOWN (R283): The PCIe link goes down, clearing RING_CTRL.en and raising the event. -/
  | hostLinkDown
  /-- BAR4_ACCESS (R267): A host BAR4 access becomes a race packet after a slice-owner check. -/
  | bar4Access (off : BitVec 36) (len : Fin 65) (data : Option (List Byte))
  /-- BAR2_ACCESS (R266): A host BAR2 access reaches a hopper bank if host-owned. -/
  | bar2Access (off : BitVec 24) (data : Option Word)
  /-- HOST_WINDOW_COMPLETION (R272): A PCIe completion for a host-window far-port read returns and completes the read. -/
  | hostWindowCompletion (i : Nat) (data : List Byte) (err : Option PcieErr)
  /-- RING_ENABLE (R282): A write of RING_Rn_CFG.en enables a ring with counts at 0. -/
  | ringEnable (n : Fin 13) (value : Word)
  /-- RING_ENGINE_ENABLE (R272): A write of RING_CTRL.en enables the ring engine and reads the host window table. -/
  | ringEngineEnable (en : Bool) (wins : List HostWin)
  /-- SLUICE_ENABLE (R284): A write enabling a sluice takes two pool banks and empties them, or is refused. -/
  | sluiceEnable (k : Sluice) (value : Word)
  /-- SLUICE_DISABLE (R284): A write disabling a sluice discards every item it holds. -/
  | sluiceDisable (k : Sluice)
  /-- SLUICE_ITEM_ADMIT (R285): An item from a producer is admitted into the filling bank or dropped. -/
  | sluiceItemAdmit (k : Sluice)
  /-- SLUICE_READ (R290): A design sluice read takes the next piece of the current item. -/
  | sluiceRead (k : Sluice)
  /-- SLUICE_HOST_PRODUCE (R292): A host producer descriptor is fetched and its payload enqueued as an item. -/
  | sluiceHostProduce (k : Sluice) (desc : BitVec 512) (piece : List Byte) (err : Option PcieErr)
  /-- SLUICE_HOST_DELIVER (R292): An item is written into a posted host buffer and its descriptor written back. -/
  | sluiceHostDeliver (k : Sluice) (desc : BitVec 512) (err : Option PcieErr)
  /-- SLC_CMD_DROP (R289): A write of SLC_CMD.drop drops the rest of the current item for shell firmware. -/
  | slcCmdDrop (k : Sluice)
  /-- NOTIFY_RETRY (R314): A refused notify enqueue is retried at each tick. -/
  | notifyRetry (k : Sluice)
  /-- SLC_CNT_CLEAR (R295): A write of SLC_CTRL.cnt_clear zeroes every sluice's drop and item counts. -/
  | slcCntClear
  /-- MILLER_INSTRUCTION (R296): A miller retires one RV64IMAC instruction, with its accesses, traps and trace packets. -/
  | millerInstruction (k : Core) (obs : MilObs)
  /-- AMO (R299): An AMO, LR or SC is performed indivisibly at a hopper bank. -/
  | amo (k : Core) (f5 : Fin 32) (wide : Bool) (rd : Fin 32) (addr : BitVec 64) (src : BitVec 64)
  /-- HOPPER_ALIAS_WRITE (R317): A write to a bit-set or bit-clear alias performs an indivisible read-modify-write. -/
  | hopperAliasWrite (k : Core) (clear : Bool) (off : BitVec 26) (size : Fin 4) (data : BitVec 64)
  /-- ENQUEUE (R305): A read of the enqueue status enqueues a work item and returns its status. -/
  | enqueue (k : Core) (full : Bool)
  /-- DELAY_TICK (R307): At each 1 us tick, due delayed items move to their ready lists. -/
  | delayTick
  /-- DISPATCH (R309): The scheduler dispatches the best eligible item to an idle or pre-emptible core. -/
  | dispatch (pre : Option Core)
  /-- ITEM_END (R304): A write of wiend ends the running work item. -/
  | itemEnd (k : Core)
  /-- WATCHDOG_FIRST_EXPIRY (R312): A core's watchdog expires once, raising WDOG and restarting. -/
  | watchdogFirstExpiry (k : Core)
  /-- MILLER_WATCHDOG (R312): A second expiry resets the core and discards its items. -/
  | millerWatchdog (k : Core)
  /-- WATCHDOG_KICK (R312): A write of MLR_WDOG.kick from the core restarts its watchdog. -/
  | watchdogKick (k : Core)
  /-- MTIMECMP_EXPIRY (R301): TB0 reaches mtimecmp and MTIP is set. -/
  | mtimecmpExpiry (k : Core)
  /-- MSIP_WRITE (R301): A write of a core's msip word sets its software interrupt. -/
  | msipWrite (k : Core) (value : Word)
  /-- MDFLUSH (R302): A write of mdflush invalidates a D-cache line or the whole D-cache. -/
  | mdflush (k : Core) (addr : BitVec 64)
  /-- MILLER_RELEASE (R323): A write of MLR_CTRL.hold = 0 starts the core at the boot ROM. -/
  | millerRelease (k : Core)
  /-- BANK_HANDOVER (R316): A HOP_CMD or hopgive write starts a hopper bank handover or is refused. -/
  | bankHandover (who : Requester) (bank : Fin 16) (owner : Fin 8) (scrub : Bool)
  /-- HANDOVER_COMPLETE (R316): Old-owner accesses finish, the bank is scrubbed if asked, and the new owner is served. -/
  | handoverComplete (bank : Fin 16)
  /-- HOPPER_TEST_REGION (R320): Every 10 us one hopper region is saved, march-tested and restored or remapped. -/
  | hopperTestRegion (fail : Bool)
  /-- PUT (R313): A read of the sluice port PUT word produces one item from a hopper buffer. -/
  | put (k : Core)
  /-- GET (R313): A read of the sluice port GET word moves the next piece of the current item, waiting if needed. -/
  | get (k : Core)
  /-- POLL (R313): A read of the sluice port POLL word moves the next piece or returns empty at once. -/
  | poll (k : Core)
  /-- HOP_CNT_CLEAR (R321): A write of HOP_CTRL.cnt_clear zeroes hopper deny, ECC and stall counts. -/
  | hopCntClear
  /-- SCHED_CNT_CLEAR (R322): A write of SCHED_CTRL.cnt_clear zeroes scheduler counts. -/
  | schedCntClear
  /-- AUTH_OPEN (R328): A write of AUTH_CTRL.open draws a challenge for the port. -/
  | authOpen (who : Requester) (value : Word)
  /-- AUTH_RESPONSE_SUBMIT (R328): A write of AUTH_RESP7 submits the HMAC response, opening a session or failing. -/
  | authResponseSubmit (who : Requester) (value : Word)
  /-- AUTH_LOCKOUT_END (R329): A port's lockout time ends. -/
  | authLockoutEnd (port : Fin 3)
  /-- CHALLENGE_EXPIRY (R328): A challenge expires after 10 s. -/
  | challengeExpiry (port : Fin 3)
  /-- AUTH_CLOSE (R330): A write of AUTH_CTRL.close closes the port's session and releases its resources. -/
  | authClose (who : Requester) (ended : Bool)
  /-- SESSION_IDLE_TIMEOUT (R330): A session idle for AUTH_IDLE seconds closes. -/
  | sessionIdleTimeout (port : Fin 3)
  /-- TAP_RESET (R330): A TAP reset closes the JTAG session. -/
  | tapReset
  /-- DBG_HALTREQ_HALT (R337): A write of DBG_HALTREQ.halt requests a halt of the partition. -/
  | dbgHaltreqHalt (who : Requester) (p : Part)
  /-- DBG_HALTREQ_RUN (R336): A write of DBG_HALTREQ.run runs the partition with DBG_RUNLEFT as count. -/
  | dbgHaltreqRun (who : Requester) (p : Part)
  /-- DBG_HALTREQ_STEP (R333): A write of DBG_HALTREQ.step steps the partition one turn. -/
  | dbgHaltreqStep (who : Requester) (p : Part)
  /-- DBG_BREAKEN_WRITE (R339): A write of DBG_BREAKEN enables BREAK ops from the next turn boundary. -/
  | dbgBreakenWrite (who : Requester) (value : BitVec 4)
  /-- DBG_RDATA_READ (R332): A read of DBG_RDATA peeks the register at DBG_RADDR without side effect. -/
  | dbgRdataRead (who : Requester) (sampled : Word)
  /-- DBG_RDATA_WRITE (R332): A write of DBG_RDATA writes the register at DBG_RADDR with its effects. -/
  | dbgRdataWrite (who : Requester) (value : Word) (env : RegEnv)
  /-- BACKDOOR_ACCESS (R343): A write of DBG_BDCTRL.go issues one 16-byte debug back-door access. -/
  | backdoorAccess (who : Requester) (value : Word) (e : RowEcc)
  /-- SRDATA_READ (R344): A read of DBG_SRDATA_LO reads a halted stone row or is refused. -/
  | srdataRead (who : Requester)
  /-- MILLER_HALT (R345): A write of DBG_MCTRL.halt halts the selected core at its next instruction boundary. -/
  | millerHalt (who : Requester)
  /-- MILLER_RESUME (R346): A write of DBG_MCTRL.resume releases the core at DBG_MPC. -/
  | millerResume (who : Requester)
  /-- MILLER_STEP (R346): A write of DBG_MCTRL.step executes one instruction and halts again. -/
  | millerStep (who : Requester)
  /-- WATCH_UNIT_ENABLE (R331): A write enabling a watch unit takes its ownership or is refused. -/
  | watchUnitEnable (who : Requester) (value : Word)
  /-- REARM (R342): A write of DBG_CTRL.rearm zeroes counts and arms of the partition's watch units. -/
  | rearm (who : Requester)
  /-- MILLER_RANGE_ENABLE (R331): A write enabling a miller address range takes ownership of the miller. -/
  | millerRangeEnable (who : Requester) (value : Word)
  /-- CAPTURE_WORDS_ARRIVAL (R355): Capture words reach the acquisition engine and records are formed or dropped. -/
  | captureWordsArrival (m : Mill)
  /-- CAPTURE_ENABLE (R369): A write of ACQ_Pp_CTRL.en = 1 resets positions and writes a start record, or is refused. -/
  | captureEnable (p : Part) (value : Word)
  /-- CAPTURE_DISABLE (R369): A write of en = 0 writes a partial interval and a stop record. -/
  | captureDisable (p : Part)
  /-- ACQ_SWTRIG (R358): A write of ACQ_SWTRIG makes a software capture trigger. -/
  | acqSwtrig (parts : BitVec 4)
  /-- CAPTURE_CHUNK_POST (R364): A chunk of the DRAM ring is copied to the host area and its CAP descriptor posted. -/
  | captureChunkPost (p : Part) (ecc : RowEcc)
  /-- ACQ_CNT_CLEAR (R377): A write of ACQ_CTRL.cnt_clear zeroes the capture counters. -/
  | acqCntClear
  /-- TRACE_ENABLE (R376): A write of TRC_CTRL.en starts a new trace at position 0 or is refused. -/
  | traceEnable (who : Requester) (value : Word)
  /-- TRACE_SW_TRIGGER (R376): A write of TRC_TRIG.sw triggers trace. -/
  | traceSwTrigger
  /-- TRACE_FLUSH (R375): A write of TRC_CTRL.flush writes every partial block. -/
  | traceFlush
  /-- TRACE_FLUSH_TIMEOUT (R375): A partial block older than TRC_FLUSHTO is padded and written. -/
  | traceFlushTimeout (k : Core)
  /-- TRACE_SYNC_PERIOD (R375): Every TRC_SYNC.period each traced running core emits TIME and SYNC. -/
  | traceSyncPeriod
  /-- TRACE_STOPPED (R376): TRC_STOPDLY after the trigger trace stops, flushes and raises the event. -/
  | traceStopped
  /-- TRC_CNT_CLEAR (R378): A write of TRC_CTRL.cnt_clear zeroes trace counters. -/
  | trcCntClear
  /-- TB_STEP_SUBMIT (R382): A write of TBk_STEP_HI submits a step that anchors, slews or is refused. -/
  | tbStepSubmit (who : Requester) (k : Fin 3) (hi : Word)
  /-- TB_UNANCHOR (R382): A write of TBk_CFG.unanchor clears ANCHORED. -/
  | tbUnanchor (who : Requester) (k : Fin 3)
  /-- TB_RATE_WRITE (R384): A write of TBk_RATE sets the rate correction, clamped to +/ -500 ppm. -/
  | tbRateWrite (who : Requester) (k : Fin 3) (value : Word)
  /-- PG_FIRE (R389): A pulse generator's compare passes and it fires. -/
  | pgFire (gen : Fin 8)
  /-- PULSE_WIDTH_END (R389): A TPULSE output falls after width x 100 ns. -/
  | pulseWidthEnd (gen : Fin 8)
  /-- TCAP_EDGE (R391): An active edge on a capture input captures its time base. -/
  | tcapEdge (i : Fin 8) (rising : Bool)
  /-- PTP_RX_EVENT_MESSAGE (R392): A received PTP event message is stamped with TB0 and queued. -/
  | ptpRxEventMessage (msg : PtpMsg)
  /-- PTP_TX_EVENT_MESSAGE (R392): A sent PTP event message is stamped with TB0 and queued. -/
  | ptpTxEventMessage (msg : PtpMsg)
  /-- PTP_TSPOP (R393): A write of PTP_TSPOP.pop moves the head timestamp entry into the PTP_TS registers. -/
  | ptpTspop (dir : Bool)
  /-- PTP_CNT_CLEAR (R395): A write of PTP_CTRL.cnt_clear zeroes the PTP counters. -/
  | ptpCntClear
  /-- REFCLK_LOST (R399): REFCLK absent for 1 us puts the module into cold reset with cause 5. -/
  | refclkLost
  /-- MAIN_SHAFT_UNLOCK (R399): Loss of main-shaft lock puts the module into cold reset with cause 6. -/
  | mainShaftUnlock
  /-- CLOCK_MONITOR_SAMPLE (R399): A clock monitor's 100 us average is compared with its expected frequency. -/
  | clockMonitorSample (mon : Fin 25) (freq : BitVec 20)
  /-- CLK_DDR_WRITE (R400): A write of CLK_DDR relocks the DDR PHY clock and returns trained channels to untrained, or is refused. -/
  | clkDdrWrite (speed : Bool)
  /-- POWER_STATE_ENTRY (R405): After idle_hold the power manager lowers a domain to the deepest allowed state. -/
  | powerStateEntry (u : Fin 80) (st : Fin 6)
  /-- WAKE_START (R405): wake(s) before a known event the manager starts a domain's wake. -/
  | wakeStart (u : Fin 80)
  /-- ACCESS_WAKE (R406): An access to a unit below Run starts its wake and waits. -/
  | accessWake (u : Fin 80)
  /-- WAKE_COMPLETE (R404): A domain reaches Run, restoring saved state, and waiting accesses are served. -/
  | wakeComplete (u : Fin 80)
  /-- PWR_FORCE_WRITE (R407): A write of PWR_DOMn force takes the domain to a state or is refused. -/
  | pwrForceWrite (d : Fin 48) (value : Word)
  /-- PWR_WAKE_TIMEOUT (R407): A domain not in Run within 4 x wake(s) raises the event. -/
  | pwrWakeTimeout (d : Fin 48)
  /-- PWR_CNT_CLEAR (R413): A write of PWR_CTRL.cnt_clear zeroes transition counts. -/
  | pwrCntClear
  /-- SENSOR_SAMPLE (R408): A temperature sensor reading is refreshed and compared with warn and trip. -/
  | sensorSample (sensor : Fin 40) (temp : BitVec 16)
  /-- VOLTAGE_FAULT (R409): A supply outside tolerance for 10 us sets its fault bit and raises the event. -/
  | voltageFault (mon : Fin 16) (mv : BitVec 16)
  /-- SENS_PEAK_CLEAR (R415): A write of SENS_CTRL.peak_clear sets SENS_PEAK to the hottest reading. -/
  | sensPeakClear
  /-- VAON_RISE (R410): VAON rises and the module enters cold reset. -/
  | vaonRise
  /-- RESET_N_ASSERT (R410): RESET_N low puts the module into cold reset. -/
  | resetNAssert
  /-- RESET_N_RELEASE (R411): RESET_N release starts the bring-up sequence. -/
  | resetNRelease
  /-- FUSE_READ_COMPLETE (R411): Fuses are read and miller 0 starts in the boot ROM. -/
  | fuseReadComplete (f : Fuses)
  /-- PWR_OK_FALL (R410): PWR_OK falling puts the module into cold reset. -/
  | pwrOkFall
  /-- RST_CTRL_COLD (R410): A write of RST_CTRL.cold performs a cold reset. -/
  | rstCtrlCold (who : Requester)
  /-- RST_CTRL_WARM (R410): A write of RST_CTRL.warm performs a warm reset. -/
  | rstCtrlWarm (who : Requester)
  /-- PERST_N_ASSERT (R410): PERST_N low performs a PCIe reset. -/
  | perstNAssert
  /-- HOT_RESET (R410): A PCIe hot reset performs a PCIe reset. -/
  | hotReset
  /-- FUNCTION_LEVEL_RESET (R410): A Function Level Reset resets the function's PCIe state. -/
  | functionLevelReset
  /-- PIN_FUNCTION_CHANGE (R423): A write changing a GPIO function runs the glitch-free switching sequence. -/
  | pinFunctionChange (who : Requester) (pin : Fin 48) (value : Word)
  /-- GPIO_OUT_WRITE (R422): A masked write of GPIO_OUT or GPIO_OE sets allowed pins' values. -/
  | gpioOutWrite (who : Requester) (oe : Bool) (g : Fin 3) (mask : BitVec 16) (value : BitVec 16)
  /-- GPIO_EDGE (R430): A pin edge selected by its edge field sets its GPIO_EDGE flag. -/
  | gpioEdge (pin : Fin 48) (rising : Bool)
  /-- TIO_BANK_ENABLE (R425): A write of TIO_BANKb.en enables or disables a target I/O bank, or is refused. -/
  | tioBankEnable (bank : Fin 5) (value : Word)
  /-- TIO_MODE_CHANGE (R426): A write of TIO_PINCFG changes a pin's owner or mode, or is refused while frozen. -/
  | tioModeChange (who : Requester) (pin : Fin 160) (value : Word)
  /-- GPIO_CNT_CLEAR (R430): A write of GPIO_CTRL.cnt_clear zeroes GPIO deny and rejection counts. -/
  | gpioCntClear
  /-- TIO_CNT_CLEAR (R431): A write of TIO_CTRL.cnt_clear zeroes TIO_DENY. -/
  | tioCntClear
  /-- EVT_RAISE (R452): A write of EVT_RAISE raises a shell event code with EVT_RDATA. -/
  | evtRaise (who : Requester) (value : Word)
  /-- EVT_CNT_CLEAR (R455): A write of EVT_CTRL.cnt_clear zeroes every event count. -/
  | evtCntClear
  /-- REGISTER_WRITE (R10): A write of a register field that has no row of its own takes effect by its access type. -/
  | registerWrite (who : Requester) (addr : BitVec 26) (value : Word) (env : RegEnv)
  /-- PCIE_LINK_UP (R283): The PCIe link returns to L0 after being down, so the host can re-initialise the rings and set RING_CTRL.en. -/
  | pcieLinkUp (speed : Fin 3) (width : Fin 17) (inverted : BitVec 16) (reversed : Bool) (msix : Bool) (fmask : Bool)
  /-- MGMT_LINK_CHANGE (R392): The management Ethernet link comes up or goes down, and auto-negotiation completes, updating PTP_STATUS.link, an_done and PTP_AN. -/
  | mgmtLinkChange (up : Bool) (anDone : Bool) (partner : BitVec 16)
  /-- REGULATOR_TIMEOUT (R434): A VCORE regulator that has not reported its target within 1 ms raises VOLTAGE_FAULT, and the pace change does not take place. -/
  | regulatorTimeout (mv : BitVec 16)
  /-- SLEW_COMPLETE (R383): The outstanding slew of a time base is used up, so it returns to its plain rate and TBk_STATUS.slewing returns to 0. -/
  | slewComplete (k : Fin 3)
  /-- PWR_OK_RISE (R411): PWR_OK rises, the straps including XSPI_ROLE are sampled, and the main shaft begins to lock within 100 us. -/
  | pwrOkRise (slot : BitVec 6) (role : Bool)
  /-- DDR_PHY_RELOCK (R400): After an accepted CLK_DDR write, the DDR PHY clock relocks within 50 us and CLK_STATUS.ddr_lock reads 1. -/
  | ddrPhyRelock
  /-- REGISTER_READ (R81): A register read with a side effect acts: a _LO read copies its _HI into a holding register, or an RC field is returned and cleared. -/
  | registerRead (who : Requester) (addr : BitVec 26) (env : RegEnv)
  /-- JTAG_EXTEST (R326): A JTAG EXTEST, EXTEST_PULSE or EXTEST_TRAIN instruction drives the pins and spoke lanes, or is refused. -/
  | jtagExtest (drive : List (Nat × Bool))
  /-- LOADER_SEGMENT_END (R252): The loader finishes a segment of a pass, advancing CFG_Pp_PROG, and abandons the command there if UNLOAD or DISCARD asked for it, or stops on a write-pass segment fault. -/
  | loaderSegmentEnd (ecc : RowEcc) (us : Word)
  /-- MR4_RATE_REPORT (R215): MR4 of a rank's device reports that a changed refresh rate is needed, so tREFI for the rank halves or is restored and DDRC_TEMP.rate changes. -/
  | mr4RateReport (ch : Chan) (rank : Fin 16) (doubled : Bool)
  deriving DecidableEq, Repr

end Sys2Proof
end

