-- ==== Sys2Proof/Decode.lean ====
section
/-!
DEFINITION. Decode.lean: the commands that a word of the opcode table spells. The table gives no row any bits: commands reach the block as
register accesses, packets, events on pins and the like, never as encoded words.
-/
namespace Sys2Proof

open Sys2Proof.Machine

/-- The command the low nbits of w spell: none, for every word. -/
def decodeTableWord (_nbits _w : Nat) : Option Instr := none

end Sys2Proof
end

