-- ==== Sys2Proof/Config.lean ====
section
/-!
DEFINITION. Config.lean: the values the spec leaves open, as constants without a body. Nothing can evaluate them, so a
statement that mentions one holds for every value. Each has a row in notes/assumptions.
-/
namespace Sys2Proof.Config

/-- A fresh 64-bit value the spec leaves open. The first argument says which open point it fills, the second is the
model's own counter State.free (log entry 3). -/
opaque freeBits : Nat → Nat → BitVec 64

/-- Packet units that the buffer of a virtual channel holds beyond one packet of the greatest length (R85, R97; log entry 67). -/
opaque bufSpace : Nat

/-- SHA-384 of a byte string (named by R239; a published standard, kept uninterpreted; log entry 4). -/
opaque sha384 : List (BitVec 8) → BitVec 384

/-- HMAC-SHA-256 of a message under a key, its first byte in bits [7:0] (R328; kept uninterpreted; log entry 4). -/
opaque hmac : BitVec 256 → List (BitVec 8) → BitVec 256

/-- The key check value of a 256-bit key (R263; kept uninterpreted; log entry 4). -/
opaque keyCheck : BitVec 256 → BitVec 32

/-- The fuse key, the same on every module of its generation (R245; never readable; log entry 4). -/
opaque fuseKey : BitVec 256

/-- HKDF with SHA-384 (R245): input keying material, salt, info; 32 bytes. Kept uninterpreted (log entry 4). -/
opaque hkdf : BitVec 256 → List (BitVec 8) → List (BitVec 8) → BitVec 256

/-- AES key unwrap of a 40-byte block (R245); none when it fails. Kept uninterpreted (log entry 4). -/
opaque unwrap : BitVec 256 → List (BitVec 8) → Option (BitVec 256)

/-- AES-256-GCM decryption (R245): key, IV, additional data, ciphertext, tag; none when the tag fails. Kept uninterpreted
(log entry 4). -/
opaque gcmOpen : BitVec 256 → List (BitVec 8) → List (BitVec 8) → List (BitVec 8) → List (BitVec 8) → Option (List (BitVec 8))

/-- The layout of flume configuration frames ships beside the manual (R242): what the class 0x4 frames of a logical quadrant, as
address and content, configure (log entry 20). -/
opaque flumeImage : List (Nat × List (BitVec 8)) → Machine.FlmImg

/-- Bytes of the boot ROM by address (R298): the spec gives only that the exit stub stands at 0x100 (log entry 51). -/
opaque bootRom : Nat → BitVec 8

end Sys2Proof.Config
end

