-- ==== Sys2Proof/Machine/Fields.lean ====
section
/-!
DEFINITION. Machine/Fields.lean: the names of the registers (R.X: byte address in BAR0) and of their fields (F.X_f: address, lowest bit, width).
Written from the register maps and field tables of spec/ (R444 gives the blocks; each block's rule gives its map).
-/

namespace Sys2Proof.Machine

/-- A bit field of a register: byte address in BAR0, lowest bit, width. Addresses from 2^28 up name the instances behind a
register that a selector shows one at a time (see `Fld.sel`). -/
structure Fld where
  addr : Nat
  lsb : Nat
  width : Nat
  deriving DecidableEq, Repr

/-- Instance n behind a selected register at `a` (for example DBG_WCFG of watch unit n): its own home, outside BAR0. -/
def selAddr (a n : Nat) : Nat := a + 0x10000000 * (n + 1)

/-- The same field of instance n behind a selected register. -/
def Fld.sel (f : Fld) (n : Nat) : Fld := { f with addr := selAddr f.addr n }

def R.PART_QMASK (i : Nat) : Nat := 0xA0000 + 0x1000 * i
def F.PART_QMASK_image_quads (i : Nat) : Fld := ⟨R.PART_QMASK i, 16, 4⟩
def F.PART_QMASK_binding (i : Nat) : Fld := ⟨R.PART_QMASK i, 8, 8⟩
def F.PART_QMASK_qmask (i : Nat) : Fld := ⟨R.PART_QMASK i, 0, 4⟩
def R.PART_STATE (i : Nat) : Nat := 0xA0004 + 0x1000 * i
def F.PART_STATE_halt_reason (i : Nat) : Fld := ⟨R.PART_STATE i, 8, 4⟩
def F.PART_STATE_state (i : Nat) : Fld := ⟨R.PART_STATE i, 0, 3⟩
def R.PART_MODE (i : Nat) : Nat := 0xA0008 + 0x1000 * i
def F.PART_MODE_capture_lossless (i : Nat) : Fld := ⟨R.PART_MODE i, 0, 1⟩
def R.PART_PROFILE (i : Nat) : Nat := 0xA000C + 0x1000 * i
def F.PART_PROFILE_depth (i : Nat) : Fld := ⟨R.PART_PROFILE i, 8, 2⟩
def F.PART_PROFILE_paces (i : Nat) : Fld := ⟨R.PART_PROFILE i, 4, 3⟩
def F.PART_PROFILE_profile (i : Nat) : Fld := ⟨R.PART_PROFILE i, 0, 2⟩
def R.PART_LINK (i : Nat) : Nat := 0xA0010 + 0x1000 * i
def F.PART_LINK_spoke_mask (i : Nat) : Fld := ⟨R.PART_LINK i, 16, 16⟩
def F.PART_LINK_module_index (i : Nat) : Fld := ⟨R.PART_LINK i, 8, 6⟩
def F.PART_LINK_module_count (i : Nat) : Fld := ⟨R.PART_LINK i, 0, 7⟩
def R.PART_IMAGE_ID (i : Nat) : Nat := 0xA0014 + 0x1000 * i
def F.PART_IMAGE_ID_image_id (i : Nat) : Fld := ⟨R.PART_IMAGE_ID i, 0, 32⟩
def R.PART_VOTE (i : Nat) : Nat := 0xA0018 + 0x1000 * i
def F.PART_VOTE_quanta (i : Nat) : Fld := ⟨R.PART_VOTE i, 0, 8⟩
def R.PART_CLKCNT (i : Nat) : Nat := 0xA001C + 0x1000 * i
def F.PART_CLKCNT_flume_mask (i : Nat) : Fld := ⟨R.PART_CLKCNT i, 16, 8⟩
def F.PART_CLKCNT_approx_mask (i : Nat) : Fld := ⟨R.PART_CLKCNT i, 8, 8⟩
def F.PART_CLKCNT_count (i : Nat) : Fld := ⟨R.PART_CLKCNT i, 0, 4⟩
def R.PART_CLK (i : Nat) (j : Nat) : Nat := 0xA0020 + 0x1000 * i + 4 * j
def F.PART_CLK_phase (i : Nat) (j : Nat) : Fld := ⟨R.PART_CLK i j, 16, 16⟩
def F.PART_CLK_period (i : Nat) (j : Nat) : Fld := ⟨R.PART_CLK i j, 0, 16⟩
def R.TURN_CONFIG (i : Nat) : Nat := 0xB0000 + 0x1000 * i
def F.TURN_CONFIG_l (i : Nat) : Fld := ⟨R.TURN_CONFIG i, 20, 12⟩
def F.TURN_CONFIG_k (i : Nat) : Fld := ⟨R.TURN_CONFIG i, 4, 12⟩
def F.TURN_CONFIG_depth (i : Nat) : Fld := ⟨R.TURN_CONFIG i, 0, 2⟩
def R.TURN_STATUS (i : Nat) : Nat := 0xB0004 + 0x1000 * i
def F.TURN_STATUS_invalid_count (i : Nat) : Fld := ⟨R.TURN_STATUS i, 16, 16⟩
def F.TURN_STATUS_hold_causes (i : Nat) : Fld := ⟨R.TURN_STATUS i, 8, 8⟩
def F.TURN_STATUS_holding (i : Nat) : Fld := ⟨R.TURN_STATUS i, 1, 1⟩
def F.TURN_STATUS_last_valid (i : Nat) : Fld := ⟨R.TURN_STATUS i, 0, 1⟩
def R.TURN_COUNT_LO (i : Nat) : Nat := 0xB0008 + 0x1000 * i
def F.TURN_COUNT_LO_value (i : Nat) : Fld := ⟨R.TURN_COUNT_LO i, 0, 32⟩
def R.TURN_COUNT_HI (i : Nat) : Nat := 0xB000C + 0x1000 * i
def F.TURN_COUNT_HI_value (i : Nat) : Fld := ⟨R.TURN_COUNT_HI i, 0, 32⟩
def R.TURN_QUANTA_LO (i : Nat) : Nat := 0xB0010 + 0x1000 * i
def F.TURN_QUANTA_LO_value (i : Nat) : Fld := ⟨R.TURN_QUANTA_LO i, 0, 32⟩
def R.TURN_QUANTA_HI (i : Nat) : Nat := 0xB0014 + 0x1000 * i
def F.TURN_QUANTA_HI_value (i : Nat) : Fld := ⟨R.TURN_QUANTA_HI i, 0, 32⟩
def R.TURN_CAUSE (i : Nat) (j : Nat) : Nat := 0xB0018 + 0x1000 * i + 4 * j
def F.TURN_CAUSE_quanta (i : Nat) (j : Nat) : Fld := ⟨R.TURN_CAUSE i j, 0, 32⟩
def R.TURN_LASTBRAKE (i : Nat) : Nat := 0xB0038 + 0x1000 * i
def F.TURN_LASTBRAKE_causes (i : Nat) : Fld := ⟨R.TURN_LASTBRAKE i, 24, 8⟩
def F.TURN_LASTBRAKE_quanta (i : Nat) : Fld := ⟨R.TURN_LASTBRAKE i, 12, 12⟩
def F.TURN_LASTBRAKE_step (i : Nat) : Fld := ⟨R.TURN_LASTBRAKE i, 0, 11⟩
def R.TURN_CTRL (i : Nat) : Nat := 0xB003C + 0x1000 * i
def F.TURN_CTRL_clear (i : Nat) : Fld := ⟨R.TURN_CTRL i, 31, 1⟩
def F.TURN_CTRL_brake_limit (i : Nat) : Fld := ⟨R.TURN_CTRL i, 0, 16⟩
def R.RACE_CTRL : Nat := 0xC0000
def F.RACE_CTRL_age_en : Fld := ⟨R.RACE_CTRL, 16, 1⟩
def F.RACE_CTRL_dead_en : Fld := ⟨R.RACE_CTRL, 8, 1⟩
def R.RACE_STATUS : Nat := 0xC0004
def F.RACE_STATUS_isolated : Fld := ⟨R.RACE_STATUS, 16, 16⟩
def R.RACE_AGE0 : Nat := 0xC0008
def F.RACE_AGE0_step3 : Fld := ⟨R.RACE_AGE0, 24, 8⟩
def F.RACE_AGE0_step2 : Fld := ⟨R.RACE_AGE0, 16, 8⟩
def F.RACE_AGE0_step1 : Fld := ⟨R.RACE_AGE0, 8, 8⟩
def F.RACE_AGE0_step0 : Fld := ⟨R.RACE_AGE0, 0, 8⟩
def R.RACE_AGE1 : Nat := 0xC000C
def F.RACE_AGE1_step6 : Fld := ⟨R.RACE_AGE1, 16, 8⟩
def F.RACE_AGE1_step5 : Fld := ⟨R.RACE_AGE1, 8, 8⟩
def F.RACE_AGE1_step4 : Fld := ⟨R.RACE_AGE1, 0, 8⟩
def R.RACE_DEADTO : Nat := 0xC0010
def F.RACE_DEADTO_timeout : Fld := ⟨R.RACE_DEADTO, 0, 16⟩
def R.RACE_DEADCTRL : Nat := 0xC0014
def F.RACE_DEADCTRL_readmit : Fld := ⟨R.RACE_DEADCTRL, 31, 1⟩
def F.RACE_DEADCTRL_isolate : Fld := ⟨R.RACE_DEADCTRL, 30, 1⟩
def F.RACE_DEADCTRL_cnt_clear : Fld := ⟨R.RACE_DEADCTRL, 29, 1⟩
def F.RACE_DEADCTRL_kind : Fld := ⟨R.RACE_DEADCTRL, 8, 1⟩
def F.RACE_DEADCTRL_index : Fld := ⟨R.RACE_DEADCTRL, 0, 8⟩
def R.RACE_DEADCNT : Nat := 0xC0018
def F.RACE_DEADCNT_dropped_writes : Fld := ⟨R.RACE_DEADCNT, 16, 16⟩
def F.RACE_DEADCNT_absorbed_reads : Fld := ⟨R.RACE_DEADCNT, 0, 16⟩
def R.RACE_DROP : Nat := 0xC001C
def F.RACE_DROP_malformed : Fld := ⟨R.RACE_DROP, 16, 16⟩
def F.RACE_DROP_poisoned : Fld := ⟨R.RACE_DROP, 0, 16⟩
def R.RACE_ECC : Nat := 0xC0020
def F.RACE_ECC_ue_flag : Fld := ⟨R.RACE_ECC, 31, 1⟩
def F.RACE_ECC_ue_sched : Fld := ⟨R.RACE_ECC, 30, 1⟩
def F.RACE_ECC_ce_clear : Fld := ⟨R.RACE_ECC, 16, 1⟩
def F.RACE_ECC_ce_count : Fld := ⟨R.RACE_ECC, 0, 16⟩
def R.RACE_ECCLOC : Nat := 0xC0024
def F.RACE_ECCLOC_router : Fld := ⟨R.RACE_ECCLOC, 8, 8⟩
def F.RACE_ECCLOC_input : Fld := ⟨R.RACE_ECCLOC, 4, 3⟩
def F.RACE_ECCLOC_channel : Fld := ⟨R.RACE_ECCLOC, 0, 2⟩
def R.RACE_SLOTBASE : Nat := 0xC0028
def F.RACE_SLOTBASE_router : Fld := ⟨R.RACE_SLOTBASE, 16, 8⟩
def F.RACE_SLOTBASE_port : Fld := ⟨R.RACE_SLOTBASE, 12, 3⟩
def F.RACE_SLOTBASE_entry : Fld := ⟨R.RACE_SLOTBASE, 0, 11⟩
def R.RACE_SLOTDATA : Nat := 0xC002C
def F.RACE_SLOTDATA_data : Fld := ⟨R.RACE_SLOTDATA, 0, 32⟩
def R.RACE_STCTRL : Nat := 0xC0030
def F.RACE_STCTRL_clear : Fld := ⟨R.RACE_STCTRL, 31, 1⟩
def F.RACE_STCTRL_window : Fld := ⟨R.RACE_STCTRL, 0, 20⟩
def R.RACE_UNITS_LO : Nat := 0xC0034
def F.RACE_UNITS_LO_value : Fld := ⟨R.RACE_UNITS_LO, 0, 32⟩
def R.RACE_UNITS_HI : Nat := 0xC0038
def F.RACE_UNITS_HI_value : Fld := ⟨R.RACE_UNITS_HI, 0, 32⟩
def R.RACE_PEAKWAIT : Nat := 0xC003C
def F.RACE_PEAKWAIT_router : Fld := ⟨R.RACE_PEAKWAIT, 16, 8⟩
def F.RACE_PEAKWAIT_cycles : Fld := ⟨R.RACE_PEAKWAIT, 0, 16⟩
def R.RACE_DEADM (j : Nat) : Nat := 0xC0040 + 4 * j
def F.RACE_DEADM_dead (j : Nat) : Fld := ⟨R.RACE_DEADM j, 0, 32⟩
def R.RACE_DEADX (j : Nat) : Nat := 0xC0060 + 4 * j
def F.RACE_DEADX_dead (j : Nat) : Fld := ⟨R.RACE_DEADX j, 0, 32⟩
def R.RACE_STSEL (j : Nat) : Nat := 0xC0100 + 4 * j
def F.RACE_STSEL_en (j : Nat) : Fld := ⟨R.RACE_STSEL j, 31, 1⟩
def F.RACE_STSEL_init (j : Nat) : Fld := ⟨R.RACE_STSEL j, 0, 10⟩
def R.STAT_UNITS (j : Nat) : Nat := 0xD0000 + 4 * j
def F.STAT_UNITS_units (j : Nat) : Fld := ⟨R.STAT_UNITS j, 0, 32⟩
def R.STAT_LAT (j : Nat) : Nat := 0xD0100 + 4 * j
def F.STAT_LAT_max (j : Nat) : Fld := ⟨R.STAT_LAT j, 16, 16⟩
def F.STAT_LAT_mean (j : Nat) : Fld := ⟨R.STAT_LAT j, 0, 16⟩
def R.FLM_CTRL : Nat := 0xE0000
def F.FLM_CTRL_cnt_clear : Fld := ⟨R.FLM_CTRL, 31, 1⟩
def F.FLM_CTRL_parity_scan : Fld := ⟨R.FLM_CTRL, 16, 1⟩
def F.FLM_CTRL_ovr_event : Fld := ⟨R.FLM_CTRL, 8, 1⟩
def R.FLM_STATUS : Nat := 0xE0004
def F.FLM_STATUS_stage : Fld := ⟨R.FLM_STATUS, 24, 8⟩
def F.FLM_STATUS_quiesced : Fld := ⟨R.FLM_STATUS, 20, 4⟩
def F.FLM_STATUS_stalled : Fld := ⟨R.FLM_STATUS, 16, 4⟩
def F.FLM_STATUS_overrun : Fld := ⟨R.FLM_STATUS, 12, 4⟩
def F.FLM_STATUS_fault : Fld := ⟨R.FLM_STATUS, 8, 4⟩
def F.FLM_STATUS_powered : Fld := ⟨R.FLM_STATUS, 0, 4⟩
def R.FLM_STALLTO : Nat := 0xE0008
def F.FLM_STALLTO_timeout : Fld := ⟨R.FLM_STALLTO, 0, 10⟩
def R.FLM_QUIESCE : Nat := 0xE000C
def F.FLM_QUIESCE_request : Fld := ⟨R.FLM_QUIESCE, 0, 4⟩
def R.FLM_RBADDR : Nat := 0xE0010
def F.FLM_RBADDR_quadrant : Fld := ⟨R.FLM_RBADDR, 30, 2⟩
def F.FLM_RBADDR_space : Fld := ⟨R.FLM_RBADDR, 28, 2⟩
def F.FLM_RBADDR_refused : Fld := ⟨R.FLM_RBADDR, 27, 1⟩
def F.FLM_RBADDR_index : Fld := ⟨R.FLM_RBADDR, 0, 22⟩
def R.FLM_RBDATA : Nat := 0xE0014
def F.FLM_RBDATA_data : Fld := ⟨R.FLM_RBDATA, 0, 32⟩
def R.FLM_PORTSEL : Nat := 0xE0018
def F.FLM_PORTSEL_mill : Fld := ⟨R.FLM_PORTSEL, 8, 8⟩
def F.FLM_PORTSEL_dir : Fld := ⟨R.FLM_PORTSEL, 3, 1⟩
def F.FLM_PORTSEL_port : Fld := ⟨R.FLM_PORTSEL, 0, 3⟩
def R.FLM_PORTSTAT : Nat := 0xE001C
def F.FLM_PORTSTAT_overrun : Fld := ⟨R.FLM_PORTSTAT, 31, 1⟩
def F.FLM_PORTSTAT_stalled : Fld := ⟨R.FLM_PORTSTAT, 30, 1⟩
def F.FLM_PORTSTAT_busy : Fld := ⟨R.FLM_PORTSTAT, 29, 1⟩
def F.FLM_PORTSTAT_mode : Fld := ⟨R.FLM_PORTSTAT, 27, 2⟩
def F.FLM_PORTSTAT_region : Fld := ⟨R.FLM_PORTSTAT, 16, 11⟩
def F.FLM_PORTSTAT_words : Fld := ⟨R.FLM_PORTSTAT, 0, 16⟩
def R.FLM_SLACKSEL : Nat := 0xE0020
def F.FLM_SLACKSEL_clear : Fld := ⟨R.FLM_SLACKSEL, 31, 1⟩
def F.FLM_SLACKSEL_bin : Fld := ⟨R.FLM_SLACKSEL, 12, 4⟩
def F.FLM_SLACKSEL_region : Fld := ⟨R.FLM_SLACKSEL, 0, 11⟩
def R.FLM_SLACKDATA : Nat := 0xE0024
def F.FLM_SLACKDATA_count : Fld := ⟨R.FLM_SLACKDATA, 0, 32⟩
def R.FLM_ERR : Nat := 0xE0028
def F.FLM_ERR_fault_flag : Fld := ⟨R.FLM_ERR, 31, 1⟩
def F.FLM_ERR_kind : Fld := ⟨R.FLM_ERR, 28, 3⟩
def F.FLM_ERR_quadrant : Fld := ⟨R.FLM_ERR, 26, 2⟩
def F.FLM_ERR_unit : Fld := ⟨R.FLM_ERR, 17, 9⟩
def F.FLM_ERR_port : Fld := ⟨R.FLM_ERR, 0, 4⟩
def R.FLM_ECC : Nat := 0xE002C
def F.FLM_ECC_ue_flag : Fld := ⟨R.FLM_ECC, 31, 1⟩
def F.FLM_ECC_ce_clear : Fld := ⟨R.FLM_ECC, 16, 1⟩
def F.FLM_ECC_ce_count : Fld := ⟨R.FLM_ECC, 0, 16⟩
def R.FLM_MEMSEL : Nat := 0xE0030
def F.FLM_MEMSEL_block : Fld := ⟨R.FLM_MEMSEL, 0, 11⟩
def R.FLM_MEMSTAT : Nat := 0xE0034
def F.FLM_MEMSTAT_mode : Fld := ⟨R.FLM_MEMSTAT, 30, 2⟩
def F.FLM_MEMSTAT_full : Fld := ⟨R.FLM_MEMSTAT, 29, 1⟩
def F.FLM_MEMSTAT_empty : Fld := ⟨R.FLM_MEMSTAT, 28, 1⟩
def F.FLM_MEMSTAT_occupancy : Fld := ⟨R.FLM_MEMSTAT, 0, 19⟩
def R.FLM_DROPCNT : Nat := 0xE0038
def F.FLM_DROPCNT_stall_drops : Fld := ⟨R.FLM_DROPCNT, 16, 16⟩
def F.FLM_DROPCNT_overruns : Fld := ⟨R.FLM_DROPCNT, 0, 16⟩
def R.FLM_MISSLOC : Nat := 0xE003C
def F.FLM_MISSLOC_region : Fld := ⟨R.FLM_MISSLOC, 16, 11⟩
def F.FLM_MISSLOC_step : Fld := ⟨R.FLM_MISSLOC, 0, 11⟩
def R.FLM_OVR (j : Nat) : Nat := 0xE0040 + 4 * j
def F.FLM_OVR_mills (j : Nat) : Fld := ⟨R.FLM_OVR j, 0, 32⟩
def R.FLM_STL (j : Nat) : Nat := 0xE0060 + 4 * j
def F.FLM_STL_mills (j : Nat) : Fld := ⟨R.FLM_STL j, 0, 32⟩
def R.FLM_PROBE (j : Nat) : Nat := 0xE0100 + 4 * j
def F.FLM_PROBE_en (j : Nat) : Fld := ⟨R.FLM_PROBE j, 31, 1⟩
def F.FLM_PROBE_mode (j : Nat) : Fld := ⟨R.FLM_PROBE j, 30, 1⟩
def F.FLM_PROBE_pin_kind (j : Nat) : Fld := ⟨R.FLM_PROBE j, 29, 1⟩
def F.FLM_PROBE_pin (j : Nat) : Fld := ⟨R.FLM_PROBE j, 21, 8⟩
def F.FLM_PROBE_quadrant (j : Nat) : Fld := ⟨R.FLM_PROBE j, 19, 2⟩
def F.FLM_PROBE_net (j : Nat) : Fld := ⟨R.FLM_PROBE j, 0, 19⟩
def R.MPORT_CTRL : Nat := 0xF0000
def F.MPORT_CTRL_cnt_clear : Fld := ⟨R.MPORT_CTRL, 31, 1⟩
def F.MPORT_CTRL_timeout : Fld := ⟨R.MPORT_CTRL, 0, 16⟩
def R.MPORT_STATUS : Nat := 0xF0004
def F.MPORT_STATUS_mm_ce_count : Fld := ⟨R.MPORT_STATUS, 16, 16⟩
def F.MPORT_STATUS_bound : Fld := ⟨R.MPORT_STATUS, 0, 10⟩
def R.MPORT_SEL : Nat := 0xF0008
def F.MPORT_SEL_port : Fld := ⟨R.MPORT_SEL, 0, 9⟩
def R.MPORT_BIND : Nat := 0xF000C
def F.MPORT_BIND_kind : Fld := ⟨R.MPORT_BIND, 30, 2⟩
def F.MPORT_BIND_mode : Fld := ⟨R.MPORT_BIND, 29, 1⟩
def F.MPORT_BIND_group : Fld := ⟨R.MPORT_BIND, 27, 2⟩
def F.MPORT_BIND_stream : Fld := ⟨R.MPORT_BIND, 26, 1⟩
def F.MPORT_BIND_write : Fld := ⟨R.MPORT_BIND, 25, 1⟩
def F.MPORT_BIND_width : Fld := ⟨R.MPORT_BIND, 22, 3⟩
def F.MPORT_BIND_channel : Fld := ⟨R.MPORT_BIND, 16, 4⟩
def F.MPORT_BIND_partition : Fld := ⟨R.MPORT_BIND, 8, 2⟩
def R.MPORT_BASE : Nat := 0xF0010
def F.MPORT_BASE_value : Fld := ⟨R.MPORT_BASE, 0, 26⟩
def R.MPORT_SIZE : Nat := 0xF0014
def F.MPORT_SIZE_value : Fld := ⟨R.MPORT_SIZE, 0, 26⟩
def R.MPORT_TARGET : Nat := 0xF0018
def F.MPORT_TARGET_u : Fld := ⟨R.MPORT_TARGET, 16, 12⟩
def F.MPORT_TARGET_t : Fld := ⟨R.MPORT_TARGET, 0, 12⟩
def R.MPORT_PSTAT : Nat := 0xF001C
def F.MPORT_PSTAT_req_occ : Fld := ⟨R.MPORT_PSTAT, 24, 6⟩
def F.MPORT_PSTAT_outstanding : Fld := ⟨R.MPORT_PSTAT, 18, 6⟩
def F.MPORT_PSTAT_owed : Fld := ⟨R.MPORT_PSTAT, 12, 6⟩
def F.MPORT_PSTAT_maxlat : Fld := ⟨R.MPORT_PSTAT, 0, 12⟩
def R.MPORT_PFISSUE : Nat := 0xF0020
def F.MPORT_PFISSUE_count : Fld := ⟨R.MPORT_PFISSUE, 0, 32⟩
def R.MPORT_PFUSE : Nat := 0xF0024
def F.MPORT_PFUSE_count : Fld := ⟨R.MPORT_PFUSE, 0, 32⟩
def R.MPORT_PFDISC : Nat := 0xF0028
def F.MPORT_PFDISC_count : Fld := ⟨R.MPORT_PFDISC, 0, 32⟩
def R.MPORT_PFDROP : Nat := 0xF002C
def F.MPORT_PFDROP_count : Fld := ⟨R.MPORT_PFDROP, 0, 32⟩
def R.MPORT_RANGE : Nat := 0xF0030
def F.MPORT_RANGE_count : Fld := ⟨R.MPORT_RANGE, 16, 16⟩
def F.MPORT_RANGE_mm : Fld := ⟨R.MPORT_RANGE, 15, 1⟩
def F.MPORT_RANGE_source : Fld := ⟨R.MPORT_RANGE, 0, 9⟩
def R.MPORT_ERR : Nat := 0xF0034
def F.MPORT_ERR_flag : Fld := ⟨R.MPORT_ERR, 31, 1⟩
def F.MPORT_ERR_kind : Fld := ⟨R.MPORT_ERR, 28, 3⟩
def F.MPORT_ERR_status : Fld := ⟨R.MPORT_ERR, 25, 3⟩
def F.MPORT_ERR_slot : Fld := ⟨R.MPORT_ERR, 20, 5⟩
def F.MPORT_ERR_source : Fld := ⟨R.MPORT_ERR, 0, 9⟩
def R.MPORT_MMSEL : Nat := 0xF0038
def F.MPORT_MMSEL_word : Fld := ⟨R.MPORT_MMSEL, 16, 1⟩
def F.MPORT_MMSEL_mill : Fld := ⟨R.MPORT_MMSEL, 8, 8⟩
def F.MPORT_MMSEL_desc : Fld := ⟨R.MPORT_MMSEL, 0, 4⟩
def R.MPORT_MMDESC : Nat := 0xF003C
def F.MPORT_MMDESC_valid : Fld := ⟨R.MPORT_MMDESC, 31, 1⟩
def F.MPORT_MMDESC_rows : Fld := ⟨R.MPORT_MMDESC, 15, 15⟩
def F.MPORT_MMDESC_low : Fld := ⟨R.MPORT_MMDESC, 0, 9⟩
def R.MPORT_FAIL (j : Nat) : Nat := 0xF0040 + 4 * j
def F.MPORT_FAIL_ports (j : Nat) : Fld := ⟨R.MPORT_FAIL j, 0, 32⟩
def R.MPORT_SLOW (j : Nat) : Nat := 0xF0080 + 4 * j
def F.MPORT_SLOW_ports (j : Nat) : Fld := ⟨R.MPORT_SLOW j, 0, 32⟩
def R.MPORT_BOUND (j : Nat) : Nat := 0xF00C0 + 4 * j
def F.MPORT_BOUND_ports (j : Nat) : Fld := ⟨R.MPORT_BOUND j, 0, 32⟩
def R.SPK_CTRL (i : Nat) : Nat := 0x2200000 + 0x1000 * i
def F.SPK_CTRL_en (i : Nat) : Fld := ⟨R.SPK_CTRL i, 31, 1⟩
def F.SPK_CTRL_tx_mode (i : Nat) : Fld := ⟨R.SPK_CTRL i, 28, 2⟩
def F.SPK_CTRL_role (i : Nat) : Fld := ⟨R.SPK_CTRL i, 25, 3⟩
def F.SPK_CTRL_eq_freeze (i : Nat) : Fld := ⟨R.SPK_CTRL i, 24, 1⟩
def F.SPK_CTRL_loopback (i : Nat) : Fld := ⟨R.SPK_CTRL i, 23, 1⟩
def F.SPK_CTRL_fom_low (i : Nat) : Fld := ⟨R.SPK_CTRL i, 8, 8⟩
def R.SPK_STATUS (i : Nat) : Nat := 0x2200004 + 0x1000 * i
def F.SPK_STATUS_state (i : Nat) : Fld := ⟨R.SPK_STATUS i, 29, 3⟩
def F.SPK_STATUS_assigned (i : Nat) : Fld := ⟨R.SPK_STATUS i, 25, 1⟩
def F.SPK_STATUS_partition (i : Nat) : Fld := ⟨R.SPK_STATUS i, 22, 2⟩
def F.SPK_STATUS_locked (i : Nat) : Fld := ⟨R.SPK_STATUS i, 8, 8⟩
def F.SPK_STATUS_min_fom (i : Nat) : Fld := ⟨R.SPK_STATUS i, 0, 8⟩
def R.SPK_PEER (i : Nat) : Nat := 0x2200008 + 0x1000 * i
def F.SPK_PEER_peer_module (i : Nat) : Fld := ⟨R.SPK_PEER i, 26, 6⟩
def F.SPK_PEER_peer_part (i : Nat) : Fld := ⟨R.SPK_PEER i, 24, 2⟩
def F.SPK_PEER_peer_spoke (i : Nat) : Fld := ⟨R.SPK_PEER i, 20, 4⟩
def F.SPK_PEER_peer_pace (i : Nat) : Fld := ⟨R.SPK_PEER i, 18, 2⟩
def F.SPK_PEER_peer_role (i : Nat) : Fld := ⟨R.SPK_PEER i, 15, 3⟩
def F.SPK_PEER_build_ok (i : Nat) : Fld := ⟨R.SPK_PEER i, 11, 1⟩
def F.SPK_PEER_budget_ok (i : Nat) : Fld := ⟨R.SPK_PEER i, 10, 1⟩
def F.SPK_PEER_pace_ok (i : Nat) : Fld := ⟨R.SPK_PEER i, 9, 1⟩
def F.SPK_PEER_role_ok (i : Nat) : Fld := ⟨R.SPK_PEER i, 8, 1⟩
def R.SPK_LAT (i : Nat) : Nat := 0x220000C + 0x1000 * i
def F.SPK_LAT_clear (i : Nat) : Fld := ⟨R.SPK_LAT i, 31, 1⟩
def F.SPK_LAT_min_slack (i : Nat) : Fld := ⟨R.SPK_LAT i, 12, 12⟩
def F.SPK_LAT_measured (i : Nat) : Fld := ⟨R.SPK_LAT i, 0, 12⟩
def R.SPK_ERR (i : Nat) : Nat := 0x2200010 + 0x1000 * i
def F.SPK_ERR_flag (i : Nat) : Fld := ⟨R.SPK_ERR i, 31, 1⟩
def F.SPK_ERR_kind (i : Nat) : Fld := ⟨R.SPK_ERR i, 28, 3⟩
def F.SPK_ERR_lane (i : Nat) : Fld := ⟨R.SPK_ERR i, 24, 3⟩
def F.SPK_ERR_count (i : Nat) : Fld := ⟨R.SPK_ERR i, 0, 16⟩
def R.SPK_EQ (i : Nat) : Nat := 0x2200014 + 0x1000 * i
def F.SPK_EQ_tx_post (i : Nat) : Fld := ⟨R.SPK_EQ i, 18, 6⟩
def F.SPK_EQ_tx_main (i : Nat) : Fld := ⟨R.SPK_EQ i, 12, 6⟩
def F.SPK_EQ_tx_pre (i : Nat) : Fld := ⟨R.SPK_EQ i, 6, 6⟩
def R.DDRC_CTRL (i : Nat) : Nat := 0x2000000 + 0x10000 * i
def F.DDRC_CTRL_train (i : Nat) : Fld := ⟨R.DDRC_CTRL i, 31, 1⟩
def F.DDRC_CTRL_en (i : Nat) : Fld := ⟨R.DDRC_CTRL i, 30, 1⟩
def F.DDRC_CTRL_fgr (i : Nat) : Fld := ⟨R.DDRC_CTRL i, 29, 1⟩
def F.DDRC_CTRL_ca_parity (i : Nat) : Fld := ⟨R.DDRC_CTRL i, 28, 1⟩
def F.DDRC_CTRL_wcrc (i : Nat) : Fld := ⟨R.DDRC_CTRL i, 27, 1⟩
def R.DDRC_LATE (i : Nat) : Nat := 0x2000028 + 0x10000 * i
def F.DDRC_LATE_high (i : Nat) : Fld := ⟨R.DDRC_LATE i, 16, 16⟩
def F.DDRC_LATE_low (i : Nat) : Fld := ⟨R.DDRC_LATE i, 0, 16⟩
def R.DDRC_STATUS (i : Nat) : Nat := 0x2000004 + 0x10000 * i
def F.DDRC_STATUS_state (i : Nat) : Fld := ⟨R.DDRC_STATUS i, 29, 3⟩
def F.DDRC_STATUS_read_occ (i : Nat) : Fld := ⟨R.DDRC_STATUS i, 20, 9⟩
def F.DDRC_STATUS_write_occ (i : Nat) : Fld := ⟨R.DDRC_STATUS i, 12, 8⟩
def F.DDRC_STATUS_rae_occ (i : Nat) : Fld := ⟨R.DDRC_STATUS i, 5, 7⟩
def R.DDRC_UTIL (i : Nat) : Nat := 0x200002C + 0x10000 * i
def F.DDRC_UTIL_bus (i : Nat) : Fld := ⟨R.DDRC_UTIL i, 16, 16⟩
def F.DDRC_UTIL_hits (i : Nat) : Fld := ⟨R.DDRC_UTIL i, 0, 16⟩
def R.DDRC_POP (i : Nat) : Nat := 0x2000008 + 0x10000 * i
def F.DDRC_POP_dimms (i : Nat) : Fld := ⟨R.DDRC_POP i, 30, 2⟩
def F.DDRC_POP_stacked (i : Nat) : Fld := ⟨R.DDRC_POP i, 29, 1⟩
def F.DDRC_POP_density (i : Nat) : Fld := ⟨R.DDRC_POP i, 28, 1⟩
def F.DDRC_POP_ranks (i : Nat) : Fld := ⟨R.DDRC_POP i, 27, 1⟩
def F.DDRC_POP_height (i : Nat) : Fld := ⟨R.DDRC_POP i, 25, 2⟩
def F.DDRC_POP_rho (i : Nat) : Fld := ⟨R.DDRC_POP i, 16, 2⟩
def F.DDRC_POP_reason (i : Nat) : Fld := ⟨R.DDRC_POP i, 8, 3⟩
def F.DDRC_POP_slices (i : Nat) : Fld := ⟨R.DDRC_POP i, 0, 5⟩
def R.DDRC_CE (i : Nat) : Nat := 0x2000030 + 0x10000 * i
def F.DDRC_CE_clear (i : Nat) : Fld := ⟨R.DDRC_CE i, 31, 1⟩
def F.DDRC_CE_last_rank (i : Nat) : Fld := ⟨R.DDRC_CE i, 16, 4⟩
def F.DDRC_CE_ce_count (i : Nat) : Fld := ⟨R.DDRC_CE i, 0, 16⟩
def R.DDRC_OWN_LO (i : Nat) : Nat := 0x200000C + 0x10000 * i
def F.DDRC_OWN_LO_owner (i : Nat) : Fld := ⟨R.DDRC_OWN_LO i, 0, 32⟩
def R.DDRC_UE (i : Nat) : Nat := 0x2000034 + 0x10000 * i
def F.DDRC_UE_ue_flag (i : Nat) : Fld := ⟨R.DDRC_UE i, 31, 1⟩
def F.DDRC_UE_source (i : Nat) : Fld := ⟨R.DDRC_UE i, 28, 3⟩
def F.DDRC_UE_rank (i : Nat) : Fld := ⟨R.DDRC_UE i, 24, 4⟩
def F.DDRC_UE_init (i : Nat) : Fld := ⟨R.DDRC_UE i, 0, 10⟩
def R.DDRC_OWN_HI (i : Nat) : Nat := 0x2000010 + 0x10000 * i
def F.DDRC_OWN_HI_owner (i : Nat) : Fld := ⟨R.DDRC_OWN_HI i, 0, 32⟩
def R.DDRC_ERRADDR_LO (i : Nat) : Nat := 0x2000038 + 0x10000 * i
def F.DDRC_ERRADDR_LO_addr (i : Nat) : Fld := ⟨R.DDRC_ERRADDR_LO i, 0, 32⟩
def R.DDRC_PAGE (i : Nat) : Nat := 0x2000014 + 0x10000 * i
def F.DDRC_PAGE_idle (i : Nat) : Fld := ⟨R.DDRC_PAGE i, 0, 16⟩
def R.DDRC_ERRADDR_HI (i : Nat) : Nat := 0x200003C + 0x10000 * i
def F.DDRC_ERRADDR_HI_addr (i : Nat) : Fld := ⟨R.DDRC_ERRADDR_HI i, 0, 32⟩
def R.DDRC_REF (i : Nat) : Nat := 0x2000018 + 0x10000 * i
def F.DDRC_REF_postponed (i : Nat) : Fld := ⟨R.DDRC_REF i, 28, 4⟩
def F.DDRC_REF_limit (i : Nat) : Fld := ⟨R.DDRC_REF i, 24, 4⟩
def F.DDRC_REF_steer_level (i : Nat) : Fld := ⟨R.DDRC_REF i, 16, 3⟩
def R.DDRC_SCRUB (i : Nat) : Nat := 0x2000040 + 0x10000 * i
def F.DDRC_SCRUB_progress (i : Nat) : Fld := ⟨R.DDRC_SCRUB i, 16, 16⟩
def F.DDRC_SCRUB_period (i : Nat) : Fld := ⟨R.DDRC_SCRUB i, 0, 16⟩
def R.DDRC_REFSTAT (i : Nat) : Nat := 0x200001C + 0x10000 * i
def F.DDRC_REFSTAT_high (i : Nat) : Fld := ⟨R.DDRC_REFSTAT i, 16, 16⟩
def F.DDRC_REFSTAT_low (i : Nat) : Fld := ⟨R.DDRC_REFSTAT i, 0, 16⟩
def R.DDRC_ALERT (i : Nat) : Nat := 0x2000044 + 0x10000 * i
def F.DDRC_ALERT_high (i : Nat) : Fld := ⟨R.DDRC_ALERT i, 16, 16⟩
def F.DDRC_ALERT_low (i : Nat) : Fld := ⟨R.DDRC_ALERT i, 0, 16⟩
def R.DDRC_PD (i : Nat) : Nat := 0x2000020 + 0x10000 * i
def F.DDRC_PD_idle (i : Nat) : Fld := ⟨R.DDRC_PD i, 0, 16⟩
def R.DDRC_TEMP (i : Nat) : Nat := 0x2000048 + 0x10000 * i
def F.DDRC_TEMP_limit (i : Nat) : Fld := ⟨R.DDRC_TEMP i, 16, 8⟩
def F.DDRC_TEMP_hottest (i : Nat) : Fld := ⟨R.DDRC_TEMP i, 8, 8⟩
def F.DDRC_TEMP_rate (i : Nat) : Fld := ⟨R.DDRC_TEMP i, 0, 2⟩
def R.DDRC_URG (i : Nat) : Nat := 0x2000024 + 0x10000 * i
def F.DDRC_URG_lvl6 (i : Nat) : Fld := ⟨R.DDRC_URG i, 24, 8⟩
def F.DDRC_URG_lvl5 (i : Nat) : Fld := ⟨R.DDRC_URG i, 16, 8⟩
def F.DDRC_URG_lvl4 (i : Nat) : Fld := ⟨R.DDRC_URG i, 8, 8⟩
def F.DDRC_URG_lvl3 (i : Nat) : Fld := ⟨R.DDRC_URG i, 0, 8⟩
def R.DDRC_TRAIN (i : Nat) : Nat := 0x200004C + 0x10000 * i
def F.DDRC_TRAIN_step (i : Nat) : Fld := ⟨R.DDRC_TRAIN i, 28, 4⟩
def F.DDRC_TRAIN_rank (i : Nat) : Fld := ⟨R.DDRC_TRAIN i, 24, 4⟩
def F.DDRC_TRAIN_lane (i : Nat) : Fld := ⟨R.DDRC_TRAIN i, 16, 5⟩
def F.DDRC_TRAIN_duration (i : Nat) : Fld := ⟨R.DDRC_TRAIN i, 0, 16⟩
def R.DPHY_CTRL (i : Nat) : Nat := 0x2100000 + 0x10000 * i
def F.DPHY_CTRL_freeze (i : Nat) : Fld := ⟨R.DPHY_CTRL i, 31, 1⟩
def F.DPHY_CTRL_adj_count (i : Nat) : Fld := ⟨R.DPHY_CTRL i, 0, 16⟩
def R.DPHY_SEL (i : Nat) : Nat := 0x2100004 + 0x10000 * i
def F.DPHY_SEL_lane (i : Nat) : Fld := ⟨R.DPHY_SEL i, 8, 5⟩
def F.DPHY_SEL_rank (i : Nat) : Fld := ⟨R.DPHY_SEL i, 0, 4⟩
def R.DPHY_RDEYE (i : Nat) : Nat := 0x2100008 + 0x10000 * i
def F.DPHY_RDEYE_left (i : Nat) : Fld := ⟨R.DPHY_RDEYE i, 24, 8⟩
def F.DPHY_RDEYE_right (i : Nat) : Fld := ⟨R.DPHY_RDEYE i, 16, 8⟩
def F.DPHY_RDEYE_centre (i : Nat) : Fld := ⟨R.DPHY_RDEYE i, 0, 8⟩
def R.DPHY_WRDLY (i : Nat) : Nat := 0x210000C + 0x10000 * i
def F.DPHY_WRDLY_osc (i : Nat) : Fld := ⟨R.DPHY_WRDLY i, 16, 16⟩
def F.DPHY_WRDLY_delay (i : Nat) : Fld := ⟨R.DPHY_WRDLY i, 0, 8⟩
def R.DPHY_VREF (i : Nat) : Nat := 0x2100010 + 0x10000 * i
def F.DPHY_VREF_wr_vref (i : Nat) : Fld := ⟨R.DPHY_VREF i, 16, 8⟩
def F.DPHY_VREF_rd_vref (i : Nat) : Fld := ⟨R.DPHY_VREF i, 0, 8⟩
def R.DPHY_DRIFT (i : Nat) : Nat := 0x2100014 + 0x10000 * i
def F.DPHY_DRIFT_osc_base (i : Nat) : Fld := ⟨R.DPHY_DRIFT i, 16, 16⟩
def F.DPHY_DRIFT_max_shift (i : Nat) : Fld := ⟨R.DPHY_DRIFT i, 8, 8⟩
def R.GOV_CTRL : Nat := 0x40000
def F.GOV_CTRL_freeze : Fld := ⟨R.GOV_CTRL, 31, 1⟩
def F.GOV_CTRL_cap_en : Fld := ⟨R.GOV_CTRL, 19, 1⟩
def F.GOV_CTRL_flume_en : Fld := ⟨R.GOV_CTRL, 18, 1⟩
def F.GOV_CTRL_lane_en : Fld := ⟨R.GOV_CTRL, 17, 1⟩
def F.GOV_CTRL_dram_en : Fld := ⟨R.GOV_CTRL, 16, 1⟩
def R.GOV_SMCMD_LO : Nat := 0x40030
def F.GOV_SMCMD_LO_units : Fld := ⟨R.GOV_SMCMD_LO, 0, 32⟩
def R.GOV_SMCMD_HI : Nat := 0x40034
def F.GOV_SMCMD_HI_units : Fld := ⟨R.GOV_SMCMD_HI, 0, 12⟩
def R.GOV_STATUS : Nat := 0x40004
def F.GOV_STATUS_frozen : Fld := ⟨R.GOV_STATUS, 31, 1⟩
def F.GOV_STATUS_ramping : Fld := ⟨R.GOV_STATUS, 30, 1⟩
def F.GOV_STATUS_rails_missing : Fld := ⟨R.GOV_STATUS, 16, 8⟩
def F.GOV_STATUS_ceiling : Fld := ⟨R.GOV_STATUS, 12, 4⟩
def F.GOV_STATUS_cap_band : Fld := ⟨R.GOV_STATUS, 4, 4⟩
def R.GOV_SMOBS_LO : Nat := 0x40038
def F.GOV_SMOBS_LO_units : Fld := ⟨R.GOV_SMOBS_LO, 0, 32⟩
def R.GOV_SMOBS_HI : Nat := 0x4003C
def F.GOV_SMOBS_HI_units : Fld := ⟨R.GOV_SMOBS_HI, 0, 12⟩
def R.GOV_CAP : Nat := 0x40008
def F.GOV_CAP_watts : Fld := ⟨R.GOV_CAP, 0, 11⟩
def R.GOV_SMMIS_LO : Nat := 0x40040
def F.GOV_SMMIS_LO_units : Fld := ⟨R.GOV_SMMIS_LO, 0, 32⟩
def R.GOV_SMMIS_HI : Nat := 0x40044
def F.GOV_SMMIS_HI_units : Fld := ⟨R.GOV_SMMIS_HI, 0, 12⟩
def R.GOV_CAPSTAT : Nat := 0x4000C
def F.GOV_CAPSTAT_unmet_ms : Fld := ⟨R.GOV_CAPSTAT, 16, 16⟩
def F.GOV_CAPSTAT_h : Fld := ⟨R.GOV_CAPSTAT, 0, 10⟩
def R.GOV_ADJCNT : Nat := 0x40048
def F.GOV_ADJCNT_count : Fld := ⟨R.GOV_ADJCNT, 0, 32⟩
def R.GOV_POWER : Nat := 0x40010
def F.GOV_POWER_high : Fld := ⟨R.GOV_POWER, 16, 16⟩
def F.GOV_POWER_low : Fld := ⟨R.GOV_POWER, 0, 16⟩
def R.GOV_SKIPCNT : Nat := 0x4004C
def F.GOV_SKIPCNT_count : Fld := ⟨R.GOV_SKIPCNT, 0, 32⟩
def R.GOV_FLMCFG : Nat := 0x40014
def F.GOV_FLMCFG_window : Fld := ⟨R.GOV_FLMCFG, 24, 8⟩
def F.GOV_FLMCFG_raise_bin : Fld := ⟨R.GOV_FLMCFG, 20, 4⟩
def F.GOV_FLMCFG_lower_bin : Fld := ⟨R.GOV_FLMCFG, 16, 4⟩
def F.GOV_FLMCFG_holdoff : Fld := ⟨R.GOV_FLMCFG, 8, 8⟩
def F.GOV_FLMCFG_min_fires : Fld := ⟨R.GOV_FLMCFG, 0, 8⟩
def R.GOV_VFLUME (j : Nat) : Nat := 0x40050 + 4 * j
def F.GOV_VFLUME_actual (j : Nat) : Fld := ⟨R.GOV_VFLUME j, 20, 12⟩
def F.GOV_VFLUME_target (j : Nat) : Fld := ⟨R.GOV_VFLUME j, 8, 12⟩
def F.GOV_VFLUME_floor (j : Nat) : Fld := ⟨R.GOV_VFLUME j, 0, 8⟩
def R.GOV_FLMLIM : Nat := 0x40018
def F.GOV_FLMLIM_up_step : Fld := ⟨R.GOV_FLMLIM, 24, 8⟩
def F.GOV_FLMLIM_down_step : Fld := ⟨R.GOV_FLMLIM, 16, 8⟩
def F.GOV_FLMLIM_late_step : Fld := ⟨R.GOV_FLMLIM, 8, 8⟩
def F.GOV_FLMLIM_ceiling : Fld := ⟨R.GOV_FLMLIM, 0, 8⟩
def R.GOV_DRAMADJ (j : Nat) : Nat := 0x40060 + 4 * j
def F.GOV_DRAMADJ_applied (j : Nat) : Fld := ⟨R.GOV_DRAMADJ j, 16, 16⟩
def F.GOV_DRAMADJ_other (j : Nat) : Fld := ⟨R.GOV_DRAMADJ j, 0, 16⟩
def R.GOV_DRAMCFG : Nat := 0x4001C
def F.GOV_DRAMCFG_interval : Fld := ⟨R.GOV_DRAMCFG, 24, 8⟩
def F.GOV_DRAMCFG_min_bursts : Fld := ⟨R.GOV_DRAMCFG, 16, 8⟩
def F.GOV_DRAMCFG_osc_per_step : Fld := ⟨R.GOV_DRAMCFG, 8, 8⟩
def F.GOV_DRAMCFG_centre_thr : Fld := ⟨R.GOV_DRAMCFG, 4, 4⟩
def R.GOV_LANEADJ (j : Nat) : Nat := 0x400A0 + 4 * j
def F.GOV_LANEADJ_applied (j : Nat) : Fld := ⟨R.GOV_LANEADJ j, 16, 16⟩
def F.GOV_LANEADJ_other (j : Nat) : Fld := ⟨R.GOV_LANEADJ j, 0, 16⟩
def R.GOV_LANECFG : Nat := 0x40020
def F.GOV_LANECFG_fom_drop : Fld := ⟨R.GOV_LANECFG, 24, 8⟩
def F.GOV_LANECFG_trial_ms : Fld := ⟨R.GOV_LANECFG, 16, 8⟩
def F.GOV_LANECFG_interval : Fld := ⟨R.GOV_LANECFG, 8, 8⟩
def R.GOV_RAIL (j : Nat) : Nat := 0x400E0 + 4 * j
def F.GOV_RAIL_high (j : Nat) : Fld := ⟨R.GOV_RAIL j, 16, 16⟩
def F.GOV_RAIL_low (j : Nat) : Fld := ⟨R.GOV_RAIL j, 0, 16⟩
def R.GOV_LOGSTAT : Nat := 0x40024
def F.GOV_LOGSTAT_newest : Fld := ⟨R.GOV_LOGSTAT, 0, 16⟩
def R.GOV_LOGSEL : Nat := 0x40028
def F.GOV_LOGSEL_word : Fld := ⟨R.GOV_LOGSEL, 16, 2⟩
def F.GOV_LOGSEL_seq : Fld := ⟨R.GOV_LOGSEL, 0, 16⟩
def R.GOV_LOGDATA : Nat := 0x4002C
def F.GOV_LOGDATA_data : Fld := ⟨R.GOV_LOGDATA, 0, 32⟩
def R.CFG_CTRL : Nat := 0x90000
def F.CFG_CTRL_hold_done : Fld := ⟨R.CFG_CTRL, 31, 1⟩
def F.CFG_CTRL_boot_hopper : Fld := ⟨R.CFG_CTRL, 30, 1⟩
def R.CFG_STATUS : Nat := 0x90004
def F.CFG_STATUS_line : Fld := ⟨R.CFG_STATUS, 31, 1⟩
def F.CFG_STATUS_holding : Fld := ⟨R.CFG_STATUS, 30, 1⟩
def F.CFG_STATUS_loading : Fld := ⟨R.CFG_STATUS, 24, 4⟩
def F.CFG_STATUS_released : Fld := ⟨R.CFG_STATUS, 20, 4⟩
def F.CFG_STATUS_fault_hold : Fld := ⟨R.CFG_STATUS, 16, 4⟩
def R.CFG_BOOT : Nat := 0x90008
def F.CFG_BOOT_state : Fld := ⟨R.CFG_BOOT, 29, 3⟩
def F.CFG_BOOT_source : Fld := ⟨R.CFG_BOOT, 27, 2⟩
def F.CFG_BOOT_role : Fld := ⟨R.CFG_BOOT, 26, 1⟩
def F.CFG_BOOT_streams : Fld := ⟨R.CFG_BOOT, 24, 2⟩
def F.CFG_BOOT_fault : Fld := ⟨R.CFG_BOOT, 0, 16⟩
def R.CFG_XSPI : Nat := 0x9000C
def F.CFG_XSPI_mode_8d : Fld := ⟨R.CFG_XSPI, 31, 1⟩
def F.CFG_XSPI_clock : Fld := ⟨R.CFG_XSPI, 16, 8⟩
def R.CFG_RELEASE : Nat := 0x90010
def F.CFG_RELEASE_stage : Fld := ⟨R.CFG_RELEASE, 30, 2⟩
def F.CFG_RELEASE_parts : Fld := ⟨R.CFG_RELEASE, 26, 4⟩
def R.CFG_SHELL_ID : Nat := 0x90014
def F.CFG_SHELL_ID_value : Fld := ⟨R.CFG_SHELL_ID, 0, 32⟩
def R.CFG_RECOV : Nat := 0x90018
def F.CFG_RECOV_length : Fld := ⟨R.CFG_RECOV, 0, 14⟩
def R.CFG_LOADQ : Nat := 0x9001C
def F.CFG_LOADQ_active : Fld := ⟨R.CFG_LOADQ, 31, 1⟩
def F.CFG_LOADQ_partition : Fld := ⟨R.CFG_LOADQ, 28, 2⟩
def F.CFG_LOADQ_queued : Fld := ⟨R.CFG_LOADQ, 24, 4⟩
def R.CFG_BOOTLOG (j : Nat) : Nat := 0x90020 + 4 * j
def F.CFG_BOOTLOG_source (j : Nat) : Fld := ⟨R.CFG_BOOTLOG j, 30, 2⟩
def F.CFG_BOOTLOG_loaded (j : Nat) : Fld := ⟨R.CFG_BOOTLOG j, 29, 1⟩
def F.CFG_BOOTLOG_event (j : Nat) : Fld := ⟨R.CFG_BOOTLOG j, 0, 16⟩
def R.CFG_P_STATE (j : Nat) : Nat := 0x90040 + 0x40 * j
def F.CFG_P_STATE_cmd (j : Nat) : Fld := ⟨R.CFG_P_STATE j, 29, 3⟩
def F.CFG_P_STATE_fault_hold (j : Nat) : Fld := ⟨R.CFG_P_STATE j, 28, 1⟩
def F.CFG_P_STATE_m_named (j : Nat) : Fld := ⟨R.CFG_P_STATE j, 27, 1⟩
def F.CFG_P_STATE_m (j : Nat) : Fld := ⟨R.CFG_P_STATE j, 25, 2⟩
def F.CFG_P_STATE_pass (j : Nat) : Fld := ⟨R.CFG_P_STATE j, 23, 2⟩
def R.CFG_P_SRC_LO (j : Nat) : Nat := 0x90044 + 0x40 * j
def F.CFG_P_SRC_LO_addr (j : Nat) : Fld := ⟨R.CFG_P_SRC_LO j, 12, 20⟩
def R.CFG_P_SRC_HI (j : Nat) : Nat := 0x90048 + 0x40 * j
def F.CFG_P_SRC_HI_channel (j : Nat) : Fld := ⟨R.CFG_P_SRC_HI j, 16, 4⟩
def F.CFG_P_SRC_HI_addr_hi (j : Nat) : Fld := ⟨R.CFG_P_SRC_HI j, 0, 6⟩
def R.CFG_P_LEN_LO (j : Nat) : Nat := 0x9004C + 0x40 * j
def F.CFG_P_LEN_LO_length (j : Nat) : Fld := ⟨R.CFG_P_LEN_LO j, 0, 32⟩
def R.CFG_P_LEN_HI (j : Nat) : Nat := 0x90050 + 0x40 * j
def F.CFG_P_LEN_HI_length (j : Nat) : Fld := ⟨R.CFG_P_LEN_HI j, 0, 32⟩
def R.CFG_P_PROG (j : Nat) : Nat := 0x90054 + 0x40 * j
def F.CFG_P_PROG_count (j : Nat) : Fld := ⟨R.CFG_P_PROG j, 0, 32⟩
def R.CFG_P_FAULT (j : Nat) : Nat := 0x90058 + 0x40 * j
def F.CFG_P_FAULT_flag (j : Nat) : Fld := ⟨R.CFG_P_FAULT j, 31, 1⟩
def F.CFG_P_FAULT_faddr_kind (j : Nat) : Fld := ⟨R.CFG_P_FAULT j, 16, 2⟩
def F.CFG_P_FAULT_event (j : Nat) : Fld := ⟨R.CFG_P_FAULT j, 0, 16⟩
def R.CFG_P_FADDR (j : Nat) : Nat := 0x9005C + 0x40 * j
def F.CFG_P_FADDR_value (j : Nat) : Fld := ⟨R.CFG_P_FADDR j, 0, 32⟩
def R.CFG_P_PARTIAL (j : Nat) : Nat := 0x90060 + 0x40 * j
def F.CFG_P_PARTIAL_staged (j : Nat) : Fld := ⟨R.CFG_P_PARTIAL j, 31, 1⟩
def F.CFG_P_PARTIAL_verifying (j : Nat) : Fld := ⟨R.CFG_P_PARTIAL j, 30, 1⟩
def R.CFG_P_PIMAGE (j : Nat) : Nat := 0x90064 + 0x40 * j
def F.CFG_P_PIMAGE_value (j : Nat) : Fld := ⟨R.CFG_P_PIMAGE j, 0, 32⟩
def R.CFG_P_TIME (j : Nat) : Nat := 0x90068 + 0x40 * j
def F.CFG_P_TIME_count (j : Nat) : Fld := ⟨R.CFG_P_TIME j, 0, 32⟩
def R.CFG_P_FRAMES (j : Nat) : Nat := 0x9006C + 0x40 * j
def F.CFG_P_FRAMES_count (j : Nat) : Fld := ⟨R.CFG_P_FRAMES j, 0, 32⟩
def R.KEY_CTRL : Nat := 0x80000
def F.KEY_CTRL_write : Fld := ⟨R.KEY_CTRL, 31, 1⟩
def F.KEY_CTRL_zeroise : Fld := ⟨R.KEY_CTRL, 30, 1⟩
def F.KEY_CTRL_zeroise_all : Fld := ⟨R.KEY_CTRL, 29, 1⟩
def F.KEY_CTRL_sel : Fld := ⟨R.KEY_CTRL, 0, 3⟩
def R.KEY_STATUS : Nat := 0x80004
def F.KEY_STATUS_busy : Fld := ⟨R.KEY_STATUS, 31, 1⟩
def F.KEY_STATUS_vbat_ok : Fld := ⟨R.KEY_STATUS, 30, 1⟩
def F.KEY_STATUS_valid : Fld := ⟨R.KEY_STATUS, 8, 8⟩
def F.KEY_STATUS_locked : Fld := ⟨R.KEY_STATUS, 0, 8⟩
def R.KEY_FUSE : Nat := 0x80008
def F.KEY_FUSE_programmed : Fld := ⟨R.KEY_FUSE, 31, 1⟩
def F.KEY_FUSE_generation : Fld := ⟨R.KEY_FUSE, 0, 8⟩
def R.KEY_FKCV : Nat := 0x8000C
def F.KEY_FKCV_kcv : Fld := ⟨R.KEY_FKCV, 0, 32⟩
def R.KEY_FAILCNT : Nat := 0x80010
def F.KEY_FAILCNT_auth : Fld := ⟨R.KEY_FAILCNT, 16, 16⟩
def F.KEY_FAILCNT_denied : Fld := ⟨R.KEY_FAILCNT, 0, 16⟩
def R.KEY_TAMPER : Nat := 0x80014
def F.KEY_TAMPER_zeroised : Fld := ⟨R.KEY_TAMPER, 31, 1⟩
def F.KEY_TAMPER_count : Fld := ⟨R.KEY_TAMPER, 0, 16⟩
def R.KEY_LASTSRC : Nat := 0x80018
def F.KEY_LASTSRC_kind : Fld := ⟨R.KEY_LASTSRC, 28, 4⟩
def F.KEY_LASTSRC_source : Fld := ⟨R.KEY_LASTSRC, 24, 4⟩
def R.KEY_VBAT : Nat := 0x8001C
def F.KEY_VBAT_mv : Fld := ⟨R.KEY_VBAT, 0, 16⟩
def R.KEY_WDATA (j : Nat) : Nat := 0x80020 + 4 * j
def F.KEY_WDATA_data (j : Nat) : Fld := ⟨R.KEY_WDATA j, 0, 32⟩
def R.KEY_SLOT (j : Nat) : Nat := 0x80040 + 4 * j
def F.KEY_SLOT_valid (j : Nat) : Fld := ⟨R.KEY_SLOT j, 31, 1⟩
def F.KEY_SLOT_lock (j : Nat) : Fld := ⟨R.KEY_SLOT j, 30, 1⟩
def F.KEY_SLOT_writes (j : Nat) : Fld := ⟨R.KEY_SLOT j, 0, 16⟩
def R.KEY_KCV (j : Nat) : Nat := 0x80060 + 4 * j
def F.KEY_KCV_kcv (j : Nat) : Fld := ⟨R.KEY_KCV j, 0, 32⟩
def R.KEY_LNONCE (j : Nat) : Nat := 0x80080 + 4 * j
def F.KEY_LNONCE_data (j : Nat) : Fld := ⟨R.KEY_LNONCE j, 0, 32⟩
def R.PCIE_CTRL : Nat := 0x2300000
def F.PCIE_CTRL_retrain : Fld := ⟨R.PCIE_CTRL, 31, 1⟩
def F.PCIE_CTRL_max_speed : Fld := ⟨R.PCIE_CTRL, 24, 2⟩
def R.PCIE_CPLTO : Nat := 0x2300020
def F.PCIE_CPLTO_range : Fld := ⟨R.PCIE_CPLTO, 0, 4⟩
def R.PCIE_STATUS : Nat := 0x2300004
def F.PCIE_STATUS_up : Fld := ⟨R.PCIE_STATUS, 31, 1⟩
def F.PCIE_STATUS_speed : Fld := ⟨R.PCIE_STATUS, 29, 2⟩
def F.PCIE_STATUS_width : Fld := ⟨R.PCIE_STATUS, 24, 5⟩
def F.PCIE_STATUS_l1 : Fld := ⟨R.PCIE_STATUS, 23, 1⟩
def F.PCIE_STATUS_reversed : Fld := ⟨R.PCIE_STATUS, 22, 1⟩
def R.PCIE_ERR : Nat := 0x2300024
def F.PCIE_ERR_flag : Fld := ⟨R.PCIE_ERR, 31, 1⟩
def F.PCIE_ERR_kind : Fld := ⟨R.PCIE_ERR, 27, 4⟩
def R.PCIE_LINKCNT : Nat := 0x2300008
def F.PCIE_LINKCNT_high : Fld := ⟨R.PCIE_LINKCNT, 16, 16⟩
def F.PCIE_LINKCNT_low : Fld := ⟨R.PCIE_LINKCNT, 0, 16⟩
def R.PCIE_ERRHDR0 : Nat := 0x2300028
def F.PCIE_ERRHDR0_hdr : Fld := ⟨R.PCIE_ERRHDR0, 0, 32⟩
def R.PCIE_ERRHDR1 : Nat := 0x230002C
def F.PCIE_ERRHDR1_hdr : Fld := ⟨R.PCIE_ERRHDR1, 0, 32⟩
def R.PCIE_BAR2SEL : Nat := 0x230000C
def F.PCIE_BAR2SEL_group : Fld := ⟨R.PCIE_BAR2SEL, 0, 2⟩
def R.PCIE_BARDENY : Nat := 0x2300030
def F.PCIE_BARDENY_high : Fld := ⟨R.PCIE_BARDENY, 16, 16⟩
def F.PCIE_BARDENY_low : Fld := ⟨R.PCIE_BARDENY, 0, 16⟩
def R.PCIE_BAR4CTL : Nat := 0x2300010
def F.PCIE_BAR4CTL_en : Fld := ⟨R.PCIE_BAR4CTL, 31, 1⟩
def F.PCIE_BAR4CTL_write_en : Fld := ⟨R.PCIE_BAR4CTL, 30, 1⟩
def F.PCIE_BAR4CTL_interleaved : Fld := ⟨R.PCIE_BAR4CTL, 29, 1⟩
def F.PCIE_BAR4CTL_group : Fld := ⟨R.PCIE_BAR4CTL, 27, 2⟩
def F.PCIE_BAR4CTL_target : Fld := ⟨R.PCIE_BAR4CTL, 16, 4⟩
def R.PCIE_RXERR : Nat := 0x2300034
def F.PCIE_RXERR_high : Fld := ⟨R.PCIE_RXERR, 16, 16⟩
def F.PCIE_RXERR_low : Fld := ⟨R.PCIE_RXERR, 0, 16⟩
def R.PCIE_BAR4BASE_LO : Nat := 0x2300014
def F.PCIE_BAR4BASE_LO_base : Fld := ⟨R.PCIE_BAR4BASE_LO, 0, 32⟩
def R.PCIE_BAR4BASE_HI : Nat := 0x2300018
def R.PCIE_RATE : Nat := 0x2300038
def F.PCIE_RATE_in : Fld := ⟨R.PCIE_RATE, 16, 16⟩
def F.PCIE_RATE_out : Fld := ⟨R.PCIE_RATE, 0, 16⟩
def R.PCIE_TAGS : Nat := 0x230001C
def F.PCIE_TAGS_outstanding : Fld := ⟨R.PCIE_TAGS, 0, 11⟩
def R.PCIE_SPARE : Nat := 0x230003C
def R.PCIE_LANE (j : Nat) : Nat := 0x2300040 + 4 * j
def F.PCIE_LANE_active (j : Nat) : Fld := ⟨R.PCIE_LANE j, 31, 1⟩
def F.PCIE_LANE_inverted (j : Nat) : Fld := ⟨R.PCIE_LANE j, 30, 1⟩
def F.PCIE_LANE_errors (j : Nat) : Fld := ⟨R.PCIE_LANE j, 0, 16⟩
def R.PCIE_EQ (j : Nat) : Nat := 0x2300080 + 4 * j
def F.PCIE_EQ_tx_preset (j : Nat) : Fld := ⟨R.PCIE_EQ j, 8, 4⟩
def F.PCIE_EQ_rx_hint (j : Nat) : Fld := ⟨R.PCIE_EQ j, 4, 4⟩
def F.PCIE_EQ_eq_phase (j : Nat) : Fld := ⟨R.PCIE_EQ j, 0, 4⟩
def R.PCIE_MSGCNT (j : Nat) : Nat := 0x23000C0 + 4 * j
def F.PCIE_MSGCNT_counts (j : Nat) : Fld := ⟨R.PCIE_MSGCNT j, 0, 32⟩
def R.RING_CTRL : Nat := 0x2310000
def F.RING_CTRL_en : Fld := ⟨R.RING_CTRL, 31, 1⟩
def R.RING_STATUS : Nat := 0x2310004
def F.RING_STATUS_stopped : Fld := ⟨R.RING_STATUS, 0, 13⟩
def R.RING_POLL : Nat := 0x2310008
def F.RING_POLL_interval : Fld := ⟨R.RING_POLL, 0, 12⟩
def R.RING_DBBASE_LO : Nat := 0x231000C
def F.RING_DBBASE_LO_addr : Fld := ⟨R.RING_DBBASE_LO, 12, 20⟩
def R.RING_DBBASE_HI : Nat := 0x2310010
def F.RING_DBBASE_HI_addr_hi : Fld := ⟨R.RING_DBBASE_HI, 0, 32⟩
def R.RING_HRDY : Nat := 0x2310014
def F.RING_HRDY_level : Fld := ⟨R.RING_HRDY, 31, 1⟩
def F.RING_HRDY_unack : Fld := ⟨R.RING_HRDY, 0, 13⟩
def R.RING_EVLOST : Nat := 0x2310018
def F.RING_EVLOST_count : Fld := ⟨R.RING_EVLOST, 0, 16⟩
def R.RING_ERR : Nat := 0x231001C
def F.RING_ERR_flag : Fld := ⟨R.RING_ERR, 31, 1⟩
def F.RING_ERR_kind : Fld := ⟨R.RING_ERR, 28, 3⟩
def F.RING_ERR_ring : Fld := ⟨R.RING_ERR, 0, 4⟩
def R.RING_EVSEQ : Nat := 0x2310020
def F.RING_EVSEQ_seq : Fld := ⟨R.RING_EVSEQ, 0, 32⟩
def R.RING_R_BASE_LO (j : Nat) : Nat := 0x2310040 + 0x10 * j
def F.RING_R_BASE_LO_addr (j : Nat) : Fld := ⟨R.RING_R_BASE_LO j, 12, 20⟩
def R.RING_R_BASE_HI (j : Nat) : Nat := 0x2310044 + 0x10 * j
def F.RING_R_BASE_HI_addr_hi (j : Nat) : Fld := ⟨R.RING_R_BASE_HI j, 0, 32⟩
def R.RING_R_CFG (j : Nat) : Nat := 0x2310048 + 0x10 * j
def F.RING_R_CFG_en (j : Nat) : Fld := ⟨R.RING_R_CFG j, 31, 1⟩
def F.RING_R_CFG_size (j : Nat) : Fld := ⟨R.RING_R_CFG j, 24, 5⟩
def F.RING_R_CFG_vector (j : Nat) : Fld := ⟨R.RING_R_CFG j, 16, 6⟩
def F.RING_R_CFG_msix_en (j : Nat) : Fld := ⟨R.RING_R_CFG j, 15, 1⟩
def R.SLC_CTRL : Nat := 0x2320000
def F.SLC_CTRL_cnt_clear : Fld := ⟨R.SLC_CTRL, 31, 1⟩
def R.SLC_DROPS : Nat := 0x2320020
def F.SLC_DROPS_full : Fld := ⟨R.SLC_DROPS, 16, 16⟩
def F.SLC_DROPS_remainder : Fld := ⟨R.SLC_DROPS, 0, 16⟩
def R.SLC_STATUS : Nat := 0x2320004
def F.SLC_STATUS_refused : Fld := ⟨R.SLC_STATUS, 31, 1⟩
def F.SLC_STATUS_unack : Fld := ⟨R.SLC_STATUS, 0, 9⟩
def R.SLC_GAP : Nat := 0x2320024
def F.SLC_GAP_pending : Fld := ⟨R.SLC_GAP, 0, 16⟩
def R.SLC_POOL : Nat := 0x2320008
def F.SLC_POOL_used : Fld := ⟨R.SLC_POOL, 0, 16⟩
def R.SLC_CMD : Nat := 0x2320028
def F.SLC_CMD_drop : Fld := ⟨R.SLC_CMD, 31, 1⟩
def F.SLC_CMD_sluice : Fld := ⟨R.SLC_CMD, 0, 8⟩
def R.SLC_SEL : Nat := 0x232000C
def F.SLC_SEL_sluice : Fld := ⟨R.SLC_SEL, 0, 8⟩
def R.SLC_RING_LO : Nat := 0x232002C
def F.SLC_RING_LO_addr : Fld := ⟨R.SLC_RING_LO, 6, 26⟩
def R.SLC_RING_HI : Nat := 0x2320030
def F.SLC_RING_HI_addr_hi : Fld := ⟨R.SLC_RING_HI, 0, 32⟩
def R.SLC_CFG : Nat := 0x2320010
def F.SLC_CFG_en : Fld := ⟨R.SLC_CFG, 31, 1⟩
def F.SLC_CFG_producer : Fld := ⟨R.SLC_CFG, 4, 3⟩
def F.SLC_CFG_consumer : Fld := ⟨R.SLC_CFG, 0, 3⟩
def R.SLC_RINGCFG : Nat := 0x2320034
def F.SLC_RINGCFG_en : Fld := ⟨R.SLC_RINGCFG, 31, 1⟩
def F.SLC_RINGCFG_size : Fld := ⟨R.SLC_RINGCFG, 24, 4⟩
def F.SLC_RINGCFG_vector : Fld := ⟨R.SLC_RINGCFG, 16, 6⟩
def F.SLC_RINGCFG_msix_en : Fld := ⟨R.SLC_RINGCFG, 15, 1⟩
def R.SLC_SIZE : Nat := 0x2320014
def F.SLC_SIZE_bank : Fld := ⟨R.SLC_SIZE, 0, 4⟩
def R.SLC_ERR : Nat := 0x2320038
def F.SLC_ERR_flag : Fld := ⟨R.SLC_ERR, 31, 1⟩
def F.SLC_ERR_part : Fld := ⟨R.SLC_ERR, 8, 2⟩
def F.SLC_ERR_sluice : Fld := ⟨R.SLC_ERR, 0, 8⟩
def R.SLC_OCC : Nat := 0x2320018
def F.SLC_OCC_filling : Fld := ⟨R.SLC_OCC, 16, 16⟩
def F.SLC_OCC_draining : Fld := ⟨R.SLC_OCC, 0, 16⟩
def R.SLC_ITEMS : Nat := 0x232003C
def F.SLC_ITEMS_count : Fld := ⟨R.SLC_ITEMS, 0, 32⟩
def R.SLC_CUT : Nat := 0x232001C
def F.SLC_CUT_threshold : Fld := ⟨R.SLC_CUT, 0, 7⟩
def R.SLC_EN (j : Nat) : Nat := 0x2320040 + 4 * j
def F.SLC_EN_sluices (j : Nat) : Fld := ⟨R.SLC_EN j, 0, 32⟩
def R.SLC_NONEMPTY (j : Nat) : Nat := 0x2320060 + 4 * j
def F.SLC_NONEMPTY_sluices (j : Nat) : Fld := ⟨R.SLC_NONEMPTY j, 0, 32⟩
def R.HOP_CTRL : Nat := 0x2400000
def F.HOP_CTRL_test_en : Fld := ⟨R.HOP_CTRL, 31, 1⟩
def F.HOP_CTRL_cnt_clear : Fld := ⟨R.HOP_CTRL, 30, 1⟩
def R.HOP_STATUS : Nat := 0x2400004
def F.HOP_STATUS_scrubbing : Fld := ⟨R.HOP_STATUS, 16, 16⟩
def F.HOP_STATUS_handover : Fld := ⟨R.HOP_STATUS, 0, 16⟩
def R.HOP_CMD : Nat := 0x2400008
def F.HOP_CMD_go : Fld := ⟨R.HOP_CMD, 31, 1⟩
def F.HOP_CMD_scrub : Fld := ⟨R.HOP_CMD, 30, 1⟩
def F.HOP_CMD_bank : Fld := ⟨R.HOP_CMD, 16, 4⟩
def F.HOP_CMD_owner : Fld := ⟨R.HOP_CMD, 0, 3⟩
def R.HOP_DENY : Nat := 0x240000C
def F.HOP_DENY_race : Fld := ⟨R.HOP_DENY, 16, 16⟩
def F.HOP_DENY_miller : Fld := ⟨R.HOP_DENY, 0, 16⟩
def R.HOP_ECC : Nat := 0x2400010
def F.HOP_ECC_ue_flag : Fld := ⟨R.HOP_ECC, 31, 1⟩
def F.HOP_ECC_ce_count : Fld := ⟨R.HOP_ECC, 0, 16⟩
def R.HOP_ECCADDR : Nat := 0x2400014
def F.HOP_ECCADDR_addr : Fld := ⟨R.HOP_ECCADDR, 0, 26⟩
def R.HOP_TEST : Nat := 0x2400018
def F.HOP_TEST_region : Fld := ⟨R.HOP_TEST, 0, 18⟩
def R.HOP_TESTFAIL : Nat := 0x240001C
def F.HOP_TESTFAIL_failures : Fld := ⟨R.HOP_TESTFAIL, 16, 16⟩
def F.HOP_TESTFAIL_passes : Fld := ⟨R.HOP_TESTFAIL, 0, 16⟩
def R.HOP_BANK (j : Nat) : Nat := 0x2400040 + 4 * j
def F.HOP_BANK_spares_used (j : Nat) : Fld := ⟨R.HOP_BANK j, 27, 5⟩
def F.HOP_BANK_owner (j : Nat) : Fld := ⟨R.HOP_BANK j, 0, 3⟩
def R.HOP_STALL (j : Nat) : Nat := 0x2400080 + 4 * j
def F.HOP_STALL_cycles (j : Nat) : Fld := ⟨R.HOP_STALL j, 0, 32⟩
def R.SCHED_CTRL : Nat := 0x2410000
def F.SCHED_CTRL_en : Fld := ⟨R.SCHED_CTRL, 31, 1⟩
def F.SCHED_CTRL_predispatch : Fld := ⟨R.SCHED_CTRL, 30, 1⟩
def F.SCHED_CTRL_cnt_clear : Fld := ⟨R.SCHED_CTRL, 29, 1⟩
def R.SCHED_STATUS : Nat := 0x2410004
def F.SCHED_STATUS_late_due : Fld := ⟨R.SCHED_STATUS, 16, 16⟩
def F.SCHED_STATUS_delayed : Fld := ⟨R.SCHED_STATUS, 0, 13⟩
def R.SCHED_NTBASE : Nat := 0x2410008
def F.SCHED_NTBASE_offset : Fld := ⟨R.SCHED_NTBASE, 13, 13⟩
def F.SCHED_NTBASE_en : Fld := ⟨R.SCHED_NTBASE, 0, 1⟩
def R.SCHED_REFCNT : Nat := 0x241000C
def F.SCHED_REFCNT_count : Fld := ⟨R.SCHED_REFCNT, 0, 32⟩
def R.SCHED_ENQ (j : Nat) : Nat := 0x2410010 + 4 * j
def F.SCHED_ENQ_data (j : Nat) : Fld := ⟨R.SCHED_ENQ j, 0, 32⟩
def R.SCHED_ENQSTAT : Nat := 0x2410030
def F.SCHED_ENQSTAT_status : Fld := ⟨R.SCHED_ENQSTAT, 30, 2⟩
def F.SCHED_ENQSTAT_seq : Fld := ⟨R.SCHED_ENQSTAT, 0, 30⟩
def R.SCHED_DISPCNT : Nat := 0x2410034
def F.SCHED_DISPCNT_count : Fld := ⟨R.SCHED_DISPCNT, 0, 32⟩
def R.SCHED_PREEMPTCNT : Nat := 0x2410038
def F.SCHED_PREEMPTCNT_count : Fld := ⟨R.SCHED_PREEMPTCNT, 0, 32⟩
def R.SCHED_CANCELCNT : Nat := 0x241003C
def F.SCHED_CANCELCNT_count : Fld := ⟨R.SCHED_CANCELCNT, 0, 32⟩
def R.SCHED_RDY (j : Nat) : Nat := 0x2410040 + 4 * j
def F.SCHED_RDY_held (j : Nat) : Fld := ⟨R.SCHED_RDY j, 16, 6⟩
def F.SCHED_RDY_count (j : Nat) : Fld := ⟨R.SCHED_RDY j, 0, 13⟩
def R.SCHED_DLY (j : Nat) : Nat := 0x2410060 + 4 * j
def F.SCHED_DLY_count (j : Nat) : Fld := ⟨R.SCHED_DLY j, 0, 13⟩
def R.SCHED_DLYHEAD (j : Nat) : Nat := 0x2410070 + 4 * j
def F.SCHED_DLYHEAD_due (j : Nat) : Fld := ⟨R.SCHED_DLYHEAD j, 0, 32⟩
def R.SCHED_CORE (j : Nat) : Nat := 0x2410080 + 4 * j
def F.SCHED_CORE_state (j : Nat) : Fld := ⟨R.SCHED_CORE j, 30, 2⟩
def F.SCHED_CORE_slot (j : Nat) : Fld := ⟨R.SCHED_CORE j, 29, 1⟩
def F.SCHED_CORE_slot_prio (j : Nat) : Fld := ⟨R.SCHED_CORE j, 26, 3⟩
def F.SCHED_CORE_prio (j : Nat) : Fld := ⟨R.SCHED_CORE j, 23, 3⟩
def F.SCHED_CORE_depth (j : Nat) : Fld := ⟨R.SCHED_CORE j, 20, 3⟩
def F.SCHED_CORE_seq (j : Nat) : Fld := ⟨R.SCHED_CORE j, 0, 20⟩
def R.AUTH_CTRL : Nat := 0x70000
def F.AUTH_CTRL_open : Fld := ⟨R.AUTH_CTRL, 31, 1⟩
def F.AUTH_CTRL_close : Fld := ⟨R.AUTH_CTRL, 30, 1⟩
def F.AUTH_CTRL_port : Fld := ⟨R.AUTH_CTRL, 8, 2⟩
def F.AUTH_CTRL_level : Fld := ⟨R.AUTH_CTRL, 4, 2⟩
def R.AUTH_STATUS : Nat := 0x70004
def F.AUTH_STATUS_chal_ready : Fld := ⟨R.AUTH_STATUS, 29, 3⟩
def F.AUTH_STATUS_locked : Fld := ⟨R.AUTH_STATUS, 26, 3⟩
def F.AUTH_STATUS_req_scope : Fld := ⟨R.AUTH_STATUS, 0, 5⟩
def R.AUTH_JTAG : Nat := 0x70008
def F.AUTH_JTAG_level : Fld := ⟨R.AUTH_JTAG, 30, 2⟩
def F.AUTH_JTAG_next_key : Fld := ⟨R.AUTH_JTAG, 29, 1⟩
def F.AUTH_JTAG_scope : Fld := ⟨R.AUTH_JTAG, 0, 5⟩
def R.AUTH_MGMT : Nat := 0x7000C
def F.AUTH_MGMT_level : Fld := ⟨R.AUTH_MGMT, 30, 2⟩
def F.AUTH_MGMT_next_key : Fld := ⟨R.AUTH_MGMT, 29, 1⟩
def F.AUTH_MGMT_scope : Fld := ⟨R.AUTH_MGMT, 0, 5⟩
def R.AUTH_MBOX : Nat := 0x70010
def F.AUTH_MBOX_level : Fld := ⟨R.AUTH_MBOX, 30, 2⟩
def F.AUTH_MBOX_next_key : Fld := ⟨R.AUTH_MBOX, 29, 1⟩
def F.AUTH_MBOX_scope : Fld := ⟨R.AUTH_MBOX, 0, 5⟩
def R.AUTH_IDLE : Nat := 0x70014
def F.AUTH_IDLE_seconds : Fld := ⟨R.AUTH_IDLE, 0, 16⟩
def R.AUTH_FAILCNT : Nat := 0x70018
def F.AUTH_FAILCNT_total : Fld := ⟨R.AUTH_FAILCNT, 16, 16⟩
def F.AUTH_FAILCNT_run : Fld := ⟨R.AUTH_FAILCNT, 0, 16⟩
def R.AUTH_LOCKOUT : Nat := 0x7001C
def F.AUTH_LOCKOUT_left : Fld := ⟨R.AUTH_LOCKOUT, 16, 16⟩
def F.AUTH_LOCKOUT_base : Fld := ⟨R.AUTH_LOCKOUT, 0, 16⟩
def R.AUTH_CHAL (j : Nat) : Nat := 0x70020 + 4 * j
def F.AUTH_CHAL_data (j : Nat) : Fld := ⟨R.AUTH_CHAL j, 0, 32⟩
def R.AUTH_RESP (j : Nat) : Nat := 0x70040 + 4 * j
def F.AUTH_RESP_data (j : Nat) : Fld := ⟨R.AUTH_RESP j, 0, 32⟩
def R.DBG_CTRL : Nat := 0x2600000
def F.DBG_CTRL_rearm : Fld := ⟨R.DBG_CTRL, 31, 1⟩
def F.DBG_CTRL_port : Fld := ⟨R.DBG_CTRL, 0, 2⟩
def R.DBG_SRSEL : Nat := 0x26000BC
def F.DBG_SRSEL_refused : Fld := ⟨R.DBG_SRSEL, 31, 1⟩
def F.DBG_SRSEL_mill : Fld := ⟨R.DBG_SRSEL, 20, 8⟩
def F.DBG_SRSEL_stone : Fld := ⟨R.DBG_SRSEL, 16, 4⟩
def F.DBG_SRSEL_row : Fld := ⟨R.DBG_SRSEL, 0, 12⟩
def R.DBG_STATUS : Nat := 0x2600004
def F.DBG_STATUS_pulse_pending : Fld := ⟨R.DBG_STATUS, 12, 4⟩
def F.DBG_STATUS_halting : Fld := ⟨R.DBG_STATUS, 8, 4⟩
def R.DBG_BDDATA (j : Nat) : Nat := 0x26000C0 + 4 * j
def F.DBG_BDDATA_data (j : Nat) : Fld := ⟨R.DBG_BDDATA j, 0, 32⟩
def R.DBG_HALTREQ : Nat := 0x2600008
def F.DBG_HALTREQ_step : Fld := ⟨R.DBG_HALTREQ, 8, 4⟩
def F.DBG_HALTREQ_run : Fld := ⟨R.DBG_HALTREQ, 4, 4⟩
def F.DBG_HALTREQ_halt : Fld := ⟨R.DBG_HALTREQ, 0, 4⟩
def R.DBG_SRDATA_LO : Nat := 0x26000D0
def F.DBG_SRDATA_LO_lanes : Fld := ⟨R.DBG_SRDATA_LO, 0, 32⟩
def R.DBG_SRDATA_HI : Nat := 0x26000D4
def F.DBG_SRDATA_HI_lanes : Fld := ⟨R.DBG_SRDATA_HI, 0, 32⟩
def R.DBG_BREAKEN : Nat := 0x260000C
def F.DBG_BREAKEN_en : Fld := ⟨R.DBG_BREAKEN, 0, 4⟩
def R.DBG_MSEL : Nat := 0x26000D8
def F.DBG_MSEL_core : Fld := ⟨R.DBG_MSEL, 0, 5⟩
def R.DBG_BREAKREC (j : Nat) : Nat := 0x2600010 + 4 * j
def F.DBG_BREAKREC_valid (j : Nat) : Fld := ⟨R.DBG_BREAKREC j, 31, 1⟩
def F.DBG_BREAKREC_mill (j : Nat) : Fld := ⟨R.DBG_BREAKREC j, 21, 8⟩
def F.DBG_BREAKREC_stone (j : Nat) : Fld := ⟨R.DBG_BREAKREC j, 17, 4⟩
def F.DBG_BREAKREC_lane (j : Nat) : Fld := ⟨R.DBG_BREAKREC j, 11, 6⟩
def F.DBG_BREAKREC_step (j : Nat) : Fld := ⟨R.DBG_BREAKREC j, 0, 11⟩
def R.DBG_MCTRL : Nat := 0x26000DC
def F.DBG_MCTRL_halt : Fld := ⟨R.DBG_MCTRL, 31, 1⟩
def F.DBG_MCTRL_resume : Fld := ⟨R.DBG_MCTRL, 30, 1⟩
def F.DBG_MCTRL_step : Fld := ⟨R.DBG_MCTRL, 29, 1⟩
def R.DBG_HALTCAUSE (j : Nat) : Nat := 0x2600020 + 4 * j
def F.DBG_HALTCAUSE_turn (j : Nat) : Fld := ⟨R.DBG_HALTCAUSE j, 16, 16⟩
def F.DBG_HALTCAUSE_causes (j : Nat) : Fld := ⟨R.DBG_HALTCAUSE j, 9, 6⟩
def R.DBG_MSTATUS : Nat := 0x26000E0
def F.DBG_MSTATUS_halted : Fld := ⟨R.DBG_MSTATUS, 31, 1⟩
def F.DBG_MSTATUS_cause : Fld := ⟨R.DBG_MSTATUS, 28, 3⟩
def F.DBG_MSTATUS_resv_cleared : Fld := ⟨R.DBG_MSTATUS, 27, 1⟩
def F.DBG_MSTATUS_wait_abandoned : Fld := ⟨R.DBG_MSTATUS, 26, 1⟩
def R.DBG_RUNLEFT_LO (j : Nat) : Nat := 0x2600030 + 8 * j
def F.DBG_RUNLEFT_LO_value (j : Nat) : Fld := ⟨R.DBG_RUNLEFT_LO j, 0, 32⟩
def R.DBG_RUNLEFT_HI (j : Nat) : Nat := 0x2600034 + 8 * j
def F.DBG_RUNLEFT_HI_value (j : Nat) : Fld := ⟨R.DBG_RUNLEFT_HI j, 0, 32⟩
def R.DBG_MPC_LO : Nat := 0x26000E4
def F.DBG_MPC_LO_value : Fld := ⟨R.DBG_MPC_LO, 0, 32⟩
def R.DBG_MPC_HI : Nat := 0x26000E8
def F.DBG_MPC_HI_value : Fld := ⟨R.DBG_MPC_HI, 0, 32⟩
def R.DBG_WSEL : Nat := 0x2600050
def F.DBG_WSEL_part : Fld := ⟨R.DBG_WSEL, 4, 2⟩
def F.DBG_WSEL_unit : Fld := ⟨R.DBG_WSEL, 0, 4⟩
def R.DBG_MGPRSEL : Nat := 0x26000EC
def F.DBG_MGPRSEL_sel : Fld := ⟨R.DBG_MGPRSEL, 0, 5⟩
def R.DBG_WCFG : Nat := 0x2600054
def F.DBG_WCFG_en : Fld := ⟨R.DBG_WCFG, 31, 1⟩
def F.DBG_WCFG_action : Fld := ⟨R.DBG_WCFG, 29, 2⟩
def F.DBG_WCFG_link : Fld := ⟨R.DBG_WCFG, 28, 1⟩
def F.DBG_WCFG_kind : Fld := ⟨R.DBG_WCFG, 26, 2⟩
def F.DBG_WCFG_dir : Fld := ⟨R.DBG_WCFG, 24, 2⟩
def F.DBG_WCFG_data_en : Fld := ⟨R.DBG_WCFG, 23, 1⟩
def F.DBG_WCFG_ctx_mask : Fld := ⟨R.DBG_WCFG, 15, 8⟩
def F.DBG_WCFG_all : Fld := ⟨R.DBG_WCFG, 14, 1⟩
def F.DBG_WCFG_source : Fld := ⟨R.DBG_WCFG, 0, 9⟩
def R.DBG_MGPR_LO : Nat := 0x26000F0
def F.DBG_MGPR_LO_value : Fld := ⟨R.DBG_MGPR_LO, 0, 32⟩
def R.DBG_MGPR_HI : Nat := 0x26000F4
def F.DBG_MGPR_HI_value : Fld := ⟨R.DBG_MGPR_HI, 0, 32⟩
def R.DBG_WLOW_LO : Nat := 0x2600058
def F.DBG_WLOW_LO_value : Fld := ⟨R.DBG_WLOW_LO, 0, 32⟩
def R.DBG_WLOW_HI : Nat := 0x260005C
def F.DBG_WLOW_HI_value : Fld := ⟨R.DBG_WLOW_HI, 0, 8⟩
def R.DBG_MCSRSEL : Nat := 0x26000F8
def F.DBG_MCSRSEL_sel : Fld := ⟨R.DBG_MCSRSEL, 0, 12⟩
def R.DBG_WHIGH_LO : Nat := 0x2600060
def F.DBG_WHIGH_LO_value : Fld := ⟨R.DBG_WHIGH_LO, 0, 32⟩
def R.DBG_WHIGH_HI : Nat := 0x2600064
def F.DBG_WHIGH_HI_value : Fld := ⟨R.DBG_WHIGH_HI, 0, 8⟩
def R.DBG_MCSR_LO : Nat := 0x26000FC
def F.DBG_MCSR_LO_value : Fld := ⟨R.DBG_MCSR_LO, 0, 32⟩
def R.DBG_MCSR_HI : Nat := 0x2600100
def F.DBG_MCSR_HI_value : Fld := ⟨R.DBG_MCSR_HI, 0, 32⟩
def R.DBG_WDATA_LO : Nat := 0x2600068
def F.DBG_WDATA_LO_value : Fld := ⟨R.DBG_WDATA_LO, 0, 32⟩
def R.DBG_WDATA_HI : Nat := 0x260006C
def F.DBG_WDATA_HI_value : Fld := ⟨R.DBG_WDATA_HI, 0, 32⟩
def R.DBG_MPCSAMP_LO : Nat := 0x2600104
def F.DBG_MPCSAMP_LO_value : Fld := ⟨R.DBG_MPCSAMP_LO, 0, 32⟩
def R.DBG_MPCSAMP_HI : Nat := 0x2600108
def F.DBG_MPCSAMP_HI_value : Fld := ⟨R.DBG_MPCSAMP_HI, 0, 32⟩
def R.DBG_WMASK_LO : Nat := 0x2600070
def F.DBG_WMASK_LO_value : Fld := ⟨R.DBG_WMASK_LO, 0, 32⟩
def R.DBG_WMASK_HI : Nat := 0x2600074
def F.DBG_WMASK_HI_value : Fld := ⟨R.DBG_WMASK_HI, 0, 32⟩
def R.DBG_MRSEL : Nat := 0x260010C
def F.DBG_MRSEL_data : Fld := ⟨R.DBG_MRSEL, 8, 1⟩
def F.DBG_MRSEL_index : Fld := ⟨R.DBG_MRSEL, 0, 3⟩
def R.DBG_WCOUNT : Nat := 0x2600078
def F.DBG_WCOUNT_target : Fld := ⟨R.DBG_WCOUNT, 16, 16⟩
def F.DBG_WCOUNT_count : Fld := ⟨R.DBG_WCOUNT, 0, 16⟩
def R.DBG_MRCFG : Nat := 0x2600110
def F.DBG_MRCFG_en : Fld := ⟨R.DBG_MRCFG, 31, 1⟩
def F.DBG_MRCFG_action : Fld := ⟨R.DBG_MRCFG, 30, 1⟩
def F.DBG_MRCFG_link : Fld := ⟨R.DBG_MRCFG, 29, 1⟩
def F.DBG_MRCFG_lrange : Fld := ⟨R.DBG_MRCFG, 26, 3⟩
def F.DBG_MRCFG_dir : Fld := ⟨R.DBG_MRCFG, 24, 2⟩
def R.DBG_WHITREC : Nat := 0x260007C
def F.DBG_WHITREC_turn : Fld := ⟨R.DBG_WHITREC, 16, 16⟩
def F.DBG_WHITREC_step : Fld := ⟨R.DBG_WHITREC, 0, 11⟩
def R.DBG_MRLOW_LO : Nat := 0x2600114
def F.DBG_MRLOW_LO_addr : Fld := ⟨R.DBG_MRLOW_LO, 0, 32⟩
def R.DBG_MRLOW_HI : Nat := 0x2600118
def F.DBG_MRLOW_HI_addr : Fld := ⟨R.DBG_MRLOW_HI, 0, 32⟩
def R.DBG_WHIT (j : Nat) : Nat := 0x2600080 + 4 * j
def F.DBG_WHIT_fired (j : Nat) : Fld := ⟨R.DBG_WHIT j, 0, 16⟩
def R.DBG_MRHIGH_LO : Nat := 0x260011C
def F.DBG_MRHIGH_LO_addr : Fld := ⟨R.DBG_MRHIGH_LO, 0, 32⟩
def R.DBG_MRHIGH_HI : Nat := 0x2600120
def F.DBG_MRHIGH_HI_addr : Fld := ⟨R.DBG_MRHIGH_HI, 0, 32⟩
def R.DBG_WOWNER (j : Nat) : Nat := 0x2600090 + 4 * j
def F.DBG_WOWNER_port (j : Nat) : Fld := ⟨R.DBG_WOWNER j, 0, 32⟩
def R.DBG_MRQUAL : Nat := 0x2600124
def F.DBG_MRQUAL_kind : Fld := ⟨R.DBG_MRQUAL, 30, 2⟩
def F.DBG_MRQUAL_value : Fld := ⟨R.DBG_MRQUAL, 0, 16⟩
def R.DBG_RADDR : Nat := 0x26000A0
def F.DBG_RADDR_offset : Fld := ⟨R.DBG_RADDR, 2, 24⟩
def R.DBG_RDATA : Nat := 0x26000A4
def F.DBG_RDATA_data : Fld := ⟨R.DBG_RDATA, 0, 32⟩
def R.DBG_MHIT : Nat := 0x2600128
def F.DBG_MHIT_valid : Fld := ⟨R.DBG_MHIT, 31, 1⟩
def F.DBG_MHIT_data : Fld := ⟨R.DBG_MHIT, 8, 1⟩
def F.DBG_MHIT_index : Fld := ⟨R.DBG_MHIT, 0, 3⟩
def R.DBG_DENYCNT : Nat := 0x26000A8
def F.DBG_DENYCNT_side_effect : Fld := ⟨R.DBG_DENYCNT, 16, 16⟩
def F.DBG_DENYCNT_denied : Fld := ⟨R.DBG_DENYCNT, 0, 16⟩
def R.DBG_MHITADDR_LO : Nat := 0x260012C
def F.DBG_MHITADDR_LO_addr : Fld := ⟨R.DBG_MHITADDR_LO, 0, 32⟩
def R.DBG_MHITADDR_HI : Nat := 0x2600130
def F.DBG_MHITADDR_HI_addr : Fld := ⟨R.DBG_MHITADDR_HI, 0, 32⟩
def R.DBG_BDCTRL : Nat := 0x26000AC
def F.DBG_BDCTRL_go : Fld := ⟨R.DBG_BDCTRL, 31, 1⟩
def F.DBG_BDCTRL_write : Fld := ⟨R.DBG_BDCTRL, 30, 1⟩
def F.DBG_BDCTRL_kind : Fld := ⟨R.DBG_BDCTRL, 28, 2⟩
def F.DBG_BDCTRL_target : Fld := ⟨R.DBG_BDCTRL, 16, 8⟩
def R.DBG_MHALTED : Nat := 0x2600134
def F.DBG_MHALTED_cores : Fld := ⟨R.DBG_MHALTED, 0, 32⟩
def R.DBG_BDADDR_LO : Nat := 0x26000B0
def F.DBG_BDADDR_LO_addr : Fld := ⟨R.DBG_BDADDR_LO, 4, 28⟩
def R.DBG_BDADDR_HI : Nat := 0x26000B4
def F.DBG_BDADDR_HI_addr_hi : Fld := ⟨R.DBG_BDADDR_HI, 0, 6⟩
def R.DBG_MOWNER_LO : Nat := 0x2600138
def F.DBG_MOWNER_LO_port : Fld := ⟨R.DBG_MOWNER_LO, 0, 32⟩
def R.DBG_MOWNER_HI : Nat := 0x260013C
def F.DBG_MOWNER_HI_port : Fld := ⟨R.DBG_MOWNER_HI, 0, 32⟩
def R.DBG_BDSTAT : Nat := 0x26000B8
def F.DBG_BDSTAT_status : Fld := ⟨R.DBG_BDSTAT, 0, 3⟩
def R.ACQ_CTRL : Nat := 0x2620000
def F.ACQ_CTRL_cnt_clear : Fld := ⟨R.ACQ_CTRL, 31, 1⟩
def R.ACQ_CNTDATA : Nat := 0x2620020
def F.ACQ_CNTDATA_count : Fld := ⟨R.ACQ_CNTDATA, 0, 32⟩
def R.ACQ_STATUS : Nat := 0x2620004
def F.ACQ_STATUS_capturing : Fld := ⟨R.ACQ_STATUS, 28, 4⟩
def F.ACQ_STATUS_braking : Fld := ⟨R.ACQ_STATUS, 24, 4⟩
def F.ACQ_STATUS_armed : Fld := ⟨R.ACQ_STATUS, 20, 4⟩
def F.ACQ_STATUS_x_pending : Fld := ⟨R.ACQ_STATUS, 19, 1⟩
def F.ACQ_STATUS_refused : Fld := ⟨R.ACQ_STATUS, 18, 1⟩
def R.ACQ_ERR : Nat := 0x2620024
def F.ACQ_ERR_flag : Fld := ⟨R.ACQ_ERR, 31, 1⟩
def F.ACQ_ERR_kind : Fld := ⟨R.ACQ_ERR, 28, 3⟩
def F.ACQ_ERR_partition : Fld := ⟨R.ACQ_ERR, 26, 2⟩
def R.ACQ_HWM : Nat := 0x2620008
def F.ACQ_HWM_level : Fld := ⟨R.ACQ_HWM, 0, 4⟩
def R.ACQ_RATE : Nat := 0x2620028
def F.ACQ_RATE_dram : Fld := ⟨R.ACQ_RATE, 16, 16⟩
def F.ACQ_RATE_host : Fld := ⟨R.ACQ_RATE, 0, 16⟩
def R.ACQ_XCFG : Nat := 0x262000C
def F.ACQ_XCFG_in_rising : Fld := ⟨R.ACQ_XCFG, 31, 1⟩
def F.ACQ_XCFG_x_width : Fld := ⟨R.ACQ_XCFG, 8, 8⟩
def R.ACQ_TRIGREC : Nat := 0x262002C
def F.ACQ_TRIGREC_partition : Fld := ⟨R.ACQ_TRIGREC, 30, 2⟩
def F.ACQ_TRIGREC_sources : Fld := ⟨R.ACQ_TRIGREC, 24, 6⟩
def F.ACQ_TRIGREC_turn : Fld := ⟨R.ACQ_TRIGREC, 0, 24⟩
def R.ACQ_SWTRIG : Nat := 0x2620010
def F.ACQ_SWTRIG_trig : Fld := ⟨R.ACQ_SWTRIG, 0, 4⟩
def R.ACQ_MILLEN (j : Nat) : Nat := 0x2620040 + 4 * j
def F.ACQ_MILLEN_mills (j : Nat) : Fld := ⟨R.ACQ_MILLEN j, 0, 32⟩
def R.ACQ_GSEL : Nat := 0x2620014
def F.ACQ_GSEL_group : Fld := ⟨R.ACQ_GSEL, 0, 8⟩
def R.ACQ_P_CTRL (j : Nat) : Nat := 0x2620100 + 0x20 * j
def F.ACQ_P_CTRL_en (j : Nat) : Fld := ⟨R.ACQ_P_CTRL j, 31, 1⟩
def F.ACQ_P_CTRL_post_action (j : Nat) : Fld := ⟨R.ACQ_P_CTRL j, 29, 2⟩
def F.ACQ_P_CTRL_drive_x (j : Nat) : Fld := ⟨R.ACQ_P_CTRL j, 28, 1⟩
def F.ACQ_P_CTRL_src_in (j : Nat) : Fld := ⟨R.ACQ_P_CTRL j, 27, 1⟩
def F.ACQ_P_CTRL_src_x (j : Nat) : Fld := ⟨R.ACQ_P_CTRL j, 26, 1⟩
def F.ACQ_P_CTRL_src_watch (j : Nat) : Fld := ⟨R.ACQ_P_CTRL j, 25, 1⟩
def F.ACQ_P_CTRL_interval (j : Nat) : Fld := ⟨R.ACQ_P_CTRL j, 0, 16⟩
def R.ACQ_P_AUTO (j : Nat) : Nat := 0x2620104 + 0x20 * j
def F.ACQ_P_AUTO_timeout (j : Nat) : Fld := ⟨R.ACQ_P_AUTO j, 0, 24⟩
def R.ACQ_P_POST (j : Nat) : Nat := 0x2620108 + 0x20 * j
def F.ACQ_P_POST_turns (j : Nat) : Fld := ⟨R.ACQ_P_POST j, 0, 32⟩
def R.ACQ_GDEF : Nat := 0x2620018
def F.ACQ_GDEF_en : Fld := ⟨R.ACQ_GDEF, 31, 1⟩
def F.ACQ_GDEF_signed : Fld := ⟨R.ACQ_GDEF, 30, 1⟩
def F.ACQ_GDEF_partition : Fld := ⟨R.ACQ_GDEF, 28, 2⟩
def F.ACQ_GDEF_mill : Fld := ⟨R.ACQ_GDEF, 20, 8⟩
def F.ACQ_GDEF_stone : Fld := ⟨R.ACQ_GDEF, 16, 4⟩
def F.ACQ_GDEF_width : Fld := ⟨R.ACQ_GDEF, 6, 6⟩
def F.ACQ_GDEF_lsb : Fld := ⟨R.ACQ_GDEF, 0, 6⟩
def R.ACQ_P_RING (j : Nat) : Nat := 0x262010C + 0x20 * j
def F.ACQ_P_RING_channel (j : Nat) : Fld := ⟨R.ACQ_P_RING j, 28, 4⟩
def F.ACQ_P_RING_size (j : Nat) : Fld := ⟨R.ACQ_P_RING j, 24, 4⟩
def F.ACQ_P_RING_base (j : Nat) : Fld := ⟨R.ACQ_P_RING j, 0, 18⟩
def R.ACQ_P_HBUF_LO (j : Nat) : Nat := 0x2620110 + 0x20 * j
def F.ACQ_P_HBUF_LO_addr (j : Nat) : Fld := ⟨R.ACQ_P_HBUF_LO j, 20, 12⟩
def F.ACQ_P_HBUF_LO_size (j : Nat) : Fld := ⟨R.ACQ_P_HBUF_LO j, 0, 4⟩
def R.ACQ_P_HBUF_HI (j : Nat) : Nat := 0x2620114 + 0x20 * j
def F.ACQ_P_HBUF_HI_addr_hi (j : Nat) : Fld := ⟨R.ACQ_P_HBUF_HI j, 0, 32⟩
def R.ACQ_CNTSEL : Nat := 0x262001C
def F.ACQ_CNTSEL_partition : Fld := ⟨R.ACQ_CNTSEL, 4, 2⟩
def F.ACQ_CNTSEL_counter : Fld := ⟨R.ACQ_CNTSEL, 0, 3⟩
def R.ACQ_P_FILL (j : Nat) : Nat := 0x2620118 + 0x20 * j
def F.ACQ_P_FILL_ring (j : Nat) : Fld := ⟨R.ACQ_P_FILL j, 16, 16⟩
def F.ACQ_P_FILL_host (j : Nat) : Fld := ⟨R.ACQ_P_FILL j, 0, 16⟩
def R.TRC_CTRL : Nat := 0x2610000
def F.TRC_CTRL_en : Fld := ⟨R.TRC_CTRL, 31, 1⟩
def F.TRC_CTRL_full_auth : Fld := ⟨R.TRC_CTRL, 30, 1⟩
def F.TRC_CTRL_flush : Fld := ⟨R.TRC_CTRL, 29, 1⟩
def F.TRC_CTRL_cnt_clear : Fld := ⟨R.TRC_CTRL, 28, 1⟩
def F.TRC_CTRL_ctx_mask : Fld := ⟨R.TRC_CTRL, 16, 5⟩
def R.TRC_LOST : Nat := 0x2610020
def F.TRC_LOST_count : Fld := ⟨R.TRC_LOST, 0, 32⟩
def R.TRC_STATUS : Nat := 0x2610004
def F.TRC_STATUS_triggered : Fld := ⟨R.TRC_STATUS, 31, 1⟩
def F.TRC_STATUS_stopped : Fld := ⟨R.TRC_STATUS, 30, 1⟩
def F.TRC_STATUS_wrapped : Fld := ⟨R.TRC_STATUS, 29, 1⟩
def F.TRC_STATUS_refused : Fld := ⟨R.TRC_STATUS, 28, 1⟩
def F.TRC_STATUS_trig_core : Fld := ⟨R.TRC_STATUS, 8, 5⟩
def F.TRC_STATUS_trig_src : Fld := ⟨R.TRC_STATUS, 4, 2⟩
def R.TRC_PKTCNT : Nat := 0x2610024
def F.TRC_PKTCNT_count : Fld := ⟨R.TRC_PKTCNT, 0, 32⟩
def R.TRC_RING : Nat := 0x2610008
def F.TRC_RING_ring : Fld := ⟨R.TRC_RING, 0, 32⟩
def R.TRC_SYNC : Nat := 0x2610028
def F.TRC_SYNC_period : Fld := ⟨R.TRC_SYNC, 0, 16⟩
def R.TRC_WPOS : Nat := 0x261000C
def F.TRC_WPOS_blocks : Fld := ⟨R.TRC_WPOS, 0, 32⟩
def R.TRC_ERR : Nat := 0x261002C
def F.TRC_ERR_flag : Fld := ⟨R.TRC_ERR, 31, 1⟩
def F.TRC_ERR_status : Fld := ⟨R.TRC_ERR, 28, 3⟩
def R.TRC_STOPDLY : Nat := 0x2610010
def F.TRC_STOPDLY_cycles : Fld := ⟨R.TRC_STOPDLY, 0, 32⟩
def R.TRC_FLUSHTO : Nat := 0x2610030
def F.TRC_FLUSHTO_us : Fld := ⟨R.TRC_FLUSHTO, 0, 16⟩
def R.TRC_TRIG : Nat := 0x2610014
def F.TRC_TRIG_sw : Fld := ⟨R.TRC_TRIG, 31, 1⟩
def F.TRC_TRIG_src_range : Fld := ⟨R.TRC_TRIG, 27, 1⟩
def F.TRC_TRIG_src_x : Fld := ⟨R.TRC_TRIG, 26, 1⟩
def F.TRC_TRIG_src_in : Fld := ⟨R.TRC_TRIG, 25, 1⟩
def R.TRC_EXCL : Nat := 0x2610034
def F.TRC_EXCL_count : Fld := ⟨R.TRC_EXCL, 0, 32⟩
def R.TRC_TRIGREC_LO : Nat := 0x2610018
def F.TRC_TRIGREC_LO_tb0 : Fld := ⟨R.TRC_TRIGREC_LO, 0, 32⟩
def R.TRC_TRIGREC_HI : Nat := 0x261001C
def F.TRC_TRIGREC_HI_tb0 : Fld := ⟨R.TRC_TRIGREC_HI, 0, 32⟩
def R.TRC_RATE : Nat := 0x2610038
def F.TRC_RATE_rate : Fld := ⟨R.TRC_RATE, 0, 16⟩
def R.TRC_CORE (j : Nat) : Nat := 0x2610080 + 4 * j
def F.TRC_CORE_en (j : Nat) : Fld := ⟨R.TRC_CORE j, 31, 1⟩
def F.TRC_CORE_excluded (j : Nat) : Fld := ⟨R.TRC_CORE j, 30, 1⟩
def F.TRC_CORE_napping (j : Nat) : Fld := ⟨R.TRC_CORE j, 29, 1⟩
def F.TRC_CORE_fill (j : Nat) : Fld := ⟨R.TRC_CORE j, 17, 9⟩
def F.TRC_CORE_dropped (j : Nat) : Fld := ⟨R.TRC_CORE j, 0, 16⟩
def R.TRC_LASTSTOP : Nat := 0x261003C
def F.TRC_LASTSTOP_blocks : Fld := ⟨R.TRC_LASTSTOP, 0, 32⟩
def R.TB_CTRL : Nat := 0x2700000
def F.TB_CTRL_spread : Fld := ⟨R.TB_CTRL, 20, 4⟩
def R.TB_STATUS : Nat := 0x2700004
def F.TB_STATUS_anchored : Fld := ⟨R.TB_STATUS, 29, 3⟩
def F.TB_STATUS_tb1_anchored : Fld := ⟨R.TB_STATUS, 24, 4⟩
def F.TB_STATUS_refused : Fld := ⟨R.TB_STATUS, 0, 16⟩
def R.TB_JUMPTHR : Nat := 0x2700008
def F.TB_JUMPTHR_us : Fld := ⟨R.TB_JUMPTHR, 0, 20⟩
def R.TB_EVSTAT : Nat := 0x270000C
def F.TB_EVSTAT_pg_fired : Fld := ⟨R.TB_EVSTAT, 24, 8⟩
def F.TB_EVSTAT_cap_overrun : Fld := ⟨R.TB_EVSTAT, 16, 8⟩
def F.TB_EVSTAT_captured : Fld := ⟨R.TB_EVSTAT, 8, 8⟩
def F.TB_EVSTAT_pg_running : Fld := ⟨R.TB_EVSTAT, 0, 8⟩
def R.TBK_CFG (j : Nat) : Nat := 0x2700020 + 0x20 * j
def F.TBK_CFG_unanchor (j : Nat) : Fld := ⟨R.TBK_CFG j, 31, 1⟩
def F.TBK_CFG_source (j : Nat) : Fld := ⟨R.TBK_CFG j, 30, 1⟩
def F.TBK_CFG_follow (j : Nat) : Fld := ⟨R.TBK_CFG j, 29, 1⟩
def R.TBK_STATUS (j : Nat) : Nat := 0x2700024 + 0x20 * j
def F.TBK_STATUS_anchored (j : Nat) : Fld := ⟨R.TBK_STATUS j, 31, 1⟩
def F.TBK_STATUS_slewing (j : Nat) : Fld := ⟨R.TBK_STATUS j, 30, 1⟩
def F.TBK_STATUS_clamped (j : Nat) : Fld := ⟨R.TBK_STATUS j, 29, 1⟩
def F.TBK_STATUS_slew_neg (j : Nat) : Fld := ⟨R.TBK_STATUS j, 20, 1⟩
def F.TBK_STATUS_slew_left (j : Nat) : Fld := ⟨R.TBK_STATUS j, 0, 20⟩
def R.TBK_NS_LO (j : Nat) : Nat := 0x2700028 + 0x20 * j
def F.TBK_NS_LO_value (j : Nat) : Fld := ⟨R.TBK_NS_LO j, 0, 32⟩
def R.TBK_NS_HI (j : Nat) : Nat := 0x270002C + 0x20 * j
def F.TBK_NS_HI_value (j : Nat) : Fld := ⟨R.TBK_NS_HI j, 0, 32⟩
def R.TBK_FRAC (j : Nat) : Nat := 0x2700030 + 0x20 * j
def F.TBK_FRAC_frac (j : Nat) : Fld := ⟨R.TBK_FRAC j, 0, 32⟩
def R.TBK_RATE (j : Nat) : Nat := 0x2700034 + 0x20 * j
def F.TBK_RATE_rate (j : Nat) : Fld := ⟨R.TBK_RATE j, 0, 32⟩
def R.TBK_STEP_LO (j : Nat) : Nat := 0x2700038 + 0x20 * j
def F.TBK_STEP_LO_offset (j : Nat) : Fld := ⟨R.TBK_STEP_LO j, 0, 32⟩
def R.TBK_STEP_HI (j : Nat) : Nat := 0x270003C + 0x20 * j
def F.TBK_STEP_HI_offset (j : Nat) : Fld := ⟨R.TBK_STEP_HI j, 0, 32⟩
def R.TB1_TURNS_LO (j : Nat) : Nat := 0x2700080 + 0x10 * j
def F.TB1_TURNS_LO_turns (j : Nat) : Fld := ⟨R.TB1_TURNS_LO j, 0, 32⟩
def R.TB1_TURNS_HI (j : Nat) : Nat := 0x2700084 + 0x10 * j
def F.TB1_TURNS_HI_turns (j : Nat) : Fld := ⟨R.TB1_TURNS_HI j, 0, 32⟩
def R.TB1_STATUS (j : Nat) : Nat := 0x2700088 + 0x10 * j
def F.TB1_STATUS_anchored (j : Nat) : Fld := ⟨R.TB1_STATUS j, 31, 1⟩
def F.TB1_STATUS_last_valid (j : Nat) : Fld := ⟨R.TB1_STATUS j, 30, 1⟩
def F.TB1_STATUS_sticky_invalid (j : Nat) : Fld := ⟨R.TB1_STATUS j, 29, 1⟩
def F.TB1_STATUS_first_invalid (j : Nat) : Fld := ⟨R.TB1_STATUS j, 12, 16⟩
def F.TB1_STATUS_step (j : Nat) : Fld := ⟨R.TB1_STATUS j, 0, 11⟩
def R.TB_PGSEL : Nat := 0x27000C0
def F.TB_PGSEL_gen : Fld := ⟨R.TB_PGSEL, 0, 3⟩
def R.TB_PGCFG : Nat := 0x27000C4
def F.TB_PGCFG_en : Fld := ⟨R.TB_PGCFG, 31, 1⟩
def F.TB_PGCFG_tb : Fld := ⟨R.TB_PGCFG, 28, 2⟩
def F.TB_PGCFG_part : Fld := ⟨R.TB_PGCFG, 26, 2⟩
def F.TB_PGCFG_irq : Fld := ⟨R.TB_PGCFG, 25, 1⟩
def F.TB_PGCFG_core : Fld := ⟨R.TB_PGCFG, 20, 5⟩
def F.TB_PGCFG_width : Fld := ⟨R.TB_PGCFG, 0, 20⟩
def R.TB_PGSTART_LO : Nat := 0x27000C8
def F.TB_PGSTART_LO_start : Fld := ⟨R.TB_PGSTART_LO, 0, 32⟩
def R.TB_PGSTART_HI : Nat := 0x27000CC
def F.TB_PGSTART_HI_start : Fld := ⟨R.TB_PGSTART_HI, 0, 32⟩
def R.TB_PGPERIOD_LO : Nat := 0x27000D0
def F.TB_PGPERIOD_LO_period : Fld := ⟨R.TB_PGPERIOD_LO, 0, 32⟩
def R.TB_PGPERIOD_HI : Nat := 0x27000D4
def F.TB_PGPERIOD_HI_period : Fld := ⟨R.TB_PGPERIOD_HI, 0, 32⟩
def R.TB_PGCOUNT : Nat := 0x27000D8
def F.TB_PGCOUNT_count : Fld := ⟨R.TB_PGCOUNT, 0, 32⟩
def R.TB_CAPCFG : Nat := 0x27000E0
def F.TB_CAPCFG_inputs : Fld := ⟨R.TB_CAPCFG, 0, 32⟩
def R.TB_CAP_LO (j : Nat) : Nat := 0x2700100 + 8 * j
def F.TB_CAP_LO_value (j : Nat) : Fld := ⟨R.TB_CAP_LO j, 0, 32⟩
def R.TB_CAP_HI (j : Nat) : Nat := 0x2700104 + 8 * j
def F.TB_CAP_HI_value (j : Nat) : Fld := ⟨R.TB_CAP_HI j, 0, 32⟩
def R.PTP_CTRL : Nat := 0x2710000
def F.PTP_CTRL_en : Fld := ⟨R.PTP_CTRL, 31, 1⟩
def F.PTP_CTRL_mode : Fld := ⟨R.PTP_CTRL, 30, 1⟩
def F.PTP_CTRL_an_en : Fld := ⟨R.PTP_CTRL, 29, 1⟩
def F.PTP_CTRL_cnt_clear : Fld := ⟨R.PTP_CTRL, 28, 1⟩
def F.PTP_CTRL_ts_rx_en : Fld := ⟨R.PTP_CTRL, 27, 1⟩
def F.PTP_CTRL_ts_tx_en : Fld := ⟨R.PTP_CTRL, 26, 1⟩
def R.PTP_STATUS : Nat := 0x2710004
def F.PTP_STATUS_link : Fld := ⟨R.PTP_STATUS, 31, 1⟩
def F.PTP_STATUS_an_done : Fld := ⟨R.PTP_STATUS, 30, 1⟩
def F.PTP_STATUS_rx_queue : Fld := ⟨R.PTP_STATUS, 23, 7⟩
def F.PTP_STATUS_tx_queue : Fld := ⟨R.PTP_STATUS, 16, 7⟩
def R.PTP_MAC_LO : Nat := 0x2710008
def F.PTP_MAC_LO_mac : Fld := ⟨R.PTP_MAC_LO, 0, 32⟩
def R.PTP_MAC_HI : Nat := 0x271000C
def F.PTP_MAC_HI_mac : Fld := ⟨R.PTP_MAC_HI, 0, 16⟩
def R.PTP_FILTER : Nat := 0x2710010
def F.PTP_FILTER_transports : Fld := ⟨R.PTP_FILTER, 29, 3⟩
def F.PTP_FILTER_domain : Fld := ⟨R.PTP_FILTER, 8, 8⟩
def F.PTP_FILTER_any_domain : Fld := ⟨R.PTP_FILTER, 0, 1⟩
def R.PTP_RXLAT : Nat := 0x2710014
def F.PTP_RXLAT_ps : Fld := ⟨R.PTP_RXLAT, 0, 16⟩
def R.PTP_TXLAT : Nat := 0x2710018
def F.PTP_TXLAT_ps : Fld := ⟨R.PTP_TXLAT, 0, 16⟩
def R.PTP_TSPOP : Nat := 0x271001C
def F.PTP_TSPOP_pop : Fld := ⟨R.PTP_TSPOP, 31, 1⟩
def F.PTP_TSPOP_dir : Fld := ⟨R.PTP_TSPOP, 30, 1⟩
def F.PTP_TSPOP_valid : Fld := ⟨R.PTP_TSPOP, 29, 1⟩
def R.PTP_TS_NS_LO : Nat := 0x2710020
def F.PTP_TS_NS_LO_value : Fld := ⟨R.PTP_TS_NS_LO, 0, 32⟩
def R.PTP_TS_NS_HI : Nat := 0x2710024
def F.PTP_TS_NS_HI_value : Fld := ⟨R.PTP_TS_NS_HI, 0, 32⟩
def R.PTP_TS_FRAC : Nat := 0x2710028
def F.PTP_TS_FRAC_value : Fld := ⟨R.PTP_TS_FRAC, 0, 32⟩
def R.PTP_TS_ID : Nat := 0x271002C
def F.PTP_TS_ID_msg_type : Fld := ⟨R.PTP_TS_ID, 28, 4⟩
def F.PTP_TS_ID_domain : Fld := ⟨R.PTP_TS_ID, 20, 8⟩
def F.PTP_TS_ID_seq_id : Fld := ⟨R.PTP_TS_ID, 0, 16⟩
def R.PTP_TS_SRC0 : Nat := 0x2710030
def F.PTP_TS_SRC0_clock_id : Fld := ⟨R.PTP_TS_SRC0, 0, 32⟩
def R.PTP_TS_SRC1 : Nat := 0x2710034
def F.PTP_TS_SRC1_clock_id : Fld := ⟨R.PTP_TS_SRC1, 0, 32⟩
def R.PTP_TS_SRC2 : Nat := 0x2710038
def F.PTP_TS_SRC2_port_num : Fld := ⟨R.PTP_TS_SRC2, 0, 16⟩
def R.PTP_RXFRAMES : Nat := 0x271003C
def F.PTP_RXFRAMES_count : Fld := ⟨R.PTP_RXFRAMES, 0, 32⟩
def R.PTP_TXFRAMES : Nat := 0x2710040
def F.PTP_TXFRAMES_count : Fld := ⟨R.PTP_TXFRAMES, 0, 32⟩
def R.PTP_RXEVENTS : Nat := 0x2710044
def F.PTP_RXEVENTS_count : Fld := ⟨R.PTP_RXEVENTS, 0, 32⟩
def R.PTP_TXEVENTS : Nat := 0x2710048
def F.PTP_TXEVENTS_count : Fld := ⟨R.PTP_TXEVENTS, 0, 32⟩
def R.PTP_TSLOST : Nat := 0x271004C
def F.PTP_TSLOST_count : Fld := ⟨R.PTP_TSLOST, 0, 32⟩
def R.PTP_RXERR : Nat := 0x2710050
def F.PTP_RXERR_count : Fld := ⟨R.PTP_RXERR, 0, 32⟩
def R.PTP_DOMAINDROP : Nat := 0x2710054
def F.PTP_DOMAINDROP_count : Fld := ⟨R.PTP_DOMAINDROP, 0, 32⟩
def R.PTP_RXSYNC : Nat := 0x2710058
def F.PTP_RXSYNC_count : Fld := ⟨R.PTP_RXSYNC, 0, 32⟩
def R.PTP_OFFSET : Nat := 0x271005C
def F.PTP_OFFSET_ns : Fld := ⟨R.PTP_OFFSET, 0, 32⟩
def R.PTP_PATHDLY : Nat := 0x2710060
def F.PTP_PATHDLY_ns : Fld := ⟨R.PTP_PATHDLY, 0, 32⟩
def R.PTP_GM0 : Nat := 0x2710064
def F.PTP_GM0_clock_id : Fld := ⟨R.PTP_GM0, 0, 32⟩
def R.PTP_GM1 : Nat := 0x2710068
def F.PTP_GM1_clock_id : Fld := ⟨R.PTP_GM1, 0, 32⟩
def R.PTP_SERVO : Nat := 0x271006C
def F.PTP_SERVO_state : Fld := ⟨R.PTP_SERVO, 28, 4⟩
def R.PTP_HOLDOVER : Nat := 0x2710070
def F.PTP_HOLDOVER_s : Fld := ⟨R.PTP_HOLDOVER, 0, 32⟩
def R.PTP_LASTSYNC_LO : Nat := 0x2710074
def F.PTP_LASTSYNC_LO_value : Fld := ⟨R.PTP_LASTSYNC_LO, 0, 32⟩
def R.PTP_LASTSYNC_HI : Nat := 0x2710078
def F.PTP_LASTSYNC_HI_value : Fld := ⟨R.PTP_LASTSYNC_HI, 0, 32⟩
def R.PTP_AN : Nat := 0x271007C
def F.PTP_AN_partner : Fld := ⟨R.PTP_AN, 0, 16⟩
def R.CLK_CTRL : Nat := 0x10000
def F.CLK_CTRL_mon_en : Fld := ⟨R.CLK_CTRL, 31, 1⟩
def R.CLK_STATUS : Nat := 0x10004
def F.CLK_STATUS_shaft_lock : Fld := ⟨R.CLK_STATUS, 31, 1⟩
def F.CLK_STATUS_ddr_lock : Fld := ⟨R.CLK_STATUS, 30, 1⟩
def F.CLK_STATUS_switching : Fld := ⟨R.CLK_STATUS, 29, 1⟩
def F.CLK_STATUS_refused : Fld := ⟨R.CLK_STATUS, 28, 1⟩
def F.CLK_STATUS_pace : Fld := ⟨R.CLK_STATUS, 26, 2⟩
def F.CLK_STATUS_ddr_speed : Fld := ⟨R.CLK_STATUS, 25, 1⟩
def F.CLK_STATUS_spread_on : Fld := ⟨R.CLK_STATUS, 24, 1⟩
def F.CLK_STATUS_mon_fault : Fld := ⟨R.CLK_STATUS, 0, 24⟩
def R.CLK_PACE : Nat := 0x10008
def F.CLK_PACE_pace : Fld := ⟨R.CLK_PACE, 0, 2⟩
def R.CLK_DDR : Nat := 0x1000C
def F.CLK_DDR_speed : Fld := ⟨R.CLK_DDR, 0, 1⟩
def R.CLK_SPREAD : Nat := 0x10010
def F.CLK_SPREAD_ctl_en : Fld := ⟨R.CLK_SPREAD, 31, 1⟩
def F.CLK_SPREAD_depth : Fld := ⟨R.CLK_SPREAD, 0, 4⟩
def R.CLK_REFMON : Nat := 0x10014
def F.CLK_REFMON_khz : Fld := ⟨R.CLK_REFMON, 0, 20⟩
def R.CLK_UNLOCKCNT : Nat := 0x10018
def F.CLK_UNLOCKCNT_ref_lost : Fld := ⟨R.CLK_UNLOCKCNT, 16, 16⟩
def F.CLK_UNLOCKCNT_unlocks : Fld := ⟨R.CLK_UNLOCKCNT, 0, 16⟩
def R.CLK_PACETIME : Nat := 0x1001C
def F.CLK_PACETIME_us : Fld := ⟨R.CLK_PACETIME, 0, 16⟩
def R.CLK_MON (j : Nat) : Nat := 0x10020 + 4 * j
def F.CLK_MON_fault (j : Nat) : Fld := ⟨R.CLK_MON j, 31, 1⟩
def F.CLK_MON_freq (j : Nat) : Fld := ⟨R.CLK_MON j, 0, 20⟩
def R.PWR_CTRL : Nat := 0x20000
def F.PWR_CTRL_en : Fld := ⟨R.PWR_CTRL, 31, 1⟩
def F.PWR_CTRL_cnt_clear : Fld := ⟨R.PWR_CTRL, 30, 1⟩
def F.PWR_CTRL_factor : Fld := ⟨R.PWR_CTRL, 16, 8⟩
def F.PWR_CTRL_idle_hold : Fld := ⟨R.PWR_CTRL, 0, 16⟩
def R.PWR_STATUS : Nat := 0x20004
def F.PWR_STATUS_busy : Fld := ⟨R.PWR_STATUS, 31, 1⟩
def F.PWR_STATUS_in_run : Fld := ⟨R.PWR_STATUS, 16, 8⟩
def F.PWR_STATUS_waking : Fld := ⟨R.PWR_STATUS, 8, 8⟩
def R.PWR_NEXT : Nat := 0x20008
def F.PWR_NEXT_us : Fld := ⟨R.PWR_NEXT, 0, 32⟩
def R.PWR_NEXTSRC : Nat := 0x2000C
def F.PWR_NEXTSRC_source : Fld := ⟨R.PWR_NEXTSRC, 28, 4⟩
def F.PWR_NEXTSRC_domain : Fld := ⟨R.PWR_NEXTSRC, 0, 6⟩
def R.PWR_FAULT : Nat := 0x20010
def F.PWR_FAULT_flag : Fld := ⟨R.PWR_FAULT, 31, 1⟩
def F.PWR_FAULT_kind : Fld := ⟨R.PWR_FAULT, 28, 3⟩
def F.PWR_FAULT_domain : Fld := ⟨R.PWR_FAULT, 0, 6⟩
def R.PWR_TRANS : Nat := 0x20014
def F.PWR_TRANS_count : Fld := ⟨R.PWR_TRANS, 0, 32⟩
def R.PWR_CORENAP : Nat := 0x20018
def F.PWR_CORENAP_cores : Fld := ⟨R.PWR_CORENAP, 0, 32⟩
def R.PWR_CORECFG : Nat := 0x2001C
def F.PWR_CORECFG_cores : Fld := ⟨R.PWR_CORECFG, 0, 32⟩
def R.PWR_DOM (j : Nat) : Nat := 0x20100 + 4 * j
def F.PWR_DOM_force_en (j : Nat) : Fld := ⟨R.PWR_DOM j, 31, 1⟩
def F.PWR_DOM_force (j : Nat) : Fld := ⟨R.PWR_DOM j, 28, 3⟩
def F.PWR_DOM_refused (j : Nat) : Fld := ⟨R.PWR_DOM j, 27, 1⟩
def F.PWR_DOM_max_state (j : Nat) : Fld := ⟨R.PWR_DOM j, 17, 3⟩
def R.PWR_DSTAT (j : Nat) : Nat := 0x20200 + 4 * j
def F.PWR_DSTAT_state (j : Nat) : Fld := ⟨R.PWR_DSTAT j, 29, 3⟩
def F.PWR_DSTAT_target (j : Nat) : Fld := ⟨R.PWR_DSTAT j, 26, 3⟩
def F.PWR_DSTAT_held (j : Nat) : Fld := ⟨R.PWR_DSTAT j, 25, 1⟩
def F.PWR_DSTAT_waking (j : Nat) : Fld := ⟨R.PWR_DSTAT j, 24, 1⟩
def F.PWR_DSTAT_entries (j : Nat) : Fld := ⟨R.PWR_DSTAT j, 0, 16⟩
def R.RST_CTRL : Nat := 0x30000
def F.RST_CTRL_cold : Fld := ⟨R.RST_CTRL, 31, 1⟩
def F.RST_CTRL_warm : Fld := ⟨R.RST_CTRL, 30, 1⟩
def R.RST_STATUS : Nat := 0x30004
def F.RST_STATUS_perst_n : Fld := ⟨R.RST_STATUS, 31, 1⟩
def F.RST_STATUS_reset_n : Fld := ⟨R.RST_STATUS, 30, 1⟩
def F.RST_STATUS_pwr_ok : Fld := ⟨R.RST_STATUS, 29, 1⟩
def R.RST_CAUSE : Nat := 0x30008
def F.RST_CAUSE_last : Fld := ⟨R.RST_CAUSE, 28, 4⟩
def F.RST_CAUSE_writer : Fld := ⟨R.RST_CAUSE, 25, 3⟩
def R.RST_COUNT : Nat := 0x3000C
def F.RST_COUNT_cold : Fld := ⟨R.RST_COUNT, 16, 16⟩
def F.RST_COUNT_warm : Fld := ⟨R.RST_COUNT, 0, 16⟩
def R.RST_PCIECNT : Nat := 0x30010
def F.RST_PCIECNT_perst : Fld := ⟨R.RST_PCIECNT, 16, 16⟩
def F.RST_PCIECNT_hot_flr : Fld := ⟨R.RST_PCIECNT, 0, 16⟩
def R.RST_SEQ : Nat := 0x30014
def F.RST_SEQ_stage : Fld := ⟨R.RST_SEQ, 28, 4⟩
def F.RST_SEQ_ms : Fld := ⟨R.RST_SEQ, 0, 16⟩
def R.RST_UPTIME_LO : Nat := 0x30018
def F.RST_UPTIME_LO_ms : Fld := ⟨R.RST_UPTIME_LO, 0, 32⟩
def R.RST_UPTIME_HI : Nat := 0x3001C
def F.RST_UPTIME_HI_ms : Fld := ⟨R.RST_UPTIME_HI, 0, 32⟩
def R.RST_HIST (j : Nat) : Nat := 0x30020 + 4 * j
def F.RST_HIST_cause (j : Nat) : Fld := ⟨R.RST_HIST j, 28, 4⟩
def F.RST_HIST_seconds (j : Nat) : Fld := ⟨R.RST_HIST j, 0, 28⟩
def R.SENS_CTRL : Nat := 0x50000
def F.SENS_CTRL_peak_clear : Fld := ⟨R.SENS_CTRL, 31, 1⟩
def R.SENS_STATUS : Nat := 0x50004
def F.SENS_STATUS_warn : Fld := ⟨R.SENS_STATUS, 31, 1⟩
def F.SENS_STATUS_over : Fld := ⟨R.SENS_STATUS, 0, 24⟩
def R.SENS_LIMITS : Nat := 0x50008
def F.SENS_LIMITS_trip : Fld := ⟨R.SENS_LIMITS, 16, 8⟩
def F.SENS_LIMITS_warn : Fld := ⟨R.SENS_LIMITS, 0, 8⟩
def R.SENS_HOTTEST : Nat := 0x5000C
def F.SENS_HOTTEST_sensor : Fld := ⟨R.SENS_HOTTEST, 16, 5⟩
def F.SENS_HOTTEST_temp : Fld := ⟨R.SENS_HOTTEST, 0, 16⟩
def R.SENS_PEAK : Nat := 0x50010
def F.SENS_PEAK_sensor : Fld := ⟨R.SENS_PEAK, 16, 5⟩
def F.SENS_PEAK_temp : Fld := ⟨R.SENS_PEAK, 0, 16⟩
def R.SENS_TRIPREC : Nat := 0x50014
def F.SENS_TRIPREC_sensor : Fld := ⟨R.SENS_TRIPREC, 16, 5⟩
def F.SENS_TRIPREC_temp : Fld := ⟨R.SENS_TRIPREC, 0, 16⟩
def F.SENS_TRIPREC_valid : Fld := ⟨R.SENS_TRIPREC, 31, 1⟩
def R.SENS_VFAULT : Nat := 0x50018
def F.SENS_VFAULT_monitors : Fld := ⟨R.SENS_VFAULT, 0, 16⟩
def R.SENS_VTOL : Nat := 0x5001C
def F.SENS_VTOL_permille : Fld := ⟨R.SENS_VTOL, 0, 8⟩
def R.SENS_TEMP (j : Nat) : Nat := 0x50020 + 4 * j
def F.SENS_TEMP_valid (j : Nat) : Fld := ⟨R.SENS_TEMP j, 31, 1⟩
def F.SENS_TEMP_temp (j : Nat) : Fld := ⟨R.SENS_TEMP j, 0, 16⟩
def R.SENS_VMON (j : Nat) : Nat := 0x50080 + 4 * j
def F.SENS_VMON_target (j : Nat) : Fld := ⟨R.SENS_VMON j, 16, 16⟩
def F.SENS_VMON_mv (j : Nat) : Fld := ⟨R.SENS_VMON j, 0, 16⟩
def R.GPIO_CTRL : Nat := 0x2800000
def F.GPIO_CTRL_host_en : Fld := ⟨R.GPIO_CTRL, 31, 1⟩
def F.GPIO_CTRL_cnt_clear : Fld := ⟨R.GPIO_CTRL, 30, 1⟩
def R.GPIO_STATUS : Nat := 0x2800004
def F.GPIO_STATUS_switching : Fld := ⟨R.GPIO_STATUS, 31, 1⟩
def F.GPIO_STATUS_tcap_shadow : Fld := ⟨R.GPIO_STATUS, 0, 8⟩
def R.GPIO_DENY : Nat := 0x2800008
def F.GPIO_DENY_owner : Fld := ⟨R.GPIO_DENY, 16, 16⟩
def F.GPIO_DENY_pin : Fld := ⟨R.GPIO_DENY, 0, 16⟩
def R.GPIO_SYSCTRL : Nat := 0x280000C
def F.GPIO_SYSCTRL_ignore : Fld := ⟨R.GPIO_SYSCTRL, 27, 5⟩
def R.GPIO_SYSFILT : Nat := 0x2800010
def F.GPIO_SYSFILT_trig_in : Fld := ⟨R.GPIO_SYSFILT, 16, 8⟩
def F.GPIO_SYSFILT_sync_n : Fld := ⟨R.GPIO_SYSFILT, 8, 8⟩
def F.GPIO_SYSFILT_halt_n : Fld := ⟨R.GPIO_SYSFILT, 0, 8⟩
def R.GPIO_SYSSTAT : Nat := 0x2800014
def F.GPIO_SYSSTAT_level : Fld := ⟨R.GPIO_SYSSTAT, 27, 5⟩
def F.GPIO_SYSSTAT_driving : Fld := ⟨R.GPIO_SYSSTAT, 22, 5⟩
def F.GPIO_SYSSTAT_rejected : Fld := ⟨R.GPIO_SYSSTAT, 0, 16⟩
def R.GPIO_OUT (j : Nat) : Nat := 0x2800018 + 4 * j
def F.GPIO_OUT_mask (j : Nat) : Fld := ⟨R.GPIO_OUT j, 16, 16⟩
def F.GPIO_OUT_value (j : Nat) : Fld := ⟨R.GPIO_OUT j, 0, 16⟩
def R.GPIO_OE (j : Nat) : Nat := 0x2800024 + 4 * j
def F.GPIO_OE_mask (j : Nat) : Fld := ⟨R.GPIO_OE j, 16, 16⟩
def F.GPIO_OE_value (j : Nat) : Fld := ⟨R.GPIO_OE j, 0, 16⟩
def R.GPIO_IN0 : Nat := 0x2800030
def F.GPIO_IN0_level : Fld := ⟨R.GPIO_IN0, 0, 32⟩
def R.GPIO_IN1 : Nat := 0x2800034
def F.GPIO_IN1_level : Fld := ⟨R.GPIO_IN1, 0, 16⟩
def R.GPIO_EDGE0 : Nat := 0x2800038
def F.GPIO_EDGE0_flag : Fld := ⟨R.GPIO_EDGE0, 0, 32⟩
def R.GPIO_EDGE1 : Nat := 0x280003C
def F.GPIO_EDGE1_flag : Fld := ⟨R.GPIO_EDGE1, 0, 16⟩
def R.GPIO_PIN (j : Nat) : Nat := 0x2800100 + 4 * j
def F.GPIO_PIN_core (j : Nat) : Fld := ⟨R.GPIO_PIN j, 27, 5⟩
def F.GPIO_PIN_owner (j : Nat) : Fld := ⟨R.GPIO_PIN j, 24, 3⟩
def F.GPIO_PIN_edge (j : Nat) : Fld := ⟨R.GPIO_PIN j, 20, 2⟩
def F.GPIO_PIN_pull (j : Nat) : Fld := ⟨R.GPIO_PIN j, 18, 2⟩
def F.GPIO_PIN_schmitt (j : Nat) : Fld := ⟨R.GPIO_PIN j, 17, 1⟩
def F.GPIO_PIN_od (j : Nat) : Fld := ⟨R.GPIO_PIN j, 16, 1⟩
def F.GPIO_PIN_slew (j : Nat) : Fld := ⟨R.GPIO_PIN j, 14, 2⟩
def F.GPIO_PIN_rst_level (j : Nat) : Fld := ⟨R.GPIO_PIN j, 12, 2⟩
def F.GPIO_PIN_switching (j : Nat) : Fld := ⟨R.GPIO_PIN j, 8, 1⟩
def F.GPIO_PIN_func (j : Nat) : Fld := ⟨R.GPIO_PIN j, 0, 4⟩
def R.TIO_CTRL : Nat := 0x2810000
def F.TIO_CTRL_host_en : Fld := ⟨R.TIO_CTRL, 31, 1⟩
def F.TIO_CTRL_cnt_clear : Fld := ⟨R.TIO_CTRL, 30, 1⟩
def R.TIO_STATUS : Nat := 0x2810004
def F.TIO_STATUS_switching : Fld := ⟨R.TIO_STATUS, 31, 1⟩
def F.TIO_STATUS_enabled : Fld := ⟨R.TIO_STATUS, 8, 5⟩
def F.TIO_STATUS_vio_ok : Fld := ⟨R.TIO_STATUS, 0, 5⟩
def R.TIO_SEL : Nat := 0x2810008
def F.TIO_SEL_pin : Fld := ⟨R.TIO_SEL, 0, 8⟩
def R.TIO_PINCFG : Nat := 0x281000C
def F.TIO_PINCFG_owner : Fld := ⟨R.TIO_PINCFG, 28, 3⟩
def F.TIO_PINCFG_mode : Fld := ⟨R.TIO_PINCFG, 26, 2⟩
def F.TIO_PINCFG_rst_level : Fld := ⟨R.TIO_PINCFG, 24, 2⟩
def F.TIO_PINCFG_pull : Fld := ⟨R.TIO_PINCFG, 22, 2⟩
def F.TIO_PINCFG_schmitt : Fld := ⟨R.TIO_PINCFG, 21, 1⟩
def F.TIO_PINCFG_od : Fld := ⟨R.TIO_PINCFG, 20, 1⟩
def F.TIO_PINCFG_slew : Fld := ⟨R.TIO_PINCFG, 18, 2⟩
def F.TIO_PINCFG_switching : Fld := ⟨R.TIO_PINCFG, 17, 1⟩
def F.TIO_PINCFG_unserved : Fld := ⟨R.TIO_PINCFG, 16, 1⟩
def R.TIO_DENY : Nat := 0x2810010
def F.TIO_DENY_frozen : Fld := ⟨R.TIO_DENY, 16, 16⟩
def F.TIO_DENY_other : Fld := ⟨R.TIO_DENY, 0, 16⟩
def R.TIO_ERR : Nat := 0x2810014
def F.TIO_ERR_flag : Fld := ⟨R.TIO_ERR, 31, 1⟩
def F.TIO_ERR_kind : Fld := ⟨R.TIO_ERR, 28, 3⟩
def F.TIO_ERR_partition : Fld := ⟨R.TIO_ERR, 26, 2⟩
def F.TIO_ERR_unit : Fld := ⟨R.TIO_ERR, 0, 8⟩
def R.TIO_BANK (j : Nat) : Nat := 0x2810020 + 4 * j
def F.TIO_BANK_en (j : Nat) : Fld := ⟨R.TIO_BANK j, 31, 1⟩
def F.TIO_BANK_ok (j : Nat) : Fld := ⟨R.TIO_BANK j, 30, 1⟩
def F.TIO_BANK_volt (j : Nat) : Fld := ⟨R.TIO_BANK j, 28, 2⟩
def F.TIO_BANK_mv (j : Nat) : Fld := ⟨R.TIO_BANK j, 0, 16⟩
def R.TIO_IN (j : Nat) : Nat := 0x2810040 + 4 * j
def F.TIO_IN_level (j : Nat) : Fld := ⟨R.TIO_IN j, 0, 32⟩
def R.TIO_OUT (j : Nat) : Nat := 0x2810060 + 4 * j
def F.TIO_OUT_mask (j : Nat) : Fld := ⟨R.TIO_OUT j, 16, 16⟩
def F.TIO_OUT_value (j : Nat) : Fld := ⟨R.TIO_OUT j, 0, 16⟩
def R.TIO_UNSERVED (j : Nat) : Nat := 0x28100A0 + 4 * j
def F.TIO_UNSERVED_pins (j : Nat) : Fld := ⟨R.TIO_UNSERVED j, 0, 32⟩
def R.TIO_ACTIVE (j : Nat) : Nat := 0x28100C0 + 4 * j
def F.TIO_ACTIVE_pins (j : Nat) : Fld := ⟨R.TIO_ACTIVE j, 0, 32⟩
def R.TIO_PART (j : Nat) : Nat := 0x28100E0 + 4 * j
def F.TIO_PART_released (j : Nat) : Fld := ⟨R.TIO_PART j, 31, 1⟩
def F.TIO_PART_owned (j : Nat) : Fld := ⟨R.TIO_PART j, 16, 8⟩
def F.TIO_PART_unserved (j : Nat) : Fld := ⟨R.TIO_PART j, 8, 8⟩
def R.GLB_ID : Nat := 0
def F.GLB_ID_device_id : Fld := ⟨R.GLB_ID, 16, 16⟩
def F.GLB_ID_vendor_id : Fld := ⟨R.GLB_ID, 0, 16⟩
def R.GLB_PART : Nat := 4
def F.GLB_PART_family : Fld := ⟨R.GLB_PART, 24, 8⟩
def F.GLB_PART_part : Fld := ⟨R.GLB_PART, 16, 8⟩
def F.GLB_PART_stepping : Fld := ⟨R.GLB_PART, 8, 8⟩
def F.GLB_PART_qmask : Fld := ⟨R.GLB_PART, 0, 4⟩
def R.GLB_ROMVER : Nat := 8
def F.GLB_ROMVER_version : Fld := ⟨R.GLB_ROMVER, 0, 32⟩
def R.GLB_MAPVER : Nat := 0xC
def F.GLB_MAPVER_version : Fld := ⟨R.GLB_MAPVER, 0, 16⟩
def R.GLB_UID (j : Nat) : Nat := 0x10 + 4 * j
def F.GLB_UID_uid (j : Nat) : Fld := ⟨R.GLB_UID j, 0, 32⟩
def R.GLB_VTARGET : Nat := 0x20
def F.GLB_VTARGET_overdrive : Fld := ⟨R.GLB_VTARGET, 16, 8⟩
def F.GLB_VTARGET_standard : Fld := ⟨R.GLB_VTARGET, 8, 8⟩
def F.GLB_VTARGET_thrift : Fld := ⟨R.GLB_VTARGET, 0, 8⟩
def R.GLB_CAPS : Nat := 0x24
def F.GLB_CAPS_partitions : Fld := ⟨R.GLB_CAPS, 28, 4⟩
def F.GLB_CAPS_lp2 : Fld := ⟨R.GLB_CAPS, 17, 1⟩
def F.GLB_CAPS_lp1 : Fld := ⟨R.GLB_CAPS, 16, 1⟩
def F.GLB_CAPS_spokes : Fld := ⟨R.GLB_CAPS, 0, 16⟩
def R.GLB_STATUS : Nat := 0x28
def F.GLB_STATUS_shell : Fld := ⟨R.GLB_STATUS, 31, 1⟩
def F.GLB_STATUS_recovery : Fld := ⟨R.GLB_STATUS, 30, 1⟩
def F.GLB_STATUS_running : Fld := ⟨R.GLB_STATUS, 24, 4⟩
def F.GLB_STATUS_halted : Fld := ⟨R.GLB_STATUS, 20, 4⟩
def F.GLB_STATUS_loaded : Fld := ⟨R.GLB_STATUS, 16, 4⟩
def R.GLB_SHELLVER : Nat := 0x2C
def F.GLB_SHELLVER_version : Fld := ⟨R.GLB_SHELLVER, 0, 32⟩
def R.GLB_HEARTBEAT : Nat := 0x30
def F.GLB_HEARTBEAT_count : Fld := ⟨R.GLB_HEARTBEAT, 0, 32⟩
def R.GLB_STRAPS : Nat := 0x34
def F.GLB_STRAPS_xspi_role : Fld := ⟨R.GLB_STRAPS, 7, 1⟩
def F.GLB_STRAPS_slot : Fld := ⟨R.GLB_STRAPS, 0, 6⟩
def R.GLB_SUBSYS : Nat := 0x38
def F.GLB_SUBSYS_subsys_id : Fld := ⟨R.GLB_SUBSYS, 16, 16⟩
def F.GLB_SUBSYS_subsys_vendor : Fld := ⟨R.GLB_SUBSYS, 0, 16⟩
def R.GLB_SPARE : Nat := 0x3C
def R.GLB_SCRATCH (j : Nat) : Nat := 0x40 + 4 * j
def F.GLB_SCRATCH_value (j : Nat) : Fld := ⟨R.GLB_SCRATCH j, 0, 32⟩
def R.EVT_CTRL : Nat := 0x60000
def F.EVT_CTRL_cnt_clear : Fld := ⟨R.EVT_CTRL, 31, 1⟩
def F.EVT_CTRL_hist_freeze : Fld := ⟨R.EVT_CTRL, 30, 1⟩
def R.EVT_STATUS : Nat := 0x60004
def F.EVT_STATUS_queued : Fld := ⟨R.EVT_STATUS, 16, 10⟩
def R.EVT_MASK : Nat := 0x60008
def F.EVT_MASK_classes : Fld := ⟨R.EVT_MASK, 0, 12⟩
def R.EVT_MLRMASK : Nat := 0x6000C
def F.EVT_MLRMASK_classes : Fld := ⟨R.EVT_MLRMASK, 0, 12⟩
def R.EVT_RAISED : Nat := 0x60010
def F.EVT_RAISED_count : Fld := ⟨R.EVT_RAISED, 0, 32⟩
def R.EVT_LAST : Nat := 0x60014
def F.EVT_LAST_part : Fld := ⟨R.EVT_LAST, 16, 8⟩
def F.EVT_LAST_code : Fld := ⟨R.EVT_LAST, 0, 16⟩
def R.EVT_FIRST : Nat := 0x60018
def F.EVT_FIRST_flag : Fld := ⟨R.EVT_FIRST, 31, 1⟩
def F.EVT_FIRST_part : Fld := ⟨R.EVT_FIRST, 16, 8⟩
def F.EVT_FIRST_code : Fld := ⟨R.EVT_FIRST, 0, 16⟩
def R.EVT_FIRSTTB_LO : Nat := 0x6001C
def F.EVT_FIRSTTB_LO_tb0 : Fld := ⟨R.EVT_FIRSTTB_LO, 0, 32⟩
def R.EVT_FIRSTTB_HI : Nat := 0x60020
def F.EVT_FIRSTTB_HI_tb0 : Fld := ⟨R.EVT_FIRSTTB_HI, 0, 32⟩
def R.EVT_HSEL : Nat := 0x60024
def F.EVT_HSEL_entry : Fld := ⟨R.EVT_HSEL, 16, 6⟩
def F.EVT_HSEL_word : Fld := ⟨R.EVT_HSEL, 0, 4⟩
def R.EVT_HDATA : Nat := 0x60028
def F.EVT_HDATA_data : Fld := ⟨R.EVT_HDATA, 0, 32⟩
def R.EVT_CSEL : Nat := 0x6002C
def F.EVT_CSEL_code : Fld := ⟨R.EVT_CSEL, 0, 16⟩
def R.EVT_CDATA : Nat := 0x60030
def F.EVT_CDATA_count : Fld := ⟨R.EVT_CDATA, 0, 32⟩
def R.EVT_RAISE : Nat := 0x60034
def F.EVT_RAISE_part : Fld := ⟨R.EVT_RAISE, 16, 8⟩
def F.EVT_RAISE_code : Fld := ⟨R.EVT_RAISE, 0, 16⟩
def R.EVT_RDATA (j : Nat) : Nat := 0x60038 + 4 * j
def F.EVT_RDATA_data (j : Nat) : Fld := ⟨R.EVT_RDATA j, 0, 32⟩
def R.EVT_CLASSCNT (j : Nat) : Nat := 0x60050 + 4 * j
def F.EVT_CLASSCNT_count (j : Nat) : Fld := ⟨R.EVT_CLASSCNT j, 0, 32⟩
def R.EVT_MASKED : Nat := 0x60080
def F.EVT_MASKED_count : Fld := ⟨R.EVT_MASKED, 0, 32⟩
def R.EVT_MLRCNT : Nat := 0x60084
def F.EVT_MLRCNT_count : Fld := ⟨R.EVT_MLRCNT, 0, 32⟩
def R.EVT_RAISEDENY : Nat := 0x60088
def F.EVT_RAISEDENY_count : Fld := ⟨R.EVT_RAISEDENY, 0, 32⟩
def R.EVT_PARTCNT (j : Nat) : Nat := 0x6008C + 4 * j
def F.EVT_PARTCNT_count (j : Nat) : Fld := ⟨R.EVT_PARTCNT j, 0, 32⟩
def R.EVT_DEVCNT : Nat := 0x6009C
def F.EVT_DEVCNT_count : Fld := ⟨R.EVT_DEVCNT, 0, 32⟩
def R.MILL_ECC (i : Nat) : Nat := 0x1000000 + 0x1000 * i
def F.MILL_ECC_ue_flag (i : Nat) : Fld := ⟨R.MILL_ECC i, 31, 1⟩
def F.MILL_ECC_ue_where (i : Nat) : Fld := ⟨R.MILL_ECC i, 28, 3⟩
def F.MILL_ECC_ue_stone (i : Nat) : Fld := ⟨R.MILL_ECC i, 24, 4⟩
def F.MILL_ECC_ce_clear (i : Nat) : Fld := ⟨R.MILL_ECC i, 16, 1⟩
def F.MILL_ECC_ce_count (i : Nat) : Fld := ⟨R.MILL_ECC i, 0, 16⟩
def R.LANE_STAT (i : Nat) : Nat := 0x2210000 + 0x100 * i
def F.LANE_STAT_slip (i : Nat) : Fld := ⟨R.LANE_STAT i, 31, 1⟩
def F.LANE_STAT_polarity (i : Nat) : Fld := ⟨R.LANE_STAT i, 30, 1⟩
def F.LANE_STAT_lock (i : Nat) : Fld := ⟨R.LANE_STAT i, 29, 1⟩
def F.LANE_STAT_pattern_ok (i : Nat) : Fld := ⟨R.LANE_STAT i, 28, 1⟩
def F.LANE_STAT_tap_sel (i : Nat) : Fld := ⟨R.LANE_STAT i, 24, 4⟩
def F.LANE_STAT_tap_val (i : Nat) : Fld := ⟨R.LANE_STAT i, 16, 8⟩
def F.LANE_STAT_fom (i : Nat) : Fld := ⟨R.LANE_STAT i, 0, 8⟩
def R.MLR_CTRL (i : Nat) : Nat := 0x2500000 + 0x1000 * i
def F.MLR_CTRL_hold (i : Nat) : Fld := ⟨R.MLR_CTRL i, 31, 1⟩
def F.MLR_CTRL_preempt (i : Nat) : Fld := ⟨R.MLR_CTRL i, 30, 1⟩
def F.MLR_CTRL_events (i : Nat) : Fld := ⟨R.MLR_CTRL i, 29, 1⟩
def F.MLR_CTRL_sched (i : Nat) : Fld := ⟨R.MLR_CTRL i, 28, 1⟩
def R.MLR_WDOG (i : Nat) : Nat := 0x2500004 + 0x1000 * i
def F.MLR_WDOG_kick (i : Nat) : Fld := ⟨R.MLR_WDOG i, 31, 1⟩
def F.MLR_WDOG_timeout (i : Nat) : Fld := ⟨R.MLR_WDOG i, 0, 20⟩
def R.MLR_STATUS (i : Nat) : Nat := 0x2500008 + 0x1000 * i
def F.MLR_STATUS_mode (i : Nat) : Fld := ⟨R.MLR_STATUS i, 29, 3⟩
def F.MLR_STATUS_resets (i : Nat) : Fld := ⟨R.MLR_STATUS i, 24, 5⟩
def F.MLR_STATUS_parity (i : Nat) : Fld := ⟨R.MLR_STATUS i, 16, 8⟩
def F.MLR_STATUS_expiries (i : Nat) : Fld := ⟨R.MLR_STATUS i, 0, 16⟩

end Sys2Proof.Machine
end

