-- ==== Sys2Proof/Machine/RegTable.lean ====
section
/-!
DEFINITION. Machine/RegTable.lean: the register map of BAR0 as data: 34 blocks, 2,600 registers, and for each register the bits of each access type (R10) and its reset value.
Written from the register maps and field tables of spec/ (R444 gives the blocks; each block's rule gives its map).
-/

namespace Sys2Proof.Machine

/-- One row of a register map: `count` registers at `off + j * stride` in the block, with the masks of the bits of each
access type of R10 and the value at reset. A bit in no mask is RO. -/
structure RegRow where
  off : Nat
  count : Nat
  stride : Nat
  reset : Nat
  rw : Nat := 0
  w1c : Nat := 0
  w1s : Nat := 0
  sc : Nat := 0
  wo : Nat := 0
  rc : Nat := 0
  deriving DecidableEq, Repr

/-- A register block (R444): instance i stands at `base + i * istride`. -/
structure RegBlock where
  base : Nat
  inst : Nat
  istride : Nat
  rows : List RegRow
  deriving DecidableEq, Repr

/-- Register rows of GLB (R453). -/
def rowsGlb : List RegRow := [
    { off := 0, count := 1, stride := 0, reset := 0x4D101F3D },  -- GLB_ID
    { off := 4, count := 1, stride := 0, reset := 0x1000000 },  -- GLB_PART
    { off := 8, count := 1, stride := 0, reset := 0 },  -- GLB_ROMVER
    { off := 0xC, count := 1, stride := 0, reset := 0x100 },  -- GLB_MAPVER
    { off := 0x10, count := 4, stride := 4, reset := 0 },  -- GLB_UID
    { off := 0x20, count := 1, stride := 0, reset := 0 },  -- GLB_VTARGET
    { off := 0x24, count := 1, stride := 0, reset := 0 },  -- GLB_CAPS
    { off := 0x28, count := 1, stride := 0, reset := 0 },  -- GLB_STATUS
    { off := 0x2C, count := 1, stride := 0, reset := 0, rw := 0xFFFFFFFF },  -- GLB_SHELLVER
    { off := 0x30, count := 1, stride := 0, reset := 0, rw := 0xFFFFFFFF },  -- GLB_HEARTBEAT
    { off := 0x34, count := 1, stride := 0, reset := 0 },  -- GLB_STRAPS
    { off := 0x38, count := 1, stride := 0, reset := 0 },  -- GLB_SUBSYS
    { off := 0x3C, count := 1, stride := 0, reset := 0 },  -- GLB_SPARE
    { off := 0x40, count := 16, stride := 4, reset := 0, rw := 0xFFFFFFFF } ]  -- GLB_SCRATCH

def blockGlb : RegBlock := { base := 0, inst := 1, istride := 0x10000, rows := rowsGlb }

/-- Register rows of CLK (R412). -/
def rowsClk : List RegRow := [
    { off := 0, count := 1, stride := 0, reset := 0x80000000, rw := 0x80000000 },  -- CLK_CTRL
    { off := 4, count := 1, stride := 0, reset := 0, w1c := 0x10000000 },  -- CLK_STATUS
    { off := 8, count := 1, stride := 0, reset := 0, rw := 3 },  -- CLK_PACE
    { off := 0xC, count := 1, stride := 0, reset := 0, rw := 1 },  -- CLK_DDR
    { off := 0x10, count := 1, stride := 0, reset := 0, rw := 0x8000000F },  -- CLK_SPREAD
    { off := 0x14, count := 1, stride := 0, reset := 0 },  -- CLK_REFMON
    { off := 0x18, count := 1, stride := 0, reset := 0 },  -- CLK_UNLOCKCNT
    { off := 0x1C, count := 1, stride := 0, reset := 0 },  -- CLK_PACETIME
    { off := 0x20, count := 24, stride := 4, reset := 0, w1c := 0x80000000 } ]  -- CLK_MON

def blockClk : RegBlock := { base := 0x10000, inst := 1, istride := 0x10000, rows := rowsClk }

/-- Register rows of PWR (R413). -/
def rowsPwr : List RegRow := [
    { off := 0, count := 1, stride := 0, reset := 0x80040064, rw := 0x80FFFFFF, sc := 0x40000000 },  -- PWR_CTRL
    { off := 4, count := 1, stride := 0, reset := 0 },  -- PWR_STATUS
    { off := 8, count := 1, stride := 0, reset := 0xFFFFFFFF },  -- PWR_NEXT
    { off := 0xC, count := 1, stride := 0, reset := 0 },  -- PWR_NEXTSRC
    { off := 0x10, count := 1, stride := 0, reset := 0, w1c := 0x80000000 },  -- PWR_FAULT
    { off := 0x14, count := 1, stride := 0, reset := 0 },  -- PWR_TRANS
    { off := 0x18, count := 1, stride := 0, reset := 0 },  -- PWR_CORENAP
    { off := 0x1C, count := 1, stride := 0, reset := 0xFFFFFFFF, rw := 0xFFFFFFFF },  -- PWR_CORECFG
    { off := 0x100, count := 48, stride := 4, reset := 0xA0000, rw := 0xF00E0000, w1c := 0x8000000 },  -- PWR_DOM
    { off := 0x200, count := 48, stride := 4, reset := 0 } ]  -- PWR_DSTAT

def blockPwr : RegBlock := { base := 0x20000, inst := 1, istride := 0x10000, rows := rowsPwr }

/-- Register rows of RST (R414). -/
def rowsRst : List RegRow := [
    { off := 0, count := 1, stride := 0, reset := 0, sc := 0xC0000000 },  -- RST_CTRL
    { off := 4, count := 1, stride := 0, reset := 0x20000000 },  -- RST_STATUS
    { off := 8, count := 1, stride := 0, reset := 0x10000000 },  -- RST_CAUSE
    { off := 0xC, count := 1, stride := 0, reset := 0 },  -- RST_COUNT
    { off := 0x10, count := 1, stride := 0, reset := 0 },  -- RST_PCIECNT
    { off := 0x14, count := 1, stride := 0, reset := 0 },  -- RST_SEQ
    { off := 0x18, count := 1, stride := 0, reset := 0 },  -- RST_UPTIME_LO
    { off := 0x1C, count := 1, stride := 0, reset := 0 },  -- RST_UPTIME_HI
    { off := 0x20, count := 8, stride := 4, reset := 0 } ]  -- RST_HIST

def blockRst : RegBlock := { base := 0x30000, inst := 1, istride := 0x10000, rows := rowsRst }

/-- Register rows of GOV (R237). -/
def rowsGov : List RegRow := [
    { off := 0, count := 1, stride := 0, reset := 0xF0000, rw := 0x800F0000 },  -- GOV_CTRL
    { off := 4, count := 1, stride := 0, reset := 0 },  -- GOV_STATUS
    { off := 8, count := 1, stride := 0, reset := 0x640, rw := 0x7FF },  -- GOV_CAP
    { off := 0xC, count := 1, stride := 0, reset := 0 },  -- GOV_CAPSTAT
    { off := 0x10, count := 1, stride := 0, reset := 0 },  -- GOV_POWER
    { off := 0x14, count := 1, stride := 0, reset := 0xA121010, rw := 0xFFFFFFFF },  -- GOV_FLMCFG
    { off := 0x18, count := 1, stride := 0, reset := 0xA0A1E46, rw := 0xFFFFFFFF },  -- GOV_FLMLIM
    { off := 0x1C, count := 1, stride := 0, reset := 0xA100820, rw := 0xFFFFFFF0 },  -- GOV_DRAMCFG
    { off := 0x20, count := 1, stride := 0, reset := 0x10010100, rw := 0xFFFFFF00 },  -- GOV_LANECFG
    { off := 0x24, count := 1, stride := 0, reset := 0 },  -- GOV_LOGSTAT
    { off := 0x28, count := 1, stride := 0, reset := 0, rw := 0x3FFFF },  -- GOV_LOGSEL
    { off := 0x2C, count := 1, stride := 0, reset := 0 },  -- GOV_LOGDATA
    { off := 0x30, count := 1, stride := 0, reset := 0 },  -- GOV_SMCMD_LO
    { off := 0x34, count := 1, stride := 0, reset := 0 },  -- GOV_SMCMD_HI
    { off := 0x38, count := 1, stride := 0, reset := 0 },  -- GOV_SMOBS_LO
    { off := 0x3C, count := 1, stride := 0, reset := 0 },  -- GOV_SMOBS_HI
    { off := 0x40, count := 1, stride := 0, reset := 0 },  -- GOV_SMMIS_LO
    { off := 0x44, count := 1, stride := 0, reset := 0 },  -- GOV_SMMIS_HI
    { off := 0x48, count := 1, stride := 0, reset := 0 },  -- GOV_ADJCNT
    { off := 0x4C, count := 1, stride := 0, reset := 0 },  -- GOV_SKIPCNT
    { off := 0x50, count := 4, stride := 4, reset := 0x2EE2EE00, rw := 0xFFF00 },  -- GOV_VFLUME
    { off := 0x60, count := 16, stride := 4, reset := 0 },  -- GOV_DRAMADJ
    { off := 0xA0, count := 16, stride := 4, reset := 0 },  -- GOV_LANEADJ
    { off := 0xE0, count := 8, stride := 4, reset := 0 } ]  -- GOV_RAIL

def blockGov : RegBlock := { base := 0x40000, inst := 1, istride := 0x10000, rows := rowsGov }

/-- Register rows of SENS (R415). -/
def rowsSens : List RegRow := [
    { off := 0, count := 1, stride := 0, reset := 0, sc := 0x80000000 },  -- SENS_CTRL
    { off := 4, count := 1, stride := 0, reset := 0 },  -- SENS_STATUS
    { off := 8, count := 1, stride := 0, reset := 0x6E0064, rw := 0xFF },  -- SENS_LIMITS
    { off := 0xC, count := 1, stride := 0, reset := 0 },  -- SENS_HOTTEST
    { off := 0x10, count := 1, stride := 0, reset := 0 },  -- SENS_PEAK
    { off := 0x14, count := 1, stride := 0, reset := 0, w1c := 0x80000000 },  -- SENS_TRIPREC
    { off := 0x18, count := 1, stride := 0, reset := 0, w1c := 0xFFFF },  -- SENS_VFAULT
    { off := 0x1C, count := 1, stride := 0, reset := 0x32, rw := 0xFF },  -- SENS_VTOL
    { off := 0x20, count := 24, stride := 4, reset := 0 },  -- SENS_TEMP
    { off := 0x80, count := 16, stride := 4, reset := 0 } ]  -- SENS_VMON

def blockSens : RegBlock := { base := 0x50000, inst := 1, istride := 0x10000, rows := rowsSens }

/-- Register rows of EVT (R455). -/
def rowsEvt : List RegRow := [
    { off := 0, count := 1, stride := 0, reset := 0, rw := 0x40000000, sc := 0x80000000 },  -- EVT_CTRL
    { off := 4, count := 1, stride := 0, reset := 0 },  -- EVT_STATUS
    { off := 8, count := 1, stride := 0, reset := 0, rw := 0xFFF },  -- EVT_MASK
    { off := 0xC, count := 1, stride := 0, reset := 0xFFF, rw := 0xFFF },  -- EVT_MLRMASK
    { off := 0x10, count := 1, stride := 0, reset := 0 },  -- EVT_RAISED
    { off := 0x14, count := 1, stride := 0, reset := 0 },  -- EVT_LAST
    { off := 0x18, count := 1, stride := 0, reset := 0, w1c := 0x80000000 },  -- EVT_FIRST
    { off := 0x1C, count := 1, stride := 0, reset := 0 },  -- EVT_FIRSTTB_LO
    { off := 0x20, count := 1, stride := 0, reset := 0 },  -- EVT_FIRSTTB_HI
    { off := 0x24, count := 1, stride := 0, reset := 0, rw := 0x3F000F },  -- EVT_HSEL
    { off := 0x28, count := 1, stride := 0, reset := 0 },  -- EVT_HDATA
    { off := 0x2C, count := 1, stride := 0, reset := 0, rw := 0xFFFF },  -- EVT_CSEL
    { off := 0x30, count := 1, stride := 0, reset := 0 },  -- EVT_CDATA
    { off := 0x34, count := 1, stride := 0, reset := 0, wo := 0xFFFFFFFF },  -- EVT_RAISE
    { off := 0x38, count := 6, stride := 4, reset := 0, rw := 0xFFFFFFFF },  -- EVT_RDATA
    { off := 0x50, count := 12, stride := 4, reset := 0 },  -- EVT_CLASSCNT
    { off := 0x80, count := 1, stride := 0, reset := 0 },  -- EVT_MASKED
    { off := 0x84, count := 1, stride := 0, reset := 0 },  -- EVT_MLRCNT
    { off := 0x88, count := 1, stride := 0, reset := 0 },  -- EVT_RAISEDENY
    { off := 0x8C, count := 4, stride := 4, reset := 0 },  -- EVT_PARTCNT
    { off := 0x9C, count := 1, stride := 0, reset := 0 } ]  -- EVT_DEVCNT

def blockEvt : RegBlock := { base := 0x60000, inst := 1, istride := 0x10000, rows := rowsEvt }

/-- Register rows of AUTH (R349). -/
def rowsAuth : List RegRow := [
    { off := 0, count := 1, stride := 0, reset := 0, rw := 0x30, sc := 0xC0000000 },  -- AUTH_CTRL
    { off := 4, count := 1, stride := 0, reset := 0, rw := 0x1F },  -- AUTH_STATUS
    { off := 8, count := 1, stride := 0, reset := 0 },  -- AUTH_JTAG
    { off := 0xC, count := 1, stride := 0, reset := 0 },  -- AUTH_MGMT
    { off := 0x10, count := 1, stride := 0, reset := 0 },  -- AUTH_MBOX
    { off := 0x14, count := 1, stride := 0, reset := 0x258, rw := 0xFFFF },  -- AUTH_IDLE
    { off := 0x18, count := 1, stride := 0, reset := 0 },  -- AUTH_FAILCNT
    { off := 0x1C, count := 1, stride := 0, reset := 1, rw := 0xFFFF },  -- AUTH_LOCKOUT
    { off := 0x20, count := 8, stride := 4, reset := 0 },  -- AUTH_CHAL
    { off := 0x40, count := 8, stride := 4, reset := 0, wo := 0xFFFFFFFF } ]  -- AUTH_RESP

def blockAuth : RegBlock := { base := 0x70000, inst := 1, istride := 0x10000, rows := rowsAuth }

/-- Register rows of KEY (R264). -/
def rowsKey : List RegRow := [
    { off := 0, count := 1, stride := 0, reset := 0, rw := 7, sc := 0xE0000000 },  -- KEY_CTRL
    { off := 4, count := 1, stride := 0, reset := 0 },  -- KEY_STATUS
    { off := 8, count := 1, stride := 0, reset := 0 },  -- KEY_FUSE
    { off := 0xC, count := 1, stride := 0, reset := 0 },  -- KEY_FKCV
    { off := 0x10, count := 1, stride := 0, reset := 0 },  -- KEY_FAILCNT
    { off := 0x14, count := 1, stride := 0, reset := 0, w1c := 0x80000000 },  -- KEY_TAMPER
    { off := 0x18, count := 1, stride := 0, reset := 0 },  -- KEY_LASTSRC
    { off := 0x1C, count := 1, stride := 0, reset := 0 },  -- KEY_VBAT
    { off := 0x20, count := 8, stride := 4, reset := 0, wo := 0xFFFFFFFF },  -- KEY_WDATA
    { off := 0x40, count := 8, stride := 4, reset := 0, w1s := 0x40000000 },  -- KEY_SLOT
    { off := 0x60, count := 8, stride := 4, reset := 0 },  -- KEY_KCV
    { off := 0x80, count := 16, stride := 4, reset := 0 } ]  -- KEY_LNONCE

def blockKey : RegBlock := { base := 0x80000, inst := 1, istride := 0x10000, rows := rowsKey }

/-- Register rows of CFG (R262). -/
def rowsCfg : List RegRow := [
    { off := 0, count := 1, stride := 0, reset := 0x80000000, rw := 0x80000000, sc := 0x40000000 },  -- CFG_CTRL
    { off := 4, count := 1, stride := 0, reset := 0x40000000 },  -- CFG_STATUS
    { off := 8, count := 1, stride := 0, reset := 0 },  -- CFG_BOOT
    { off := 0xC, count := 1, stride := 0, reset := 0 },  -- CFG_XSPI
    { off := 0x10, count := 1, stride := 0, reset := 0 },  -- CFG_RELEASE
    { off := 0x14, count := 1, stride := 0, reset := 0 },  -- CFG_SHELL_ID
    { off := 0x18, count := 1, stride := 0, reset := 0, rw := 0x3FFF },  -- CFG_RECOV
    { off := 0x1C, count := 1, stride := 0, reset := 0 },  -- CFG_LOADQ
    { off := 0x20, count := 8, stride := 4, reset := 0 },  -- CFG_BOOTLOG
    { off := 0x40, count := 4, stride := 0x40, reset := 0, rw := 0xE000000, w1c := 0x10000000, sc := 0xE0000000 },  -- CFG_P_STATE
    { off := 0x44, count := 4, stride := 0x40, reset := 0, rw := 0xFFFFF000 },  -- CFG_P_SRC_LO
    { off := 0x48, count := 4, stride := 0x40, reset := 0, rw := 0xF003F },  -- CFG_P_SRC_HI
    { off := 0x4C, count := 4, stride := 0x40, reset := 0, rw := 0xFFFFFFFF },  -- CFG_P_LEN_LO
    { off := 0x50, count := 4, stride := 0x40, reset := 0, rw := 0xFFFFFFFF },  -- CFG_P_LEN_HI
    { off := 0x54, count := 4, stride := 0x40, reset := 0 },  -- CFG_P_PROG
    { off := 0x58, count := 4, stride := 0x40, reset := 0, w1c := 0x80000000 },  -- CFG_P_FAULT
    { off := 0x5C, count := 4, stride := 0x40, reset := 0 },  -- CFG_P_FADDR
    { off := 0x60, count := 4, stride := 0x40, reset := 0 },  -- CFG_P_PARTIAL
    { off := 0x64, count := 4, stride := 0x40, reset := 0 },  -- CFG_P_PIMAGE
    { off := 0x68, count := 4, stride := 0x40, reset := 0 },  -- CFG_P_TIME
    { off := 0x6C, count := 4, stride := 0x40, reset := 0 } ]  -- CFG_P_FRAMES

def blockCfg : RegBlock := { base := 0x90000, inst := 1, istride := 0x10000, rows := rowsCfg }

/-- Register rows of PART (R78). -/
def rowsPart : List RegRow := [
    { off := 0, count := 1, stride := 0, reset := 0, rw := 0xF },  -- PART_QMASK
    { off := 4, count := 1, stride := 0, reset := 0 },  -- PART_STATE
    { off := 8, count := 1, stride := 0, reset := 0, rw := 1 },  -- PART_MODE
    { off := 0xC, count := 1, stride := 0, reset := 0x300 },  -- PART_PROFILE
    { off := 0x10, count := 1, stride := 0, reset := 0 },  -- PART_LINK
    { off := 0x14, count := 1, stride := 0, reset := 0 },  -- PART_IMAGE_ID
    { off := 0x18, count := 1, stride := 0, reset := 0, wo := 0xFFFFFFFF },  -- PART_VOTE
    { off := 0x1C, count := 1, stride := 0, reset := 0 },  -- PART_CLKCNT
    { off := 0x20, count := 8, stride := 4, reset := 0 } ]  -- PART_CLK

def blockPart : RegBlock := { base := 0xA0000, inst := 4, istride := 0x1000, rows := rowsPart }

/-- Register rows of TURN (R80). -/
def rowsTurn : List RegRow := [
    { off := 0, count := 1, stride := 0, reset := 3 },  -- TURN_CONFIG
    { off := 4, count := 1, stride := 0, reset := 0 },  -- TURN_STATUS
    { off := 8, count := 1, stride := 0, reset := 0 },  -- TURN_COUNT_LO
    { off := 0xC, count := 1, stride := 0, reset := 0 },  -- TURN_COUNT_HI
    { off := 0x10, count := 1, stride := 0, reset := 0 },  -- TURN_QUANTA_LO
    { off := 0x14, count := 1, stride := 0, reset := 0 },  -- TURN_QUANTA_HI
    { off := 0x18, count := 8, stride := 4, reset := 0 },  -- TURN_CAUSE
    { off := 0x38, count := 1, stride := 0, reset := 0 },  -- TURN_LASTBRAKE
    { off := 0x3C, count := 1, stride := 0, reset := 0x7A12, rw := 0xFFFF, sc := 0x80000000 } ]  -- TURN_CTRL

def blockTurn : RegBlock := { base := 0xB0000, inst := 4, istride := 0x1000, rows := rowsTurn }

/-- Register rows of RACE (R107). -/
def rowsRace : List RegRow := [
    { off := 0, count := 1, stride := 0, reset := 0x10100, rw := 0x10100 },  -- RACE_CTRL
    { off := 4, count := 1, stride := 0, reset := 0 },  -- RACE_STATUS
    { off := 8, count := 1, stride := 0, reset := 0x10101010, rw := 0xFFFFFFFF },  -- RACE_AGE0
    { off := 0xC, count := 1, stride := 0, reset := 0x101010, rw := 0xFFFFFF },  -- RACE_AGE1
    { off := 0x10, count := 1, stride := 0, reset := 0x64, rw := 0xFFFF },  -- RACE_DEADTO
    { off := 0x14, count := 1, stride := 0, reset := 0, rw := 0x1FF, sc := 0xE0000000 },  -- RACE_DEADCTRL
    { off := 0x18, count := 1, stride := 0, reset := 0 },  -- RACE_DEADCNT
    { off := 0x1C, count := 1, stride := 0, reset := 0 },  -- RACE_DROP
    { off := 0x20, count := 1, stride := 0, reset := 0, w1c := 0x80000000, sc := 0x10000 },  -- RACE_ECC
    { off := 0x24, count := 1, stride := 0, reset := 0 },  -- RACE_ECCLOC
    { off := 0x28, count := 1, stride := 0, reset := 0, rw := 0xFF77FF },  -- RACE_SLOTBASE
    { off := 0x2C, count := 1, stride := 0, reset := 0 },  -- RACE_SLOTDATA
    { off := 0x30, count := 1, stride := 0, reset := 0x3E8, rw := 0xFFFFF, sc := 0x80000000 },  -- RACE_STCTRL
    { off := 0x34, count := 1, stride := 0, reset := 0 },  -- RACE_UNITS_LO
    { off := 0x38, count := 1, stride := 0, reset := 0 },  -- RACE_UNITS_HI
    { off := 0x3C, count := 1, stride := 0, reset := 0 },  -- RACE_PEAKWAIT
    { off := 0x40, count := 8, stride := 4, reset := 0 },  -- RACE_DEADM
    { off := 0x60, count := 8, stride := 4, reset := 0 },  -- RACE_DEADX
    { off := 0x100, count := 64, stride := 4, reset := 0, rw := 0x800003FF } ]  -- RACE_STSEL

def blockRace : RegBlock := { base := 0xC0000, inst := 1, istride := 0x10000, rows := rowsRace }

/-- Register rows of STAT (R108). -/
def rowsStat : List RegRow := [
    { off := 0, count := 64, stride := 4, reset := 0 },  -- STAT_UNITS
    { off := 0x100, count := 64, stride := 4, reset := 0 } ]  -- STAT_LAT

def blockStat : RegBlock := { base := 0xD0000, inst := 1, istride := 0x10000, rows := rowsStat }

/-- Register rows of FLM (R135). -/
def rowsFlm : List RegRow := [
    { off := 0, count := 1, stride := 0, reset := 0x10100, rw := 0x10100, sc := 0x80000000 },  -- FLM_CTRL
    { off := 4, count := 1, stride := 0, reset := 0 },  -- FLM_STATUS
    { off := 8, count := 1, stride := 0, reset := 0xA, rw := 0x3FF },  -- FLM_STALLTO
    { off := 0xC, count := 1, stride := 0, reset := 0, rw := 0xF },  -- FLM_QUIESCE
    { off := 0x10, count := 1, stride := 0, reset := 0, rw := 0xF03FFFFF },  -- FLM_RBADDR
    { off := 0x14, count := 1, stride := 0, reset := 0 },  -- FLM_RBDATA
    { off := 0x18, count := 1, stride := 0, reset := 0, rw := 0xFF0F },  -- FLM_PORTSEL
    { off := 0x1C, count := 1, stride := 0, reset := 0, w1c := 0x80000000 },  -- FLM_PORTSTAT
    { off := 0x20, count := 1, stride := 0, reset := 0, rw := 0xF7FF, sc := 0x80000000 },  -- FLM_SLACKSEL
    { off := 0x24, count := 1, stride := 0, reset := 0 },  -- FLM_SLACKDATA
    { off := 0x28, count := 1, stride := 0, reset := 0, w1c := 0x80000000 },  -- FLM_ERR
    { off := 0x2C, count := 1, stride := 0, reset := 0, w1c := 0x80000000, sc := 0x10000 },  -- FLM_ECC
    { off := 0x30, count := 1, stride := 0, reset := 0, rw := 0x7FF },  -- FLM_MEMSEL
    { off := 0x34, count := 1, stride := 0, reset := 0 },  -- FLM_MEMSTAT
    { off := 0x38, count := 1, stride := 0, reset := 0 },  -- FLM_DROPCNT
    { off := 0x3C, count := 1, stride := 0, reset := 0 },  -- FLM_MISSLOC
    { off := 0x40, count := 8, stride := 4, reset := 0 },  -- FLM_OVR
    { off := 0x60, count := 8, stride := 4, reset := 0 },  -- FLM_STL
    { off := 0x100, count := 64, stride := 4, reset := 0, rw := 0xFFFFFFFF } ]  -- FLM_PROBE

def blockFlm : RegBlock := { base := 0xE0000, inst := 1, istride := 0x10000, rows := rowsFlm }

/-- Register rows of MPORT (R162). -/
def rowsMport : List RegRow := [
    { off := 0, count := 1, stride := 0, reset := 0xC8, rw := 0xFFFF, sc := 0x80000000 },  -- MPORT_CTRL
    { off := 4, count := 1, stride := 0, reset := 0 },  -- MPORT_STATUS
    { off := 8, count := 1, stride := 0, reset := 0, rw := 0x1FF },  -- MPORT_SEL
    { off := 0xC, count := 1, stride := 0, reset := 0 },  -- MPORT_BIND
    { off := 0x10, count := 1, stride := 0, reset := 0 },  -- MPORT_BASE
    { off := 0x14, count := 1, stride := 0, reset := 0 },  -- MPORT_SIZE
    { off := 0x18, count := 1, stride := 0, reset := 0 },  -- MPORT_TARGET
    { off := 0x1C, count := 1, stride := 0, reset := 0 },  -- MPORT_PSTAT
    { off := 0x20, count := 1, stride := 0, reset := 0 },  -- MPORT_PFISSUE
    { off := 0x24, count := 1, stride := 0, reset := 0 },  -- MPORT_PFUSE
    { off := 0x28, count := 1, stride := 0, reset := 0 },  -- MPORT_PFDISC
    { off := 0x2C, count := 1, stride := 0, reset := 0 },  -- MPORT_PFDROP
    { off := 0x30, count := 1, stride := 0, reset := 0 },  -- MPORT_RANGE
    { off := 0x34, count := 1, stride := 0, reset := 0, w1c := 0x80000000 },  -- MPORT_ERR
    { off := 0x38, count := 1, stride := 0, reset := 0, rw := 0x1FF0F },  -- MPORT_MMSEL
    { off := 0x3C, count := 1, stride := 0, reset := 0 },  -- MPORT_MMDESC
    { off := 0x40, count := 16, stride := 4, reset := 0, w1c := 0xFFFFFFFF },  -- MPORT_FAIL
    { off := 0x80, count := 16, stride := 4, reset := 0, w1c := 0xFFFFFFFF },  -- MPORT_SLOW
    { off := 0xC0, count := 16, stride := 4, reset := 0 } ]  -- MPORT_BOUND

def blockMport : RegBlock := { base := 0xF0000, inst := 1, istride := 0x10000, rows := rowsMport }

/-- Register rows of MILL (R58). -/
def rowsMill : List RegRow := [
    { off := 0, count := 1, stride := 0, reset := 0, w1c := 0x80000000, sc := 0x10000 } ]  -- MILL_ECC

def blockMill : RegBlock := { base := 0x1000000, inst := 256, istride := 0x1000, rows := rowsMill }

/-- Register rows of DDRC (R222). -/
def rowsDdrc : List RegRow := [
    { off := 0, count := 1, stride := 0, reset := 0x10000000, rw := 0x78000000, sc := 0x80000000 },  -- DDRC_CTRL
    { off := 4, count := 1, stride := 0, reset := 0 },  -- DDRC_STATUS
    { off := 8, count := 1, stride := 0, reset := 0 },  -- DDRC_POP
    { off := 0xC, count := 1, stride := 0, reset := 0, rw := 0xFFFFFFFF },  -- DDRC_OWN_LO
    { off := 0x10, count := 1, stride := 0, reset := 0, rw := 0xFFFFFFFF },  -- DDRC_OWN_HI
    { off := 0x14, count := 1, stride := 0, reset := 0x20, rw := 0xFF },  -- DDRC_PAGE
    { off := 0x18, count := 1, stride := 0, reset := 0x4040000, rw := 0x70000 },  -- DDRC_REF
    { off := 0x1C, count := 1, stride := 0, reset := 0 },  -- DDRC_REFSTAT
    { off := 0x20, count := 1, stride := 0, reset := 0x64, rw := 0xFFFF },  -- DDRC_PD
    { off := 0x24, count := 1, stride := 0, reset := 0x10203040, rw := 0xFFFFFFFF },  -- DDRC_URG
    { off := 0x28, count := 1, stride := 0, reset := 0 },  -- DDRC_LATE
    { off := 0x2C, count := 1, stride := 0, reset := 0 },  -- DDRC_UTIL
    { off := 0x30, count := 1, stride := 0, reset := 0, sc := 0x80000000 },  -- DDRC_CE
    { off := 0x34, count := 1, stride := 0, reset := 0, w1c := 0x80000000 },  -- DDRC_UE
    { off := 0x38, count := 1, stride := 0, reset := 0 },  -- DDRC_ERRADDR_LO
    { off := 0x3C, count := 1, stride := 0, reset := 0 },  -- DDRC_ERRADDR_HI
    { off := 0x40, count := 1, stride := 0, reset := 0x18, rw := 0xFFFF },  -- DDRC_SCRUB
    { off := 0x44, count := 1, stride := 0, reset := 0 },  -- DDRC_ALERT
    { off := 0x48, count := 1, stride := 0, reset := 0x550001, rw := 0xFF0000 },  -- DDRC_TEMP
    { off := 0x4C, count := 1, stride := 0, reset := 0 } ]  -- DDRC_TRAIN

def blockDdrc : RegBlock := { base := 0x2000000, inst := 16, istride := 0x10000, rows := rowsDdrc }

/-- Register rows of DPHY (R223). -/
def rowsDphy : List RegRow := [
    { off := 0, count := 1, stride := 0, reset := 0, rw := 0x80000000 },  -- DPHY_CTRL
    { off := 4, count := 1, stride := 0, reset := 0, rw := 0x1F0F },  -- DPHY_SEL
    { off := 8, count := 1, stride := 0, reset := 0 },  -- DPHY_RDEYE
    { off := 0xC, count := 1, stride := 0, reset := 0 },  -- DPHY_WRDLY
    { off := 0x10, count := 1, stride := 0, reset := 0 },  -- DPHY_VREF
    { off := 0x14, count := 1, stride := 0, reset := 0 } ]  -- DPHY_DRIFT

def blockDphy : RegBlock := { base := 0x2100000, inst := 16, istride := 0x10000, rows := rowsDphy }

/-- Register rows of SPK (R200). -/
def rowsSpk : List RegRow := [
    { off := 0, count := 1, stride := 0, reset := 0x1800, rw := 0xBF80FF00 },  -- SPK_CTRL
    { off := 4, count := 1, stride := 0, reset := 0 },  -- SPK_STATUS
    { off := 8, count := 1, stride := 0, reset := 0xC0000 },  -- SPK_PEER
    { off := 0xC, count := 1, stride := 0, reset := 0xFFF000, sc := 0x80000000 },  -- SPK_LAT
    { off := 0x10, count := 1, stride := 0, reset := 0, w1c := 0x80000000 },  -- SPK_ERR
    { off := 0x14, count := 1, stride := 0, reset := 0x233100, rw := 0xFFFFC0 } ]  -- SPK_EQ

def blockSpk : RegBlock := { base := 0x2200000, inst := 16, istride := 0x1000, rows := rowsSpk }

/-- Register rows of LANE (R201). -/
def rowsLane : List RegRow := [
    { off := 0, count := 1, stride := 0, reset := 0, rw := 0xF000000, sc := 0x80000000 } ]  -- LANE_STAT

def blockLane : RegBlock := { base := 0x2210000, inst := 128, istride := 0x100, rows := rowsLane }

/-- Register rows of PCIE (R293). -/
def rowsPcie : List RegRow := [
    { off := 0, count := 1, stride := 0, reset := 0x2000000, rw := 0x3000000, sc := 0x80000000 },  -- PCIE_CTRL
    { off := 4, count := 1, stride := 0, reset := 0 },  -- PCIE_STATUS
    { off := 8, count := 1, stride := 0, reset := 0 },  -- PCIE_LINKCNT
    { off := 0xC, count := 1, stride := 0, reset := 0, rw := 3 },  -- PCIE_BAR2SEL
    { off := 0x10, count := 1, stride := 0, reset := 0, rw := 0xF80F0000 },  -- PCIE_BAR4CTL
    { off := 0x14, count := 1, stride := 0, reset := 0, rw := 0xFFFFFFFF },  -- PCIE_BAR4BASE_LO
    { off := 0x18, count := 1, stride := 0, reset := 0 },  -- PCIE_BAR4BASE_HI
    { off := 0x1C, count := 1, stride := 0, reset := 0 },  -- PCIE_TAGS
    { off := 0x20, count := 1, stride := 0, reset := 6, rw := 0xF },  -- PCIE_CPLTO
    { off := 0x24, count := 1, stride := 0, reset := 0, w1c := 0x80000000 },  -- PCIE_ERR
    { off := 0x28, count := 1, stride := 0, reset := 0 },  -- PCIE_ERRHDR0
    { off := 0x2C, count := 1, stride := 0, reset := 0 },  -- PCIE_ERRHDR1
    { off := 0x30, count := 1, stride := 0, reset := 0 },  -- PCIE_BARDENY
    { off := 0x34, count := 1, stride := 0, reset := 0 },  -- PCIE_RXERR
    { off := 0x38, count := 1, stride := 0, reset := 0 },  -- PCIE_RATE
    { off := 0x3C, count := 1, stride := 0, reset := 0 },  -- PCIE_SPARE
    { off := 0x40, count := 16, stride := 4, reset := 0 },  -- PCIE_LANE
    { off := 0x80, count := 16, stride := 4, reset := 0 },  -- PCIE_EQ
    { off := 0xC0, count := 16, stride := 4, reset := 0 } ]  -- PCIE_MSGCNT

def blockPcie : RegBlock := { base := 0x2300000, inst := 1, istride := 0x10000, rows := rowsPcie }

/-- Register rows of RING (R294). -/
def rowsRing : List RegRow := [
    { off := 0, count := 1, stride := 0, reset := 0, rw := 0x80000000 },  -- RING_CTRL
    { off := 4, count := 1, stride := 0, reset := 0 },  -- RING_STATUS
    { off := 8, count := 1, stride := 0, reset := 8, rw := 0xFFF },  -- RING_POLL
    { off := 0xC, count := 1, stride := 0, reset := 0, rw := 0xFFFFF000 },  -- RING_DBBASE_LO
    { off := 0x10, count := 1, stride := 0, reset := 0, rw := 0xFFFFFFFF },  -- RING_DBBASE_HI
    { off := 0x14, count := 1, stride := 0, reset := 0 },  -- RING_HRDY
    { off := 0x18, count := 1, stride := 0, reset := 0, rc := 0xFFFF },  -- RING_EVLOST
    { off := 0x1C, count := 1, stride := 0, reset := 0, w1c := 0x80000000 },  -- RING_ERR
    { off := 0x20, count := 1, stride := 0, reset := 0 },  -- RING_EVSEQ
    { off := 0x40, count := 13, stride := 0x10, reset := 0, rw := 0xFFFFF000 },  -- RING_R_BASE_LO
    { off := 0x44, count := 13, stride := 0x10, reset := 0, rw := 0xFFFFFFFF },  -- RING_R_BASE_HI
    { off := 0x48, count := 13, stride := 0x10, reset := 0, rw := 0x9F3F8000 } ]  -- RING_R_CFG

def blockRing : RegBlock := { base := 0x2310000, inst := 1, istride := 0x10000, rows := rowsRing }

/-- Register rows of SLC (R295). -/
def rowsSlc : List RegRow := [
    { off := 0, count := 1, stride := 0, reset := 0, sc := 0x80000000 },  -- SLC_CTRL
    { off := 4, count := 1, stride := 0, reset := 0, w1c := 0x80000000 },  -- SLC_STATUS
    { off := 8, count := 1, stride := 0, reset := 0 },  -- SLC_POOL
    { off := 0xC, count := 1, stride := 0, reset := 0, rw := 0xFF },  -- SLC_SEL
    { off := 0x10, count := 1, stride := 0, reset := 0, rw := 0x80000077 },  -- SLC_CFG
    { off := 0x14, count := 1, stride := 0, reset := 0, rw := 0xF },  -- SLC_SIZE
    { off := 0x18, count := 1, stride := 0, reset := 0 },  -- SLC_OCC
    { off := 0x1C, count := 1, stride := 0, reset := 0, rw := 0x7F },  -- SLC_CUT
    { off := 0x20, count := 1, stride := 0, reset := 0 },  -- SLC_DROPS
    { off := 0x24, count := 1, stride := 0, reset := 0 },  -- SLC_GAP
    { off := 0x28, count := 1, stride := 0, reset := 0, rw := 0xFF, sc := 0x80000000 },  -- SLC_CMD
    { off := 0x2C, count := 1, stride := 0, reset := 0, rw := 0xFFFFFFC0 },  -- SLC_RING_LO
    { off := 0x30, count := 1, stride := 0, reset := 0, rw := 0xFFFFFFFF },  -- SLC_RING_HI
    { off := 0x34, count := 1, stride := 0, reset := 0, rw := 0x8F3F8000 },  -- SLC_RINGCFG
    { off := 0x38, count := 1, stride := 0, reset := 0, w1c := 0x80000000 },  -- SLC_ERR
    { off := 0x3C, count := 1, stride := 0, reset := 0 },  -- SLC_ITEMS
    { off := 0x40, count := 8, stride := 4, reset := 0 },  -- SLC_EN
    { off := 0x60, count := 8, stride := 4, reset := 0 } ]  -- SLC_NONEMPTY

def blockSlc : RegBlock := { base := 0x2320000, inst := 1, istride := 0x10000, rows := rowsSlc }

/-- Register rows of HOP (R321). -/
def rowsHop : List RegRow := [
    { off := 0, count := 1, stride := 0, reset := 0x80000000, rw := 0x80000000, sc := 0x40000000 },  -- HOP_CTRL
    { off := 4, count := 1, stride := 0, reset := 0 },  -- HOP_STATUS
    { off := 8, count := 1, stride := 0, reset := 0, rw := 0x400F0007, sc := 0x80000000 },  -- HOP_CMD
    { off := 0xC, count := 1, stride := 0, reset := 0 },  -- HOP_DENY
    { off := 0x10, count := 1, stride := 0, reset := 0, w1c := 0x80000000 },  -- HOP_ECC
    { off := 0x14, count := 1, stride := 0, reset := 0 },  -- HOP_ECCADDR
    { off := 0x18, count := 1, stride := 0, reset := 0 },  -- HOP_TEST
    { off := 0x1C, count := 1, stride := 0, reset := 0 },  -- HOP_TESTFAIL
    { off := 0x40, count := 16, stride := 4, reset := 0 },  -- HOP_BANK
    { off := 0x80, count := 16, stride := 4, reset := 0 } ]  -- HOP_STALL

def blockHop : RegBlock := { base := 0x2400000, inst := 1, istride := 0x10000, rows := rowsHop }

/-- Register rows of SCHED (R322). -/
def rowsSched : List RegRow := [
    { off := 0, count := 1, stride := 0, reset := 0x40000000, rw := 0xC0000000, sc := 0x20000000 },  -- SCHED_CTRL
    { off := 4, count := 1, stride := 0, reset := 0 },  -- SCHED_STATUS
    { off := 8, count := 1, stride := 0, reset := 0, rw := 0x3FFE001 },  -- SCHED_NTBASE
    { off := 0xC, count := 1, stride := 0, reset := 0 },  -- SCHED_REFCNT
    { off := 0x10, count := 8, stride := 4, reset := 0, rw := 0xFFFFFFFF },  -- SCHED_ENQ
    { off := 0x30, count := 1, stride := 0, reset := 0, rc := 0xFFFFFFFF },  -- SCHED_ENQSTAT
    { off := 0x34, count := 1, stride := 0, reset := 0 },  -- SCHED_DISPCNT
    { off := 0x38, count := 1, stride := 0, reset := 0 },  -- SCHED_PREEMPTCNT
    { off := 0x3C, count := 1, stride := 0, reset := 0 },  -- SCHED_CANCELCNT
    { off := 0x40, count := 8, stride := 4, reset := 0 },  -- SCHED_RDY
    { off := 0x60, count := 4, stride := 4, reset := 0 },  -- SCHED_DLY
    { off := 0x70, count := 4, stride := 4, reset := 0 },  -- SCHED_DLYHEAD
    { off := 0x80, count := 32, stride := 4, reset := 0 } ]  -- SCHED_CORE

def blockSched : RegBlock := { base := 0x2410000, inst := 1, istride := 0x10000, rows := rowsSched }

/-- Register rows of MLR (R323). -/
def rowsMlr : List RegRow := [
    { off := 0, count := 1, stride := 0, reset := 0x90000000, rw := 0xF0000000 },  -- MLR_CTRL
    { off := 4, count := 1, stride := 0, reset := 0x3E8, rw := 0xFFFFF, sc := 0x80000000 },  -- MLR_WDOG
    { off := 8, count := 1, stride := 0, reset := 0 } ]  -- MLR_STATUS

def blockMlr : RegBlock := { base := 0x2500000, inst := 32, istride := 0x1000, rows := rowsMlr }

/-- Register rows of DBG (R350). -/
def rowsDbga : List RegRow := [
    { off := 0, count := 1, stride := 0, reset := 0, rw := 3, sc := 0x80000000 },  -- DBG_CTRL
    { off := 4, count := 1, stride := 0, reset := 0 },  -- DBG_STATUS
    { off := 8, count := 1, stride := 0, reset := 0, sc := 0xFFF },  -- DBG_HALTREQ
    { off := 0xC, count := 1, stride := 0, reset := 0, rw := 0xF },  -- DBG_BREAKEN
    { off := 0x10, count := 4, stride := 4, reset := 0, w1c := 0x80000000 },  -- DBG_BREAKREC
    { off := 0x20, count := 4, stride := 4, reset := 0 },  -- DBG_HALTCAUSE
    { off := 0x30, count := 4, stride := 8, reset := 0, rw := 0xFFFFFFFF },  -- DBG_RUNLEFT_LO
    { off := 0x34, count := 4, stride := 8, reset := 0, rw := 0xFFFFFFFF },  -- DBG_RUNLEFT_HI
    { off := 0x50, count := 1, stride := 0, reset := 0, rw := 0x3F },  -- DBG_WSEL
    { off := 0x54, count := 1, stride := 0, reset := 0, rw := 0xFFFFC1FF },  -- DBG_WCFG
    { off := 0x58, count := 1, stride := 0, reset := 0, rw := 0xFFFFFFFF },  -- DBG_WLOW_LO
    { off := 0x5C, count := 1, stride := 0, reset := 0, rw := 0xFF },  -- DBG_WLOW_HI
    { off := 0x60, count := 1, stride := 0, reset := 0, rw := 0xFFFFFFFF },  -- DBG_WHIGH_LO
    { off := 0x64, count := 1, stride := 0, reset := 0, rw := 0xFF },  -- DBG_WHIGH_HI
    { off := 0x68, count := 1, stride := 0, reset := 0, rw := 0xFFFFFFFF },  -- DBG_WDATA_LO
    { off := 0x6C, count := 1, stride := 0, reset := 0, rw := 0xFFFFFFFF },  -- DBG_WDATA_HI
    { off := 0x70, count := 1, stride := 0, reset := 0, rw := 0xFFFFFFFF },  -- DBG_WMASK_LO
    { off := 0x74, count := 1, stride := 0, reset := 0, rw := 0xFFFFFFFF },  -- DBG_WMASK_HI
    { off := 0x78, count := 1, stride := 0, reset := 0, rw := 0xFFFF0000 },  -- DBG_WCOUNT
    { off := 0x7C, count := 1, stride := 0, reset := 0 },  -- DBG_WHITREC
    { off := 0x80, count := 4, stride := 4, reset := 0, w1c := 0xFFFF },  -- DBG_WHIT
    { off := 0x90, count := 4, stride := 4, reset := 0 },  -- DBG_WOWNER
    { off := 0xA0, count := 1, stride := 0, reset := 0, rw := 0x3FFFFFC },  -- DBG_RADDR
    { off := 0xA4, count := 1, stride := 0, reset := 0, rw := 0xFFFFFFFF },  -- DBG_RDATA
    { off := 0xA8, count := 1, stride := 0, reset := 0 },  -- DBG_DENYCNT
    { off := 0xAC, count := 1, stride := 0, reset := 0, rw := 0x70FF0000, sc := 0x80000000 },  -- DBG_BDCTRL
    { off := 0xB0, count := 1, stride := 0, reset := 0, rw := 0xFFFFFFF0 },  -- DBG_BDADDR_LO
    { off := 0xB4, count := 1, stride := 0, reset := 0, rw := 0x3F },  -- DBG_BDADDR_HI
    { off := 0xB8, count := 1, stride := 0, reset := 0 },  -- DBG_BDSTAT
    { off := 0xBC, count := 1, stride := 0, reset := 0, rw := 0xFFF0FFF },  -- DBG_SRSEL
    { off := 0xC0, count := 4, stride := 4, reset := 0, rw := 0xFFFFFFFF },  -- DBG_BDDATA
    { off := 0xD0, count := 1, stride := 0, reset := 0 },  -- DBG_SRDATA_LO
    { off := 0xD4, count := 1, stride := 0, reset := 0 },  -- DBG_SRDATA_HI
    { off := 0xD8, count := 1, stride := 0, reset := 0, rw := 0x1F },  -- DBG_MSEL
    { off := 0xDC, count := 1, stride := 0, reset := 0, sc := 0xE0000000 },  -- DBG_MCTRL
    { off := 0xE0, count := 1, stride := 0, reset := 0 },  -- DBG_MSTATUS
    { off := 0xE4, count := 1, stride := 0, reset := 0, rw := 0xFFFFFFFF },  -- DBG_MPC_LO
    { off := 0xE8, count := 1, stride := 0, reset := 0, rw := 0xFFFFFFFF },  -- DBG_MPC_HI
    { off := 0xEC, count := 1, stride := 0, reset := 0, rw := 0x1F },  -- DBG_MGPRSEL
    { off := 0xF0, count := 1, stride := 0, reset := 0, rw := 0xFFFFFFFF } ]  -- DBG_MGPR_LO

/-- Register rows of DBG (R350). -/
def rowsDbgb : List RegRow := [
    { off := 0xF4, count := 1, stride := 0, reset := 0, rw := 0xFFFFFFFF },  -- DBG_MGPR_HI
    { off := 0xF8, count := 1, stride := 0, reset := 0, rw := 0xFFF },  -- DBG_MCSRSEL
    { off := 0xFC, count := 1, stride := 0, reset := 0, rw := 0xFFFFFFFF },  -- DBG_MCSR_LO
    { off := 0x100, count := 1, stride := 0, reset := 0, rw := 0xFFFFFFFF },  -- DBG_MCSR_HI
    { off := 0x104, count := 1, stride := 0, reset := 0 },  -- DBG_MPCSAMP_LO
    { off := 0x108, count := 1, stride := 0, reset := 0 },  -- DBG_MPCSAMP_HI
    { off := 0x10C, count := 1, stride := 0, reset := 0, rw := 0x107 },  -- DBG_MRSEL
    { off := 0x110, count := 1, stride := 0, reset := 0, rw := 0xFF000000 },  -- DBG_MRCFG
    { off := 0x114, count := 1, stride := 0, reset := 0, rw := 0xFFFFFFFF },  -- DBG_MRLOW_LO
    { off := 0x118, count := 1, stride := 0, reset := 0, rw := 0xFFFFFFFF },  -- DBG_MRLOW_HI
    { off := 0x11C, count := 1, stride := 0, reset := 0, rw := 0xFFFFFFFF },  -- DBG_MRHIGH_LO
    { off := 0x120, count := 1, stride := 0, reset := 0, rw := 0xFFFFFFFF },  -- DBG_MRHIGH_HI
    { off := 0x124, count := 1, stride := 0, reset := 0, rw := 0xC000FFFF },  -- DBG_MRQUAL
    { off := 0x128, count := 1, stride := 0, reset := 0, w1c := 0x80000000 },  -- DBG_MHIT
    { off := 0x12C, count := 1, stride := 0, reset := 0 },  -- DBG_MHITADDR_LO
    { off := 0x130, count := 1, stride := 0, reset := 0 },  -- DBG_MHITADDR_HI
    { off := 0x134, count := 1, stride := 0, reset := 0 },  -- DBG_MHALTED
    { off := 0x138, count := 1, stride := 0, reset := 0 },  -- DBG_MOWNER_LO
    { off := 0x13C, count := 1, stride := 0, reset := 0 } ]  -- DBG_MOWNER_HI

def blockDbg : RegBlock := { base := 0x2600000, inst := 1, istride := 0x10000, rows := rowsDbga ++ rowsDbgb }

/-- Register rows of TRC (R378). -/
def rowsTrc : List RegRow := [
    { off := 0, count := 1, stride := 0, reset := 0, rw := 0xC01F0000, sc := 0x30000000 },  -- TRC_CTRL
    { off := 4, count := 1, stride := 0, reset := 0, w1c := 0x10000000 },  -- TRC_STATUS
    { off := 8, count := 1, stride := 0, reset := 0, rw := 0xFF03FFFF },  -- TRC_RING
    { off := 0xC, count := 1, stride := 0, reset := 0 },  -- TRC_WPOS
    { off := 0x10, count := 1, stride := 0, reset := 0, rw := 0xFFFFFFFF },  -- TRC_STOPDLY
    { off := 0x14, count := 1, stride := 0, reset := 0x8000000, rw := 0xE000000, sc := 0x80000000 },  -- TRC_TRIG
    { off := 0x18, count := 1, stride := 0, reset := 0 },  -- TRC_TRIGREC_LO
    { off := 0x1C, count := 1, stride := 0, reset := 0 },  -- TRC_TRIGREC_HI
    { off := 0x20, count := 1, stride := 0, reset := 0 },  -- TRC_LOST
    { off := 0x24, count := 1, stride := 0, reset := 0 },  -- TRC_PKTCNT
    { off := 0x28, count := 1, stride := 0, reset := 0x64, rw := 0xFFFF },  -- TRC_SYNC
    { off := 0x2C, count := 1, stride := 0, reset := 0, w1c := 0x80000000 },  -- TRC_ERR
    { off := 0x30, count := 1, stride := 0, reset := 0xA, rw := 0xFFFF },  -- TRC_FLUSHTO
    { off := 0x34, count := 1, stride := 0, reset := 0 },  -- TRC_EXCL
    { off := 0x38, count := 1, stride := 0, reset := 0 },  -- TRC_RATE
    { off := 0x3C, count := 1, stride := 0, reset := 0 },  -- TRC_LASTSTOP
    { off := 0x80, count := 32, stride := 4, reset := 0, rw := 0x80000000 } ]  -- TRC_CORE

def blockTrc : RegBlock := { base := 0x2610000, inst := 1, istride := 0x10000, rows := rowsTrc }

/-- Register rows of ACQ (R377). -/
def rowsAcq : List RegRow := [
    { off := 0, count := 1, stride := 0, reset := 0, sc := 0x80000000 },  -- ACQ_CTRL
    { off := 4, count := 1, stride := 0, reset := 0, w1c := 0x40000 },  -- ACQ_STATUS
    { off := 8, count := 1, stride := 0, reset := 0xC, rw := 0xF },  -- ACQ_HWM
    { off := 0xC, count := 1, stride := 0, reset := 0x2000, rw := 0x8000FF00 },  -- ACQ_XCFG
    { off := 0x10, count := 1, stride := 0, reset := 0, wo := 0xFFFFFFFF },  -- ACQ_SWTRIG
    { off := 0x14, count := 1, stride := 0, reset := 0, rw := 0xFF },  -- ACQ_GSEL
    { off := 0x18, count := 1, stride := 0, reset := 0, rw := 0xFFFF0FFF },  -- ACQ_GDEF
    { off := 0x1C, count := 1, stride := 0, reset := 0, rw := 0x37 },  -- ACQ_CNTSEL
    { off := 0x20, count := 1, stride := 0, reset := 0 },  -- ACQ_CNTDATA
    { off := 0x24, count := 1, stride := 0, reset := 0, w1c := 0x80000000 },  -- ACQ_ERR
    { off := 0x28, count := 1, stride := 0, reset := 0 },  -- ACQ_RATE
    { off := 0x2C, count := 1, stride := 0, reset := 0 },  -- ACQ_TRIGREC
    { off := 0x40, count := 8, stride := 4, reset := 0, rw := 0xFFFFFFFF },  -- ACQ_MILLEN
    { off := 0x100, count := 4, stride := 0x20, reset := 0, rw := 0xFE00FFFF },  -- ACQ_P_CTRL
    { off := 0x104, count := 4, stride := 0x20, reset := 0, rw := 0xFFFFFF },  -- ACQ_P_AUTO
    { off := 0x108, count := 4, stride := 0x20, reset := 0, rw := 0xFFFFFFFF },  -- ACQ_P_POST
    { off := 0x10C, count := 4, stride := 0x20, reset := 0, rw := 0xFF03FFFF },  -- ACQ_P_RING
    { off := 0x110, count := 4, stride := 0x20, reset := 0, rw := 0xFFF0000F },  -- ACQ_P_HBUF_LO
    { off := 0x114, count := 4, stride := 0x20, reset := 0, rw := 0xFFFFFFFF },  -- ACQ_P_HBUF_HI
    { off := 0x118, count := 4, stride := 0x20, reset := 0 } ]  -- ACQ_P_FILL

def blockAcq : RegBlock := { base := 0x2620000, inst := 1, istride := 0x10000, rows := rowsAcq }

/-- Register rows of TB (R394). -/
def rowsTb : List RegRow := [
    { off := 0, count := 1, stride := 0, reset := 0, rw := 0xF00000 },  -- TB_CTRL
    { off := 4, count := 1, stride := 0, reset := 0 },  -- TB_STATUS
    { off := 8, count := 1, stride := 0, reset := 0x3E8, rw := 0xFFFFF },  -- TB_JUMPTHR
    { off := 0xC, count := 1, stride := 0, reset := 0, w1c := 0xFFFFFF00 },  -- TB_EVSTAT
    { off := 0x20, count := 3, stride := 0x20, reset := 0, rw := 0x60000000, sc := 0x80000000 },  -- TB_K_CFG
    { off := 0x24, count := 3, stride := 0x20, reset := 0 },  -- TB_K_STATUS
    { off := 0x28, count := 3, stride := 0x20, reset := 0 },  -- TB_K_NS_LO
    { off := 0x2C, count := 3, stride := 0x20, reset := 0 },  -- TB_K_NS_HI
    { off := 0x30, count := 3, stride := 0x20, reset := 0 },  -- TB_K_FRAC
    { off := 0x34, count := 3, stride := 0x20, reset := 0, rw := 0xFFFFFFFF },  -- TB_K_RATE
    { off := 0x38, count := 3, stride := 0x20, reset := 0, wo := 0xFFFFFFFF },  -- TB_K_STEP_LO
    { off := 0x3C, count := 3, stride := 0x20, reset := 0, wo := 0xFFFFFFFF },  -- TB_K_STEP_HI
    { off := 0x80, count := 4, stride := 0x10, reset := 0 },  -- TB_TB1_TURNS_LO
    { off := 0x84, count := 4, stride := 0x10, reset := 0 },  -- TB_TB1_TURNS_HI
    { off := 0x88, count := 4, stride := 0x10, reset := 0 },  -- TB_TB1_STATUS
    { off := 0xC0, count := 1, stride := 0, reset := 0, rw := 7 },  -- TB_PGSEL
    { off := 0xC4, count := 1, stride := 0, reset := 0, rw := 0xBFFFFFFF },  -- TB_PGCFG
    { off := 0xC8, count := 1, stride := 0, reset := 0, rw := 0xFFFFFFFF },  -- TB_PGSTART_LO
    { off := 0xCC, count := 1, stride := 0, reset := 0, rw := 0xFFFFFFFF },  -- TB_PGSTART_HI
    { off := 0xD0, count := 1, stride := 0, reset := 0, rw := 0xFFFFFFFF },  -- TB_PGPERIOD_LO
    { off := 0xD4, count := 1, stride := 0, reset := 0, rw := 0xFFFFFFFF },  -- TB_PGPERIOD_HI
    { off := 0xD8, count := 1, stride := 0, reset := 0, rw := 0xFFFFFFFF },  -- TB_PGCOUNT
    { off := 0xE0, count := 1, stride := 0, reset := 0, rw := 0xFFFFFFFF },  -- TB_CAPCFG
    { off := 0x100, count := 8, stride := 8, reset := 0 },  -- TB_CAP_LO
    { off := 0x104, count := 8, stride := 8, reset := 0 } ]  -- TB_CAP_HI

def blockTb : RegBlock := { base := 0x2700000, inst := 1, istride := 0x10000, rows := rowsTb }

/-- Register rows of PTP (R395). -/
def rowsPtp : List RegRow := [
    { off := 0, count := 1, stride := 0, reset := 0x2C000000, rw := 0xEC000000, sc := 0x10000000 },  -- PTP_CTRL
    { off := 4, count := 1, stride := 0, reset := 0 },  -- PTP_STATUS
    { off := 8, count := 1, stride := 0, reset := 0, rw := 0xFFFFFFFF },  -- PTP_MAC_LO
    { off := 0xC, count := 1, stride := 0, reset := 0, rw := 0xFFFF },  -- PTP_MAC_HI
    { off := 0x10, count := 1, stride := 0, reset := 0xE0000000, rw := 0xE000FF01 },  -- PTP_FILTER
    { off := 0x14, count := 1, stride := 0, reset := 0, rw := 0xFFFF },  -- PTP_RXLAT
    { off := 0x18, count := 1, stride := 0, reset := 0, rw := 0xFFFF },  -- PTP_TXLAT
    { off := 0x1C, count := 1, stride := 0, reset := 0, rw := 0x40000000, sc := 0x80000000 },  -- PTP_TSPOP
    { off := 0x20, count := 1, stride := 0, reset := 0 },  -- PTP_TS_NS_LO
    { off := 0x24, count := 1, stride := 0, reset := 0 },  -- PTP_TS_NS_HI
    { off := 0x28, count := 1, stride := 0, reset := 0 },  -- PTP_TS_FRAC
    { off := 0x2C, count := 1, stride := 0, reset := 0 },  -- PTP_TS_ID
    { off := 0x30, count := 1, stride := 0, reset := 0 },  -- PTP_TS_SRC0
    { off := 0x34, count := 1, stride := 0, reset := 0 },  -- PTP_TS_SRC1
    { off := 0x38, count := 1, stride := 0, reset := 0 },  -- PTP_TS_SRC2
    { off := 0x3C, count := 1, stride := 0, reset := 0 },  -- PTP_RXFRAMES
    { off := 0x40, count := 1, stride := 0, reset := 0 },  -- PTP_TXFRAMES
    { off := 0x44, count := 1, stride := 0, reset := 0 },  -- PTP_RXEVENTS
    { off := 0x48, count := 1, stride := 0, reset := 0 },  -- PTP_TXEVENTS
    { off := 0x4C, count := 1, stride := 0, reset := 0 },  -- PTP_TSLOST
    { off := 0x50, count := 1, stride := 0, reset := 0 },  -- PTP_RXERR
    { off := 0x54, count := 1, stride := 0, reset := 0 },  -- PTP_DOMAINDROP
    { off := 0x58, count := 1, stride := 0, reset := 0 },  -- PTP_RXSYNC
    { off := 0x5C, count := 1, stride := 0, reset := 0, rw := 0xFFFFFFFF },  -- PTP_OFFSET
    { off := 0x60, count := 1, stride := 0, reset := 0, rw := 0xFFFFFFFF },  -- PTP_PATHDLY
    { off := 0x64, count := 1, stride := 0, reset := 0, rw := 0xFFFFFFFF },  -- PTP_GM0
    { off := 0x68, count := 1, stride := 0, reset := 0, rw := 0xFFFFFFFF },  -- PTP_GM1
    { off := 0x6C, count := 1, stride := 0, reset := 0, rw := 0xF0000000 },  -- PTP_SERVO
    { off := 0x70, count := 1, stride := 0, reset := 0, rw := 0xFFFFFFFF },  -- PTP_HOLDOVER
    { off := 0x74, count := 1, stride := 0, reset := 0 },  -- PTP_LASTSYNC_LO
    { off := 0x78, count := 1, stride := 0, reset := 0 },  -- PTP_LASTSYNC_HI
    { off := 0x7C, count := 1, stride := 0, reset := 0 } ]  -- PTP_AN

def blockPtp : RegBlock := { base := 0x2710000, inst := 1, istride := 0x10000, rows := rowsPtp }

/-- Register rows of GPIO (R430). -/
def rowsGpio : List RegRow := [
    { off := 0, count := 1, stride := 0, reset := 0, rw := 0x80000000, sc := 0x40000000 },  -- GPIO_CTRL
    { off := 4, count := 1, stride := 0, reset := 0 },  -- GPIO_STATUS
    { off := 8, count := 1, stride := 0, reset := 0 },  -- GPIO_DENY
    { off := 0xC, count := 1, stride := 0, reset := 0, rw := 0xF8000000 },  -- GPIO_SYSCTRL
    { off := 0x10, count := 1, stride := 0, reset := 0x323232, rw := 0xFFFFFF },  -- GPIO_SYSFILT
    { off := 0x14, count := 1, stride := 0, reset := 0x4000000 },  -- GPIO_SYSSTAT
    { off := 0x18, count := 3, stride := 4, reset := 0, rw := 0xFFFF, wo := 0xFFFF0000 },  -- GPIO_OUT
    { off := 0x24, count := 3, stride := 4, reset := 0, rw := 0xFFFF, wo := 0xFFFF0000 },  -- GPIO_OE
    { off := 0x30, count := 1, stride := 0, reset := 0 },  -- GPIO_IN0
    { off := 0x34, count := 1, stride := 0, reset := 0 },  -- GPIO_IN1
    { off := 0x38, count := 1, stride := 0, reset := 0, w1c := 0xFFFFFFFF },  -- GPIO_EDGE0
    { off := 0x3C, count := 1, stride := 0, reset := 0, w1c := 0xFFFF },  -- GPIO_EDGE1
    { off := 0x100, count := 48, stride := 4, reset := 0x64000, rw := 0xFF3FF00F } ]  -- GPIO_PIN

def blockGpio : RegBlock := { base := 0x2800000, inst := 1, istride := 0x10000, rows := rowsGpio }

/-- Register rows of TIO (R431). -/
def rowsTio : List RegRow := [
    { off := 0, count := 1, stride := 0, reset := 0, rw := 0x80000000, sc := 0x40000000 },  -- TIO_CTRL
    { off := 4, count := 1, stride := 0, reset := 0 },  -- TIO_STATUS
    { off := 8, count := 1, stride := 0, reset := 0, rw := 0xFF },  -- TIO_SEL
    { off := 0xC, count := 1, stride := 0, reset := 0x240000, rw := 0x7FFC0000 },  -- TIO_PINCFG
    { off := 0x10, count := 1, stride := 0, reset := 0 },  -- TIO_DENY
    { off := 0x14, count := 1, stride := 0, reset := 0, w1c := 0x80000000 },  -- TIO_ERR
    { off := 0x20, count := 5, stride := 4, reset := 0, rw := 0xB0000000 },  -- TIO_BANK
    { off := 0x40, count := 5, stride := 4, reset := 0 },  -- TIO_IN
    { off := 0x60, count := 10, stride := 4, reset := 0, rw := 0xFFFF, wo := 0xFFFF0000 },  -- TIO_OUT
    { off := 0xA0, count := 5, stride := 4, reset := 0 },  -- TIO_UNSERVED
    { off := 0xC0, count := 5, stride := 4, reset := 0 },  -- TIO_ACTIVE
    { off := 0xE0, count := 4, stride := 4, reset := 0 } ]  -- TIO_PART

def blockTio : RegBlock := { base := 0x2810000, inst := 1, istride := 0x10000, rows := rowsTio }

/-- The 34 blocks of R444. -/
def regBlocks : List RegBlock := [
  blockGlb, blockClk, blockPwr, blockRst, blockGov, blockSens,
  blockEvt, blockAuth, blockKey, blockCfg, blockPart, blockTurn,
  blockRace, blockStat, blockFlm, blockMport, blockMill, blockDdrc,
  blockDphy, blockSpk, blockLane, blockPcie, blockRing, blockSlc,
  blockHop, blockSched, blockMlr, blockDbg, blockTrc, blockAcq,
  blockTb, blockPtp, blockGpio, blockTio ]

/-- Where a BAR0 byte address falls: the row of its register, the block instance and the index in the row; none where no
register stands (R445). -/
def RegBlock.locate (b : RegBlock) (a : Nat) : Option (RegRow × Nat × Nat) :=
  if a < b.base then none
  else
    let d := a - b.base
    let i := d / b.istride
    if b.inst ≤ i then none
    else
      let o := d % b.istride
      match b.rows.find? (fun r => decide (r.off ≤ o) && decide (o < r.off + (if r.count = 1 then 4 else r.count * r.stride))
          && decide ((o - r.off) % (if r.count = 1 then 4 else r.stride) = 0)) with
      | some r => some (r, i, if r.count = 1 then 0 else (o - r.off) / r.stride)
      | none => none

/-- The register at a BAR0 byte address (R444, R445). -/
def locateReg (a : Nat) : Option (RegRow × Nat × Nat) :=
  regBlocks.findSome? (fun b => b.locate a)

end Sys2Proof.Machine
end

