-- ==== Sys2Proof/Machine/State.lean ====
section
/-!
DEFINITION. Machine/State.lean: the state of the device, as plain data, the reasons a command can stop, and the state after
reset.
-/
namespace Sys2Proof.Machine

open Sys2Proof

/-- An event record (R450, R277, R278). -/
structure EvRec where
  code : Nat
  part : Nat
  anchored : Bool
  tb0 : Nat
  tb1 : Nat
  data : List Nat
  num : Nat
  deriving DecidableEq, Repr

/-- The event logic: records waiting for the EVT ring, oldest first (R279); the history, newest first (R454); records of
each code (EVT_CDATA); events dropped since the last EVENT_LOST. -/
structure EvtSt where
  queue : List EvRec := []
  hist : List EvRec := []
  codeCnt : SMap Nat := []
  lost : Nat := 0
  deriving DecidableEq, Repr

/-- The system lines as this module drives and sees them (R193, R418). -/
structure LineSt where
  /-- falling edges of HALT_N and SYNC_N captured and not yet acted on. -/
  haltPending : Bool := false
  syncPending : Bool := false
  cfgPending : Bool := false
  trigXPending : Bool := false
  trigInPending : Bool := false
  /-- this module drives the 32-cycle request pulse; the partitions for which it holds the line, for a fault or a no-go (R195, R197). -/
  haltPulse : Bool := false
  holders : List Nat := []
  syncPulse : Bool := false
  trigXPulse : Bool := false
  /-- the TRIG_X edge now pending was launched here. -/
  trigXOwn : Bool := false
  /-- filtered levels of CFG_DONE (bit 4), SYNC_N, HALT_N, TRIG_X, TRIG_IN (bit 0). -/
  levels : Nat := 0
  /-- a HALT_N edge has been acted on since the last SYNC_N edge was captured (R195). -/
  haltSinceSync : Bool := false
  /-- the HALT_N edge now pending was launched by this module (R337). -/
  haltOwn : Bool := false
  deriving DecidableEq, Repr

/-- This module holds HALT_N low (R195, R197). -/
def LineSt.haltHeld (x : LineSt) : Bool := !x.holders.isEmpty

/-- This module holds HALT_N low for a partition. -/
def LineSt.hold (x : LineSt) (p : Nat) : LineSt := { x with holders := if x.holders.contains p then x.holders else p :: x.holders, haltOwn := true }

/-- The time bases TB0, TB2 and TB3 at index 0, 1, 2: 64-bit nanoseconds and 32-bit fraction; the slew outstanding in 2^-32 ns
(R383); by pulse generator the time of its next fire (R389) and, as bits, its output; inputs whose overrun has been raised since
their captured bit was set (R391); the PTP timestamp queues, oldest first (R393). -/
structure TimeSt where
  ns : SMap Nat := []
  frac : SMap Nat := []
  slew : SMap Int := []
  next : SMap Nat := []
  pulse : Nat := 0
  overran : Nat := 0
  rx : List PtpStamp := []
  tx : List PtpStamp := []
  deriving DecidableEq, Repr

/-- A write of a pin that waits until its sequence ends (R423): 0 GPIO_PIN, 1 a bit of GPIO_OUT, 2 of GPIO_OE, 3 TIO_PINCFG, 4 a bit
of TIO_OUT. -/
structure PinWrite where
  who : Requester
  kind : Nat
  pin : Nat
  value : Word
  deriving DecidableEq, Repr

/-- The pins, GPIO n at key n and target I/O p at 64 + p. `pad`: level of a GPIO pad that the device does not drive; `seq`: actions
of the sequence of R423 still to come; `keep`: what the keeper holds meanwhile; `later`: writes that wait, oldest first. -/
structure PinSt where
  pad : SMap Bool := []
  /-- the levels the edge detectors of the GPIO pads have last seen (R430). -/
  seen : SMap Bool := []
  seq : SMap Nat := []
  keep : SMap (Option Bool) := []
  later : List PinWrite := []
  /-- levels the boundary-scan register drives while an EXTEST instruction is in force (R326); lane l of spoke sp at 256 + 8 sp + l. -/
  scan : SMap (Option Bool) := []
  deriving DecidableEq, Repr

/-- Trace of one core (R371 to R375): packets in its buffer, oldest first; the branch map and how many branches it holds, the last
full map emitted and how often it has been suppressed since; packets lost since there was room; a SYNC is due before the next
packet; the control cycle its delta counts from, and the one its count stands at while the core is in Nap or halted. -/
structure TrcCore where
  buf : List Nat := []
  map : Nat := 0
  held : Nat := 0
  full : Option Nat := none
  repeats : Nat := 0
  lost : Nat := 0
  resync : Bool := true
  since : Nat := 0
  stopped : Option Nat := none
  deriving DecidableEq, Repr

/-- The trace engine. `auth`: the port whose session set full_auth, 0 for none. -/
structure TraceSt where
  cores : SMap TrcCore := []
  auth : Nat := 0
  deriving DecidableEq, Repr

/-- Power and reset: THERMTRIP_N is pulled low (R408); THERMAL_WARN has been raised and not every sensor has fallen back. -/
structure PowerSt where
  thermtrip : Bool := false
  warned : Bool := false
  deriving DecidableEq, Repr



/-- The state of the block. -/
structure State where
  /-- every register of BAR0, and every instance behind a selected one, by byte address; an unlisted one reads its value at
  reset (`resetWord`). -/
  regs : SMap Word := []
  parts : SMap PartSt := []
  stones : Stones := {}
  race : RaceSt := {}
  flume : FlumeSt := {}
  dm : DesignMem := {}
  evt : EvtSt := {}
  lines : LineSt := {}
  gov : GovSt := {}
  clk : ClkSt := {}
  acq : AcqSt := {}
  time : TimeSt := {}
  /-- pending causes of each miller (mlipend). -/
  mlipend : SMap Nat := []
  spokes : SMap SpokeSt := []
  /-- scheduled words received by the spokes, key (spoke × 8192 + slot) × 2 + channel: slots from 2,048 on belong to the
  previous turn, from 4,096 on to the next (R187). -/
  spokeRx : SMap Unit128 := []
  /-- when each watch unit first fired since the last rearm (R342), key partition × 16 + unit. -/
  watchFirst : SMap (Option Nat) := []
  /-- host window table as last read (R272), by window. -/
  hostWins : SMap HostWin := []
  /-- what the last register read returned. -/
  readData : Word := 0
  dram : DramSt := {}
  host : HostSt := {}
  sluices : SMap SluiceSt := []
  loader : LoaderSt := {}
  keys : KeySt := {}
  boot : BootSt := {}
  hop : HopSt := {}
  sched : SchedSt := {}
  millers : SMap MillerSt := []
  /-- what the last doubleword read of the enqueue or sluice port returned. -/
  portData : BitVec 64 := 0
  dbg : DbgSt := {}
  pins : PinSt := {}
  trace : TraceSt := {}
  /-- control cycles since reset. -/
  uptime : Nat := 0
  power : PowerSt := {}

  /-- the model's own counter: which free value is taken next. -/
  free : Nat := 0
  /-- commands waiting, first in, first out. -/
  pending : List Instr := []
  deriving DecidableEq, Repr

/-- Why a command stops with a fault. -/
inductive Fault where
  /-- A command that no operation of the device matches. Raised by nothing: every command has an outcome with a next state (log
  entry 7). Safe. -/
  | illFormed
  deriving DecidableEq, Repr

/-- Why a command is refused. -/
inductive Refusal where
  /-- A command without a meaning. Raised by the arms of exec that reject one by name; there is none. Safe. -/
  | notModelled (mnemonic : String)
  deriving DecidableEq, Repr

/-- The outcome of a command. -/
abbrev Out := Host.Outcome State Fault Refusal

/-- The device right after a cold reset (log entries 1 and 2): every register at its reset value, nothing loaded, no command
waiting. The identity registers, which the field tables leave open, show an MZL-4Q of stepping A1 (log entry 2). -/
def State.reset : State := {
  regs := [
    (0x4, 0x0101100F), (0x8, 0x00000001), (0x24, 0x4001FFFF)
    ] }

end Sys2Proof.Machine
end

