-- ==== Sys2Proof/Machine/RegOps.lean ====
section
/-!
DEFINITION. Machine/RegOps.lean: reading and writing the fields of registers, the one way every meaning reaches them.
-/
namespace Sys2Proof.Machine

open Sys2Proof

/-- Registers whose value at reset depends on the instance: MLR_CTRL.hold of miller 0, the pull and function of GPIO pin 47
and PWR_DOM.max_state of the domain classes (R323, R430, R413). -/
def resetOverride (a : Nat) : Option Nat :=
  if a = R.MLR_CTRL 0 then some 0x10000000
  else if a = R.GPIO_PIN 47 then some 0x00024009
  else if R.PWR_DOM 0 ≤ a ∧ a < R.PWR_DOM 48 ∧ a % 4 = 0 then
    let n := (a - R.PWR_DOM 0) / 4
    some ((if n ≥ 45 then 0 else if n = 44 then 1 else if 36 ≤ n ∧ n < 40 then 3 else 5) * 2 ^ 17)
  else none

/-- What a register reads as while State.regs does not list it: its value at reset, 0 where no register stands (R445). An
instance behind a selected register resets as the register does. -/
def resetWord (a : Nat) : Word :=
  let a' := a % 0x10000000
  match resetOverride a' with
  | some v => BitVec.ofNat 32 v
  | none =>
    match locateReg a' with
    | some (r, _, _) => BitVec.ofNat 32 r.reset
    | none => 0

/-- The stored value of a register. -/
def State.reg (s : State) (a : Nat) : Word := mget resetWord s.regs a

/-- Store a register's value. -/
def State.setReg (s : State) (a : Nat) (v : Word) : State := { s with regs := mset resetWord s.regs a v }

/-- The bits of a field, of a word. -/
def Fld.of (f : Fld) (w : Word) : Nat := (w.toNat / 2 ^ f.lsb) % 2 ^ f.width

/-- A word with a field replaced; the value is taken modulo the field's width. -/
def Fld.into (f : Fld) (w : Word) (v : Nat) : Word :=
  BitVec.ofNat 32 (w.toNat - (Fld.of f w) * 2 ^ f.lsb + (v % 2 ^ f.width) * 2 ^ f.lsb)

/-- The value of a field. -/
def State.get (s : State) (f : Fld) : Nat := f.of (s.reg f.addr)

/-- Set a field. -/
def State.put (s : State) (f : Fld) (v : Nat) : State := s.setReg f.addr (f.into (s.reg f.addr) v)

/-- A one-bit field as a truth value. -/
def State.on (s : State) (f : Fld) : Bool := s.get f != 0

/-- Set a one-bit field to a truth value. -/
def State.flag (s : State) (f : Fld) (b : Bool) : State := s.put f (if b then 1 else 0)

/-- Set bit i of a field. -/
def State.setBit (s : State) (f : Fld) (i : Nat) (b : Bool) : State :=
  s.put f (if b then s.get f ||| 2 ^ i else s.get f &&& (2 ^ f.width - 1 - 2 ^ i))

/-- Bit i of a field. -/
def State.bit (s : State) (f : Fld) (i : Nat) : Bool := (s.get f).testBit i

/-- Add to a counter that saturates at its field's greatest value. -/
def State.bump (s : State) (f : Fld) (n : Nat) : State := s.put f (min (s.get f + n) (2 ^ f.width - 1))

/-- Add to a counter that wraps. -/
def State.bumpWrap (s : State) (f : Fld) (n : Nat) : State := s.put f (s.get f + n)

/-- A 64-bit pair of registers. -/
def State.get64 (s : State) (lo hi : Nat) : Nat := (s.reg lo).toNat + 2 ^ 32 * (s.reg hi).toNat

/-- Set a 64-bit pair of registers. -/
def State.put64 (s : State) (lo hi v : Nat) : State :=
  (s.setReg lo (BitVec.ofNat 32 v)).setReg hi (BitVec.ofNat 32 (v / 2 ^ 32))

/-- Run a state change only when a condition holds. -/
def State.when (s : State) (c : Bool) (f : State → State) : State := if c then f s else s

/-- Run a state change over a list. -/
def State.each {α : Type} (s : State) (l : List α) (f : State → α → State) : State := l.foldl f s

/-- The next free value of the kind (log entry 3), and the state that has taken it. -/
def State.fresh (s : State) (kind : Nat) : BitVec 64 × State :=
  (Config.freeBits kind s.free, { s with free := s.free + 1 })

end Sys2Proof.Machine
end

