-- ==== Sys2Proof/Machine/Ops.lean ====
section
/-!
DEFINITION. Machine/Ops.lean: the operations every family shares: partitions and their resources, marking a turn invalid,
requesting a halt, raising an event, asserting a miller's interrupt cause.
-/
namespace Sys2Proof.Machine

open Sys2Proof

/-! ## Partitions -/

/-- The internal record of partition p. -/
def State.part (s : State) (p : Nat) : PartSt := mget (fun _ => {}) s.parts p

/-- Replace the internal record of partition p. -/
def State.setPart (s : State) (p : Nat) (x : PartSt) : State := { s with parts := mset (fun _ => {}) s.parts p x }

/-- Change the internal record of partition p. -/
def State.modPart (s : State) (p : Nat) (f : PartSt → PartSt) : State := s.setPart p (f (s.part p))

/-- PART_STATE.state codes (R78). -/
abbrev stEmpty : Nat := 0
abbrev stLoading : Nat := 1
abbrev stLoaded : Nat := 2
abbrev stRunning : Nat := 3
abbrev stHalted : Nat := 4

/-- PART_STATE.state of partition p. -/
def State.pstate (s : State) (p : Nat) : Nat := s.get (F.PART_STATE_state p)

/-- Partition p executes turns. -/
def State.running (s : State) (p : Nat) : Bool := s.pstate p == stRunning

/-- Quadrant q belongs to partition p (R79). -/
def State.ownsQuad (s : State) (p q : Nat) : Bool := s.bit (F.PART_QMASK_qmask p) q

/-- The partition that owns quadrant q, if any (R11). -/
def State.quadOwner (s : State) (q : Nat) : Option Nat := [0, 1, 2, 3].find? (fun p => s.ownsQuad p q)

/-- The partition that owns mill m. -/
def State.millOwner (s : State) (m : Nat) : Option Nat := s.quadOwner (m / 64)

/-- "owner" as an event's partition field shows it (R458). -/
def ownerField (o : Option Nat) : Nat := o.getD 0xFF

/-- Quadrant q is enabled on this part (R2). -/
def State.quadEnabled (s : State) (q : Nat) : Bool := s.bit F.GLB_PART_qmask q

/-- Unit u, a power domain of the same number (R235, R401), belongs to a disabled quadrant: its mill rows, its flume and its spoke
group do; its DDR group stays in service. -/
def State.unitExists (s : State) (u : Nat) : Bool :=
  if u < 32 then s.quadEnabled (u / 8) else if u < 36 then s.quadEnabled (u - 32) else if u < 40 then true
  else if u < 44 then s.quadEnabled (u - 40) else true

/-- State of power domain u (R402). The domains of a disabled quadrant stay Off (R2, R401). -/
def State.dstate (s : State) (u : Nat) : Nat := if s.unitExists u then s.get (F.PWR_DSTAT_state u) else 5

/-- Partition p exists on this part (R11). -/
def State.partExists (s : State) (p : Nat) : Bool := decide (p < s.get F.GLB_CAPS_partitions)

/-- Turn depth D of the loaded image (R60): 512, 1,024 or 2,048; 0 with no image. -/
def State.depth (s : State) (p : Nat) : Nat :=
  match s.get (F.PART_PROFILE_depth p) with
  | 0 => 512
  | 1 => 1024
  | 2 => 2048
  | _ => 0

/-- Brake horizon K (R70). -/
def State.horizon (s : State) (p : Nat) : Nat := s.get (F.TURN_CONFIG_k p)

/-- Partition p spans more than one module (R195). -/
def State.multi (s : State) (p : Nat) : Bool := decide (1 < s.get (F.PART_LINK_module_count p))

/-- TB1 of partition p: its whole part is TURN_COUNT (R387). -/
def State.turns (s : State) (p : Nat) : Nat := s.get64 (R.TURN_COUNT_LO p) (R.TURN_COUNT_HI p)

/-- The partition cycle in which step n of the turn in progress executes: quanta served lie before it (R70). -/
def State.cycleOf (s : State) (p n : Nat) : Nat := (s.part p).turnBase + n + 32 * (s.part p).quanta

/-! ## Miller interrupt causes -/

/-- Set pending cause c of core k in mlipend (R301). -/
def State.raiseIrq (s : State) (k c : Nat) : State :=
  { s with mlipend := mset (fun _ => 0) s.mlipend k (mget (fun _ => 0) s.mlipend k ||| 2 ^ c) }

/-- The 32 miller cores. -/
def cores : List Nat := List.range 32

/-! ## Events -/

/-- TB0, whole nanoseconds. -/
def State.tb0 (s : State) : Nat := mget (fun _ => 0) s.time.ns 0

/-- Event codes that appear only in status fields (R449, R451). -/
def statusOnly : List Nat := [0x1010, 0x6001, 0x600A, 0x7007, 0xB001, 0xB002]

/-- Every code of the event table (R451). -/
def eventCodes : List Nat :=
  [0x0001, 0x0002] ++ (List.range 16).map (fun i => 0x1001 + i) ++ (List.range 5).map (fun i => 0x2001 + i) ++
  (List.range 14).map (fun i => 0x3001 + i) ++ (List.range 11).map (fun i => 0x4001 + i) ++
  (List.range 7).map (fun i => 0x5001 + i) ++ (List.range 10).map (fun i => 0x6001 + i) ++
  (List.range 7).map (fun i => 0x7001 + i) ++ (List.range 9).map (fun i => 0x8001 + i) ++
  (List.range 6).map (fun i => 0x9001 + i) ++ (List.range 3).map (fun i => 0xA001 + i) ++
  (List.range 4).map (fun i => 0xB001 + i)

/-- The record an event forms: data words the raising rule does not give read 0 (R450). -/
def State.formRecord (s : State) (code part : Nat) (data : List Nat) : EvRec where
  code := code
  part := part
  anchored := s.on (F.TBK_STATUS_anchored 0)
  tb0 := s.tb0
  tb1 := if part < 4 then s.turns part else 0
  data := (data ++ [0, 0, 0, 0, 0, 0]).take 6
  num := (s.get F.EVT_RAISED_count + 1) % 2 ^ 32

/-- A record is counted and shown in the registers of the EVT block (R454, R455). -/
def State.showRecord (s : State) (r : EvRec) : State :=
  let cls := r.code / 0x1000
  let s := s.bumpWrap F.EVT_RAISED_count 1
  let s := s.setReg R.EVT_LAST (BitVec.ofNat 32 (r.part * 0x10000 + r.code))
  let s := if cls ≥ 1 ∧ s.get F.EVT_FIRST_flag = 0 then
      (s.setReg R.EVT_FIRST (BitVec.ofNat 32 (0x80000000 + r.part * 0x10000 + r.code))).put64 R.EVT_FIRSTTB_LO R.EVT_FIRSTTB_HI r.tb0
    else s
  let s := s.bump (F.EVT_CLASSCNT_count cls) 1
  if r.part < 4 then s.bump (F.EVT_PARTCNT_count r.part) 1 else s.bump F.EVT_DEVCNT_count 1

/-- A record is counted by its code, and enters the history unless that is frozen (R454). -/
def State.keepRecord (s : State) (r : EvRec) : State :=
  let e := s.evt
  { s with evt := { e with codeCnt := mset (fun _ => 0) e.codeCnt r.code (min (mget (fun _ => 0) e.codeCnt r.code + 1) 0xFFFFFFFF),
                           hist := if s.on F.EVT_CTRL_hist_freeze then e.hist else (r :: e.hist).take 64 } }

/-- The counters and the history of the EVT block take a record (R454, R455). -/
def State.countRecord (s : State) (r : EvRec) : State := (s.showRecord r).keepRecord r

/-- A record raises EVENT on every core with MLR_CTRL.events set, unless its class is cleared in EVT_MLRMASK (R450). -/
def State.eventToMillers (s : State) (r : EvRec) : State :=
  let cls := r.code / 0x1000
  let hit := cores.filter (fun k => s.on (F.MLR_CTRL_events k))
  if s.bit F.EVT_MLRMASK_classes cls && !hit.isEmpty then
    (s.each hit (fun s k => s.raiseIrq k 2)).bump F.EVT_MLRCNT_count 1
  else s

/-- A record enters the queue for the EVT ring, unless masked; a full queue drops it and counts it (R450, R279). -/
def State.queueRecord (s : State) (r : EvRec) : State :=
  if s.bit F.EVT_MASK_classes (r.code / 0x1000) then s.bump F.EVT_MASKED_count 1
  else if s.evt.queue.length < 512 then { s with evt := { s.evt with queue := s.evt.queue ++ [r] } }
  else { s.bump F.RING_EVLOST_count 1 with evt := { s.evt with lost := s.evt.lost + 1 } }

/-- Raise an event (R450): its record is formed, counted and kept in the history, offered to the millers and queued for the
host. `edgeOrder` puts the raises of one control-clock edge in order. -/
def State.raise (s : State) (code part : Nat) (data : List Nat) : State :=
  let r := s.formRecord code part data
  ((s.countRecord r).eventToMillers r).queueRecord r

/-- A record comes before another of its edge (R450): ascending code, then ascending partition. -/
def EvRec.before (a b : EvRec) : Bool := decide (a.code < b.code) || (a.code == b.code && decide (a.part ≤ b.part))

/-- Put a record among those of its edge, behind its equals. -/
def insertRec (r : EvRec) : List EvRec → List EvRec
  | [] => [r]
  | x :: l => if x.before r then x :: insertRec r l else r :: x :: l

/-- Records of one edge, the oldest first, in the order of R450: the formation numbers go by it. -/
def edgeSort (l : List EvRec) : List EvRec :=
  (List.zip (l.foldl (fun acc r => insertRec r acc) []) (l.map (·.num))).map (fun e => { e.1 with num := e.2 })

/-- The raises made from s0 to s are those of one control-clock edge (R450): history, queue, and the newest and the first record shown are
in the order of codes and partitions. -/
def State.edgeOrder (s s0 : State) : State :=
  let first := s0.get F.EVT_RAISED_count
  let n := (s.get F.EVT_RAISED_count + 2 ^ 32 - first) % 2 ^ 32
  if n ≤ 1 then s
  else
    let mine (r : EvRec) : Bool := decide (1 ≤ (r.num + 2 ^ 32 - first) % 2 ^ 32) && decide ((r.num + 2 ^ 32 - first) % 2 ^ 32 ≤ n)
    let held := if s.on F.EVT_CTRL_hist_freeze then [] else edgeSort (s.evt.hist.take n).reverse
    let waiting := edgeSort (s.evt.queue.filter mine)
    let s := { s with evt := { s.evt with
      hist := held.reverse ++ s.evt.hist.drop held.length, queue := s.evt.queue.filter (fun r => !mine r) ++ waiting } }
    let all := if held.isEmpty then waiting else held
    let s := match all.getLast? with
      | some r => s.setReg R.EVT_LAST (BitVec.ofNat 32 (r.part * 0x10000 + r.code))
      | none => s
    match all.find? (fun r => decide (0x1000 ≤ r.code)) with
    | some r => if s0.get F.EVT_FIRST_flag = 0 then
        (s.setReg R.EVT_FIRST (BitVec.ofNat 32 (0x80000000 + r.part * 0x10000 + r.code))).put64 R.EVT_FIRSTTB_LO R.EVT_FIRSTTB_HI r.tb0
      else s
    | none => s

/-! ## Invalid turns and halts -/

/-- Ask for a request pulse on HALT_N, unless a captured edge that is not yet acted on serves it (R337, R198). -/
def State.haltPulse (s : State) : State :=
  if s.lines.haltPending then s else { s with lines := { s.lines with haltPulse := true, haltOwn := true } }

/-- Record halt reason r for the partition (R338): the mask, and the turn in which the first reason arose. -/
def State.haltCause (s : State) (p r : Nat) : State :=
  s.modPart p (fun x => { x with causes := x.causes ||| 2 ^ r, causeTurn := if x.causes = 0 then s.turns p else x.causeTurn })

/-- A condition seen on this module alone marks the turn invalid and halts the partition at its end (R22, R23). While the
partition executes no turn the mark waits for its next one (R459). `sticky` marks every later turn as well (R133). -/
def State.faultTurn (s : State) (p : Nat) (sticky : Bool) : State :=
  if s.running p then
    let s := s.haltCause p 6
    let s := s.modPart p (fun x => { x with
      invalid := true, invalidToHalt := x.invalidToHalt || s.multi p, invalidToLoad := x.invalidToLoad || sticky })
    if s.multi p then s.haltPulse else s
  else if s.pstate p = stEmpty then s
  else s.modPart p (fun x => { x with pendInvalid := true, pendSticky := x.pendSticky || sticky })

/-- As faultTurn, for the owner of a unit when there is one. -/
def State.faultOwner (s : State) (o : Option Nat) (sticky : Bool) : State :=
  match o with
  | some p => s.faultTurn p sticky
  | none => s

end Sys2Proof.Machine
end

