-- ==== Sys2Proof/Machine/GovOps.lean ====
section
/-!
DEFINITION. Machine/GovOps.lean: the governor's log and its flume supply targets, as other families reach them (R230 to R232,
R236).
-/
namespace Sys2Proof.Machine

open Sys2Proof

/-- Log an adjustment and raise GOV_ADJUST (R236): loop, unit, value before and after. Sequence numbers run from 1 to 65,535
and wrap to 1; the log keeps 512 records. -/
def State.govLog (s : State) (loop unit before after : Nat) : State :=
  let q := s.get F.GOV_LOGSTAT_newest
  let seq := if q = 65535 then 1 else q + 1
  let w0 := loop * 2 ^ 28 + unit * 2 ^ 16 + seq
  let s := s.put F.GOV_LOGSTAT_newest seq
  let s := s.bumpWrap F.GOV_ADJCNT_count 1
  let s := { s with gov := { s.gov with log := ((w0, before, after, s.tb0 % 2 ^ 32) :: s.gov.log).take 512 } }
  s.raise 0x0001 0xFF [w0, before, after]

/-- Floor and ceiling of VFLUMEq in mV (R231): the greatest of 0.55 V and the header's level; the least of 0.90 V and
GOV_FLMLIM.ceiling. -/
def State.flumeFloor (s : State) (q : Nat) : Nat := 550 + 5 * s.get (F.GOV_VFLUME_floor q)
def State.flumeCeiling (s : State) : Nat := 550 + 5 * min 70 (s.get F.GOV_FLMLIM_ceiling)

/-- The governor is frozen: its loops make no adjustment (R234). -/
def State.govFrozen (s : State) : Bool := s.on F.GOV_CTRL_freeze

/-- No rail of the flume moves: the governor is frozen (R234), or the window is 0 (R237). -/
def State.railsHeld (s : State) : Bool := s.govFrozen || s.get F.GOV_FLMCFG_window == 0

/-- The level of VFLUMEq within its range that is nearest to mv (R231). A floor above the ceiling wins (log entry 66). -/
def State.inRange (s : State) (q mv : Nat) : Nat := max (s.flumeFloor q) (min s.flumeCeiling mv)

/-- Command a new VFLUME target, within the range of R231: it is logged, the rail starts to move, and it becomes the running
target while the quadrant's partition is RUNNING (R230, R232). -/
def State.setFlumeTarget (s : State) (q level : Nat) : State :=
  let mv := s.inRange q level
  let old := s.get (F.GOV_VFLUME_target q)
  let s := match s.quadOwner q with
    | some p => if s.running p then { s with gov := { s.gov with run := mset (fun _ => 750) s.gov.run q mv } } else s
    | none => s
  if old = mv then s
  else
    let s := s.put (F.GOV_VFLUME_target q) mv
    let s := (s.put F.GOV_STATUS_ramping 1).govLog 6 q old mv
    { s with gov := { s.gov with ramp := s.gov.ramp ||| 2 ^ q } }

/-- The governor wants VFLUMEq higher by `step` mV: up to the ceiling, where the wish is shown and raised once (R231). -/
def State.raiseFlume (s : State) (q step : Nat) : State :=
  let t := s.get (F.GOV_VFLUME_target q)
  let c := s.flumeCeiling
  let s := { s with gov := { s.gov with wanted := s.gov.wanted ||| 2 ^ q, holdoff := mset (fun _ => 0) s.gov.holdoff q (s.get F.GOV_FLMCFG_holdoff) } }
  if t < c then s.setFlumeTarget q (min c (t + step))
  else
    let s := s.setBit F.GOV_STATUS_ceiling q true
    if s.gov.ceil.testBit q then s
    else ({ s with gov := { s.gov with ceil := s.gov.ceil ||| 2 ^ q } }).raise 0x8008 (ownerField (s.quadOwner q)) [q, c]

/-- The slack bin of a fire that was not late (R123). -/
def slackBin (c : Nat) : Nat :=
  if c < 2 then 1 else if c < 4 then 2 else if c < 8 then 3 else if c < 12 then 4 else if c < 16 then 5
  else if c < 24 then 6 else if c < 32 then 7 else if c < 48 then 8 else if c < 64 then 9 else if c < 96 then 10
  else if c < 128 then 11 else if c < 192 then 12 else if c < 256 then 13 else if c < 512 then 14 else 15

/-- Count a fire of region r (physical ID) in a bin of its histogram and of the governor's copy (R123). A late fire makes the
governor raise VFLUME by late_step at once (R230). -/
def State.countSlack (s : State) (r bin : Nat) : State :=
  let k := r * 16 + bin
  let q := r / 512
  let s := { s with flume := { s.flume with hist := mset (fun _ => 0) s.flume.hist k (min (mget (fun _ => 0) s.flume.hist k + 1) 0xFFFFFFFF) } }
  let s := if s.gov.ramp.testBit q then
      { s with gov := { s.gov with mov := mset (fun _ => 0) s.gov.mov k (mget (fun _ => 0) s.gov.mov k + 1) } }
    else { s with gov := { s.gov with win := mset (fun _ => 0) s.gov.win k (mget (fun _ => 0) s.gov.win k + 1) } }
  if bin = 0 && s.on F.GOV_CTRL_flume_en && !s.railsHeld then s.raiseFlume q (s.get F.GOV_FLMLIM_late_step) else s

/-- The region names of the trimming of a quadrant: its launched regions (R230). -/
def State.launchedRegions (s : State) (q : Nat) : List Nat :=
  (s.flume.regions.filter (fun e => e.1 / 512 == q && e.2.used && e.2.launched)).map (·.1)

/-- A halted single-module partition's quadrant takes its rail to the floor; the running target is kept (R231, R232). -/
def State.railsToFloor (s : State) (p : Nat) : State :=
  if s.multi p || s.railsHeld then s
  else s.each ((List.range 4).filter (fun q => s.ownsQuad p q)) (fun s q => s.setFlumeTarget q (s.flumeFloor q))

/-- At an accepted RUN or STEP of a single-module partition the governor commands the running targets (R232). -/
def State.railsToRun (s : State) (p : Nat) : State :=
  if s.multi p || s.railsHeld then s
  else s.each ((List.range 4).filter (fun q => s.ownsQuad p q)) (fun s q => s.setFlumeTarget q (mget (fun _ => 750) s.gov.run q))

/-- A partition is RUNNING: the targets in force become the running targets of its quadrants (R232). -/
def State.railsRun (s : State) (p : Nat) : State :=
  s.each ((List.range 4).filter (fun q => s.ownsQuad p q)) (fun s q =>
    { s with gov := { s.gov with run := mset (fun _ => 750) s.gov.run q (s.get (F.GOV_VFLUME_target q)) } })

/-- The targets come back into their range when its ends move, or when the governor may move them again (R231, R234). -/
def State.railsInRange (s : State) : State :=
  if s.railsHeld then s
  else s.each ((List.range 4).filter (fun q => s.quadEnabled q)) (fun s q => s.setFlumeTarget q (s.get (F.GOV_VFLUME_target q)))

/-- After a load, a partial commit with flume frames, or a pace change, the running target of a quadrant becomes its ceiling,
where the rail is held until one full window has run (R232). -/
def State.railToCeiling (s : State) (q : Nat) : State :=
  if s.railsHeld then s
  else
    let c := s.inRange q s.flumeCeiling
    let s := { s with gov := { s.gov with run := mset (fun _ => 750) s.gov.run q c, wide := s.gov.wide ||| 2 ^ q } }
    s.setFlumeTarget q c

/-- The rails of a partition's quadrants have returned to their running targets (R232, R406). -/
def State.railsReady (s : State) (p : Nat) : Bool :=
  (List.range 4).all (fun q => !s.ownsQuad p q || !s.gov.ramp.testBit q)

/-- Clear the counts of a quadrant's window (R230). -/
def State.newWindow (s : State) (q : Nat) : State :=
  { s with gov := { s.gov with win := mdrop (fun k => k / 8192 == q) s.gov.win, mov := mdrop (fun k => k / 8192 == q) s.gov.mov } }

/-- GOV_STATUS.frozen: freeze is written and no adjustment is in progress (R234). It stays until freeze is written 0. -/
def State.settleFreeze (s : State) : State :=
  if s.govFrozen then
    if s.gov.trials.isEmpty && s.gov.ramp == 0 then s.put F.GOV_STATUS_frozen 1 else s
  else s.put F.GOV_STATUS_frozen 0

/-! ## Commanded and observed state (R235) -/

/-- A unit is commanded on, or commanded Off (PWR_DSTAT.target). -/
def State.unitOn (s : State) (u : Nat) : Bool := decide (s.get (F.PWR_DSTAT_target u) ≤ 1)
def State.unitOff (s : State) (u : Nat) : Bool := s.get (F.PWR_DSTAT_target u) == 5

/-- A mill or X endpoint is isolated (R102). -/
def State.millDead (s : State) (m : Nat) : Bool := s.bit (F.RACE_DEADM_dead (m / 32)) (m % 32)
def State.xepDead (s : State) (m : Nat) : Bool := s.bit (F.RACE_DEADX_dead (m / 32)) (m % 32)

/-- The router of subchannel A of a DRAM channel (R84); that of subchannel B stands one row above it. -/
def dramRouter (c : Nat) : Nat := c / 4 * 64 + 2 * (c % 4) * 8 + 2

/-- A unit is observed present (R235). -/
def State.unitSeen (s : State) (u : Nat) : Bool :=
  if u < 32 then (List.range 8).all (fun i => !s.millDead (u * 8 + i))
  else if u < 36 then s.dstate u == 0
  else if u < 40 then
    (List.range 4).all (fun i =>
      let c := (u - 36) * 4 + i
      s.get (F.DDRC_STATUS_state c) == 0 ||
        (s.get (F.DDRC_STATUS_state c) != 6 && !s.xepDead (dramRouter c) && !s.xepDead (dramRouter c + 8)))
  else (List.range 4).all (fun i =>
    let sp := (u - 40) * 4 + i
    !((List.range 4).any (fun p => s.bit (F.PART_LINK_spoke_mask p) sp)) || s.get (F.SPK_STATUS_state sp) != 6)

/-- A unit's commanded and observed state disagree. -/
def State.unitMismatch (s : State) (u : Nat) : Bool :=
  s.unitExists u && ((s.unitOn u && !s.unitSeen u) || (s.unitOff u && s.unitSeen u))

/-- The GOV_SMMIS field bit of a unit. -/
def State.misBit (s : State) (u : Nat) : Bool :=
  if u < 32 then s.bit F.GOV_SMMIS_LO_units u else s.bit F.GOV_SMMIS_HI_units (u - 32)
def State.setMisBit (s : State) (u : Nat) (b : Bool) : State :=
  if u < 32 then s.setBit F.GOV_SMMIS_LO_units u b else s.setBit F.GOV_SMMIS_HI_units (u - 32) b

/-- The bit of a unit clears when its mismatch ends (R235). -/
def State.settleMis (s : State) : State :=
  s.each ((List.range 44).filter (fun u => s.misBit u && !s.unitMismatch u)) (fun s u => s.setMisBit u false)

/-! ## Waking (R406) -/

/-- A domain starts to wake towards Run, or towards a shallower forced state. -/
def State.wakeTo (s : State) (u target : Nat) : State := ((s.put (F.PWR_DSTAT_target u) target).put (F.PWR_DSTAT_waking u) 1).settleMis

/-- An access to a unit whose domain is below Run starts the wake at once (R406), unless it is under way or the domain is forced. -/
def State.wakeFor (s : State) (u : Nat) : State :=
  if s.dstate u = 0 || s.on (F.PWR_DSTAT_waking u) || s.on (F.PWR_DOM_force_en u) then s else s.wakeTo u 0

end Sys2Proof.Machine
end

