-- ==== Sys2Proof/Machine/Operands.lean ====
section
/-!
DEFINITION. Machine/Operands.lean: the data store of a stone as an operand reads and writes it, the fields of an instruction
word, and the error handling around both (R26 to R32, R57, R456).
-/
namespace Sys2Proof.Machine

open Sys2Proof

/-! ## Instruction words -/

/-- Key of an instruction word: BP b of stone `site` at slot n. -/
def wordKey (site b n : Nat) : Nat := (site * 64 + b) * 2048 + n

/-- The stone of a mill as one number. -/
def siteOf (m : Mill) (st : Stone) : Nat := m.val * 16 + st.val

/-- The instruction word in a BP's store; 0 is NOP. -/
def State.word (s : State) (site b n : Nat) : IWord := mget (fun _ => 0) s.stones.words (wordKey site b n)

/-- Fields of R31. -/
def opOf (w : IWord) : Nat := (w.extractLsb' 92 4).toNat
def tapOf (w : IWord) : Bool := w.getLsbD 91
def ttOf (w : IWord) : BitVec 16 := w.extractLsb' 72 16
def opdOf (w : IWord) : BitVec 18 := w.extractLsb' 54 18
def opcOf (w : IWord) : BitVec 18 := w.extractLsb' 36 18
def opbOf (w : IWord) : BitVec 18 := w.extractLsb' 18 18
def opaOf (w : IWord) : BitVec 18 := w.extractLsb' 0 18

/-- Row number and lane of an operand field (R32). -/
def rowOf (x : BitVec 18) : Nat := (x.extractLsb' 6 12).toNat
def laneOf (x : BitVec 18) : Nat := (x.extractLsb' 0 6).toNat

/-! ## Rows -/

/-- The physical row an operand row number names, with the given state bank (R26, R27). -/
def physRow (bank : Bool) (r : Nat) : Nat :=
  if r < 0x800 then r
  else if r < 0xC00 then (if bank then 3072 else 2048) + (r - 0x800)
  else if r < 0xE00 then 4096 + (r - 0xC00)
  else 4608 + (r - 0xF00)

/-- Key of a physical row of a stone. -/
def rowKey (site phys : Nat) : Nat := site * 4864 + phys

/-- A physical row as it stood at the end of the previous turn. -/
def State.baseRow (s : State) (site phys : Nat) : Row := mget (fun _ => 0) s.stones.rows (rowKey site phys)

/-- Write a physical row. -/
def State.setRow (s : State) (site phys : Nat) (v : Row) : State :=
  { s with stones := { s.stones with rows := mset (fun _ => 0) s.stones.rows (rowKey site phys) v } }

/-- A lane of a row. -/
def laneBit (r : Row) (l : Nat) : Bool := r.getLsbD l

/-- A row with one lane replaced. -/
def setLane (r : Row) (l : Nat) (v : Bool) : Row :=
  if v then r ||| BitVec.ofNat 64 (2 ^ l) else r &&& ~~~(BitVec.ofNat 64 (2 ^ l))

/-- The newest write of this turn to the lane at a step no later than `upto` (R29). -/
def State.turnWrite (s : State) (site r l : Nat) (upto : Nat) : Option Bool :=
  (s.stones.writes.find? (fun w => w.site == site && w.row == r && w.lane == l && decide (w.step ≤ upto))).map (·.val)

/-- What lane l of row r of a stone returns to a read at step n (R29, R27). A step row below n − 1, or a landing or port row
written at step n − 2 or earlier, shows this turn's write; anything else shows the end of the previous turn. A reserved row
number, which the loader refuses (R56), reads 0. -/
def State.readLane (s : State) (site : Nat) (bank : Bool) (r l n : Nat) : Bool :=
  if r = 0xE00 then false
  else if r = 0xE01 then true
  else if 0xE02 ≤ r ∧ r < 0xF00 then false
  else if 0x800 ≤ r ∧ r < 0xC00 then laneBit (s.baseRow site (physRow bank r)) l
  else if n < 2 then laneBit (s.baseRow site (physRow bank r)) l
  else
    match s.turnWrite site r l (n - 2) with
    | some v => v
    | none => laneBit (s.baseRow site (physRow bank r)) l

/-- All 64 lanes of a row, as a read at step n returns them. -/
def State.readRow (s : State) (site : Nat) (bank : Bool) (r n : Nat) : Row :=
  (List.range 64).foldl (fun acc l => setLane acc l (s.readLane site bank r l n)) 0

/-! ## Errors -/

/-- What marks the code word of a row as uncorrectable (R456): 0 nothing, otherwise 1 + the step at which it was found. -/
def State.rowMark (s : State) (site phys : Nat) : Nat := mget (fun _ => 0) s.stones.ueRows (rowKey site phys)

/-- Mark a row's code word, or clear it with 0. -/
def State.markRow (s : State) (site phys f : Nat) : State :=
  { s with stones := { s.stones with ueRows := mset (fun _ => 0) s.stones.ueRows (rowKey site phys) f } }

/-- Every lane of a row was written at one step from `lo` to `hi` of this turn: a new code word (R456). -/
def State.rowWhole (s : State) (site r lo hi : Nat) : Bool :=
  let ws := s.stones.writes.filter (fun w => w.site == site && w.row == r && decide (lo ≤ w.step) && decide (w.step ≤ hi))
  ws.any (fun v => (List.range 64).all (fun l => ws.any (fun w => w.step == v.step && w.lane == l)))

/-- The code word of a row is uncorrectable for a read at step n (R29, R456): no whole-row write has entered the store since it was
found so. A write at step k enters it at the end of step k + 1. -/
def State.rowBad (s : State) (site : Nat) (bank : Bool) (r n : Nat) : Bool :=
  let f := s.rowMark site (physRow bank r)
  f != 0 && !(decide (2 ≤ n) && s.rowWhole site r (f - 2) (n - 2))

/-- The operand row number of a physical row that steps write; none of a state row. -/
def rowOfPhys (ph : Nat) : Option Nat :=
  if ph < 2048 then some ph else if ph < 4096 then none else if ph < 4608 then some (ph - 4096 + 0xC00) else some (ph - 4608 + 0xF00)

/-- The mark of a row after the end of a turn: none when it was written whole since it was found uncorrectable (R456). -/
def State.markAfter (s : State) (key mark : Nat) : Nat :=
  match rowOfPhys (key % 4864) with
  | some r => if s.rowWhole (key / 4864) r (mark - 2) 2047 then 0 else 1
  | none => 1

/-- At the end of a turn the marks of the stones it ran on settle (R456). -/
def State.settleMarks (s : State) (mine : Nat → Bool) : State :=
  let marks := mmap (fun _ => 0) (fun k x => if mine (k / 4864) then s.markAfter k x else x) s.stones.ueRows
  { s with stones := { s.stones with ueRows := marks } }

/-- The instruction word is uncorrectable. -/
def State.wordBad (s : State) (site b n : Nat) : Bool := mget (fun _ => false) s.stones.ueWords (wordKey site b n)

/-- The store of a row as MILL_ECC.ue_where names it (R58). -/
def whereOf (r : Nat) : Nat := if r < 0x800 then 2 else if r < 0xC00 then 3 else 4

/-- A row number names a row that exists in the store. -/
def rowStored (r : Nat) : Bool := decide (r < 0xE00) || decide (0xF00 ≤ r)

/-- Report an uncorrectable store error (R57, R58): the event of the turn will name the first in step, mill, stone and lane order,
and among one BP's operands the first read (log entry 16); MILL_ECC keeps the first until cleared; the turn is invalid and the
partition halts at its end. -/
def State.storeError (s : State) (p m st wh n b row : Nat) : State :=
  let s := if s.get (F.MILL_ECC_ue_flag m) = 0 then
      ((s.put (F.MILL_ECC_ue_flag m) 1).put (F.MILL_ECC_ue_where m) wh).put (F.MILL_ECC_ue_stone m) st
    else s
  let key := ((n * 256 + m) * 16 + st) * 64 + b
  let first := match (s.part p).storeErr with | some e => decide (key < e.1) | none => !(s.part p).storeUe
  let s := if first then s.modPart p (fun x => { x with storeErr := some (key, [m, st, wh, n, b, row]) }) else s
  s.faultTurn p false

/-- The step of the first store error of a turn has ended: STORE_ECC_UNCORRECTABLE is raised (R57). -/
def State.raiseStoreErr (s : State) (p : Nat) : State :=
  match (s.part p).storeErr with
  | some e => (s.raise 0x3001 p e.2).modPart p (fun x => { x with storeErr := none, storeUe := true })
  | none => s

/-- Take the store errors seen while a command runs: corrected ones are counted (R57, R58), new uncorrectable words are
marked. -/
def State.takeEcc (s : State) (m : Mill) (st : Stone) (bank : Bool) (n : Nat) (e : StoreEcc) : State :=
  let site := siteOf m st
  let s := s.bump (F.MILL_ECC_ce_count m) e.ce
  let s := s.each e.ueFetch (fun s b =>
    { s with stones := { s.stones with ueWords := mset (fun _ => false) s.stones.ueWords (wordKey site b n) true } })
  s.each (e.ueRows.filter rowStored) (fun s r => s.markRow site (physRow bank r) (n + 1))

/-- An operand read that met an uncorrectable row is reported; the operand reads 0 (R57). -/
def State.reportRow (s : State) (p : Nat) (m : Mill) (st : Stone) (bank : Bool) (r n b : Nat) : State :=
  if rowStored r && s.rowBad (siteOf m st) bank r n then s.storeError p m st (whereOf r) n b r else s

/-- The value of an operand: 0 when its row is uncorrectable (R57). -/
def State.operand (s : State) (site : Nat) (bank : Bool) (x : BitVec 18) (n : Nat) : Bool :=
  !(rowStored (rowOf x) && s.rowBad site bank (rowOf x) n) && s.readLane site bank (rowOf x) (laneOf x) n

/-- The row named by an operand, all lanes; 0 when the row is uncorrectable. -/
def State.operandRow (s : State) (site : Nat) (bank : Bool) (r n : Nat) : Row :=
  if rowStored r && s.rowBad site bank r n then 0 else s.readRow site bank r n

/-! ## Writes -/

/-- A lane written at step n of this turn. -/
def State.writeLane (s : State) (site r l n : Nat) (v : Bool) : State :=
  { s with stones := { s.stones with writes := ⟨site, r, l, n, v⟩ :: s.stones.writes } }

/-- A whole row written at step n: a WAIT into a port row (R48, R456). -/
def State.writeRow (s : State) (site r n : Nat) (v : Row) : State :=
  s.each (List.range 64) (fun s l => s.writeLane site r l n (laneBit v l))

/-- A bit of the shadow state bank (R14, R40). -/
def State.writeShadow (s : State) (site : Nat) (bank : Bool) (r l : Nat) (v : Bool) : State :=
  let ph := physRow (!bank) r
  s.setRow site ph (setLane (s.baseRow site ph) l v)

/-- The turn's writes of the stones in `mine` enter the stores, oldest first (R29). -/
def State.mergeWrites (s : State) (mine : Nat → Bool) : State :=
  let s := s.settleMarks mine
  let ws := s.stones.writes.filter (fun w => mine w.site)
  let s := ws.reverse.foldl (fun s w =>
    let ph := physRow false w.row
    s.setRow w.site ph (setLane (s.baseRow w.site ph) w.lane w.val)) s
  { s with stones := { s.stones with writes := s.stones.writes.filter (fun w => !mine w.site) } }

end Sys2Proof.Machine
end

