-- ==== Sys2Proof/Machine/RaceOps.lean ====
section
/-!
DEFINITION. Machine/RaceOps.lean: the operations of the race that other families use: topology, scheduled words, routes and
targets of packets, isolation (R83 to R105).
-/
namespace Sys2Proof.Machine

open Sys2Proof

/-! ## Topology (R83, R84) -/

def rowOfMill (m : Nat) : Nat := m % 64 / 8
def colOfMill (m : Nat) : Nat := m % 8
def quadOfMill (m : Nat) : Nat := m / 64
def millAt (q r c : Nat) : Nat := q * 64 + r * 8 + c

/-- What is attached to the X port of a router (R84). -/
inductive XEnd where
  | bridge (q : Nat)
  | dram (ch : Nat)
  | spoke (p : Nat)
  | millers (half : Nat)
  | pcie
  | acq
  | dbg
  | none
  deriving DecidableEq, Repr

/-- X port assignment (R84). -/
def xEnd (m : Nat) : XEnd :=
  let q := quadOfMill m
  let r := rowOfMill m
  match colOfMill m with
  | 0 => .bridge (q ^^^ 2)
  | 2 => .dram (4 * q + r / 2)
  | 3 => if r % 2 = 0 then .spoke (4 * q + r / 2) else .none
  | 4 => .bridge (q ^^^ 3)
  | 5 => match r with | 0 => .millers 0 | 1 => .millers 1 | 2 => .pcie | 3 => .acq | 4 => .dbg | _ => .none
  | 7 => .bridge (q ^^^ 1)
  | _ => .none

/-- The router a mesh port leads to, or none at an edge: 0 N, 1 E, 2 S, 3 W (R83). -/
def meshNeighbour (m port : Nat) : Option Nat :=
  let r := rowOfMill m
  let c := colOfMill m
  match port with
  | 0 => if r = 0 then none else some (m - 8)
  | 1 => if c = 7 then none else some (m + 1)
  | 2 => if r = 7 then none else some (m + 8)
  | 3 => if c = 0 then none else some (m - 1)
  | _ => none

/-- The port opposite a mesh port. -/
def opposite (port : Nat) : Nat := (port + 2) % 4

/-- The column of the bridge from quadrant q to quadrant q' (R84). -/
def bridgeCol (q q' : Nat) : Nat := if q ^^^ q' = 1 then 7 else if q ^^^ q' = 2 then 0 else 4

/-! ## Scheduled words (R86 to R89) -/

/-- Slot-table entry and route byte. -/
def State.slotEntry (s : State) (m port n : Nat) : BitVec 8 := mget (fun _ => 0xFF) s.race.slots ((m * 6 + port) * 2048 + n)
def State.routeByte (s : State) (m port c : Nat) : BitVec 8 := mget (fun _ => 0) s.race.routes ((m * 6 + port) * 4 + c)

/-- Code of channel c in an entry (R86). -/
def chanCode (e : BitVec 8) (c : Nat) : Nat := e.toNat / 4 ^ c % 4

/-- A slot j earlier, in turns of depth d, and how many turns back it lies; `back`: how many the slot itself does. -/
def slotBack (d n j back : Nat) : Nat × Nat := if j ≤ n then (n - j, back) else (n + d - j, back + 1)

/-- A bit of a word computed two or more turns ago, which no memory of the model keeps (log entry 3): `key` names it. -/
def State.oldBit (s : State) (p key : Nat) : Bool := (Config.freeBits 11 (key + 2 ^ 40 * s.turns p)).getLsbD 0

/-- The local word bit a mill injects in slot n on a channel of stone pair `pair` (R87, R88): step row (n − 4) mod D in LP1,
(n − 3) mod D in LP2. None in turn 0 when that step precedes turn 0 (R38). A row whose code word is uncorrectable sends its bits as
they are stored (log entry 16). -/
def State.localBit (s : State) (p m pair n bit back : Nat) : Option Bool :=
  let lag := if s.get (F.PART_PROFILE_profile p) = 2 then 3 else 4
  let (r, back) := slotBack (s.depth p) n lag back
  let site := m * 16 + 2 * pair + bit / 64
  let l := bit % 64
  if back = 0 then
    some (match s.turnWrite site r l r with
      | some v => v
      | none => laneBit (s.baseRow site r) l)
  else if (s.part p).turn0 then none
  else if back = 1 then some (laneBit (s.baseRow site r) l)
  else some (s.oldBit p ((site * 64 + l) * 2048 + r))

/-- A bit of the word a spoke presents in slot n on channel c, from its receive buffer (R187): 0 when none was received. -/
def State.spokeBit (s : State) (sp n c bit back : Nat) : Bool :=
  (mget (fun _ => 0) s.spokeRx ((sp * 8192 + 2048 * back + n) * 2 + c)).getLsbD bit

/-- The bit on channel c of output `port` of router m in slot n, `back` turns ago (R86 to R88): none when its computing step precedes
turn 0, or when it is a word of a spoke that was sent before turn 0 (R38); `some false` when the channel carries no scheduled word. The
fuel bounds the routers a word has passed: each takes two slots or more, so that 2,048 reach back two turns. -/
def State.outBit (s : State) (p c bit : Nat) : Nat → Nat → Nat → Nat → Nat → Option Bool
  | 0, _, _, _, _ => some false
  | fuel + 1, m, port, n, back =>
    match chanCode (s.slotEntry m port n) c with
    | 1 => s.localBit p m ((s.routeByte m port c).toNat % 8) n bit back
    | 2 =>
      match (s.routeByte m port c).toNat / 16 % 8 with
      | 4 =>
        match xEnd m with
        | .bridge q =>
          let (n', back') := slotBack (s.depth p) n 10 back
          s.outBit p c bit fuel (millAt q (rowOfMill m) (bridgeCol q (quadOfMill m))) 4 n' back'
        | .spoke sp =>
          if (s.part p).turn0 && (back != 0 || decide (n < s.get (F.TURN_CONFIG_l p))) then none
          else if 2 ≤ back then some (s.oldBit p (2 ^ 36 + (sp * 2048 + n) * 256 + c * 128 + bit))
          else some (s.spokeBit sp n c bit back)
        | _ => some false
      | src =>
        match meshNeighbour m src with
        | some m' =>
          let (n', back') := slotBack (s.depth p) n 2 back
          s.outBit p c bit fuel m' (opposite src) n' back'
        | none => some false
    | _ => some false

/-- Bit `bit` of channel c of the arrival word of mill m at step n (R37): output A of its router. -/
def State.arrivalBit (s : State) (p : Nat) (m : Mill) (n c bit : Nat) : Option Bool := s.outBit p c bit 2048 m 5 n 0

/-- Channel c of an output is free for packet units (R86, R89, R90): coded 0b00 in the slot in force; in a hold or a halt, while the slot
stands still, anything but 0b11; with no image loaded and released always. -/
def State.chanFree (s : State) (m port c : Nat) : Bool :=
  match s.millOwner m with
  | none => true
  | some p =>
    let code := chanCode (s.slotEntry m port (s.part p).step) c
    if s.pstate p = stHalted then code != 3
    else if s.pstate p = stRunning then code == 0 || (s.on (F.TURN_STATUS_holding p) && code != 3)
    else true

/-- Some channel of the output is free for a packet unit. -/
def State.outFree (s : State) (m port : Nat) : Bool := (List.range 4).any (fun c => s.chanFree m port c)

/-! ## Packets -/

/-- Header fields (R92). -/
def hcmd (h : Unit128) : Nat := (h.extractLsb' 124 4).toNat
def hlen (h : Unit128) : Nat := (h.extractLsb' 118 6).toNat
def hurg (h : Unit128) : Nat := (h.extractLsb' 115 3).toNat
def hstatus (h : Unit128) : Nat := (h.extractLsb' 112 3).toNat
def hinit (h : Unit128) : Nat := (h.extractLsb' 102 10).toNat
def htag (h : Unit128) : Nat := (h.extractLsb' 90 12).toNat
def hdq (h : Unit128) : Nat := (h.extractLsb' 88 2).toNat
def hdrow (h : Unit128) : Nat := (h.extractLsb' 85 3).toNat
def hdcol (h : Unit128) : Nat := (h.extractLsb' 82 3).toNat
def hdport (h : Unit128) : Nat := (h.extractLsb' 78 4).toNat
def hctx (h : Unit128) : Nat := (h.extractLsb' 74 4).toNat
def hpf (h : Unit128) : Bool := h.getLsbD 73
def hpeek (h : Unit128) : Bool := h.getLsbD 72
def hresv (h : Unit128) : Nat := (h.extractLsb' 68 4).toNat
def htail (h : Unit128) : Nat := (h.extractLsb' 64 4).toNat
def haddr (h : Unit128) : Nat := (h.extractLsb' 0 64).toNat

/-- Build a header unit from its fields (R92). -/
def mkHdr (cmd len urg status init tag dq drow dcol dport ctx pf peek tail addr : Nat) : Unit128 :=
  BitVec.ofNat 128 (cmd % 16 * 2 ^ 124 + len % 64 * 2 ^ 118 + urg % 8 * 2 ^ 115 + status % 8 * 2 ^ 112 + init % 1024 * 2 ^ 102 +
    tag % 4096 * 2 ^ 90 + dq % 4 * 2 ^ 88 + drow % 8 * 2 ^ 85 + dcol % 8 * 2 ^ 82 + dport % 16 * 2 ^ 78 + ctx % 16 * 2 ^ 74 +
    pf % 2 * 2 ^ 73 + peek % 2 * 2 ^ 72 + tail % 16 * 2 ^ 64 + addr % 2 ^ 48)

/-- The mill at the destination router of a header. -/
def hmill (h : Unit128) : Nat := millAt (hdq h) (hdrow h) (hdcol h)

/-- Key of a watched target (R102): a mill, or 256 + the mill whose router carries the X endpoint. -/
def targetKey (xep : Bool) (m : Nat) : Nat := if xep then 256 + m else m

/-- The target a header names. -/
def htarget (h : Unit128) : Nat := targetKey (hdport h == 8) (hmill h)

/-- A header no initiator produces (R92, R93, R104): a reserved command, len, dport, ctx, status or address bit. Status 7, which R95
calls not produced, is one (log entry 67). -/
def hdrMalformed (h : Unit128) : Bool :=
  let c := hcmd h
  c == 0 || decide (7 ≤ c) || decide (32 < hlen h) || !([0, 1, 2, 3, 8].contains (hdport h)) || decide (8 ≤ hctx h) ||
  hresv h != 0 || decide (2 ^ 48 ≤ haddr h) || (decide (c ≤ 3) && hstatus h != 0) || (c == 6 && hstatus h != 0) || hstatus h == 7

/-- A non-posted request. -/
def hdrRequest (h : Unit128) : Bool := hcmd h == 1 || hcmd h == 3

/-- A response (R93). -/
def hdrResponse (h : Unit128) : Bool := hcmd h == 4 || hcmd h == 5

/-- Target key t is isolated (R102). -/
def State.isolated (s : State) (t : Nat) : Bool :=
  if t < 256 then s.bit (F.RACE_DEADM_dead (t / 32)) (t % 32) else s.bit (F.RACE_DEADX_dead ((t - 256) / 32)) ((t - 256) % 32)

/-- Set or clear a target's isolation bit. -/
def State.setIsolated (s : State) (t : Nat) (b : Bool) : State :=
  if t < 256 then s.setBit (F.RACE_DEADM_dead (t / 32)) (t % 32) b
  else s.setBit (F.RACE_DEADX_dead ((t - 256) / 32)) ((t - 256) % 32) b

/-- The error data of a response (R95): every 32-bit word 0xBAD0_BAD0. -/
def badUnit : Unit128 := 0xBAD0BAD0BAD0BAD0BAD0BAD0BAD0BAD0

/-- n bytes of it. -/
def badBytes (n : Nat) : List Byte := (List.range n).map (fun i => badUnit.extractLsb' (i % 16 * 8) 8)

/-- An initiator that has an X port in every quadrant, or none (R101). -/
def initEverywhere (i : Nat) : Bool := decide (0x200 ≤ i)

/-- The router an initiator's responses go to, from a target in quadrant q (R101, R84). -/
def initRouter (i q : Nat) : Nat :=
  if i < 0x200 then i / 2
  else if i < 0x210 then millAt q 0 5
  else if i < 0x220 then millAt q 1 5
  else if i = 0x220 ∨ i = 0x221 then millAt q 2 5
  else if i = 0x223 then millAt q 3 5
  else if i = 0x225 then millAt q 4 5
  else millAt q 1 5

/-- Response to a request (R93 to R95): RDR to an RD, with its units for status 0, 1 and 2; ACK to a WRA. Its urg, ctx, pf and peek are
the request's, its addr and tail 0 (log entry 67). -/
def respond (h : Unit128) (status : Nat) (units : List Unit128) : Pkt :=
  let i := hinit h
  let m := initRouter i (hdq h)
  let us := if hcmd h = 1 ∧ status ≤ 2 then units else []
  { hdr := mkHdr (if hcmd h = 1 then 4 else 5) us.length (hurg h) status i (htag h) (quadOfMill m) (rowOfMill m) (colOfMill m)
      (if i < 0x200 then i % 2 else 8) (hctx h) (if hpf h then 1 else 0) (if hpeek h then 1 else 0) 0 0,
    data := us, poison := us.map (fun _ => false) }

/-- Count units for every statistics slot that names the initiator (R106). -/
def State.statUnits (s : State) (init n : Nat) : State :=
  s.each ((List.range 64).filter (fun k => s.on (F.RACE_STSEL_en k) && s.get (F.RACE_STSEL_init k) == init)) (fun s k =>
    let a := mget (fun _ => {}) s.race.stats k
    { s with race := { s.race with stats := mset (fun _ => {}) s.race.stats k { a with units := a.units + n } } })

/-- Count a completed request and its latency (R106). -/
def State.statLat (s : State) (init lat : Nat) : State :=
  s.each ((List.range 64).filter (fun k => s.on (F.RACE_STSEL_en k) && s.get (F.RACE_STSEL_init k) == init)) (fun s k =>
    let a := mget (fun _ => {}) s.race.stats k
    let a := { a with reqs := a.reqs + 1, sumLat := a.sumLat + lat, maxLat := max a.maxLat lat }
    { s with race := { s.race with stats := mset (fun _ => {}) s.race.stats k a } })

/-- A header without its urgency, which alone changes on the way (R99). -/
def butUrg (h : Unit128) : Unit128 := h &&& ~~~(BitVec.ofNat 128 (7 * 2 ^ 115))

/-- The same packet, whatever its urgency. -/
def samePacket (a b : Unit128) : Bool := butUrg a == butUrg b

/-- A request f in flight is of the initiator, the target and the class of h (R98). -/
def Flight.leads (f : Flight) (h : Unit128) : Bool :=
  !hdrResponse f.hdr && !hdrResponse h && hinit f.hdr == hinit h && htarget f.hdr == htarget h

/-- Two packets in flight that the race keeps in order (R98). -/
def Flight.ordered (f g : Flight) : Bool :=
  if hdrResponse g.hdr then hdrResponse f.hdr && f.source == g.source && hinit f.hdr == hinit g.hdr else f.leads g.hdr

/-- No packet of its initiator, target and class that was issued earlier is still on its way (R98). A packet that the model has not
seen sent was issued last (log entry 67). -/
def State.inOrder (s : State) (h : Unit128) : Bool :=
  match s.race.flight.find? (fun f => samePacket f.hdr h) with
  | some f => (match s.race.flight.find? (fun g => g.ordered f) with
    | some g => samePacket g.hdr h
    | none => true)
  | none => !s.race.flight.any (fun f => f.leads h)

/-- A packet is put on the race; `source`: the target that answers; `marked`: its turn has been marked for it (R159). -/
def State.emit (s : State) (pk : Pkt) (source : Nat) (marked : Bool) : State :=
  { s with race := { s.race with sent := pk :: s.race.sent, flight := s.race.flight ++ [⟨pk.hdr, source, marked⟩] } }

/-- A packet has come to its end: delivered or dropped. -/
def State.landed (s : State) (h : Unit128) : State :=
  let s := match s.race.flight.find? (fun f => samePacket f.hdr h) with
    | some f => { s with race := { s.race with flight := s.race.flight.erase f } }
    | none => s
  match s.race.bufs.find? (fun b => samePacket b.pkt.hdr h) with
  | some b => { s with race := { s.race with bufs := s.race.bufs.erase b } }
  | none => s

/-- Packet units an initiator injects (R107). -/
def State.countUnits (s : State) (n : Nat) : State :=
  s.put64 R.RACE_UNITS_LO R.RACE_UNITS_HI ((s.get64 R.RACE_UNITS_LO R.RACE_UNITS_HI + n) % 2 ^ 64)

/-- An initiator sends a packet into the race (R105, R106, R107): a prefetch has no response, so none is waited for. -/
def State.send (s : State) (pk : Pkt) (marked : Bool) : State :=
  let s := ((s.emit pk 0 marked).countUnits (1 + pk.data.length)).statUnits (hinit pk.hdr) pk.data.length
  if hdrRequest pk.hdr && !hpf pk.hdr then
    { s with race := { s.race with reqs := s.race.reqs ++ [{ hdr := pk.hdr }] } }
  else s

/-- The request of an initiator with a tag. -/
def RaceReq.is (r : RaceReq) (init tag : Nat) : Bool := hinit r.hdr == init && htag r.hdr == tag

/-- An initiator waits for the response to a tag. -/
def State.awaits (s : State) (init tag : Nat) : Bool := s.race.reqs.any (fun r => r.is init tag)

/-- A request is no longer waiting for its response. -/
def State.reqDone (s : State) (init tag : Nat) : State :=
  { s with race := { s.race with reqs := s.race.reqs.filter (fun r => !r.is init tag) } }

/-- A request has reached its target. -/
def State.reqDelivered (s : State) (h : Unit128) : State :=
  { s with race := { s.race with reqs := s.race.reqs.map (fun r => if r.is (hinit h) (htag h) then { r with delivered := true } else r) } }

/-- A response to a request is sent. -/
def State.sendAnswer (s : State) (h : Unit128) (status : Nat) (units : List Unit128) : State :=
  if hpf h then s
  else
    let s := s.emit (respond h status units) (htarget h) false
    { s with race := { s.race with reqs := s.race.reqs.map (fun r => if r.is (hinit h) (htag h) then { r with answered := true } else r) } }

/-- The request has been answered already, by its router (R102). -/
def State.answeredFor (s : State) (h : Unit128) : Bool :=
  s.race.reqs.any (fun r => r.is (hinit h) (htag h) && r.answered) && !s.race.reqs.any (fun r => r.is (hinit h) (htag h) && !r.answered)

/-- A target answers a request. What an isolated target sends is discarded, and so is its response to a request that was answered when
it was isolated (R103). -/
def State.answer (s : State) (h : Unit128) (status : Nat) (units : List Unit128) : State :=
  if s.isolated (htarget h) || s.answeredFor h then s else s.sendAnswer h status units

/-- The answer of a router in place of a dead target (R95, R102). -/
def State.answerDead (s : State) (h : Unit128) : State := s.sendAnswer h 1 (List.replicate (hlen h) badUnit)

/-- Record an uncorrectable link error and raise it (R104, R107): RACE_ECC keeps the first until cleared. -/
def State.linkUe (s : State) (sched : Bool) (p : Option Nat) (router input ch : Nat) : State :=
  let loc := router * 256 + input * 16 + ch
  let s := if s.get F.RACE_ECC_ue_flag = 0 then
      ((s.put F.RACE_ECC_ue_flag 1).flag F.RACE_ECC_ue_sched sched).setReg R.RACE_ECCLOC (BitVec.ofNat 32 loc)
    else s
  s.raise 0x4003 (ownerField (if sched then p else none)) [(s.reg R.RACE_ECCLOC).toNat, if sched then 1 else 0]

end Sys2Proof.Machine
end

