-- ==== Sys2Proof/Machine/StepOps.lean ====
section
/-!
DEFINITION. Machine/StepOps.lean: brake votes as any source raises them (R68 to R71, R74, R188), and the passing of a partition from
one step to the next.
-/
namespace Sys2Proof.Machine

open Sys2Proof

/-- The hold step K steps after step n, and whether it lies in the next turn (R69). -/
def State.holdOf (s : State) (p n : Nat) : Nat × Bool :=
  let h := n + s.horizon p
  if h < s.depth p then (h, false) else (h - s.depth p, true)

/-- Announce a vote on the spokes of a multi-module partition (R188): the module's own votes of one cycle for one hold step are
one record; what it has sent it does not forward again (R189). -/
def State.announce (s : State) (p raised hold cause : Nat) : State :=
  if s.multi p then
    s.modPart p (fun x =>
      let same (v : VoteOut) : Bool := v.raised == raised && v.hold == hold % 512 && v.hops == 0
      { x with
        seenVotes := { raised := raised, hold := hold % 512, causes := 2 ^ cause } :: x.seenVotes
        outVotes := if x.outVotes.any same then x.outVotes.map (fun v => if same v then { v with causes := v.causes ||| 2 ^ cause } else v)
          else x.outVotes ++ [{ raised := raised, hold := hold % 512, causes := 2 ^ cause }] })
  else s

/-- Raise a vote (R71); `origin` is the cycle of round 0. Votes for a step at which the limit was reached are ignored (R74). -/
def State.vote (s : State) (p hold : Nat) (next : Bool) (round cause origin : Nat) : State :=
  if !next && (s.part p).limitSteps.contains hold then s
  else (s.modPart p (fun x => { x with votes := x.votes ++ [{ hold := hold, next := next, round := round, cause := cause }] })).announce p (origin + 32 * round) hold cause

/-- Rounds 0 to n − 1 of one vote raised at step s (R71). -/
def State.voteRounds (s : State) (p hold : Nat) (next : Bool) (n cause origin : Nat) : State :=
  s.each (List.range n) (fun s i => s.vote p hold next i cause origin)

/-- PART_VOTE writes that were accepted during a hold vote at the first step executed after it (R68): that step now executes, or has. -/
def State.votesDue (s : State) (p : Nat) (due : Nat → Bool) : State :=
  let now := (s.part p).votePend.filter (fun v => due v.2)
  let s := s.modPart p (fun x => { x with votePend := x.votePend.filter (fun v => !due v.2) })
  s.each now (fun s v => s.voteRounds p (s.holdOf p v.2).1 (s.holdOf p v.2).2 v.1 6 (s.cycleOf p v.2))

/-- Step n of partition p executes: the step before it has ended, and with it what is known only then (R57). -/
def State.enterStep (s : State) (p n : Nat) : State :=
  let s := if (s.part p).step = n then s else s.raiseStoreErr p
  (s.votesDue p (fun _ => true)).modPart p (fun x => { x with step := n })

/-- The step clocks of the quadrants run: no pace change has stopped them (R63). -/
def State.stepClock (s : State) : Bool := s.clk.paceTo.isNone

end Sys2Proof.Machine
end

