-- ==== Sys2Proof/Machine/Stones.lean ====
section
/-!
DEFINITION. Machine/Stones.lean: the ops of a BP that stay in its stone: NOP, EVAL, EVAL3_ST, FUSE2, FUSE4, BREAK (R33 to
R46, R53).
-/
namespace Sys2Proof.Machine

open Sys2Proof

/-- What a BP op works on: its partition, mill, stone, BP, step, committed bank. -/
structure BpCtx where
  p : Nat
  m : Mill
  st : Stone
  b : Nat
  n : Nat
  bank : Bool
  deriving DecidableEq, Repr

/-- The stone of a context as one number. -/
def BpCtx.site (c : BpCtx) : Nat := siteOf c.m c.st

/-- The context of a BP op, when the BP executes at all: its mill belongs to a partition that is RUNNING, with its step clock, and in
no brake hold, and the step lies in the turn (R11, R16, R31, R39, R63). -/
def State.bpCtx (s : State) (m : Mill) (st : Stone) (b n : Nat) : Option BpCtx :=
  match s.millOwner m with
  | none => none
  | some p =>
    if s.running p && s.stepClock && !s.on (F.TURN_STATUS_holding p) && decide (n < s.depth p) then some ⟨p, m, st, b, n, (s.part p).bank⟩
    else none

/-- Execute one op of one BP. The BP's own store gives the word (R31); a command that names another op than the word's does
nothing. Store errors are taken first; a BP whose word is uncorrectable executes a NOP without import (R57). -/
def State.bpOp (s : State) (m : Mill) (st : Stone) (b : Bp) (n : Step) (e : StoreEcc) (op : Nat)
    (f : State → BpCtx → IWord → State) : State :=
  match s.bpCtx m st b n with
  | none => s
  | some c =>
    let w := s.word c.site b n
    if opOf w = op then
      let s := (s.enterStep c.p n).takeEcc m st c.bank n e
      if s.wordBad c.site b n then s.storeError c.p m st 1 n b 0 else f s c w
    else s

/-- Report the uncorrectable rows among a list of operand rows, in order (R57). -/
def State.reportRows (s : State) (c : BpCtx) (rs : List Nat) : State :=
  s.each rs (fun s r => s.reportRow c.p c.m c.st c.bank r c.n c.b)

/-- The tapped result of an op enters the turn's capture collection (R351). -/
def State.tap (s : State) (c : BpCtx) (b : Nat) (w : IWord) (v : Bool) : State :=
  let t := mget (fun _ => 0) s.stones.tapBit (wordKey c.site b c.n)
  if tapOf w && t != 0 then
    s.modPart c.p (fun x => { x with taps := mset (fun _ => 0) x.taps c.site (setLane (mget (fun _ => 0) x.taps c.site) (t - 1) v) })
  else s

/-- A result enters the BP's own lane of step row n (R33). -/
def State.result (s : State) (c : BpCtx) (b : Nat) (w : IWord) (v : Bool) : State :=
  (s.writeLane c.site c.n b c.n v).tap c b w v

/-- Operand value in a context. -/
def State.opnd (s : State) (c : BpCtx) (x : BitVec 18) : Bool := s.operand c.site c.bank x c.n

/-- Index of a truth table from its inputs, input 0 least significant. -/
def ttIndex : List Bool → Nat
  | [] => 0
  | v :: t => (if v then 1 else 0) + 2 * ttIndex t

/-- The rows of an instruction's four operand fields. -/
def rowsOf (w : IWord) : List Nat := [rowOf (opaOf w), rowOf (opbOf w), rowOf (opcOf w), rowOf (opdOf w)]

/-- Index of the four operands of a word (R33). -/
def State.index4 (s : State) (c : BpCtx) (w : IWord) : Nat :=
  ttIndex [s.opnd c (opaOf w), s.opnd c (opbOf w), s.opnd c (opcOf w), s.opnd c (opdOf w)]

/-! ## EVAL and EVAL3_ST -/

/-- EVAL: the table entry at d·8 + c·4 + b·2 + a, into the BP's own lane of step row n. -/
def State.doEval (s : State) (c : BpCtx) (w : IWord) : State :=
  let s := s.reportRows c (rowsOf w)
  s.result c c.b w ((ttOf w).getLsbD (s.index4 c w))

def execEval (m : Mill) (st : Stone) (b : Bp) (n : Step) (e : StoreEcc) (s : State) : Out :=
  .next (s.bpOp m st b n e 1 State.doEval)

/-- EVAL3_ST: the table entry at c·4 + b·2 + a, into the shadow bank at opd (R40). -/
def State.doEval3 (s : State) (c : BpCtx) (w : IWord) : State :=
  let s := s.reportRows c [rowOf (opaOf w), rowOf (opbOf w), rowOf (opcOf w)]
  let i := ttIndex [s.opnd c (opaOf w), s.opnd c (opbOf w), s.opnd c (opcOf w)]
  let v := (ttOf w).getLsbD i
  (s.writeShadow c.site c.bank (rowOf (opdOf w)) (laneOf (opdOf w)) v).tap c c.b w v

def execEval3St (m : Mill) (st : Stone) (b : Bp) (n : Step) (e : StoreEcc) (s : State) : Out :=
  .next (s.bpOp m st b n e 2 State.doEval3)

/-! ## NOP and imports -/

/-- The crossbar source of an import at step n (R36): lane l of step row (n − 4) mod D as it stood after step n − 4; none in
turn 0 when that step lies in the previous turn (R38). An uncorrectable source row delivers its stored bit and is not reported
(log entry 16). -/
def State.crossbar (s : State) (c : BpCtx) (src l : Nat) : Option Bool :=
  let site := c.m.val * 16 + src
  if 4 ≤ c.n then
    let r := c.n - 4
    some (match s.turnWrite site r l r with
      | some v => v
      | none => laneBit (s.baseRow site r) l)
  else if (s.part c.p).turn0 then none
  else some (laneBit (s.baseRow site (c.n + s.depth c.p - 4)) l)

/-- A scheduled word seen with link errors (R104): corrected errors are counted; an uncorrectable one is recorded, raised,
and marks the turn invalid. -/
def State.takeLinkEcc (s : State) (p : Nat) (lk : LinkEcc) : State :=
  let s := s.bump F.RACE_ECC_ce_count lk.ce
  match lk.ue with
  | none => s
  | some (_, router, input, ch) => (s.linkUe true (some p) router input ch).faultTurn p false

/-- NOP: nothing, or an import into the BP's own lane of step row n (R35 to R38). -/
def State.doNop (s : State) (lk : LinkEcc) (c : BpCtx) (w : IWord) : State :=
  let a := opaOf w
  match (a.extractLsb' 16 2).toNat with
  | 1 =>
    match s.crossbar c (a.extractLsb' 6 4).toNat (a.extractLsb' 0 6).toNat with
    | some v => s.result c c.b w v
    | none => s
  | 2 =>
    let s := s.takeLinkEcc c.p lk
    match s.arrivalBit c.p c.m c.n (a.extractLsb' 7 2).toNat (a.extractLsb' 0 7).toNat with
    | some v => s.result c c.b w (match lk.ue with | some (r, _, _, _) => r | none => v)
    | none => s
  | _ => s

def execNop (m : Mill) (st : Stone) (b : Bp) (n : Step) (e : StoreEcc) (lk : LinkEcc) (s : State) : Out :=
  .next (s.bpOp m st b n e 0 (fun s c w => s.doNop lk c w))

/-! ## FUSE2 and FUSE4 -/

/-- Member j of a group takes part: its word is readable. A member whose word is uncorrectable executes a NOP and its fields
and table read as 0 for the group (R57). -/
def State.member (s : State) (c : BpCtx) (b : Nat) : IWord := if s.wordBad c.site b c.n then 0 else s.word c.site b c.n

/-- Execute a group op: every member's word names it. `rows`: operand rows with the BP that reads each. -/
def State.groupOp (s : State) (m : Mill) (st : Stone) (bs : List Nat) (n : Step) (e : StoreEcc) (op : Nat)
    (value : State → BpCtx → Bool) (rows : State → BpCtx → List (Nat × Nat)) : State :=
  match s.bpCtx m st (bs.headD 0) n with
  | none => s
  | some c =>
    if bs.all (fun b => opOf (s.word c.site b n) == op) then
      let s := (s.enterStep c.p n).takeEcc m st c.bank n e
      let s := s.each (bs.filter (fun b => s.wordBad c.site b n)) (fun s b => s.storeError c.p m st 1 n b 0)
      let s := s.each (rows s c) (fun s r => s.reportRow c.p m st c.bank r.2 n r.1)
      let v := value s c
      s.each (bs.filter (fun b => !s.wordBad c.site b n)) (fun s b => s.result c b (s.word c.site b n) v)
    else s

/-- FUSE2 (R42): the even BP gives a to d and the half-table for e = 0, the odd BP e and the half for e = 1. -/
def fuse2Value (s : State) (c : BpCtx) : Bool :=
  let w0 := s.member c c.b
  let w1 := s.member c (c.b + 1)
  let i := s.index4 c w0
  if s.opnd c (opaOf w1) then (ttOf w1).getLsbD i else (ttOf w0).getLsbD i

/-- The rows a FUSE2 pair reads, with the BP whose operand names each. -/
def fuse2Rows (s : State) (c : BpCtx) : List (Nat × Nat) :=
  (rowsOf (s.member c c.b)).map (fun r => (c.b, r)) ++ [(c.b + 1, rowOf (opaOf (s.member c (c.b + 1))))]

def execFuse2 (m : Mill) (st : Stone) (k : Fin 32) (n : Step) (e : StoreEcc) (s : State) : Out :=
  .next (s.groupOp m st [2 * k.val, 2 * k.val + 1] n e 3 fuse2Value fuse2Rows)

/-- The mode marker of R43: row 0xE00, lane 63. -/
def fuse4Marker : BitVec 18 := 0x3803F

/-- Field j of a FUSE4 group, j from 0 to 15: BP 4k + j ÷ 4, field j mod 4 (R45). -/
def fuse4Field (s : State) (c : BpCtx) (j : Nat) : BitVec 18 :=
  let w := s.member c (c.b + j / 4)
  match j % 4 with | 0 => opaOf w | 1 => opbOf w | 2 => opcOf w | _ => opdOf w

/-- FUSE4 (R43 to R45). -/
def fuse4Value (s : State) (c : BpCtx) : Bool :=
  let w0 := s.member c c.b
  let w1 := s.member c (c.b + 1)
  if opdOf w1 = fuse4Marker then
    let q := ttIndex [s.opnd c (opaOf w1), s.opnd c (opbOf w1)]
    (ttOf (s.member c (c.b + q))).getLsbD (s.index4 c w0)
  else
    let row := (ttOf w0).toNat / 16
    let g := (ttOf w0).toNat % 16
    let sel := ttIndex ((List.range 4).map (fun j => laneBit (s.operandRow c.site c.bank row c.n) (4 * g + j)))
    s.opnd c (fuse4Field s c sel)

/-- The rows a FUSE4 group reads, with the BP whose operand names each. -/
def fuse4Rows (s : State) (c : BpCtx) : List (Nat × Nat) :=
  let w0 := s.member c c.b
  let w1 := s.member c (c.b + 1)
  let at_ (j : Nat) (l : List Nat) : List (Nat × Nat) := l.map (fun r => (c.b + j, r))
  if opdOf w1 = fuse4Marker then
    at_ 0 (rowsOf w0) ++ at_ 1 [rowOf (opaOf w1), rowOf (opbOf w1)]
  else
    at_ 0 ((ttOf w0).toNat / 16 :: rowsOf w0) ++ at_ 1 (rowsOf w1) ++ at_ 2 (rowsOf (s.member c (c.b + 2))) ++ at_ 3 (rowsOf (s.member c (c.b + 3)))

def execFuse4 (m : Mill) (st : Stone) (k : Fin 16) (n : Step) (e : StoreEcc) (s : State) : Out :=
  .next (s.groupOp m st [4 * k.val, 4 * k.val + 1, 4 * k.val + 2, 4 * k.val + 3] n e 4 fuse4Value fuse4Rows)

/-! ## BREAK -/

/-- A BREAK that fires (R53, R337, R339): the first of the turn is recorded while the record is clear; a single-module
partition halts at the end of the turn, a multi-module one launches a request pulse. -/
def State.breakFires (s : State) (c : BpCtx) : State :=
  let key := ((c.n * 256 + c.m.val) * 16 + c.st.val) * 64 + c.b
  let x := s.part c.p
  let first := if s.get (F.DBG_BREAKREC_valid c.p) = 0 then true
    else match x.breakKey with | some k => decide (key < k) | none => false
  let s := if first then
      ((((s.put (F.DBG_BREAKREC_valid c.p) 1).put (F.DBG_BREAKREC_mill c.p) c.m).put (F.DBG_BREAKREC_stone c.p) c.st).put
        (F.DBG_BREAKREC_lane c.p) c.b).put (F.DBG_BREAKREC_step c.p) c.n |>.modPart c.p (fun x => { x with breakKey := some key })
    else s
  let s := s.haltCause c.p 3
  if s.multi c.p then s.haltPulse else s

/-- BREAK: evaluates as EVAL and writes nothing (R53). -/
def State.doBreak (s : State) (c : BpCtx) (w : IWord) : State :=
  let s := s.reportRows c (rowsOf w)
  if (ttOf w).getLsbD (s.index4 c w) && (s.part c.p).breakEn then s.breakFires c else s

def execBreak_ (m : Mill) (st : Stone) (b : Bp) (n : Step) (e : StoreEcc) (s : State) : Out :=
  .next (s.bpOp m st b n e 10 State.doBreak)

end Sys2Proof.Machine
end

