-- ==== Sys2Proof/Machine/CapOps.lean ====
section
/-!
DEFINITION. Machine/CapOps.lean: capture triggers as other families make them (R358, R359).
-/
namespace Sys2Proof.Machine

open Sys2Proof

/-- The capture record of a partition. -/
def State.cap (s : State) (p : Nat) : CapPart := mget (fun _ => {}) s.acq.parts p
def State.setCap (s : State) (p : Nat) (x : CapPart) : State :=
  { s with acq := { s.acq with parts := mset (fun _ => {}) s.acq.parts p x } }

/-- Mark sources for partition p while its capture is enabled (R358): with the turn in progress, or on its own when the partition is
not RUNNING; such a mark too restarts the auto trigger (R360) and arms the post-trigger action, whose M turns then begin with the next one
to end (R362). Of several watch firings of a turn the first gives the step. -/
def State.capMark (s : State) (p sources step units : Nat) : State :=
  let x := s.cap p
  if !s.on (F.ACQ_P_CTRL_en p) then s
  else if s.running p then
    s.setCap p { x with marks := x.marks ||| sources, step := if x.units = 0 then step else x.step, units := x.units ||| units }
  else s.setCap p { x with
    auto := 0, post := some (x.post.getD (s.get (F.ACQ_P_POST_turns p) + 1))
    items := x.items ++ [{ kind := 3, turn := s.turns p, sources := sources, units := units, idle := true }] }

/-- A local trigger of partition p (R359): a mark, or with drive_x a pulse on TRIG_X unless one is driven or pending. -/
def State.capTrigger (s : State) (p src step units : Nat) : State :=
  if !s.on (F.ACQ_P_CTRL_en p) then s
  else if s.on (F.ACQ_P_CTRL_drive_x p) then
    if s.lines.trigXPulse || s.lines.trigXPending then s
    else { s with lines := { s.lines with trigXPulse := true, trigXOwn := true } }
  else s.capMark p (2 ^ src) step units

end Sys2Proof.Machine
end

