-- ==== Sys2Proof/Machine/WatchOps.lean ====
section
/-!
DEFINITION. Machine/WatchOps.lean: the watch units of a partition (R340 to R342).
-/
namespace Sys2Proof.Machine

open Sys2Proof

/-- A design-memory access as a watch unit sees it: far port (source 2m + f) or mill memory (source m), direction, entry index,
bits [63:0] of the entry, context, and the step it is taken at, 0 for a back-door access. -/
structure Access where
  far : Bool
  source : Nat
  write : Bool
  index : Nat
  data : Nat
  ctx : Nat
  step : Nat
  backDoor : Bool
  deriving DecidableEq, Repr

/-- Number of watch unit u of partition p behind DBG_WSEL. -/
def watchIdx (p u : Nat) : Nat := p * 16 + u

/-- An access matches unit n (R340). -/
def State.watchMatch (s : State) (n : Nat) (a : Access) : Bool :=
  let kind := s.get (F.DBG_WCFG_kind.sel n)
  let dir := s.get (F.DBG_WCFG_dir.sel n)
  let src := s.get (F.DBG_WCFG_source.sel n)
  let low := s.get64 (selAddr R.DBG_WLOW_LO n) (selAddr R.DBG_WLOW_HI n)
  let high := s.get64 (selAddr R.DBG_WHIGH_LO n) (selAddr R.DBG_WHIGH_HI n)
  let data := s.get64 (selAddr R.DBG_WDATA_LO n) (selAddr R.DBG_WDATA_HI n)
  let mask := s.get64 (selAddr R.DBG_WMASK_LO n) (selAddr R.DBG_WMASK_HI n)
  s.on (F.DBG_WCFG_en.sel n) &&
  (kind == 2 || (kind == 0 && a.far) || (kind == 1 && !a.far)) &&
  (if a.write then dir / 2 % 2 == 1 else dir % 2 == 1) &&
  (s.on (F.DBG_WCFG_all.sel n) ||
    (if a.far then src == a.source else (if kind == 1 then src % 256 else src / 2) == a.source)) &&
  decide (low ≤ a.index) && decide (a.index ≤ high) &&
  (!s.on (F.DBG_WCFG_data_en.sel n) || (a.data &&& mask) == (data &&& mask)) &&
  (s.get (F.DBG_WCFG_ctx_mask.sel n)).testBit a.ctx

/-- A position in a run, for the order of matches: turn, then step. -/
def State.watchTime (s : State) (p step : Nat) : Nat := s.turns p * 2048 + step

/-- A linked unit counts only matches after the step at which the unit before it first fired since the last rearm (R342): watchFirst
holds the position after that step, 0 once the turn count has begun anew. -/
def State.watchArmed (s : State) (p u : Nat) (a : Access) : Bool :=
  if s.on (F.DBG_WCFG_link.sel (watchIdx p u)) && u != 0 then
    match mget (fun _ => none) s.watchFirst (watchIdx p (u - 1)) with
    | some t => decide (t ≤ s.watchTime p a.step)
    | none => false
  else true

/-- A unit fires (R342): recorded, and acting by its action. -/
def State.watchFire (s : State) (p u : Nat) (a : Access) : State :=
  let n := watchIdx p u
  let s := s.setBit (F.DBG_WHIT_fired p) u true
  let s := s.put (F.DBG_WHITREC_turn.sel n) (s.get (F.TURN_COUNT_LO_value p))
  let s := s.put (F.DBG_WHITREC_step.sel n) (if a.backDoor then 0 else a.step)
  let s := match mget (fun _ => none) s.watchFirst n with
    | none => { s with watchFirst := mset (fun _ => none) s.watchFirst n (some (s.watchTime p a.step + 1)) }
    | some _ => s
  let act := s.get (F.DBG_WCFG_action.sel n)
  let s := if act % 2 == 1 && s.running p then
      let s := s.haltCause p 4
      if s.multi p then s.haltPulse else s
    else s
  if act / 2 == 1 && s.on (F.ACQ_P_CTRL_src_watch p) then s.capTrigger p 2 (if a.backDoor then 0 else a.step) (2 ^ u) else s

/-- An access of partition p is offered to its 16 watch units (R340 to R342). -/
def State.watch (s : State) (p : Nat) (a : Access) : State :=
  s.each (List.range 16) (fun s u =>
    let n := watchIdx p u
    if s.watchMatch n a && s.watchArmed p u a then
      let c := s.get (F.DBG_WCOUNT_count.sel n) + 1
      if max 1 (s.get (F.DBG_WCOUNT_target.sel n)) ≤ c then (s.put (F.DBG_WCOUNT_count.sel n) 0).watchFire p u a
      else s.put (F.DBG_WCOUNT_count.sel n) c
    else s)

end Sys2Proof.Machine
end

