-- ==== Sys2Proof/Machine/MemOps.lean ====
section
/-!
DEFINITION. Machine/MemOps.lean: mill memories, and the bindings, queues and slots of far ports (R136 to R159, R210).
-/
namespace Sys2Proof.Machine

open Sys2Proof

/-! ## Mill memory -/

/-- The bits [lsb + width − 1 : lsb] of a row replaced by the low bits of v. -/
def putBits (row v : BitVec 512) (lsb width : Nat) : BitVec 512 :=
  let mask : BitVec 512 := BitVec.ofNat 512 ((2 ^ width - 1) * 2 ^ lsb)
  (row &&& ~~~mask) ||| ((v <<< lsb) &&& mask)

/-- The bits [lsb + width − 1 : lsb] of a row. -/
def getBits (row : BitVec 512) (lsb width : Nat) : BitVec 512 := (row >>> lsb) &&& BitVec.ofNat 512 (2 ^ width - 1)

/-- Key of a row of mill memory, and of one of its 64-bit words. -/
def mmKey (m row : Nat) : Nat := m * 16384 + row
def mmWordKey (m row k : Nat) : Nat := mmKey m row * 8 + k

/-- The writes of this turn to a row that a read at step n sees. -/
def State.mmVisible (s : State) (m row n : Nat) : List MmWrite :=
  s.dm.writes.filter (fun w => w.mill == m && w.row == row && decide (w.vis ≤ n))

/-- A row of mill memory as a read at step n finds it (R139). -/
def State.mmRow (s : State) (m row n : Nat) : BitVec 512 :=
  (s.mmVisible m row n).foldr (fun w r => putBits r w.val w.lsb w.width) (mget (fun _ => 0) s.dm.mem (mmKey m row))

/-- A write covers the whole of 64-bit word k (R141). -/
def MmWrite.covers (w : MmWrite) (k : Nat) : Bool := decide (w.lsb ≤ 64 * k) && decide (64 * k + 64 ≤ w.lsb + w.width)

/-- What marks a word as uncorrectable (R141): 0 nothing, 2 + the step of this turn at which it was found so, 1 when that was
earlier. -/
def State.mmMark (s : State) (key : Nat) : Nat := mget (fun _ => 0) s.dm.ue key

/-- Mark a word, or clear it with 0. -/
def State.setMmMark (s : State) (key f : Nat) : State := { s with dm := { s.dm with ue := mset (fun _ => 0) s.dm.ue key f } }

/-- The mark of a word found uncorrectable at a step; 4095 stands for no turn in progress. -/
def mmFound (n : Nat) : Nat := if n = 4095 then 1 else n + 2

/-- A write makes a new code word of a word with a mark: it covers the word whole and came later (R141). -/
def MmWrite.cleans (w : MmWrite) (k mark : Nat) : Bool := w.covers k && decide (mark ≤ w.vis + 1)

/-- Word k of a row is uncorrectable for a read at step n: no later write has covered it whole (R141). -/
def State.mmBad (s : State) (m row k n : Nat) : Bool :=
  let f := s.mmMark (mmWordKey m row k)
  f != 0 && !(s.mmVisible m row n).any (fun w => w.cleans k f)

/-- Some word that holds bits [lsb + width − 1 : lsb] of the row is uncorrectable. -/
def State.mmBadBits (s : State) (m row lsb width n : Nat) : Bool :=
  (List.range 8).any (fun k => decide (lsb < 64 * k + 64) && decide (64 * k < lsb + width) && s.mmBad m row k n)

/-- Take the errors the decoders see on a row at step n (R141): corrected ones are counted, uncorrectable words marked. -/
def State.mmEcc (s : State) (m row n : Nat) (e : RowEcc) : State :=
  let s := s.bump F.MPORT_STATUS_mm_ce_count e.ce
  s.each (e.ue.filter (· < 8)) (fun s k => s.setMmMark (mmWordKey m row k) (mmFound n))

/-- A write of bits of a row: it joins the writes of the turn (R139). -/
def State.mmWrite (s : State) (w : MmWrite) : State := { s with dm := { s.dm with writes := w :: s.dm.writes } }

/-- One write enters the memory: its bits, and the code words it makes new are clean again (R141). -/
def State.mmCommit (s : State) (w : MmWrite) : State :=
  let k := mmKey w.mill w.row
  let s := { s with dm := { s.dm with mem := mset (fun _ => 0) s.dm.mem k (putBits (mget (fun _ => 0) s.dm.mem k) w.val w.lsb w.width) } }
  s.each ((List.range 8).filter (fun j => w.cleans j (s.mmMark (mmWordKey w.mill w.row j)))) (fun s j =>
    s.setMmMark (mmWordKey w.mill w.row j) 0)

/-- The turn's writes to the mills in `mine` enter the memories, oldest first. The marks that stay are those of an earlier turn. -/
def State.mmMerge (s : State) (mine : Nat → Bool) : State :=
  let ws := s.dm.writes.filter (fun w => mine w.mill)
  let s := ws.reverse.foldl State.mmCommit s
  let marks := mmap (fun _ => 0) (fun k x => if mine (k / 131072) then min x 1 else x) s.dm.ue
  { s with dm := { s.dm with writes := s.dm.writes.filter (fun w => !mine w.mill), ue := marks } }

/-- Descriptor d of mill m. -/
def State.desc (s : State) (m d : Nat) : Desc := mget (fun _ => {}) s.dm.descs (m * 16 + d)

/-- Where entry i of a descriptor lies (R136): its row and lowest bit; none when the descriptor is not defined or the index
is out of range (R138). -/
def Desc.place (d : Desc) (i : Nat) : Option (Nat × Nat) :=
  let e := 512 / d.width
  if d.valid && decide (i < d.rows * e) then some (d.base + i / e, i % e * d.width) else none

/-- Count an access out of range (R138, R162). -/
def State.rangeCount (s : State) (mm : Bool) (source : Nat) : State :=
  let s := if s.get F.MPORT_RANGE_count = 0 then (s.flag F.MPORT_RANGE_mm mm).put F.MPORT_RANGE_source source else s
  s.bump F.MPORT_RANGE_count 1

/-- Record the first design-memory error (R162). -/
def State.mportErr (s : State) (kind status slot source : Nat) : State :=
  if s.on F.MPORT_ERR_flag then s
  else ((((s.put F.MPORT_ERR_flag 1).put F.MPORT_ERR_kind kind).put F.MPORT_ERR_status status).put F.MPORT_ERR_slot slot).put
    F.MPORT_ERR_source source

/-! ## Far ports -/

/-- Far port `id` = 2m + f, and its binding fields. -/
def State.farPort (s : State) (id : Nat) : FarPort := mget (fun _ => {}) s.dm.ports id
def State.setFarPort (s : State) (id : Nat) (x : FarPort) : State :=
  { s with dm := { s.dm with ports := mset (fun _ => {}) s.dm.ports id x } }
def State.fpKind (s : State) (id : Nat) : Nat := s.get (F.MPORT_BIND_kind.sel id)
def State.fpWidth (s : State) (id : Nat) : Nat := 64 * (s.get (F.MPORT_BIND_width.sel id) + 1)
def State.fpBase (s : State) (id : Nat) : Nat := s.get (F.MPORT_BASE_value.sel id)
def State.fpSize (s : State) (id : Nat) : Nat := s.get (F.MPORT_SIZE_value.sel id)
def State.fpInter (s : State) (id : Nat) : Bool := s.on (F.MPORT_BIND_mode.sel id)

/-- The mill of a far port, and the partition that owns it. -/
def State.fpPart (s : State) (id : Nat) : Option Nat := s.millOwner (id / 2)

/-- Stride s in bytes: the power of two from 8 to 64 that is not less than w ÷ 8 (R144). -/
def State.fpStride (s : State) (id : Nat) : Nat :=
  let b := s.fpWidth id / 8
  if b ≤ 8 then 8 else if b ≤ 16 then 16 else if b ≤ 32 then 32 else 64

/-- Slot j of a far port. -/
def State.slot (s : State) (id j : Nat) : RSlot := mget (fun _ => {}) (s.farPort id).slots j
def State.setSlot (s : State) (id j : Nat) (x : RSlot) : State :=
  let f := s.farPort id
  s.setFarPort id { f with slots := mset (fun _ => {}) f.slots j x }

/-- The lowest-numbered free slot (R146). -/
def State.freeSlot (s : State) (id : Nat) : Option Nat := (List.range 32).find? (fun j => !(s.slot id j).busy)

/-- The slot that a WAIT of a stone consumes: the read its BP issued at the step (R47). -/
def State.slotOf (s : State) (id st bp step : Nat) : Option Nat :=
  (List.range 32).find? (fun j =>
    let x := s.slot id j
    x.busy && !x.owed && x.stone == st && x.bp == bp && x.step == step)

/-- Number of channels of a group code. -/
def groupSize (g : Nat) : Nat := match g with | 0 => 1 | 1 => 4 | 2 => 8 | _ => 16

/-- log2 of it. -/
def groupLog (g : Nat) : Nat := match g with | 0 => 0 | 1 => 2 | 2 => 3 | _ => 4

/-- Group address to channel and channel address (R210): first channel, log2 of the group's size. -/
def groupMap (first k a : Nat) : Nat × Nat :=
  if k = 0 then (first, a)
  else (first + ((a / 2 ^ 8 % 2 ^ k) ^^^ (a / 2 ^ 20 % 2 ^ k)), a / 2 ^ (8 + k) * 2 ^ 8 + a % 2 ^ 8)

/-- The channel and the address in it of byte a of a port's address space. -/
def State.fpMap (s : State) (id a : Nat) : Nat × Nat :=
  groupMap (s.get (F.MPORT_BIND_channel.sel id)) (groupLog (if s.fpInter id then s.get (F.MPORT_BIND_group.sel id) else 0)) a

/-- The router that serves a channel address: bit 6 chooses the subchannel (R207). -/
def chanRouter (c a : Nat) : Nat := millAt (c / 4) (2 * (c % 4) + a / 64 % 2) 2

/-- Where a request of a far port goes: the router of its X endpoint and the address of entry i. A sluice or host window is
reached in the port's own quadrant; the address of a sluice entry is 16 times its index, of a host entry haddr + i × s (R146, R272,
R290; log entry 10). -/
def State.fpDest (s : State) (id i : Nat) (hostAddr : Nat → Nat) : Nat × Nat :=
  match s.fpKind id with
  | 1 =>
    let (c, a) := s.fpMap id (s.fpBase id * 65536 + i * s.fpStride id)
    (chanRouter c a, a)
  | 2 => (millAt (id / 128) 1 5, 16 * i)
  | _ => (millAt (id / 128) 2 5, (hostAddr (s.fpBase id) + i * s.fpStride id) % 2 ^ 48)

/-- A far-port index is out of range (R144, R272): a sluice window has no range. -/
def State.fpOut (s : State) (id i : Nat) (hostSize : Nat → Nat) : Bool :=
  match s.fpKind id with
  | 1 => decide (s.fpSize id * 65536 / s.fpStride id ≤ i)
  | 2 => false
  | _ => decide (0 < hostSize (s.fpBase id)) && decide (hostSize (s.fpBase id) * 4096 / s.fpStride id ≤ i)

/-- The stamp of a request issued at partition cycle c (R146). -/
def stampOf (c : Nat) : Nat := c % 128

/-- A far port has completed a read with an error (R157, R162). -/
def State.fpFail (s : State) (id : Nat) : State := s.setBit (F.MPORT_FAIL_ports (id / 32)) (id % 32) true

/-- Free a slot. -/
def State.freeRSlot (s : State) (id j : Nat) : State := s.setSlot id j {}

/-- The request queue is full (R148): the read, if it is one, is complete with zero data and status 0; the event; the turn. -/
def State.queueFull (s : State) (p id n slot : Nat) : State :=
  ((s.mportErr 3 0 slot id).raise 0x3003 p [id, n]).faultTurn p false

/-- The bytes of a value, s of them, placed in 16-byte units from byte offset o of the first. -/
def unitsOf (o s : Nat) (v : BitVec 512) : List Unit128 :=
  if s < 16 then [BitVec.ofNat 128 (v.toNat % 2 ^ (8 * s) * 2 ^ (8 * o))]
  else (List.range (s / 16)).map (fun u => BitVec.ofNat 128 (v.toNat / 2 ^ (128 * u)))

/-- The value that units hold from byte offset o on. -/
def valueOf (o : Nat) (us : List Unit128) : BitVec 512 :=
  BitVec.ofNat 512 ((us.foldr (fun u acc => u.toNat + 2 ^ 128 * acc) 0) / 2 ^ (8 * o))

/-- The bytes of a list of units. -/
def unitBytes (us : List Unit128) : List Byte := us.flatMap (fun u => natLe 16 u.toNat)

/-- Units made of bytes, 16 to a unit. -/
def bytesUnits : Nat → List Byte → List Unit128
  | 0, _ => []
  | n + 1, bs => BitVec.ofNat 128 (leNat (bs.take 16)) :: bytesUnits n (bs.drop 16)

/-- The response of the read in a slot arrives at partition cycle `cycle`: its round trip, and whether it is slow (R149, R150, R162). -/
def State.slotTimed (s : State) (id j cycle : Nat) : State :=
  let t := s.get (F.MPORT_TARGET_t.sel id)
  let lat := cycle - (s.slot id j).cycle
  let s := s.put (F.MPORT_PSTAT_maxlat.sel id) (min 4095 (max lat (s.get (F.MPORT_PSTAT_maxlat.sel id))))
  if t ≠ 0 ∧ t < lat then s.setBit (F.MPORT_SLOW_ports (id / 32)) (id % 32) true else s

/-- The read in a slot has got its response (R149, R157, R158). -/
def State.slotData (s : State) (id j : Nat) (data : BitVec 512) (ok : Bool) (cycle : Nat) : State :=
  let s := s.slotTimed id j cycle
  s.setSlot id j { s.slot id j with done := true, ok := ok, data := data }

/-- A read completes with an error (R157): a response other than OK (kind 2), or the port time-out (kind 1). -/
def State.slotError (s : State) (id j kind status : Nat) (data : BitVec 512) : State :=
  let x := s.slot id j
  let s := s.setSlot id j { x with done := true, ok := false, data := data }
  let s := (s.mportErr kind status j id).fpFail id
  let p := s.fpPart id
  let s := if kind = 1 then s.raise 0x3006 (ownerField p) [id, j, x.step] else s.raise 0x3005 (ownerField p) [id, j, status, x.step]
  s.faultOwner p false

/-- A read is completed early (R74, R158): with its data in the slot the slot is free, otherwise it owes its response. -/
def State.slotEarly (s : State) (id j : Nat) : State :=
  let x := s.slot id j
  let s := s.fpFail id
  if x.done then s.freeRSlot id j else s.setSlot id j { x with owed := true }

/-- A design access enters a request queue at the end of its step (R146, R148). The queue takes 32. -/
def State.fpEnqueue (s : State) (id : Nat) (r : FpReq) : Option State :=
  let f := s.farPort id
  if f.reqs.length < 32 then some (s.setFarPort id { f with reqs := f.reqs ++ [r] }) else none

/-- Run-ahead (R154): a prefetch of the line after a read's line, unless that line lies outside the window. -/
def State.prefetchAfter (s : State) (id i stamp : Nat) : State :=
  if s.fpKind id = 1 ∧ s.on (F.MPORT_BIND_stream.sel id) then
    let a := s.fpBase id * 65536 + i * s.fpStride id
    let line := (a / 64 + 1) * 64
    if line < (s.fpBase id + s.fpSize id) * 65536 then
      let s := s.bump F.MPORT_PFISSUE_count 1
      let f := s.farPort id
      if f.prefetch.length < 8 then
        s.setFarPort id { f with prefetch := f.prefetch ++ [{ write := false, addr := line, len := 4, tail := 0, urg := 0, stamp := stamp, slot := 0 }] }
      else s.bump F.MPORT_PFDROP_count 1
    else s
  else s

end Sys2Proof.Machine
end

