-- ==== Sys2Proof/Machine/RouteOps.lean ====
section
/-!
DEFINITION. Machine/RouteOps.lean: routers: routes, virtual channels, buffers and arbitration (R96, R97, R100), and the isolation of
targets (R102, R158, R159).
-/
namespace Sys2Proof.Machine

open Sys2Proof

/-! ## Routes -/

/-- Output port toward a destination (R96): 0 N, 1 E, 2 S, 3 W, 4 X, 5 A. -/
def routePort (m : Nat) (h : Unit128) : Nat :=
  let q := quadOfMill m
  let toCol (c : Nat) : Option Nat := if colOfMill m < c then some 1 else if c < colOfMill m then some 3 else none
  if hdq h = q then
    match toCol (hdcol h) with
    | some o => o
    | none => if rowOfMill m < hdrow h then 2 else if hdrow h < rowOfMill m then 0 else if hdport h = 8 then 4 else 5
  else (toCol (bridgeCol q (hdq h))).getD 4

/-- Virtual channel of a packet at router m (R97): 0 request before the bridge, 1 request after it, 2 and 3 response. -/
def virtualChannel (m : Nat) (h : Unit128) : Nat := (if hdrResponse h then 2 else 0) + (if hdq h = quadOfMill m then 1 else 0)

/-- The router and output that feed input `input` of router m (R83, R84); none where an initiator's interface does. -/
def feeder (m input : Nat) : Option (Nat × Nat) :=
  if input = 4 then
    match xEnd m with
    | .bridge q => some (millAt q (rowOfMill m) (bridgeCol q (quadOfMill m)), 4)
    | _ => none
  else (meshNeighbour m input).map (fun m' => (m', opposite input))

/-! ## Buffers and arbitration -/

/-- Units of a packet. -/
def Pkt.units (pk : Pkt) : Nat := 1 + pk.data.length

/-- Credit for a whole packet is at hand (R85, R90): the buffer of the virtual channel holds 33 units and more (log entry 67). -/
def State.roomAt (s : State) (m input : Nat) (pk : Pkt) : Bool :=
  let vc := virtualChannel m pk.hdr
  let held := (s.race.bufs.filter (fun b => b.router == m && b.input == input && b.vc == vc)).foldl (fun n b => n + b.pkt.units) 0
  decide (held + pk.units ≤ 33 + Config.bufSpace)

/-- The oldest packet of its input and virtual channel, the only one that may leave (R97). -/
def State.atHead (s : State) (b : BufPkt) : Bool :=
  s.race.bufs.find? (fun x => x.router == b.router && x.input == b.input && x.vc == b.vc) == some b

/-- What decides between packets at an output that served input `last` last (R100): urgency, then responses before requests, then the
inputs in turn. The least number wins. -/
def BufPkt.rank (last : Nat) (b : BufPkt) : Nat :=
  (7 - hurg b.pkt.hdr) * 16 + (if hdrResponse b.pkt.hdr then 0 else 8) + (b.input + 5 - last) % 6

/-- The packet that output o of router m sends next, of those that find room where they go (R90, R100); of two alike the one that came
first. A packet moves whole, so that one whose header has gone keeps its virtual channel (log entry 67). -/
def State.granted (s : State) (m o : Nat) (room : Pkt → Bool) : Option BufPkt :=
  if s.outFree m o then
    let last := mget (fun _ => 5) s.race.turnOf (m * 6 + o)
    (s.race.bufs.filter (fun b => b.router == m && b.output == o && s.atHead b && room b.pkt)).foldl (fun best b =>
      match best with
      | some a => if b.rank last < a.rank last then some b else some a
      | none => some b) none
  else none

/-- The longest wait of a header in one router (R107). -/
def State.peakWait (s : State) (router waited : Nat) : State :=
  if s.get F.RACE_PEAKWAIT_cycles < min 65535 waited then
    (s.put F.RACE_PEAKWAIT_cycles (min 65535 waited)).put F.RACE_PEAKWAIT_router router
  else s

/-- A packet leaves the router that held it, where its header waited. -/
def State.departs (s : State) (b : BufPkt) (waited : Nat) : State :=
  let s := s.peakWait b.router waited
  { s with race := { s.race with bufs := s.race.bufs.erase b, turnOf := mset (fun _ => 5) s.race.turnOf (b.router * 6 + b.output) b.input } }

/-- The router at which a packet leaves the race, and the output (R96, R101). -/
def endRouter (h : Unit128) : Nat := hmill h
def endPort (h : Unit128) : Nat := if hdport h = 8 then 4 else 5

/-- A packet may leave the race now: nothing it must follow is on its way (R98), and if routers hold it, it stands at the last one and
its output takes it. `room`: whether a packet's target takes it. -/
def State.mayLand (s : State) (h : Unit128) (room : Pkt → Bool) : Bool :=
  s.inOrder h &&
  match s.race.bufs.find? (fun b => samePacket b.pkt.hdr h) with
  | some b => b.router == endRouter h && b.output == endPort h && s.granted b.router b.output room == some b
  | none => !s.race.flight.any (fun f => samePacket f.hdr h)

/-- The packet as it leaves the race: with the urgency and the poison it has by then (R99, R104). -/
def State.asLanded (s : State) (pk : Pkt) : Pkt :=
  match s.race.bufs.find? (fun b => samePacket b.pkt.hdr pk.hdr) with
  | some b => b.pkt
  | none => pk

/-- It leaves the last router and the race. -/
def State.leaveRace (s : State) (h : Unit128) (waited : Nat) : State :=
  let s := match s.race.bufs.find? (fun b => samePacket b.pkt.hdr h) with
    | some b => s.departs b waited
    | none => s
  s.landed h

/-- A malformed header is dropped and counted (R104). -/
def State.dropMalformed (s : State) : State := s.bump F.RACE_DROP_malformed 1

/-- A header found malformed at an input is dropped with its data (R104); 5 names the target (log entry 67). -/
def State.malformed (s : State) (router input : Nat) (h : Unit128) : State := s.dropMalformed.raise 0x4004 0xFF [router, input, h.toNat / 2 ^ 96]

/-- A dropped packet never arrives. The access of an engine that waits for it, or for its response, ends with its time-out (R105). -/
def State.losePacket (s : State) (h : Unit128) : State :=
  let s := s.landed h
  if 0x200 ≤ hinit h ∧ hinit h ≠ 0x220 ∧ (hdrRequest h || hdrResponse h) then { s with race := { s.race with lost := hinit h :: s.race.lost } }
  else s

/-! ## Isolation -/

/-- Key of a target. -/
def tkey (t : RaceTarget) : Nat := targetKey t.xep t.mill

/-- The target exists (R84, R102): an X port with nothing attached is none, and neither is a mill or a spoke of a disabled quadrant. -/
def State.targetExists (s : State) (t : RaceTarget) : Bool :=
  if t.xep then
    match xEnd t.mill with
    | .none => false
    | .spoke _ => s.quadEnabled (quadOfMill t.mill)
    | _ => true
  else s.quadEnabled (quadOfMill t.mill)

/-- The owner an event about a target names (R458). -/
def State.targetOwner (s : State) (t : RaceTarget) : Nat := if t.xep then 0xFF else ownerField (s.millOwner t.mill)

/-- Slots that owe a response of an isolated target become free (R158). -/
def State.freeOwed (s : State) (k : Nat) : State :=
  s.each (s.dm.ports.map (·.1)) (fun s id => s.each (List.range 32) (fun s j =>
    let x := s.slot id j
    if x.busy && x.owed && x.target == k then s.freeRSlot id j else s))

/-- A request reaches an isolated target: its router answers or drops it (R95, R102). One of a design marks the turn unless the turn it
was issued in has been marked for it (R159, R459). -/
def State.absorb (s : State) (pk : Pkt) (waited : Nat) : State :=
  let h := pk.hdr
  let marked := s.race.flight.any (fun f => samePacket f.hdr h && f.marked)
  let s := s.leaveRace h waited
  let s := if hdrRequest h then (s.answerDead h).bump F.RACE_DEADCNT_absorbed_reads 1 else s.bump F.RACE_DEADCNT_dropped_writes 1
  if hinit h < 0x200 && !hpf h && !marked then s.faultOwner (s.fpPart (hinit h)) false else s

/-- Isolate a target (R102): what waits for it at its router is absorbed, requests it has not answered are answered in its place, and the
event is raised once. -/
def State.isolateNow (s : State) (t : RaceTarget) (cause : Nat) : State :=
  if s.isolated (tkey t) || !s.targetExists t then s
  else
    let s := s.setIsolated (tkey t) true
    let s := s.each (s.race.reqs.filter (fun r => htarget r.hdr == tkey t && r.delivered && !r.answered)) (fun s r =>
      (s.answerDead r.hdr).bump F.RACE_DEADCNT_absorbed_reads 1)
    let s := s.each (s.race.bufs.filter (fun b => b.router == t.mill.val && b.output == endPort b.pkt.hdr && htarget b.pkt.hdr == tkey t && !hdrResponse b.pkt.hdr))
      (fun s b => s.absorb b.pkt 0)
    let s := s.freeOwed (tkey t)
    (s.raise 0x4001 (s.targetOwner t) [if t.xep then 1 else 0, t.mill, cause]).settleMis

end Sys2Proof.Machine
end

