-- ==== Sys2Proof/Machine/DramOps.lean ====
section
/-!
DEFINITION. Machine/DramOps.lean: DRAM contents, and the queues of the channel controllers (R151 to R154, R205 to R217, R219, R457).
-/
namespace Sys2Proof.Machine

open Sys2Proof

def State.chan (s : State) (c : Nat) : Channel := mget (fun _ => {}) s.dram.chans c
def State.setChan (s : State) (c : Nat) (x : Channel) : State :=
  { s with dram := { s.dram with chans := mset (fun _ => {}) s.dram.chans c x } }

/-- What a byte of DRAM that nothing has written reads as (log entry 5). -/
def dramByte (_ : Nat) : Byte := 0

/-- Key of byte a of channel c. -/
def dramKey (c a : Nat) : Nat := c * 2 ^ 38 + a

/-- n bytes of channel c from address a, as the writes admitted so far leave them (R212). -/
def State.dramRead (s : State) (c a n : Nat) : List Byte := mbytes dramByte s.dram.mem (dramKey c a) n

def lineKey (c line : Nat) : Nat := c * 2 ^ 32 + line
def State.lineBad (s : State) (c line : Nat) : Bool := mget (fun _ => false) s.dram.ue (lineKey c line)
def State.setLineBad (s : State) (c line : Nat) (b : Bool) : State :=
  { s with dram := { s.dram with ue := mset (fun _ => false) s.dram.ue (lineKey c line) b } }

/-- The lines that n bytes from address a touch. -/
def linesOf (a n : Nat) : List Nat := if n = 0 then [] else (List.range ((a + n - 1) / 64 - a / 64 + 1)).map (a / 64 + ·)

/-- Capacity of a channel in bytes: slices of 16 GiB (R208). -/
def State.chanSize (s : State) (c : Nat) : Nat := s.get (F.DDRC_POP_slices c) * 2 ^ 34

/-- Owner code of slice i of a channel: 0 the shell, p + 1 partition p (R208). -/
def State.sliceOwner (s : State) (c i : Nat) : Nat :=
  (if i < 8 then (s.reg (R.DDRC_OWN_LO c)).toNat / 16 ^ i else (s.reg (R.DDRC_OWN_HI c)).toNat / 16 ^ (i - 8)) % 16

/-- DDRC_STATUS.state of a channel. -/
def State.cstate (s : State) (c : Nat) : Nat := s.get (F.DDRC_STATUS_state c)

/-- The channel takes requests: ready, or in self-refresh, and enabled (R205, R217, R222). -/
def State.chanServes (s : State) (c : Nat) : Bool := (s.cstate c == 4 || s.cstate c == 7) && s.on (F.DDRC_CTRL_en c)

/-- Why a request at channel address a by context x is turned away (R205, R208): its status, or none. -/
def State.dramDenies (s : State) (c a ctx : Nat) : Option Nat :=
  if !s.chanServes c then some 5
  else if s.chanSize c ≤ a then some 5
  else if ctx < 4 ∧ s.sliceOwner c (a / 2 ^ 34) ≠ ctx + 1 then some 3
  else none

/-- Every populated channel has one module, rated for DDR5-6400 (R204). -/
def State.allFast (s : State) : Bool :=
  (List.range 16).all (fun c => s.get (F.DDRC_POP_dimms c) == 0 || (s.get (F.DDRC_POP_dimms c) == 1 && decide (6400 ≤ (s.chan c).rated)))

/-! ## Within a channel (R211) -/

/-- Subchannel of a channel address: 0 A, 1 B. -/
def subOf (a : Nat) : Nat := a / 64 % 2

/-- Bank group and bank of a channel address, and the burst within its row. -/
def bankGroupOf (a : Nat) : Nat := a / 2 ^ 7 % 8
def bankOf (a : Nat) : Nat := a / 2 ^ 10 % 4
def burstOf (a : Nat) : Nat := a / 2 ^ 12 % 128

/-- Logical rank and row of a channel address. -/
def State.rankOf (s : State) (c a : Nat) : Nat := a / 2 ^ 19 % 2 ^ s.get (F.DDRC_POP_rho c)
def State.dramRow (s : State) (c a : Nat) : Nat := a / 2 ^ (19 + s.get (F.DDRC_POP_rho c))

/-- Physical rank of a logical rank: its low bits are the chip ID of a 3DS stack. -/
def State.physRank (s : State) (c r : Nat) : Nat := r / 2 ^ s.get (F.DDRC_POP_height c)

/-- A bank of a channel as one number: subchannel, logical rank, bank group and bank. -/
def State.bankKey (s : State) (c a : Nat) : Nat := ((subOf a * 16 + s.rankOf c a) * 8 + bankGroupOf a) * 4 + bankOf a

/-- The bank of an address has the row of the address open (R214). -/
def State.rowHit (s : State) (c a : Nat) : Bool := mget (fun _ => 0) (s.chan c).rows (s.bankKey c a) == s.dramRow c a + 1

/-- An access to an address opens its row; a DDRC_PAGE.idle of 0 closes it again (R214). -/
def State.openRow (s : State) (c a : Nat) : State :=
  let x := s.chan c
  let open' := if s.get (F.DDRC_PAGE_idle c) % 256 = 0 then 0 else s.dramRow c a + 1
  s.setChan c { x with rows := mset (fun _ => 0) x.rows (s.bankKey c a) open' }

/-- The rows of a physical rank are closed: a refresh (R214). -/
def State.closeRank (s : State) (c rank : Nat) : State :=
  let x := s.chan c
  s.setChan c { x with rows := mdrop (fun k => s.physRank c (k / 32 % 16) == rank) x.rows }

/-! ## Deadlines and urgency (R213) -/

/-- The partition cycle a partition stands at, as far as its commands have shown. -/
def State.cycleNow (s : State) (p : Nat) : Nat := s.cycleOf p (s.part p).step

/-- The deadline of a read: arrival + (T − u) for a design read of a far port with T ≠ 0. -/
def State.deadline (s : State) (r : DramReq) : Option Nat :=
  let id := hinit r.pk.hdr
  let t := s.get (F.MPORT_TARGET_t.sel id)
  if id < 0x200 ∧ hpf r.pk.hdr = false ∧ hcmd r.pk.hdr = 1 ∧ t ≠ 0 then some (r.arrival + (t - s.get (F.MPORT_TARGET_u.sel id))) else none

/-- The level that a remaining time asks for: 7 when none is left, else the highest of 6 to 3 whose threshold covers it. -/
def State.levelOf (s : State) (c left : Nat) : Nat :=
  let hits (f : Fld) : Bool := s.get f != 0 && decide (left ≤ s.get f)
  if left = 0 then 7
  else if hits (F.DDRC_URG_lvl6 c) then 6
  else if hits (F.DDRC_URG_lvl5 c) then 5
  else if hits (F.DDRC_URG_lvl4 c) then 4
  else if hits (F.DDRC_URG_lvl3 c) then 3
  else 0

/-- The effective urgency of a request, its partition standing at cycle `now`. -/
def State.effUrg (s : State) (c now : Nat) (r : DramReq) : Nat :=
  max (hurg r.pk.hdr) (match s.deadline r with | some d => s.levelOf c (d - now) | none => 0)

/-- The same with a partition's cycle taken from `now` where it names one. -/
def State.urgAt (s : State) (c : Nat) (now : List Nat) (r : DramReq) : Nat :=
  let p := hctx r.pk.hdr
  s.effUrg c (now.getD p (s.cycleNow p)) r

/-! ## Queues (R212, R214) -/

/-- Reads that wait for a subchannel: prefetches too. -/
def Channel.readsOf (x : Channel) (sub : Nat) : List DramReq := x.reads.filter (fun r => subOf (haddr r.pk.hdr) == sub)

/-- Requests before their admission that will need an entry of a subchannel's read queue, or of its write queue. -/
def Channel.comingOf (x : Channel) (sub : Nat) (reads : Bool) : Nat :=
  (x.waiting.filter (fun r => subOf (haddr r.pk.hdr) == sub && (hcmd r.pk.hdr == 1) == reads)).length

/-- A queue takes the request (R212): 128 reads and 64 writes a subchannel; a write merges into one of its line. -/
def Channel.room (x : Channel) (h : Unit128) : Bool :=
  let sub := subOf (haddr h)
  if hcmd h = 1 then decide ((x.readsOf sub).length + x.comingOf sub true < 128)
  else
    x.writes.any (fun w => w.line == haddr h / 64) ||
    decide ((x.writes.filter (fun w => w.line % 2 == sub)).length + x.comingOf sub false < 64)

/-- The bytes of line l that n bytes from address a cover. -/
def maskOf (a n l : Nat) : BitVec 64 :=
  let lo := max a (64 * l)
  let hi := min (a + n) (64 * l + 64)
  BitVec.ofNat 64 ((2 ^ (hi - lo) - 1) * 2 ^ (lo - 64 * l))

/-- A write of line l enters the write queue, or merges into one that waits there (R212). A line whose new bytes are whole needs no
read: it is clean (R457). `ue`: the read of its read-modify-write will find the line uncorrectable. -/
def State.queueLine (s : State) (c l : Nat) (mask : BitVec 64) (urg : Nat) (ue : Bool) : State :=
  let x := s.chan c
  let old : QWrite := (x.writes.find? (fun w => w.line == l)).getD ⟨l, 0, 0, false⟩
  let w : QWrite := ⟨l, old.mask ||| mask, max old.urg urg, old.ue || ue⟩
  let ws := if x.writes.contains old then x.writes.map (fun v => if v.line == l then w else v) else x.writes ++ [w]
  let s := s.setChan c { x with writes := ws }
  if w.mask = BitVec.allOnes 64 then s.setLineBad c l false else s

/-- Write the bytes of a list at address a of channel c (R151, R212): every read admitted later sees them, the lines enter the write
queue, and run-ahead entries of the lines are discarded (R154). -/
def State.dramWrite (s : State) (c a : Nat) (bs : List Byte) (urg : Nat) (ue : List Nat) : State :=
  let lines := linesOf a bs.length
  let s := { s with dram := { s.dram with mem := mputBytes dramByte s.dram.mem (dramKey c a) bs } }
  let s := s.each lines (fun s l => s.queueLine c l (maskOf a bs.length l) urg (ue.contains l))
  let x := s.chan c
  let gone (port line : Nat) : Bool := lines.contains line && x.ahead.any (fun r => r.port == port && r.line == line)
  let n := (x.ahead.filter (fun r => lines.contains r.line)).length
  (s.setChan c { x with
    ahead := x.ahead.filter (fun r => !lines.contains r.line),
    reads := x.reads.filter (fun r => !(hpf r.pk.hdr && gone (hinit r.pk.hdr) (haddr r.pk.hdr / 64))) }).bump F.MPORT_PFDISC_count n

/-- A queued write goes to the DRAM: a line covered in part is read and merged, and is marked when that read is uncorrectable (R457). -/
def State.drainWrite (s : State) (c : Nat) (w : QWrite) : State :=
  let x := s.chan c
  let s := (s.setChan c { x with writes := x.writes.erase w }).openRow c (64 * w.line)
  if w.ue && w.mask != BitVec.allOnes 64 then s.setLineBad c w.line true else s

/-- Write drain of a subchannel (R214): it starts at 48 entries, or when no read waits at urgency 3 or more, and leaves 16; a read at
urgency 6 ends it. It is taken at the commands that change a queue (log entry 69). -/
def State.drainSub (s : State) (c sub : Nat) (now : List Nat) : State :=
  let x := s.chan c
  let ws := x.writes.filter (fun w => w.line % 2 == sub)
  let rs := x.readsOf sub
  if rs.any (fun r => 6 ≤ s.urgAt c now r) then s
  else if 48 ≤ ws.length || !rs.any (fun r => 3 ≤ s.urgAt c now r) then s.each (ws.take (ws.length - 16)) (fun s w => s.drainWrite c w)
  else s

/-- Write drain of a channel in service. -/
def State.drainWrites (s : State) (c : Nat) (now : List Nat) : State :=
  if s.cstate c = 4 then (s.drainSub c 0 now).drainSub c 1 now else s

/-- The byte runs a write packet stores (R94): one run per data unit, poisoned units left out (R104). -/
def writeRuns (pk : Pkt) : List (Nat × List Byte) :=
  let a := haddr pk.hdr
  let base := a / 16 * 16
  let last := base + 16 * hlen pk.hdr - htail pk.hdr
  (List.range pk.data.length).filterMap (fun u =>
    if pk.poison.getD u false then none
    else
      let lo := max a (base + 16 * u)
      let hi := min last (base + 16 * u + 16)
      if lo < hi then some (lo, ((natLe 16 (pk.data.getD u 0).toNat).drop (lo - (base + 16 * u))).take (hi - lo)) else none)

/-- Join runs that follow one another, so that a line covered by several units is covered whole. -/
def joinRuns : List (Nat × List Byte) → List (Nat × List Byte)
  | [] => []
  | (a, bs) :: t =>
    match joinRuns t with
    | [] => [(a, bs)]
    | (a', bs') :: t' => if a + bs.length = a' then (a, bs ++ bs') :: t' else (a, bs) :: (a', bs') :: t'

/-- Poisoned units of a write are not written and are counted (R104). -/
def State.countPoison (s : State) (pk : Pkt) : State := s.bump F.RACE_DROP_poisoned (pk.poison.filter id).length

/-- A request for the rank of an address takes it out of power-down (R217). -/
def State.rankUp (s : State) (c a : Nat) : State :=
  let x := s.chan c
  s.setChan c { x with powerDown := mset (fun _ => false) x.powerDown (s.physRank c (s.rankOf c a)) false }

/-- A write is admitted (R151, R212): it is seen by every read admitted later. -/
def State.dramAdmitWrite (s : State) (c : Nat) (r : DramReq) : State :=
  let h := r.pk.hdr
  let s := (s.countPoison r.pk).each (joinRuns (writeRuns r.pk)) (fun s w => s.dramWrite c w.1 w.2 (hurg h) r.ue)
  let s := s.rankUp c (haddr h)
  if hcmd h = 3 then s.answer h 0 [] else s

/-- A prefetch is admitted (R154): its line becomes a run-ahead entry of the port and is queued to be read; with 64 held it replaces the
port's oldest, or is dropped. -/
def State.admitPrefetch (s : State) (c : Nat) (r : DramReq) : State :=
  let h := r.pk.hdr
  let line := haddr h / 64
  let x := s.chan c
  let e : RunAhead := ⟨hinit h, line, htag h / 32, s.dramRead c (64 * line) 64⟩
  let put (ahead : List RunAhead) (reads : List DramReq) : State := (s.setChan c { x with ahead := ahead ++ [e], reads := reads ++ [r] }).rankUp c (haddr h)
  if x.ahead.length < 64 then put x.ahead x.reads
  else match x.ahead.find? (fun r => r.port == hinit h) with
    | some old => put (x.ahead.erase old) (x.reads.filter (fun q => !(hpf q.pk.hdr && hinit q.pk.hdr == old.port && haddr q.pk.hdr / 64 == old.line)))
    | none => s.bump F.MPORT_PFDROP_count 1

/-- The prefetch of a port's line is still to be read. -/
def Channel.fetching (x : Channel) (port line : Nat) : Bool :=
  x.reads.any (fun q => hpf q.pk.hdr && hinit q.pk.hdr == port && haddr q.pk.hdr / 64 == line)

/-- A read is admitted (R151, R154, R212): it takes its data as the writes admitted before it leave them. A run-ahead entry of its port
and line serves it, at once when the line has been read. -/
def State.dramAdmitRead (s : State) (c : Nat) (r : DramReq) : State :=
  let h := r.pk.hdr
  if hpf h then s.admitPrefetch c r
  else
    let a := haddr h
    let x := s.chan c
    match (if hinit h < 0x200 then x.ahead.find? (fun e => e.port == hinit h && e.line == a / 64) else none) with
    | some e =>
      let s := (s.setChan c { x with ahead := x.ahead.erase e }).bump F.MPORT_PFUSE_count 1
      if x.fetching (hinit h) (a / 64) then
        s.setChan c { s.chan c with reads := (s.chan c).reads ++ [{ r with data := (e.data.drop (a % 64)).take (16 * hlen h), ahead := true }] }
      else s.answer h 0 (bytesUnits (hlen h) (e.data.drop (a % 64)))
    | none => (s.setChan c { x with reads := x.reads ++ [{ r with data := s.dramRead c a (16 * hlen h) }] }).rankUp c a

/-- Admit a request. -/
def State.dramAdmit (s : State) (c : Nat) (r : DramReq) (now : List Nat) : State :=
  (if hcmd r.pk.hdr = 1 then s.dramAdmitRead c r else s.dramAdmitWrite c r).drainWrites c now

/-- The issue cycle a stamp names, at cycle now (R150). -/
def issueCycle (now stamp : Nat) : Nat := now - (now + 128 - stamp % 128) % 128

/-- The partitions' cycles with that of partition p standing at `now`. -/
def State.cyclesWith (s : State) (p now : Nat) : List Nat := (List.range 4).map (fun q => if q = p then now else s.cycleNow q)

/-- A request reaches its channel (R205, R208, R212, R152, R153). Those of Interleaved ports are admitted at c + 64, and one that arrives
later than that is late; all others are admitted on arrival. In self-refresh they wait, and the group starts to wake (R217, R406). A
channel in fault answers nothing (R221). `ue`: lines whose reads will be found uncorrectable. -/
def State.dramRequest (s : State) (c : Nat) (pk : Pkt) (now : Nat) (ue : List Nat) : State :=
  let h := pk.hdr
  if s.cstate c = 6 then s
  else match s.dramDenies c (haddr h) (hctx h) with
    | some st => if hcmd h = 2 then s else s.answer h st []
    | none =>
      let id := hinit h
      let s := if s.cstate c = 7 then s.wakeFor (36 + c / 4) else s
      let wait (s : State) (r : DramReq) : State := let x := s.chan c; s.setChan c { x with waiting := x.waiting ++ [r] }
      if id < 0x200 ∧ s.fpInter id = true ∧ hpf h = false then
        let stamp := htag h / 32
        let at_ := issueCycle now stamp + 64
        if at_ < now then
          let p := hctx h
          let s := ((s.mportErr 4 0 0 id).raise 0x3004 p [id, c, stamp, now - at_]).faultTurn p false
          s.dramAdmit c { pk := pk, arrival := now, admitAt := at_, ue := ue } (s.cyclesWith p now)
        else wait s { pk := pk, arrival := now, admitAt := at_, ue := ue }
      else if s.cstate c = 7 then wait s { pk := pk, arrival := now, ue := ue, held := true }
      else s.dramAdmit c { pk := pk, arrival := now, ue := ue } (s.cyclesWith (hctx h) now)

/-- The first of two lists in lexicographic order. -/
def lexLess : List Nat → List Nat → Bool
  | a :: as, b :: bs => decide (a < b) || (a == b && lexLess as bs)
  | [], _ :: _ => true
  | _, [] => false

/-- The first of the least elements of a list by a key. -/
def leastBy (key : α → List Nat) (l : List α) : Option α :=
  l.foldl (fun best r =>
    match best with
    | some b => if lexLess (key r) (key b) then some r else best
    | none => some r) none

/-- The next Interleaved request that is admitted (R151, R152): the earliest admission cycle; of one cycle the reads first, which see no
write of their own step, then by initiator ID (log entry 69). -/
def nextWaiting (l : List DramReq) : Option DramReq :=
  leastBy (fun r => [r.admitAt, if hcmd r.pk.hdr = 1 then 0 else 1, hinit r.pk.hdr]) (l.filter (fun r => !r.held))

/-- The read of a subchannel that is served next (R214): urgency 6 or 7 by deadline; then by urgency, row hits first, by deadline and age;
prefetches last. A read that waits for a prefetch of its line is not among them. -/
def State.nextRead (s : State) (c sub : Nat) (now : List Nat) : Option DramReq :=
  let x := s.chan c
  let due (r : DramReq) : Nat := (s.deadline r).getD (2 ^ 64)
  leastBy (fun r =>
    let u := s.urgAt c now r
    if hpf r.pk.hdr then [2]
    else if 6 ≤ u then [0, due r]
    else [1, 7 - u, if s.rowHit c (haddr r.pk.hdr) then 0 else 1, due r])
    ((x.readsOf sub).filter (fun r => !(r.ahead && x.fetching (hinit r.pk.hdr) (haddr r.pk.hdr / 64))))

/-- Record the first uncorrectable DRAM error (R219, R222) and raise it. -/
def State.dramUe (s : State) (c a source init : Nat) (part : Nat) : State :=
  let s := if s.on (F.DDRC_UE_ue_flag c) then s
    else
      let s := (((s.put (F.DDRC_UE_ue_flag c) 1).put (F.DDRC_UE_source c) source).put (F.DDRC_UE_rank c) (s.rankOf c a)).put (F.DDRC_UE_init c) init
      (s.setReg (R.DDRC_ERRADDR_LO c) (BitVec.ofNat 32 (a / 64 * 64))).setReg (R.DDRC_ERRADDR_HI c) (BitVec.ofNat 32 (a / 2 ^ 32 % 64))
  s.raise 0x300A part [c, (s.reg (R.DDRC_UE c)).toNat, (s.reg (R.DDRC_ERRADDR_LO c)).toNat, (s.reg (R.DDRC_ERRADDR_HI c)).toNat]

/-- A corrected DRAM error (R219). -/
def State.dramCe (s : State) (c a : Nat) : State := (s.bump (F.DDRC_CE_ce_count c) 1).put (F.DDRC_CE_last_rank c) (s.rankOf c a)

/-- Corrected errors of one access at address a. -/
def State.dramCes (s : State) (c a n : Nat) : State := s.each (List.range n) (fun s _ => s.dramCe c a)

/-- A channel is populated and of use to a binding (R205). -/
def State.chanReady (s : State) (c : Nat) : Bool := s.cstate c == 4 && s.on (F.DDRC_CTRL_en c)

/-- Far port id is bound to channel c. -/
def State.boundTo (s : State) (id c : Nat) : Bool :=
  let first := s.get (F.MPORT_BIND_channel.sel id)
  let n := groupSize (if s.fpInter id then s.get (F.MPORT_BIND_group.sel id) else 0)
  s.fpKind id == 1 && decide (first ≤ c) && decide (c < first + n)

/-- Some partition that is not EMPTY has a far port bound to the channel (R206, R222). -/
def State.chanBusy (s : State) (c : Nat) : Bool :=
  (List.range 512).any (fun id => s.boundTo id c && match s.fpPart id with
    | some p => s.pstate p != stEmpty
    | none => false)

/-! ## Self-refresh (R216, R217) -/

/-- Postponed refreshes of a physical rank, and DDRC_REF.postponed, the highest among the ranks (R216, R222). -/
def State.postponedOf (s : State) (c r : Nat) : Nat := mget (fun _ => 0) (s.chan c).postponed r
def State.setPostponed (s : State) (c : Nat) (m : SMap Nat) : State :=
  (s.setChan c { s.chan c with postponed := m }).put (F.DDRC_REF_postponed c) ((List.range 16).foldl (fun a k => max a (mget (fun _ => 0) m k)) 0)

/-- A channel enters self-refresh: every postponed refresh is issued first, and every row is closed. -/
def State.chanSleeps (s : State) (c : Nat) : State :=
  if s.cstate c = 4 then
    let s := (s.setPostponed c []).put (F.DDRC_STATUS_state c) 7
    s.setChan c { s.chan c with rows := [], powerDown := [] }
  else s

/-- A channel leaves self-refresh: the requests that waited for it are admitted in order. -/
def State.chanWakes (s : State) (c : Nat) : State :=
  if s.cstate c = 7 then
    let s := s.put (F.DDRC_STATUS_state c) 4
    let held := (s.chan c).waiting.filter (fun r => r.held)
    let s := s.setChan c { s.chan c with waiting := (s.chan c).waiting.filter (fun r => !r.held) }
    s.each held (fun s r => s.dramAdmit c { r with held := false } [])
  else s

/-- A domain reaches a state on its way up (R217, R404): a group's channels leave self-refresh above Doze. -/
def State.domainUp (s : State) (u st : Nat) : State :=
  let s := ((s.put (F.PWR_DSTAT_state u) st).put (F.PWR_DSTAT_waking u) 0).bumpWrap F.PWR_TRANS_count 1
  (if 36 ≤ u ∧ u < 40 ∧ st < 3 then s.each ((List.range 4).map (4 * (u - 36) + ·)) State.chanWakes else s).settleMis

end Sys2Proof.Machine
end

