-- ==== Sys2Proof/Machine/BusOps.lean ====
section
/-!
DEFINITION. Machine/BusOps.lean: DRAM accesses of the device's engines and millers, each one packet to a line and its answer in one step
(R94, R95, R101 to R106, R207, R208, R217, R219, R221, R248, R457; log entry 53).
-/
namespace Sys2Proof.Machine

open Sys2Proof

/-- A write of n bytes at address a of a channel meets a locked staging area (R248). -/
def State.stageLocked (s : State) (chan a n : Nat) : Bool :=
  s.loader.locks.any (fun l => l.chan == chan && decide (l.addr < a + n) && decide (a < l.addr + l.len))

/-- An engine's packet is counted as sent, with its data units (R106, R107). -/
def State.busCount (s : State) (init units : Nat) : State := (s.countUnits (1 + units)).statUnits init units

/-- Some statistics slot counts the initiator. -/
def State.watched (s : State) (init : Nat) : Bool := (List.range 64).any (fun k => s.on (F.RACE_STSEL_en k) && s.get (F.RACE_STSEL_init k) == init)

/-- An engine's answer is counted with its data units and a latency, which the model leaves open (R106; log entry 3, kind 12). -/
def State.busAnswered (s : State) (init units : Nat) : State :=
  if s.watched init then
    let (l, s) := (s.statUnits init units).fresh 12
    s.statLat init l.toNat
  else s

/-- A request meets an isolated target (R102): it is counted as answered there. -/
def State.busDead (s : State) : Nat × State := (1, s.bump F.RACE_DEADCNT_absorbed_reads 1)

/-- A request to a target that never answers: it is isolated, and answers TARGET_DEAD; or the request ends with its time-out (R102,
R105). -/
def State.busSilent (s : State) (t : RaceTarget) : Nat × State :=
  if s.on F.RACE_CTRL_dead_en && s.get F.RACE_DEADTO_timeout != 0 then (s.isolateNow t 1).busDead else (6, s)

/-- The X endpoint that serves a channel address. -/
def dramTarget (c a : Nat) : RaceTarget := ⟨true, Fin.ofNat 256 (chanRouter c a)⟩

/-- A group in self-refresh wakes for an engine's request, which waits for it (R217, R406); a forced one stays as it is. -/
def State.busWake (s : State) (c : Nat) : State :=
  let u := 36 + c / 4
  if s.cstate c = 7 && !s.on (F.PWR_DOM_force_en u) then (s.wakeTo u 0).domainUp u 0 else s

/-- What an engine's request meets before its contents matter: 6 lost in the race, 1 an isolated target, 1 or 6 a channel that never
answers, 5 or 3 as the channel says; 0 it is served. -/
def State.busReach (s : State) (init ctx c a : Nat) : Nat × State :=
  if s.race.lost.contains init then (6, { s with race := { s.race with lost := s.race.lost.erase init } })
  else if s.isolated (targetKey true (chanRouter c a)) then s.busDead
  else
    let s := s.busWake c
    if s.cstate c = 6 || s.cstate c = 7 then s.busSilent (dramTarget c a)
    else ((s.dramDenies c a ctx).getD 0, s)

/-- A request would not be served. -/
def State.busBlocked (s : State) (c a ctx : Nat) : Bool :=
  s.isolated (targetKey true (chanRouter c a)) || s.cstate c == 6 || (s.dramDenies c a ctx).isSome

/-- An engine reads n bytes of one line: status, bytes. A dead target answers 0xBAD0_BAD0, an uncorrectable line its data with status ECC
(R95, R219). -/
def State.busRead (s : State) (init ctx c a n : Nat) (e : RowEcc) : Nat × List Byte × State :=
  let units := (n + 15) / 16
  let (st, s) := (s.busCount init 0).busReach init ctx c a
  if st = 1 then (1, badBytes n, s.busAnswered init units)
  else if st = 6 then (6, [], s)
  else if st ≠ 0 then (st, [], s.busAnswered init 0)
  else
    let s := s.busAnswered init units
    let bs := s.dramRead c a n
    let s := if e.ue.contains (a / 64) then s.setLineBad c (a / 64) true else s.dramCes c a e.ce
    if s.lineBad c (a / 64) then (2, bs, s.dramUe c a 2 init 0xFF) else (0, bs, s)

/-- An engine writes bytes within one line: its status. -/
def State.busWrite (s : State) (init ctx c a : Nat) (bs : List Byte) (e : RowEcc) : Nat × State :=
  let (st, s) := (s.busCount init ((bs.length + 15) / 16)).busReach init ctx c a
  if st = 6 then (6, s)
  else
    let s := s.busAnswered init 0
    if st ≠ 0 then (st, s)
    else if s.stageLocked c a bs.length then (3, s)
    else (0, (s.dramWrite c a bs 0 e.ue).drainWrites c [])

/-- Write whole lines from a channel address up, stopping at the first that is not answered OK: lines done and its status. -/
def State.busWriteLines (init ctx c : Nat) : Nat → Nat → List Byte → State → Nat × Nat × State
  | 0, _, _, s => (0, 0, s)
  | n + 1, a, bs, s =>
    let (st, s) := s.busWrite init ctx c a (bs.take 64) {}
    if st = 0 then
      let (k, st, s) := State.busWriteLines init ctx c n (a + 64) (bs.drop 64) s
      (k + 1, st, s)
    else (0, st, s)

/-- Read whole lines from a channel address up, stopping at the first that is not answered OK: bytes read and its status. The corrected
errors are those of the first line. -/
def State.busReadLines (init ctx c : Nat) : Nat → Nat → RowEcc → State → List Byte × Nat × State
  | 0, _, _, s => ([], 0, s)
  | n + 1, a, e, s =>
    let (st, bs, s) := s.busRead init ctx c a 64 e
    if st = 0 then
      let (more, st, s) := State.busReadLines init ctx c n (a + 64) { e with ce := 0 } s
      (bs ++ more, st, s)
    else ([], st, s)

end Sys2Proof.Machine
end

