-- ==== Sys2Proof/Machine/FlumeOps.lean ====
section
/-!
DEFINITION. Machine/FlumeOps.lean: launch ports, landing ports and regions of the flume, as LAUNCH, LAND, the brake checks and
the flume's own events use them (R113 to R124, R427).
-/
namespace Sys2Proof.Machine

open Sys2Proof

/-- Index of a port behind FLM_PORTSTAT: mill, direction (0 launch, 1 landing), port. -/
def portIdx (m dir j : Nat) : Nat := m * 16 + dir * 8 + j

def State.portMode (s : State) (m dir j : Nat) : Nat := s.get (F.FLM_PORTSTAT_mode.sel (portIdx m dir j))
def State.portRegion (s : State) (m dir j : Nat) : Nat := s.get (F.FLM_PORTSTAT_region.sel (portIdx m dir j))
def State.portCount (s : State) (m dir j : Nat) : State := s.bumpWrap (F.FLM_PORTSTAT_words.sel (portIdx m dir j)) 1

def State.launchPort (s : State) (m j : Nat) : LaunchPort := mget (fun _ => {}) s.flume.launch (m * 8 + j)
def State.landPort (s : State) (m j : Nat) : LandPort := mget (fun _ => {}) s.flume.land (m * 8 + j)
def State.setLaunchPort (s : State) (m j : Nat) (x : LaunchPort) : State :=
  { s with flume := { s.flume with launch := mset (fun _ => {}) s.flume.launch (m * 8 + j) x } }
def State.setLandPort (s : State) (m j : Nat) (x : LandPort) : State :=
  { s with flume := { s.flume with land := mset (fun _ => {}) s.flume.land (m * 8 + j) x } }
def State.region (s : State) (r : Nat) : Region := mget (fun _ => {}) s.flume.regions r
def State.setRegion (s : State) (r : Nat) (x : Region) : State :=
  { s with flume := { s.flume with regions := mset (fun _ => {}) s.flume.regions r x } }
def State.launchRow (s : State) (m : Nat) : Row := mget (fun _ => 0) s.flume.launchBits m
def State.landRow (s : State) (m : Nat) : Row := mget (fun _ => 0) s.flume.landBits m
def State.setLandRow (s : State) (m : Nat) (v : Row) : State :=
  { s with flume := { s.flume with landBits := mset (fun _ => 0) s.flume.landBits m v } }

/-- Release stage of quadrant q: 0 held, 1 outputs, 2 write enables, 3 running (R128). -/
def State.stage (s : State) (q : Nat) : Nat := s.get F.FLM_STATUS_stage / 4 ^ q % 4
def State.setStage (s : State) (q v : Nat) : State :=
  s.put F.FLM_STATUS_stage (s.get F.FLM_STATUS_stage - s.stage q * 4 ^ q + v % 4 * 4 ^ q)

/-- Release stage that holds for region r of quadrant q: the quadrant's, or that of a commit's release (R257). -/
def State.rstage (s : State) (q r : Nat) : Nat := min (s.stage q) (mget (fun _ => {}) s.flume.regions r : Region).stage

/-- Declared voltage of a target I/O bank in mV (R425, R431). -/
def voltOf (v : Nat) : Nat := match v with | 0 => 1200 | 1 => 1800 | _ => 3300

/-- VIO of a bank lies within SENS_VTOL of the declared voltage (R425, R431); a tolerance of 0 makes no checks. -/
def State.vioOk (s : State) (b : Nat) : Bool :=
  let tol := s.get F.SENS_VTOL_permille
  let v := voltOf (s.get (F.TIO_BANK_volt b))
  let mv := s.get (F.SENS_VMON_mv (10 + b))
  tol == 0 || decide ((mv - v) + (v - mv) ≤ v * tol / 1000)

/-- Level a target I/O pin's input takes from the pad (R425, R427): undefined, a free value, while the bank is enabled and its VIO is out of
tolerance (log entry 3). -/
def State.pinLevel (s : State) (p : Nat) : Bool :=
  if s.on (F.TIO_BANK_en (p / 32)) && !s.vioOk (p / 32) then (Config.freeBits 14 (s.free * 160 + p)).getLsbD 0
  else s.bit (F.TIO_IN_level (p / 32)) (p % 32)

/-- A quadrant's starting of new waves is stopped by a quiesce request (R132). -/
def State.quiescing (s : State) (q : Nat) : Bool := s.bit F.FLM_QUIESCE_request q

/-! ## Nets (R109, R112, R131) -/

/-- Key of the pin port of target I/O pin `pin` in quadrant q. -/
def pinKey (q pin : Nat) : Nat := q * 160 + pin

def State.cell (s : State) (k : Nat) : Cell := mget (fun _ => {}) s.flume.cells k
def State.setCell (s : State) (k : Nat) (x : Cell) : State :=
  { s with flume := { s.flume with cells := mset (fun _ => {}) s.flume.cells k x } }
def State.block (s : State) (q k : Nat) : MemBlock := mget (fun _ => {}) s.flume.mems (q * 512 + k)
def State.setBlock (s : State) (q k : Nat) (x : MemBlock) : State :=
  { s with flume := { s.flume with mems := mset (fun _ => {}) s.flume.mems (q * 512 + k) x } }
def State.pinPort (s : State) (k : Nat) : PinPort := mget (fun _ => {}) s.flume.pins k
def State.setPinPort (s : State) (k : Nat) (x : PinPort) : State :=
  { s with flume := { s.flume with pins := mset (fun _ => {}) s.flume.pins k x } }

/-- The rails of a sender's net: its data in phase 1, otherwise spacer. -/
def railOf (phase : Nat) (v : Bool) : DualRail := if phase = 1 then .data v else .spacer

/-- The launch port of mill m that claims launch bit b. -/
def State.launchOwner (s : State) (m b : Nat) : Option Nat :=
  (List.range 8).find? (fun j => s.portMode m 0 j != 0 && (s.launchPort m j).bits.getLsbD b)

/-- What net n of quadrant q carries, from its one driver (R112). A net without a driver stays at spacer. -/
def State.netRail (s : State) (q n : Nat) : DualRail :=
  if n < 0x30000 then
    let c := s.cell (q * 196608 + n)
    if c.rail1 then .data true else if c.rail0 then .data false else .spacer
  else if n < 0x38000 then
    let x := s.block q ((n - 0x30000) / 64)
    if n % 64 < x.sent then railOf x.phase (x.last.getLsbD (n % 64)) else .spacer
  else if n < 0x39000 then
    let m := q * 64 + (n - 0x38000) / 64
    match s.launchOwner m (n % 64) with
    | some j => railOf (s.launchPort m j).phase ((s.launchPort m j).last.getLsbD (n % 64))
    | none => .spacer
  else if 0x3A000 ≤ n ∧ n < 0x3A0A0 then
    let x := s.pinPort (pinKey q (n - 0x3A000))
    if x.used && !x.out then railOf x.phase x.bit else .spacer
  else .spacer

/-- A net holds data. -/
def State.netFull (s : State) (q n : Nat) : Bool := s.netRail q n != .spacer

/-- Nets of the inputs a cell uses. -/
def Cell.ins (x : Cell) : List Nat :=
  (if x.used.getLsbD 0 then [x.inA] else []) ++ (if x.used.getLsbD 1 then [x.inB] else []) ++ (if x.used.getLsbD 2 then [x.inC] else [])

/-- Nets of a block's input. -/
def MemBlock.ins (x : MemBlock) : List Nat := x.insW ++ x.insA ++ x.insD

/-- The acknowledges of the receivers of a net. -/
def State.netAcks (s : State) (q n : Nat) : List Bool :=
  let f := s.flume
  (f.cells.filter (fun e => e.1 / 196608 == q && e.2.ins.contains n)).map (·.2.ack) ++
  (f.land.filter (fun e => e.1 / 512 == q && e.2.nets.any (·.2 == n))).map (·.2.ack) ++
  (f.mems.filter (fun e => e.1 / 512 == q && e.2.ins.contains n)).map (·.2.ack) ++
  (f.pins.filter (fun e => e.1 / 160 == q && e.2.used && e.2.out && e.2.net == n)).map (·.2.ack)

/-- Every receiver of a net has raised its acknowledge (R112), and every one has lowered it. -/
def State.netTaken (s : State) (q n : Nat) : Bool := (s.netAcks q n).all (fun a => a)
def State.netFree (s : State) (q n : Nat) : Bool := (s.netAcks q n).all (fun a => !a)

/-- The phase of a sender after data and after the spacer, once its receivers have answered on every net (R109). -/
def nextPhase (phase : Nat) (taken free : Bool) : Nat :=
  if phase = 1 ∧ taken then 2 else if phase = 2 ∧ free then 0 else phase

/-- Nets of the launch bits of port k = mill × 8 + port. -/
def launchNets (k : Nat) (x : LaunchPort) : List Nat :=
  ((List.range 64).filter (fun b => x.bits.getLsbD b)).map (fun b => 0x38000 + k / 8 % 64 * 64 + b)

/-- Nets on which a block is sending. -/
def blockNets (k : Nat) (x : MemBlock) : List Nat := (List.range x.sent).map (fun b => 0x30000 + k % 512 * 64 + b)

/-- The senders of quadrant q answer their receivers (R109): a launch port's spacer wave follows its data wave (R114). -/
def State.settleSenders (s : State) (q : Nat) : State :=
  let go (phase : Nat) (ns : List Nat) : Nat := nextPhase phase (ns.all (s.netTaken q)) (ns.all (s.netFree q))
  let f := s.flume
  { s with flume := { f with
    launch := mmap (fun _ => {}) (fun k x => if k / 512 = q then { x with phase := go x.phase (launchNets k x) } else x) f.launch
    mems := mmap (fun _ => {}) (fun k x => if k / 512 = q then { x with phase := go x.phase (blockNets k x) } else x) f.mems
    pins := mmap (fun _ => {}) (fun k x => if k / 160 = q then { x with phase := go x.phase [0x3A000 + k % 160] } else x) f.pins } }

/-- The landing ports, blocks and pin outputs of quadrant q lower the acknowledge of an input that is back at spacer (R109). -/
def State.settleReceivers (s : State) (q : Nat) : State :=
  let empty (ns : List Nat) : Bool := ns.all (fun n => !s.netFull q n)
  let f := s.flume
  { s with flume := { f with
    land := mmap (fun _ => {}) (fun k x => if k / 512 = q ∧ empty (x.nets.map (·.2)) then { x with ack := false } else x) f.land
    mems := mmap (fun _ => {}) (fun k x => if k / 512 = q ∧ empty x.ins then { x with ack := false } else x) f.mems
    pins := mmap (fun _ => {}) (fun k x => if k / 160 = q ∧ empty [x.net] then { x with ack := false } else x) f.pins } }

/-- The handshakes of quadrant q that need no cell go on as far as they can. -/
def State.settleNets (s : State) (q : Nat) : State := ((s.settleSenders q).settleReceivers q).settleSenders q

/-! ## Regions -/

/-- Every cell, port and block that satisfies its predicate is at spacer with its acknowledge low (R109). -/
def State.allIdle (s : State) (cell : Nat → Cell → Bool) (launch land : Nat → Bool) (mem : Nat → MemBlock → Bool) (pin : Nat → PinPort → Bool) : Bool :=
  s.flume.cells.all (fun e => !cell e.1 e.2 || (!e.2.rail0 && !e.2.rail1 && !e.2.ack)) &&
  s.flume.launch.all (fun e => !launch e.1 || e.2.phase == 0) &&
  s.flume.land.all (fun e => !land e.1 || !e.2.ack) &&
  s.flume.mems.all (fun e => !mem e.1 e.2 || (e.2.phase == 0 && !e.2.ack)) &&
  s.flume.pins.all (fun e => !pin e.1 e.2 || (e.2.phase == 0 && !e.2.ack))

/-- A region is idle when every one of its signals is at spacer and every acknowledge is low (R109). -/
def State.regionIdle (s : State) (r : Nat) : Bool :=
  let q := r / 512
  s.allIdle (fun k c => k / 196608 == q && c.used != 0 && c.region == r) (s.region r).launches.contains (s.region r).lands.contains
    (fun k x => k / 512 == q && x.mode != 0 && x.region == r) (fun k x => k / 160 == q && x.used && x.region == r)

/-- A launch port sends a word as a data wave into its region (R114, R115). A fire sends the bits that the region's
step-synchronous pin inputs captured with it (R427). -/
def State.sendWave (s : State) (m j : Nat) (w : Row) : State :=
  let r := s.portRegion m 0 j
  let q := r / 512
  let s := s.setLaunchPort m j { s.launchPort m j with held := none, last := w, phase := 1 }
  let s := s.each (s.region r).pinsIn (fun s pin => s.setPinPort (pinKey q pin) { s.pinPort (pinKey q pin) with phase := 1 })
  (s.portCount m 0 j).settleNets q

/-- A fire-mode port fires at the end of step n (R114): the bits are captured as they stand at the end of the step, so a
LAUNCH of the same step that comes later in the command order still changes the captured word. `pads`: target I/O pins that the
synchronisers of R427 show high at the edge that ends the step. A new fire starts the count of its slack, and no landing port
has yet accepted its word. -/
def State.firePort (s : State) (m j cyc : Nat) (pads : List Nat) : State :=
  let x := s.launchPort m j
  let w := s.launchRow m &&& x.bits
  let r := s.portRegion m 0 j
  let q := r / 512
  let s := s.setLaunchPort m j { x with fireCycle := some cyc }
  let s := s.each (s.region r).pinsIn (fun s pin =>
    let y := s.pinPort (pinKey q pin)
    s.setPinPort (pinKey q pin) { y with bit := pads.contains pin && !y.unserved })
  let s := s.each (s.region r).lands (fun s k => s.setLandPort (k / 8) (k % 8) { s.landPort (k / 8) (k % 8) with missed := false })
  let g := s.region r
  let s := s.setRegion r { g with counted := false, acceptCycle := none, awaiting := g.lands ++ g.pinsOut.map (4096 + ·) }
  if s.regionIdle r then s.sendWave m j w else s.setLaunchPort m j { s.launchPort m j with held := some w }

/-- A LAUNCH drives launch bit l of mill m with v at partition cycle cyc (R50, R114). -/
def State.driveLaunch (s : State) (m l : Nat) (v : Bool) (cyc : Nat) (pads : List Nat) : State :=
  let s := { s with flume := { s.flume with launchBits := mset (fun _ => 0) s.flume.launchBits m (setLane (s.launchRow m) l v) } }
  s.each (List.range 8) (fun s j =>
    let x := s.launchPort m j
    if s.portMode m 0 j = 1 ∧ x.bits.getLsbD l then
      if x.fireBit = l then s.firePort m j cyc pads
      else if x.fireCycle = some cyc then
        let w := s.launchRow m &&& x.bits
        match x.held with
        | some _ => s.setLaunchPort m j { x with held := some w }
        | none => s.setLaunchPort m j { x with last := w }
      else s
    else s)

/-- A landing port raises its acknowledge, and what waits for it goes on (R117, R119, R122, R124). -/
def State.ackLand (s : State) (m j : Nat) : State :=
  (s.setLandPort m j { s.landPort m j with ack := true }).settleNets (quadOfMill m)

/-- Count the slack of the fire in progress, once (R123): `ready` is the edge its last landing port accepted at, `now` the
check point or the beginning of the ack LAND's step. -/
def State.settleSlack (s : State) (r now : Nat) : State :=
  let g := s.region r
  if g.counted || !g.launched then s
  else
    let s := s.setRegion r { g with counted := true }
    match g.acceptCycle with
    | some c => s.countSlack r (slackBin (now - c))
    | none => s.countSlack r 0

/-- The landing port of mill m that claims landing bit l. -/
def State.landOwner (s : State) (m l : Nat) : Option Nat :=
  (List.range 8).find? (fun j => s.portMode m 1 j != 0 && (s.landPort m j).bits.getLsbD l)

/-- Every landing port of a region has accepted the word of its latest fire (R118). -/
def State.landingComplete (s : State) (r : Nat) : Bool := (s.region r).awaiting.isEmpty

/-- A FLUME_BUDGET_MISS (R19): recorded, raised, the turn invalid, the partition halted. -/
def State.budgetMiss (s : State) (p r n : Nat) : State :=
  let s := (s.put F.FLM_MISSLOC_region r).put F.FLM_MISSLOC_step n
  (s.raise 0x5001 p [r, n, s.get (F.TURN_COUNT_LO_value p)]).faultTurn p false

/-- A pin output port drives its pin (R127, R428). -/
def State.drivePin (s : State) (k : Nat) (v : Bool) : State := s.setPinPort k { s.pinPort k with drive := v, live := true }

/-- The step-synchronous pin outputs of a region drive the values they hold; one whose wave is late keeps its level and
discards the wave (R427). -/
def State.updatePins (s : State) (r : Nat) : State :=
  s.each (s.region r).pinsOut (fun s pin =>
    let k := pinKey (r / 512) pin
    let x := s.pinPort k
    match x.held with
    | some v => (s.setPinPort k { x with held := none }).drivePin k v
    | none => if (s.region r).awaiting.contains (4096 + pin) then s.setPinPort k { x with owes := true } else s)

/-- A landing port, or a step-synchronous pin output port, of region r has accepted the fire's word at partition cycle cyc. -/
def State.regionTook (s : State) (r key cyc : Nat) : State :=
  let g := s.region r
  let a := g.awaiting.filter (· != key)
  s.setRegion r { g with awaiting := a, acceptCycle := if a.isEmpty && !g.awaiting.isEmpty then some cyc else g.acceptCycle }

/-- Record the first flume fault (R135) and raise its event with FLM_ERR. -/
def State.flumeFault (s : State) (kind q unit port code : Nat) : State :=
  let s := if s.on F.FLM_ERR_fault_flag then s
    else ((((s.put F.FLM_ERR_fault_flag 1).put F.FLM_ERR_kind kind).put F.FLM_ERR_quadrant q).put F.FLM_ERR_unit unit).put F.FLM_ERR_port port
  s.raise code (ownerField (s.quadOwner q)) [(s.reg R.FLM_ERR).toNat]

/-- The illegal code on a signal (R120). -/
def State.railError (s : State) (q unit port : Nat) : State :=
  (s.flumeFault 1 q unit port 0x5003).faultOwner (s.quadOwner q) false

/-- The effect of a LAND at step n on the port of its bit (R117, R119, R122, R123, R19). `limit`: the step executes because
brake_limit was reached, which is no budget miss (R74). A LAND of any bit of a stream port takes its word (log entry 25). -/
def State.takeLanding (s : State) (p m l n : Nat) (limit : Bool) : State :=
  match s.landOwner m l with
  | none => s
  | some j =>
    let x := s.landPort m j
    let r := s.portRegion m 1 j
    let cyc := s.cycleOf p n
    if s.portMode m 1 j ≥ 2 then s.setLandPort m j { x with accepted := false }
    else
      let g := s.region r
      let there := x.accepted || x.takenAt == some cyc
      let s := if !there && !x.missed && !limit && decide (g.budget < s.horizon p) then
          (s.setLandPort m j { x with missed := true }).budgetMiss p r n
        else s
      if l = x.ackBit ∧ x.takenAt ≠ some cyc then
        let s := if g.budget < s.horizon p then s.settleSlack r cyc else s
        let s := s.updatePins r
        let x := s.landPort m j
        if x.accepted then (s.setLandPort m j { x with accepted := false, takenAt := some cyc }).ackLand m j
        else s.setLandPort m j { x with owes := true }
      else s

end Sys2Proof.Machine
end

