-- ==== Sys2Proof/Machine/DesignMem.lean ====
section
/-!
DEFINITION. Machine/DesignMem.lean: MRD, MWR, WAIT, LAUNCH and LAND (R47 to R52), and the far ports' own commands (R146 to
R162).
-/
namespace Sys2Proof.Machine

open Sys2Proof

/-- Host window w as last read (R272). -/
def State.hostWin (s : State) (w : Nat) : HostWin := mget (fun _ => {}) s.hostWins w
def State.hostAddr (s : State) (w : Nat) : Nat := (s.hostWin w).haddr
def State.hostSize (s : State) (w : Nat) : Nat := (s.hostWin w).size

/-- Destination router and address of entry i at a far port. -/
def State.dest (s : State) (id i : Nat) : Nat × Nat := s.fpDest id i s.hostAddr

/-! ## MRD -/

/-- A read of mill memory (R137 to R139). -/
def State.mrdMill (s : State) (c : BpCtx) (addr : Nat) (mm : RowEcc) : State :=
  let m := c.m.val
  let d := addr / 2 ^ 60 % 16
  let i := addr % 2 ^ 23
  let res (s : State) (x : MmResult) : State := { s with dm := { s.dm with results := s.dm.results ++ [x] } }
  match (s.desc m d).place i with
  | some (row, lsb) =>
    let w := (s.desc m d).width
    let s := s.mmEcc m row c.n mm
    res s ⟨i, m, c.st, c.b, c.n, w, getBits (s.mmRow m row c.n) lsb w, s.mmBadBits m row lsb w c.n, row⟩
  | none => res (s.rangeCount true m) ⟨i, m, c.st, c.b, c.n, 512, 0, false, 0⟩

/-- A read at a far port (R143 to R148, R154): the lowest free slot takes it. With none free, slots of earlier reads of the turn being
owed still, the read is not made (log entry 68). A turn that issues it to an isolated target is marked (R159). -/
def State.mrdFar (s : State) (c : BpCtx) (id i : Nat) : State :=
  match s.fpKind id, s.freeSlot id with
  | 0, _ => s
  | _, none => s
  | _, some j =>
    let cyc := s.cycleOf c.p c.n
    let (r, a) := s.dest id i
    let x : RSlot := { busy := true, stone := c.st, bp := c.b, step := c.n, stamp := stampOf cyc, cycle := cyc,
                       offset := a % 16, index := i, target := targetKey true r }
    if s.fpOut id i s.hostSize then (s.rangeCount false id).setSlot id j { x with done := true, ok := true }
    else
      let dead := s.isolated (targetKey true r)
      let s := if dead then s.faultTurn c.p false else s
      let st := s.fpStride id
      let q : FpReq := { write := false, addr := a / 16 * 16, len := (st + 15) / 16, tail := 0, urg := 2, stamp := x.stamp, slot := j, index := i, marked := dead }
      let s := s.setSlot id j x
      let s := match s.fpEnqueue id q with
        | some s => s
        | none => ((s.setSlot id j { x with done := true }).fpFail id).queueFull c.p id c.n j
      s.prefetchAfter id i x.stamp

/-- MRD (R47): the address word is the whole row named by opa; opb names the target. -/
def State.doMrd (s : State) (mm : RowEcc) (c : BpCtx) (w : IWord) : State :=
  let r := rowOf (opaOf w)
  let s := s.reportRows c [r]
  let addr := (s.operandRow c.site c.bank r c.n).toNat
  match (opbOf w).toNat % 4 with
  | 0 => s.mrdMill c addr mm
  | 1 => s.mrdFar c (2 * c.m.val) (addr % 2 ^ 40)
  | 2 => s.mrdFar c (2 * c.m.val + 1) (addr % 2 ^ 40)
  | _ => s

def execMrd (m : Mill) (st : Stone) (b : Bp) (n : Step) (e : StoreEcc) (mm : RowEcc) (s : State) : Out :=
  .next (s.bpOp m st b n e 5 (fun s c w => s.doMrd mm c w))

/-! ## MWR -/

/-- The write data of an MWR: count rows from opb on (R47), row 0 lowest. -/
def State.mwrData (s : State) (c : BpCtx) (row count : Nat) : BitVec 512 :=
  BitVec.ofNat 512 ((List.range count).foldr (fun i acc => (s.operandRow c.site c.bank (row + i) c.n).toNat + 2 ^ 64 * acc) 0)

/-- A write of mill memory (R137 to R139, R141): the whole entry. -/
def State.mwrMill (s : State) (c : BpCtx) (addr : Nat) (v : BitVec 512) (mm : RowEcc) : State :=
  let m := c.m.val
  let d := addr / 2 ^ 60 % 16
  let i := addr % 2 ^ 23
  match (s.desc m d).place i with
  | some (row, lsb) =>
    let w := (s.desc m d).width
    let v := getBits v 0 w
    let s := (s.mmEcc m row c.n mm).mmWrite ⟨m, row, lsb, w, c.n + 1, v⟩
    s.watch c.p ⟨false, m, true, i, v.toNat % 2 ^ 64, c.p, c.n, false⟩
  | none => (s.rangeCount true m).watch c.p ⟨false, m, true, i, 0, c.p, c.n, false⟩

/-- A write at a far port (R144, R145, R148): the whole entry, bytes beyond w ÷ 8 zero. -/
def State.mwrFar (s : State) (c : BpCtx) (id i : Nat) (v : BitVec 512) : State :=
  if s.fpKind id = 0 then s
  else
    let v := getBits v 0 (s.fpWidth id)
    let acc : Access := ⟨true, id, true, i, v.toNat % 2 ^ 64, c.p, c.n, false⟩
    if s.fpOut id i s.hostSize then (s.rangeCount false id).watch c.p acc
    else
      let (r, a) := s.dest id i
      let dead := s.isolated (targetKey true r)
      let s := if dead then s.faultTurn c.p false else s
      let st := s.fpStride id
      let len := (st + 15) / 16
      let q : FpReq := { write := true, addr := a, len := len, tail := 16 * len - a % 16 - st, urg := 1, stamp := stampOf (s.cycleOf c.p c.n), slot := 0, index := i, data := unitBytes (unitsOf (a % 16) st v), marked := dead }
      let s := match s.fpEnqueue id q with
        | some s => s
        | none => s.queueFull c.p id c.n 0
      s.watch c.p acc

/-- MWR (R47). -/
def State.doMwr (s : State) (mm : RowEcc) (c : BpCtx) (w : IWord) : State :=
  let r := rowOf (opaOf w)
  let d := rowOf (opbOf w)
  let count := (opcOf w).toNat % 8 + 1
  let s := s.reportRows c (r :: (List.range count).map (d + ·))
  let addr := (s.operandRow c.site c.bank r c.n).toNat
  let v := s.mwrData c d count
  match (opdOf w).toNat % 4 with
  | 0 => s.mwrMill c addr v mm
  | 1 => s.mwrFar c (2 * c.m.val) (addr % 2 ^ 40) v
  | 2 => s.mwrFar c (2 * c.m.val + 1) (addr % 2 ^ 40) v
  | _ => s

def execMwr (m : Mill) (st : Stone) (b : Bp) (n : Step) (e : StoreEcc) (mm : RowEcc) (s : State) : Out :=
  .next (s.bpOp m st b n e 6 (fun s c w => s.doMwr mm c w))

/-! ## WAIT -/

/-- A WAIT writes its port rows and its status bit (R48). -/
def State.waitWrite (s : State) (c : BpCtx) (w : IWord) (v : BitVec 512) (ok : Bool) : State :=
  let count := (opbOf w).toNat % 8 + 1
  let row := rowOf (opdOf w)
  let s := s.each (List.range count) (fun s i => s.writeRow c.site (row + i) c.n (BitVec.ofNat 64 (v.toNat / 2 ^ (64 * i))))
  s.result c c.b w ok

/-- A WAIT whose read was never made, its MRD having executed as a NOP (R57) or found no free slot (log entry 68): the spec states
neither data nor status. -/
def State.waitNothing (s : State) (c : BpCtx) (w : IWord) : State :=
  let (s, v) := (List.range 8).foldl (fun (sv : State × Nat) _ => let (f, s) := sv.1.fresh 1; (s, sv.2 * 2 ^ 64 + f.toNat)) (s, 0)
  let (f, s) := s.fresh 2
  s.waitWrite c w (BitVec.ofNat 512 v) (f.getLsbD 0)

/-- The step n of partition p executes because brake_limit was reached (R74). -/
def State.atLimit (s : State) (p n : Nat) : Bool := (s.part p).limitSteps.contains n

/-- WAIT of a mill-memory read (R139, R141). -/
def State.waitMill (s : State) (c : BpCtx) (w : IWord) (bp step : Nat) : State :=
  match s.dm.results.find? (fun x => x.mill == c.m.val && x.stone == c.st.val && x.bp == bp && x.step == step) with
  | none => s.waitNothing c w
  | some x =>
    let s := { s with dm := { s.dm with results := s.dm.results.erase x } }
    let s := s.waitWrite c w x.data (!x.ue)
    let s := if x.ue then (((s.mportErr 5 0 0 x.mill).raise 0x3002 c.p [x.mill, x.row, x.step])).faultTurn c.p false else s
    let v := x.data.toNat % 2 ^ (64 * ((opbOf w).toNat % 8 + 1))
    s.watch c.p ⟨false, x.mill, false, x.index, v % 2 ^ 64, c.p, c.n, false⟩

/-- WAIT of a far-port read (R48, R74, R146, R157, R341). A read that is not in its slot holds the step: nothing happens. -/
def State.waitFar (s : State) (c : BpCtx) (w : IWord) (id bp step : Nat) : State :=
  match s.slotOf id c.st bp step with
  | none => if s.atLimit c.p c.n then s.waitWrite c w 0 false else s.waitNothing c w
  | some j =>
    let x := s.slot id j
    let acc (v : BitVec 512) : Access := ⟨true, id, false, x.index, v.toNat % 2 ^ 64, c.p, c.n, false⟩
    if s.atLimit c.p c.n then ((s.slotEarly id j).waitWrite c w 0 false).watch c.p (acc 0)
    else if x.done then
      let v := getBits x.data 0 (s.fpWidth id)
      ((s.freeRSlot id j).waitWrite c w v x.ok).watch c.p (acc v)
    else s

/-- WAIT (R47, R48): opa names its MRD, whose word names the target. -/
def State.doWait (s : State) (c : BpCtx) (w : IWord) : State :=
  let step := rowOf (opaOf w)
  let bp := laneOf (opaOf w)
  match (opbOf (s.word c.site bp step)).toNat % 4 with
  | 0 => s.waitMill c w bp step
  | 1 => s.waitFar c w (2 * c.m.val) bp step
  | 2 => s.waitFar c w (2 * c.m.val + 1) bp step
  | _ => s

def execWait (m : Mill) (st : Stone) (b : Bp) (n : Step) (e : StoreEcc) (s : State) : Out :=
  .next (s.bpOp m st b n e 7 State.doWait)

/-! ## LAUNCH and LAND -/

/-- LAUNCH (R50). `pads`: target I/O pins that the synchronisers of a fire's step-synchronous inputs show high: the pad levels at the
edge that ends step n − 2 (R427). -/
def State.doLaunch (s : State) (pads : List Nat) (c : BpCtx) (w : IWord) : State :=
  let s := s.reportRows c [rowOf (opaOf w)]
  s.driveLaunch c.m (laneOf (opdOf w)) (s.opnd c (opaOf w)) (s.cycleOf c.p c.n) pads

def execLaunch (m : Mill) (st : Stone) (b : Bp) (n : Step) (e : StoreEcc) (pads : List Nat) (s : State) : Out :=
  .next (s.bpOp m st b n e 8 (fun s c w => s.doLaunch pads c w))

/-- LAND (R51): the landing bit as it stands in the step, into a landing-row lane and the BP's own lane. -/
def State.doLand (s : State) (c : BpCtx) (w : IWord) : State :=
  let l := laneOf (opaOf w)
  let v := laneBit (s.landRow c.m) l
  let s := s.writeLane c.site (rowOf (opdOf w)) (laneOf (opdOf w)) c.n v
  let s := s.result c c.b w v
  s.takeLanding c.p c.m l c.n (s.atLimit c.p c.n)

def execLand (m : Mill) (st : Stone) (b : Bp) (n : Step) (e : StoreEcc) (s : State) : Out :=
  .next (s.bpOp m st b n e 9 State.doLand)

/-! ## The far ports' own commands -/

/-- Header of a far-port request (R146). -/
def State.fpHeader (s : State) (id : Nat) (r : FpReq) (pf : Bool) : Unit128 :=
  let (c, a) := s.fpMap id r.addr
  let pfRouter := chanRouter c a
  let (router, addr) := if pf then (pfRouter, a) else ((s.dest id r.index).1, r.addr)
  mkHdr (if r.write then 2 else 1) r.len r.urg 0 id (r.stamp * 32 + (if r.write || pf then 0 else r.slot)) (quadOfMill router) (rowOfMill router)
    (colOfMill router) 8 ((s.fpPart id).getD 0) (if pf then 1 else 0) 0 r.tail addr

/-- FARPORT_REQUEST_SEND (R146): the oldest request leaves the queue. One that finds its target isolated marks the turn (R159, R459). -/
def execFarportRequestSend (m : Mill) (f : Fin 2) (s : State) : Out :=
  let id := 2 * m.val + f.val
  let fp := s.farPort id
  match fp.reqs with
  | [] => .next s
  | r :: rest =>
    let s := s.setFarPort id { fp with reqs := rest }
    let us := if r.write then bytesUnits r.len r.data else []
    let h := s.fpHeader id r false
    let dead := s.isolated (htarget h) && !r.marked
    let s := if dead then s.faultOwner (s.fpPart id) false else s
    .next (s.send { hdr := h, data := us, poison := us.map (fun _ => false) } (r.marked || dead))

/-- PREFETCH_SEND (R154): a prefetch has no response, so no request is watched for it. -/
def execPrefetchSend (m : Mill) (f : Fin 2) (s : State) : Out :=
  let id := 2 * m.val + f.val
  let fp := s.farPort id
  match fp.prefetch with
  | [] => .next s
  | r :: rest =>
    let s := s.setFarPort id { fp with prefetch := rest }
    .next (s.send { hdr := s.fpHeader id r true } false)

/-- FAR_TIMEOUT (R157, R158): the port time-out of a slot runs out. 0 is no time-out. An owed slot becomes free. -/
def execFarTimeout (m : Mill) (f : Fin 2) (slot : Fin 32) (s : State) : Out :=
  let id := 2 * m.val + f.val
  let x := s.slot id slot
  if s.get F.MPORT_CTRL_timeout = 0 || !x.busy then .next s
  else if x.owed then .next (s.freeRSlot id slot)
  else if x.done then .next s
  else .next (s.slotError id slot 1 0 0)

/-- MPORT_CNT_CLEAR (R162). -/
def execMportCntClear (s : State) : Out :=
  let s := s.each [F.MPORT_PFISSUE_count, F.MPORT_PFUSE_count, F.MPORT_PFDISC_count, F.MPORT_PFDROP_count, F.MPORT_STATUS_mm_ce_count]
    (fun s f => s.put f 0)
  let s := s.setReg R.MPORT_RANGE 0
  .next (s.each (List.range 512) (fun s id => s.put (F.MPORT_PSTAT_maxlat.sel id) 0))

end Sys2Proof.Machine
end

