-- ==== Sys2Proof/Machine/Brakes.lean ====
section
/-!
DEFINITION. Machine/Brakes.lean: checks, votes and quanta (R17 to R19, R68 to R77), PART_QMASK and the clear of the turn
counters (R79, R82).
-/
namespace Sys2Proof.Machine

open Sys2Proof

/-- What the check before a consuming instruction looks at (R68): nothing, a far-port read, a landing, or a launch. -/
inductive Check where
  | none
  | far (cause : Nat) (ready : Bool)
  | land (region : Nat) (ready : Bool)
  | launch (ready : Bool)
  deriving DecidableEq, Repr

/-- The check of the instruction of a BP (R17, R19, R68). A read that was never made is not in the response queue. -/
def State.checkOf (s : State) (p m st b n : Nat) : Check :=
  let w := s.word (m * 16 + st) b n
  match opOf w with
  | 7 =>
    let step := rowOf (opaOf w)
    let bp := laneOf (opaOf w)
    let t := (opbOf (s.word (m * 16 + st) bp step)).toNat % 4
    if t = 1 ∨ t = 2 then
      let id := 2 * m + (t - 1)
      let ready := match s.slotOf id st bp step with
        | some j => (s.slot id j).done
        | _ => false
      .far (if s.fpKind id = 2 then 1 else 0) ready
    else .none
  | 9 =>
    match s.landOwner m (laneOf (opaOf w)) with
    | some j =>
      let r := s.portRegion m 1 j
      if s.portMode m 1 j = 1 ∧ s.horizon p ≤ (s.region r).budget then .land r (s.landingComplete r) else .none
    | _ => .none
  | 8 =>
    match (List.range 8).find? (fun j => s.portMode m 0 j == 1 && (s.launchPort m j).bits.getLsbD (laneOf (opdOf w)) && (s.launchPort m j).fireBit == laneOf (opdOf w)) with
    | some j =>
      let r := s.portRegion m 0 j
      let g := s.region r
      if g.budget < s.horizon p then
        .launch (s.regionIdle r && g.lands.all (fun k => !(s.landPort (k / 8) (k % 8)).accepted && !(s.landPort (k / 8) (k % 8)).owes))
      else .none
    | _ => .none
  | _ => .none

/-- The cause a check votes for, when it fails. -/
def Check.fails : Check → Option Nat
  | .far c false => some c
  | .land _ false => some 2
  | .launch false => some 3
  | _ => Option.none

/-- BRAKE_CHECK (R17, R19, R69, R71): the check before step n, of the next turn when `next`: then n < K, and otherwise n ≥ K, so that
turn 0 has no check whose point would lie before it. Slack of a region with B ≥ K is measured here (R123). -/
def execBrakeCheck (m : Mill) (st : Stone) (b : Bp) (n : Step) (next : Bool) (s : State) : Out :=
  match s.millOwner m with
  | none => .next s
  | some p =>
    if s.running p && next == decide (n.val < s.horizon p) then
      let c := s.checkOf p m st b n
      let point := if next then s.depth p + n.val - s.horizon p else n.val - s.horizon p
      let s := match c with
        | .land r _ => s.settleSlack r (s.cycleOf p point)
        | _ => s
      match c.fails with
      | some cause =>
        let o := s.cycleOf p point
        let s := s.vote p n next 0 cause o
        .next (s.modPart p (fun x => { x with rechecks := x.rechecks ++ [⟨n, next, 0, cause, o, (m.val * 16 + st.val) * 64 + b.val⟩] }))
      | none => .next s
    else .next s

/-- BRAKE_RECHECK (R71): a result that was not ready is checked again; the first check that passes ends the checking. -/
def execBrakeRecheck (m : Mill) (st : Stone) (b : Bp) (n : Step) (s : State) : Out :=
  match s.millOwner m with
  | none => .next s
  | some p =>
    let key := (m.val * 16 + st.val) * 64 + b.val
    match (s.part p).rechecks.find? (fun r => r.ref == key && r.hold == n.val) with
    | none => .next s
    | some r =>
      let rest := (s.part p).rechecks.erase r
      if s.running p then
        match (s.checkOf p m st b n).fails with
        | some cause =>
          let s := s.vote p r.hold r.next (r.round + 1) cause r.origin
          .next (s.modPart p (fun x => { x with rechecks := rest ++ [{ r with round := r.round + 1, cause := cause }] }))
        | none => .next (s.modPart p (fun x => { x with rechecks := rest }))
      else .next s

/-- Mask of the causes of a set of votes. -/
def causeMask (vs : List Vote) : Nat := vs.foldl (fun a v => a ||| 2 ^ v.cause) 0

/-- The limit is reached (R74): the round and every later one for the step are ignored, the step executes, the turn is invalid
and the partition halts at its end on every module. -/
def State.brakeLimit (s : State) (p hold mask : Nat) : State :=
  let served := if (s.part p).hold = hold then (s.part p).served else 0
  let s := s.modPart p (fun x => { x with
    votes := x.votes.filter (fun v => v.next || v.hold != hold), rechecks := x.rechecks.filter (fun v => v.next || v.hold != hold),
    limitSteps := hold :: x.limitSteps })
  let s := s.raise 0x2001 p [hold, served, mask, s.get (F.TURN_COUNT_LO_value p)]
  (s.haltCause p 6).modPart p (fun x => { x with invalid := true })

/-- A quantum begins before a hold step (R72, R77): `mask` its causes, `own` those counted here (a SOFTWARE vote counts only on
the module that raised it). -/
def State.beginQuantum (s : State) (p hold mask own : Nat) : State :=
  let s := s.modPart p (fun x =>
    let same := x.served != 0 && x.hold == hold
    let served := if same then x.served + 1 else 1
    let causes := if same then x.servedCauses ||| mask else mask
    { x with hold := hold, served := served, servedCauses := causes, quanta := x.quanta + 1, lastHold := some (hold, served, causes),
             holdLog := if same then x.holdLog.map (fun e => if e.1 = hold then (hold, served) else e) else x.holdLog ++ [(hold, served)],
             causeQuanta := (List.range 7).foldl (fun m c => if own.testBit c then mset (fun _ => 0) m c (mget (fun _ => 0) m c + 1) else m) x.causeQuanta })
  (s.put (F.TURN_STATUS_holding p) 1).put (F.TURN_STATUS_hold_causes p) mask

/-- VOTE_TAKES_EFFECT (R70, R72, R74): every vote of a round for a hold step takes effect at once; together they are one
quantum, or, once brake_limit quanta have been held before the step, none. -/
def execVoteTakesEffect (p : Part) (hold : Step) (round : Nat) (s : State) : Out :=
  let s := s.votesDue p (fun n => n != hold.val)
  let x := s.part p
  let mine (v : Vote) : Bool := !v.next && v.hold == hold.val && v.round == round
  let vs := x.votes.filter mine
  if !s.running p || vs.isEmpty then .next s
  else
    let mask := causeMask vs
    let limit := s.get (F.TURN_CTRL_brake_limit p)
    let served := if x.hold = hold.val then x.served else 0
    if limit ≠ 0 ∧ limit ≤ served then .next (s.brakeLimit p hold mask)
    else .next ((s.modPart p (fun x => { x with votes := x.votes.filter (fun v => !mine v) })).beginQuantum p hold mask
      (causeMask (vs.filter (fun v => !(v.cause == 6 && v.remote)))))

/-- BRAKE_QUANTUM_END (R72). -/
def execBrakeQuantumEnd (p : Part) (s : State) : Out :=
  .next ((s.put (F.TURN_STATUS_holding p) 0).put (F.TURN_STATUS_hold_causes p) 0)

/-- PART_VOTE (R68, R71, R78): ignored unless the partition is RUNNING. A write accepted during a hold votes at the hold step, whose
cycle is known only when it executes. -/
def execPartVote (p : Part) (quanta : BitVec 8) (n : Step) (s : State) : Out :=
  if !s.running p then .next s
  else if s.on (F.TURN_STATUS_holding p) then
    .next (s.modPart p (fun x => { x with votePend := x.votePend ++ [(quanta.toNat, x.hold)] }))
  else
    let (h, nx) := s.holdOf p n
    .next (s.voteRounds p h nx quanta.toNat 6 (s.cycleOf p n))

/-- The turn counters of R82 go to 0. A clear that waits still waits; a watch unit that has fired has done so before every turn to come
(R342). -/
def State.zeroCounters (s : State) (p : Nat) : State :=
  let s := s.each ([R.TURN_COUNT_LO p, R.TURN_COUNT_HI p, R.TURN_QUANTA_LO p, R.TURN_QUANTA_HI p, R.TURN_LASTBRAKE p] ++ (List.range 8).map (R.TURN_CAUSE p))
    (fun s a => s.setReg a 0)
  let s := s.put (F.TURN_STATUS_invalid_count p) 0
  { s with watchFirst := (List.range 16).foldl (fun m u =>
      if (mget (fun _ => none) m (watchIdx p u)).isSome then mset (fun _ => none) m (watchIdx p u) (some 0) else m) s.watchFirst }

/-- A clear takes effect (R82). -/
def State.clearTurns (s : State) (p : Nat) : State := (s.zeroCounters p).put (F.TURN_CTRL_clear p) 0

/-- TURN_CTRL_CLEAR (R82). -/
def execTurnCtrlClear (p : Part) (s : State) : Out :=
  if s.pstate p = stEmpty ∨ s.pstate p = stHalted then .next (s.clearTurns p) else .next (s.put (F.TURN_CTRL_clear p) 1)

/-- PART_QMASK_WRITE (R79): set, or refused with the first reason that holds. -/
def execPartQmaskWrite (p : Part) (value : BitVec 4) (s : State) : Out :=
  if !s.partExists p then .next s
  else
    let v := value.toNat
    let refuse (r : Nat) : Out := .next (s.raise 0x100E p [v, r])
    if s.pstate p ≠ stEmpty then refuse 1
    else if (List.range 4).any (fun q => value.getLsbD q && !s.quadEnabled q) then refuse 2
    else if (List.range 4).any (fun q => value.getLsbD q && (List.range 4).any (fun p' => p' != p.val && s.ownsQuad p' q)) then refuse 3
    else .next (s.put (F.PART_QMASK_qmask p) v)

end Sys2Proof.Machine
end

