-- ==== Sys2Proof/Machine/Flume.lean ====
section
/-!
DEFINITION. Machine/Flume.lean: the flume's own commands: waves, landing words, memory blocks, pin ports, parity, quiesce and
read-back (R109 to R135, R427).
-/
namespace Sys2Proof.Machine

open Sys2Proof

/-! ## Ports -/

/-- FLUME_HELD_WORD_SEND (R114): a fire-mode port that holds a word sends it when the region is idle. -/
def execFlumeHeldWordSend (m : Mill) (port : Fin 8) (s : State) : Out :=
  match (s.launchPort m port).held with
  | some w => .next (if s.regionIdle (s.portRegion m 0 port) then s.sendWave m port w else s)
  | none => .next s

/-- Bits of a launch port as they stand. -/
def State.launchWord (s : State) (m j : Nat) : Row := s.launchRow m &&& (s.launchPort m j).bits

/-- A level-mode port whose bits differ from the last word it sent. -/
def State.levelDue (s : State) (m j : Nat) : Bool := s.portMode m 0 j == 2 && s.launchWord m j != (s.launchPort m j).last

/-- LEVEL_PORT_SEND (R115, R128, R132): a level-mode port whose bits have changed sends them when the region is idle. At the end of a
step every port of the region finds it idle, so all that are due send. -/
def execLevelPortSend (m : Mill) (port : Fin 8) (s : State) : Out :=
  let q := quadOfMill m
  let r := s.portRegion m 0 port
  if s.levelDue m port && s.rstage q r == 3 && !s.quiescing q && s.regionIdle r then
    let due := (s.region r).launches.filter (fun k => s.levelDue (k / 8) (k % 8))
    .next (s.each due (fun s k => s.sendWave (k / 8) (k % 8) (s.launchWord (k / 8) (k % 8))))
  else .next s

/-- A word in a landing port's bits enters the landing register (R116). -/
def State.land (s : State) (m j : Nat) (w : Row) : State :=
  let x := s.landPort m j
  (s.setLandRow m ((s.landRow m &&& ~~~x.bits) ||| (w &&& x.bits))).setLandPort m j { x with accepted := true, takenAt := none }

/-- A landing port acknowledges a word that it discards: its region is clear of it (R122, R124). -/
def State.discardWord (s : State) (m j cyc : Nat) : State :=
  ((s.setLandPort m j { s.landPort m j with owes := false }).regionTook (s.portRegion m 1 j) (m * 8 + j) cyc).ackLand m j

/-- A completed word stands at a landing port: every bit holds data, or shows the illegal code. -/
def State.wordAt (s : State) (m j : Nat) (illegal : Row) : Bool :=
  let x := s.landPort m j
  !x.ack && x.nets.all (fun e => illegal.getLsbD e.1 || s.netFull (quadOfMill m) e.2)

/-- The word of a landing port's nets; a bit with the illegal code is 0 (R120). -/
def State.landWord (s : State) (m j : Nat) (illegal : Row) : Row :=
  (s.landPort m j).nets.foldl (fun w e =>
    setLane w e.1 (!illegal.getLsbD e.1 && s.netRail (quadOfMill m) e.2 == .data true)) 0

/-- An overrun of a watched stream port (R119). -/
def State.overrun (s : State) (m j : Nat) : State :=
  let i := portIdx m 1 j
  let was := s.on (F.FLM_PORTSTAT_overrun.sel i)
  let s := (s.put (F.FLM_PORTSTAT_overrun.sel i) 1).bump F.FLM_DROPCNT_overruns 1
  if !was && s.on F.FLM_CTRL_ovr_event then s.raise 0x5002 (ownerField (s.millOwner m)) [m, j, s.portRegion m 1 j] else s

/-- LANDING_WORD_ACCEPT (R116, R119, R120, R122, R124): the completed word on the port's nets crosses into the step domain; `illegal`
marks the bits that a fault shows with the illegal code, `cycle` is the partition cycle of the edge. -/
def execLandingWordAccept (m : Mill) (port : Fin 8) (illegal : Row) (cycle : Nat) (s : State) : Out :=
  let j := port.val
  let x := s.landPort m j
  let mode := s.portMode m 1 j
  let r := s.portRegion m 1 j
  if mode = 0 ∨ s.rstage (quadOfMill m) r ≠ 3 ∨ s.wordAt m j illegal = false ∨ (mode = 1 ∧ x.accepted = true) then .next s
  else
    let bad := illegal &&& x.bits
    let s := if bad ≠ 0 then s.railError (quadOfMill m) (m.val % 64) j else s
    let w := s.landWord m j illegal
    if x.drain then .next ((s.bump F.FLM_DROPCNT_stall_drops 1).discardWord m j cycle)
    else
      let s := s.portCount m 1 j
      if mode = 1 then
        if x.owes then .next (s.discardWord m j cycle) else .next ((s.land m j w).regionTook r (m.val * 8 + j) cycle)
      else
        let s := if x.accepted && mode = 3 then s.overrun m j else s
        .next (((s.land m j w).regionTook r (m.val * 8 + j) cycle).ackLand m j)

/-- Some landing port of quadrant q is in drain. -/
def State.draining (s : State) (q : Nat) : Bool := s.flume.land.any (fun e => e.1 / 512 == q && e.2.drain)

/-- FLUME_STALL_DRAIN (R124): the word that waited is discarded and counted; the first drain of a quadrant is raised. -/
def execFlumeStallDrain (m : Mill) (port : Fin 8) (s : State) : Out :=
  let q := quadOfMill m
  let x := s.landPort m port
  if s.get F.FLM_STALLTO_timeout = 0 || x.drain || s.portMode m 1 port == 0 || !s.wordAt m port 0 || (s.portMode m 1 port == 1 && x.accepted) then .next s
  else
    let first := !s.draining q
    let s := (s.setLandPort m port { x with drain := true }).bump F.FLM_DROPCNT_stall_drops 1
    let s := s.discardWord m port 0
    .next (if first then s.raise 0x5004 (ownerField (s.quadOwner q)) [q, m, port] else s)

/-- DRAIN_EXIT (R124). -/
def execDrainExit (m : Mill) (port : Fin 8) (s : State) : Out :=
  .next (s.setLandPort m port { s.landPort m port with drain := false })

/-! ## Cells -/

/-- The value an input carries; none at spacer. What a cell makes of the illegal code is not stated: `free` stands for it. -/
def railValue (free : Bool) (illegal : Bool) (d : DualRail) : Option Bool :=
  if illegal then some free else match d with | .data v => some v | .spacer => none

/-- A cell's output rails, C-element and acknowledge for data, and for spacer. -/
def Cell.full (x : Cell) (v : Bool) : Cell := { x with rail1 := v, rail0 := !v, celem := true, ack := true, level := v }
def Cell.empty (x : Cell) : Cell := { x with rail0 := false, rail1 := false, celem := false, ack := false }

/-- A cell of its own (R109, R110): the output leaves spacer once every input used holds data and its receivers are free, and returns
once every input used has returned and they have taken the data; otherwise all stays as it was. -/
def cellStep (x : Cell) (ins : List (Option Bool)) (taken free : Bool) : Cell :=
  let us := ins.zipIdx.filter (fun e => x.used.getLsbD e.2)
  let v (i : Nat) : Bool := x.used.getLsbD i && (ins.getD i none).getD false
  if us.isEmpty then x
  else if us.all (fun e => e.1.isSome) && !x.ack && free then x.full (x.table.getLsbD (ttIndex [v 0, v 1, v 2]))
  else if us.all (fun e => e.1.isNone) && x.ack && taken then x.empty
  else x

/-- A wide multiplexer of k select bits in the quadrant's cells from `g` on (R111): output early, on the last cell;
acknowledge once every input holds data; back to spacer once every input has returned. `v`: the value of an input net. -/
def State.muxStep (s : State) (q g k : Nat) (v : Nat → Option Bool) : State :=
  let n := 2 ^ k
  let key (i : Nat) : Nat := q * 196608 + g + i
  let d (i : Nat) : Option Bool := v (s.cell (key i)).inA
  let sel : List (Option Bool) :=
    [v (s.cell (key 0)).inB, v (s.cell (key 0)).inC] ++ (if k = 4 then [v (s.cell (key 1)).inB, v (s.cell (key 1)).inC] else [])
  let ins := (List.range n).map d ++ sel
  let last := key (n - 1)
  let net := g + n - 1
  let full := (s.cell last).rail0 || (s.cell last).rail1
  let ackTo (s : State) (b : Bool) : State :=
    s.each (List.range n) (fun s i => s.setCell (key i) { s.cell (key i) with celem := b, ack := b })
  if ins.all Option.isNone then
    if full && s.netTaken q net then ackTo (s.setCell last { s.cell last with rail0 := false, rail1 := false }) false else s
  else
    let s := match sel.all Option.isSome, d (ttIndex (sel.map (·.getD false))) with
      | true, some o =>
        if !full && s.netFree q net && !(s.cell last).ack then
          s.setCell last { s.cell last with rail1 := o, rail0 := !o, level := o }
        else s
      | _, _ => s
    if ins.all Option.isSome && ((s.cell last).rail0 || (s.cell last).rail1) then ackTo s true else s

/-- FLUME_CELL_WAVE (R110, R111): a cell takes what its input nets carry; `illegal`: inputs that a fault shows with the illegal code.
Cells in reset stay at spacer (R128). -/
def execFlumeCellWave (q : Quad) (cell : Fin 196608) (illegal : BitVec 3) (s : State) : Out :=
  let k := q.val * 196608 + cell.val
  let x := s.cell k
  if x.used = 0 ∨ s.rstage q x.region ≠ 3 then .next s
  else
    let (f, s) := s.fresh 3
    let bad : List Nat := ([(0, x.inA), (1, x.inB), (2, x.inC)].filter (fun e => illegal.getLsbD e.1)).map (·.2)
    let v (n : Nat) : Option Bool := railValue (f.getLsbD 0) (bad.contains n) (s.netRail q n)
    let s := match x.mux with
      | 0 => s.setCell k (cellStep x [v x.inA, v x.inB, v x.inC] (s.netTaken q cell) (s.netFree q cell))
      | 1 => s.muxStep q (cell.val / 4 * 4) 2 v
      | _ => s.muxStep q (cell.val / 16 * 16) 4 v
    .next (s.settleNets q)

/-! ## Memory blocks -/

/-- Entries of a block: 262,144 bits over its width (R125). -/
def MemBlock.entries (x : MemBlock) : Nat := 262144 / max 1 x.width

/-- A word cut to the block's width. -/
def MemBlock.cut (x : MemBlock) (w : Row) : Row := BitVec.ofNat 64 (w.toNat % 2 ^ x.width)

/-- Write entry i: a clean code word. -/
def MemBlock.put (x : MemBlock) (i : Nat) (w : Row) : MemBlock :=
  { x with data := mset (fun _ => 0) x.data i (x.cut w), ue := mset (fun _ => false) x.ue i false }

def MemBlock.at (x : MemBlock) (i : Nat) : Row := mget (fun _ => 0) x.data i

/-- A FIFO takes an entry. -/
def MemBlock.push (x : MemBlock) (w : Row) : MemBlock :=
  { x.put x.wp w with wp := (x.wp + 1) % x.entries, occ := x.occ + 1 }

/-- The block sends a word on the lowest n bits of its output port. -/
def MemBlock.send (x : MemBlock) (w : Row) (n : Nat) : MemBlock := { x with last := w, sent := n, phase := 1 }

/-- The errors met on reading entry i of a block (R126). -/
def State.blockEcc (s : State) (q k i : Nat) (ecc : WordEcc) : State :=
  let x := s.block q k
  match ecc, mget (fun _ => false) x.ue i with
  | .corrected, false => s.bump F.FLM_ECC_ce_count 1
  | .clean, false => s
  | _, _ =>
    let s := s.setBlock q k { x with ue := mset (fun _ => false) x.ue i true }
    ((s.put F.FLM_ECC_ue_flag 1).flumeFault 2 q k 0 0x5005).faultOwner (s.quadOwner q) false

/-- A whole word stands at a block's input: every bit holds data, or, at the places in `illegal`, shows the illegal code. -/
def State.blockFull (s : State) (q : Nat) (x : MemBlock) (illegal : List Nat) : Bool :=
  !x.ack && x.ins.zipIdx.all (fun e => illegal.contains e.2 || s.netFull q e.1)

/-- The number that nets spell, net 0 lowest, from place `at_` of the block's input on; a bit with the illegal code is 0 (R120). -/
def State.netsNat (s : State) (q at_ : Nat) (illegal : List Nat) (ns : List Nat) : Nat :=
  ttIndex (ns.zipIdx.map (fun e => !illegal.contains (at_ + e.2) && s.netRail q e.1 == .data true))

/-- The illegal code at a block's input (R120). FLM_ERR names the tile of the block, as port 0 (log entry 26). -/
def State.blockRails (s : State) (q k : Nat) (illegal : List Nat) : State :=
  if illegal.any (fun i => decide (i < (s.block q k).ins.length)) then s.railError q (k / 8) 0 else s

/-- The data word at a block's input. -/
def State.blockWord (s : State) (q : Nat) (x : MemBlock) (illegal : List Nat) : Row :=
  BitVec.ofNat 64 (s.netsNat q (x.insW.length + x.insA.length) illegal x.insD)

/-- FIFO_WRITE (R125, R120): a full FIFO makes the write handshake wait. -/
def execFifoWrite (q : Quad) (block : Fin 512) (illegal : List Nat) (s : State) : Out :=
  let x := s.block q block
  if x.mode ≠ 1 ∨ s.rstage q x.region < 2 ∨ s.blockFull q x illegal = false ∨ x.entries ≤ x.occ then .next s
  else
    let w := s.blockWord q x illegal
    .next (((s.blockRails q block illegal).setBlock q block { x.push w with ack := true }).settleNets q)

/-- FIFO_READ (R125, R126, R132): the oldest entry is sent once the last one has been taken. An empty FIFO sends nothing. -/
def execFifoRead (q : Quad) (block : Fin 512) (ecc : WordEcc) (s : State) : Out :=
  let x := s.block q block
  if x.mode ≠ 1 ∨ x.occ = 0 ∨ x.phase ≠ 0 ∨ s.rstage q x.region < 3 ∨ s.quiescing q = true then .next s
  else
    let s := s.blockEcc q block x.rp ecc
    let x := s.block q block
    .next ((s.setBlock q block { x.send (x.at x.rp) x.width with rp := (x.rp + 1) % x.entries, occ := x.occ - 1 }).settleNets q)

/-- RAM_REQUEST (R125, R126, R120): a write answers with a one-bit done, whose value is 1 (log entry 64), a read with the data. -/
def execRamRequest (q : Quad) (block : Fin 512) (illegal : List Nat) (ecc : WordEcc) (s : State) : Out :=
  let x := s.block q block
  if x.mode ≠ 2 ∨ s.rstage q x.region < 2 ∨ s.blockFull q x illegal = false ∨ x.phase ≠ 0 then .next s
  else
    let write := decide (s.netsNat q 0 illegal x.insW = 1)
    let i := s.netsNat q x.insW.length illegal x.insA % x.entries
    let w := s.blockWord q x illegal
    let s := s.blockRails q block illegal
    if write then .next ((s.setBlock q block { (x.put i w).send 1 1 with ack := true }).settleNets q)
    else
      let s := s.blockEcc q block i ecc
      let x := s.block q block
      .next ((s.setBlock q block { x.send (x.at i) x.width with ack := true }).settleNets q)

/-- DELAY_LINE_INPUT (R125, R126, R120, R132): the oldest of N entries goes out. -/
def execDelayLineInput (q : Quad) (block : Fin 512) (illegal : List Nat) (ecc : WordEcc) (s : State) : Out :=
  let x := s.block q block
  if x.mode ≠ 3 ∨ s.rstage q x.region < 2 ∨ s.quiescing q = true ∨ s.blockFull q x illegal = false ∨ x.phase ≠ 0 then .next s
  else
    let w := s.blockWord q x illegal
    let s := (s.blockRails q block illegal).blockEcc q block x.wp ecc
    let x := s.block q block
    let o := x.at x.wp
    let i := (x.wp + 1) % max 1 x.delayN
    .next ((s.setBlock q block { (x.put x.wp w).send o x.width with wp := i, rp := i, ack := true }).settleNets q)

/-! ## Pin ports -/

/-- PIN_INPUT_WAVE (R127, R428): the port is ready for another wave. It samples the level, or none where it is changing and the sampler
resolves it either way. -/
def execPinInputWave (q : Quad) (pin : Fin 160) (level : Option Bool) (s : State) : Out :=
  let k := pinKey q pin
  let x := s.pinPort k
  if !x.used || x.out || x.sync || x.phase != 0 || s.rstage q x.region != 3 || s.quiescing q then .next s
  else
    let (f, s) := s.fresh 4
    let v := level.getD (f.getLsbD 0)
    let s := s.setBit (F.TIO_IN_level (pin.val / 32)) (pin.val % 32) v
    .next ((s.setPinPort k { x with bit := v && !x.unserved, phase := 1 }).settleNets q)

/-- PIN_OUTPUT_WAVE (R127, R120, R427, R428): the wave on the port's net; `illegal`: a fault shows it with the illegal code. The place
of a pin port among the tiles is not stated: FLM_ERR.unit is free. A step-synchronous port keeps one wave until its update step. -/
def execPinOutputWave (q : Quad) (pin : Fin 160) (illegal : Bool) (cycle : Nat) (s : State) : Out :=
  let k := pinKey q pin
  let x := s.pinPort k
  if !x.used || !x.out || s.rstage q x.region != 3 || x.ack || !(illegal || s.netFull q x.net) || (x.sync && x.held.isSome) then .next s
  else
    let v := !illegal && s.netRail q x.net == .data true
    let (f, s) := s.fresh 5
    let s := if illegal then s.railError q (f.toNat % 64) 8 else s
    let s := if x.unserved then s
      else if x.sync then
        let s := s.regionTook x.region (4096 + pin.val) cycle
        s.setPinPort k (if x.owes then { x with owes := false } else { x with held := some v })
      else s.drivePin k v
    .next ((s.setPinPort k { s.pinPort k with ack := true }).settleNets q)

/-! ## Integrity, quiesce, read-back -/

/-- PARITY_SCAN (R133): a fabric counts as powered in Run, Idle and Nap, where it keeps its state (log entry 65). -/
def execParityScan (q : Quad) (column : Fin 384) (good : Bool) (s : State) : Out :=
  if s.on F.FLM_CTRL_parity_scan && !good && decide (s.dstate (32 + q.val) < 3) then
    .next ((s.flumeFault 3 q column 0 0x5007).faultOwner (s.quadOwner q) true)
  else .next s

/-- A quiesce request of quadrant q is accepted (R132). -/
def State.mayQuiesce (s : State) (q : Nat) : Bool :=
  match s.quadOwner q with
  | none => true
  | some p => s.pstate p == stHalted

/-- FLM_QUIESCE_WRITE (R132): a quadrant whose request is not accepted keeps its bit. Clearing a bit releases the quadrant. -/
def execFlmQuiesceWrite (value : BitVec 4) (s : State) : Out :=
  .next (s.each [0, 1, 2, 3] (fun s q =>
    if value.getLsbD q then (if s.mayQuiesce q then s.setBit F.FLM_QUIESCE_request q true else s)
    else (s.setBit F.FLM_QUIESCE_request q false).setBit F.FLM_STATUS_quiesced q false))

/-- Every wave in a quadrant has completed its four phases. -/
def State.quadIdle (s : State) (q : Nat) : Bool :=
  s.allIdle (fun k _ => k / 196608 == q) (fun k => k / 512 == q) (fun k => k / 512 == q) (fun k _ => k / 512 == q) (fun k _ => k / 160 == q)

/-- QUIESCE_COMPLETE (R132). -/
def execQuiesceComplete (q : Quad) (s : State) : Out :=
  if s.quiescing q && s.quadIdle q then .next (s.setBit F.FLM_STATUS_quiesced q true) else .next s

/-- FLM_PORTSTAT of a port: the stored fields with what the port's state shows (R135). -/
def State.portStatWord (s : State) (m dir j : Nat) : Word :=
  let w := s.reg (selAddr R.FLM_PORTSTAT (portIdx m dir j))
  let busy := if dir = 0 then (s.launchPort m j).held.isSome || (s.launchPort m j).phase != 0
    else (s.landPort m j).accepted || (s.landPort m j).owes
  let stalled := dir == 1 && (s.landPort m j).drain
  let w := F.FLM_PORTSTAT_busy.into w (if busy then 1 else 0)
  F.FLM_PORTSTAT_stalled.into w (if stalled then 1 else 0)

/-- The four read-back bits of a cell (R132). -/
def cellBits (x : Cell) : Nat :=
  (if x.rail0 then 1 else 0) + (if x.rail1 then 2 else 0) + (if x.celem then 4 else 0) + (if x.ack then 8 else 0)

/-- Bits [32j + 31 : 32j] of a block's contents, entry i at bit i × width. -/
def MemBlock.word32 (x : MemBlock) (j : Nat) : Nat :=
  let w := max 1 x.width
  if w = 64 then (x.at (j / 2)).toNat / 2 ^ (32 * (j % 2)) % 2 ^ 32
  else (List.range (32 / w)).foldr (fun i acc => (x.at (j * (32 / w) + i)).toNat + 2 ^ w * acc) 0 % 2 ^ 32

/-- A read-back word (R132): 0 beyond the space. The order of the ports, and the half of a word wider than 32 bits, are the
model's (log entry 12). -/
def State.readBack (s : State) (q space i : Nat) : Nat :=
  match space with
  | 0 => if i < 24576 then (List.range 8).foldr (fun k acc => cellBits (s.cell (q * 196608 + 8 * i + k)) + 16 * acc) 0 else 0
  | 1 => if i < 512 * 8192 then (s.block q (i / 8192)).word32 (i % 8192) else 0
  | 2 =>
    if i < 2048 then
      let x := s.block q (i / 4)
      match i % 4 with | 0 => x.wp | 1 => x.rp | 2 => x.occ | _ => x.mode
    else 0
  | _ =>
    if i < 2048 then
      let m := q * 64 + i / 32
      let dir := i / 16 % 2
      let j := i / 2 % 8
      if i % 2 = 1 then (s.portStatWord m dir j).toNat
      else if dir = 0 then ((s.launchPort m j).held.getD (s.launchPort m j).last).toNat % 2 ^ 32
      else (s.landRow m &&& (s.landPort m j).bits).toNat % 2 ^ 32
    else 0

/-- FLM_RBDATA_READ (R132): refused while the quadrant is not quiesced; a peek leaves the index. -/
def execFlmRbdataRead (peek : Bool) (s : State) : Out :=
  let q := s.get F.FLM_RBADDR_quadrant
  if s.bit F.FLM_STATUS_quiesced q then
    let i := s.get F.FLM_RBADDR_index
    let s := { s with readData := BitVec.ofNat 32 (s.readBack q (s.get F.FLM_RBADDR_space) i) }
    .next (if peek then s else s.put F.FLM_RBADDR_index (i + 1))
  else .next { s.put F.FLM_RBADDR_refused 1 with readData := 0 }

/-! ## Clears -/

/-- FLM_CNT_CLEAR (R135). -/
def execFlmCntClear (s : State) : Out := .next (s.setReg R.FLM_DROPCNT 0)

/-- FLM_SLACK_CLEAR (R123): every bin of the selected region; the governor's copy stays. -/
def execFlmSlackClear (region : Fin 2048) (s : State) : Out :=
  let s := s.put F.FLM_SLACKSEL_region region
  .next (s.each (List.range 16) (fun s b => { s with flume := { s.flume with hist := mset (fun _ => 0) s.flume.hist (region.val * 16 + b) 0 } }))

/-- FLM_ECC_CE_CLEAR (R135). -/
def execFlmEccCeClear (s : State) : Out := .next (s.put F.FLM_ECC_ce_count 0)

end Sys2Proof.Machine
end

