-- ==== Sys2Proof/Machine/Image.lean ====
section
/-!
DEFINITION. Machine/Image.lean: a Hok image as bytes: header, segment table, directories, frames, and the checks of its frames
that need nothing but the image (R238 to R245, R175 checks 5 to 8).
-/
namespace Sys2Proof.Machine

open Sys2Proof

abbrev Bytes := List Byte

/-- Bytes o to o + n − 1, and the little-endian number in them. -/
def slice (b : Bytes) (o n : Nat) : Bytes := (b.drop o).take n
def num (b : Bytes) (o n : Nat) : Nat := leNat (slice b o n)
/-- All of bytes o to e − 1 are 0. -/
def zeros (b : Bytes) (o e : Nat) : Bool := (slice b o (e - o)).all (· == 0)

/-! ## Header (R239) -/

def hMagic (h : Bytes) : Nat := num h 0 4
def hVersion (h : Bytes) : Nat := num h 4 2
def hKind (h : Bytes) : Nat := num h 8 1
def hFamily (h : Bytes) : Nat := num h 9 1
def hParts (h : Bytes) : Nat := num h 0xA 1
def hMinStep (h : Bytes) : Nat := num h 0xB 1
def hMaxStep (h : Bytes) : Nat := num h 0xC 1
def hProfile (h : Bytes) : Nat := num h 0xD 1
def hQuads (h : Bytes) : Nat := num h 0xE 1
def hPair (h : Bytes) : Nat := num h 0xF 1
def hDepth (h : Bytes) : Nat := num h 0x10 1
def hPaces (h : Bytes) : Nat := num h 0x11 1
def hKeySource (h : Bytes) : Nat := num h 0x12 1
def hPart (h : Bytes) : Nat := num h 0x13 1
def hBuild (h : Bytes) : Nat := num h 0x14 4
def hIndex (h : Bytes) : Nat := num h 0x18 1
def hCount (h : Bytes) : Nat := num h 0x19 1
def hTopo (h : Bytes) : Nat := num h 0x1A 1
def hNx (h : Bytes) : Nat := num h 0x1B 1
def hNy (h : Bytes) : Nat := num h 0x1C 1
def hL (h : Bytes) : Nat := num h 0x1E 2
def hH (h : Bytes) : Nat := num h 0x20 2
def hClocks (h : Bytes) : Nat := num h 0x22 1
def hApprox (h : Bytes) : Nat := num h 0x23 1
def hPeriod (h : Bytes) (k : Nat) : Nat := num h (0x24 + 4 * k) 2
def hPhase (h : Bytes) (k : Nat) : Nat := num h (0x26 + 4 * k) 2
def hFloor (h : Bytes) (k : Nat) : Nat := num h (0x44 + k) 1
def hLen (h : Bytes) : Nat := num h 0x48 8
def hSegs (h : Bytes) : Nat := num h 0x50 4
def hParent (h : Bytes) : Nat := num h 0x54 4
def hRange (h : Bytes) (k : Nat) : Nat × Nat := (num h (0x60 + 8 * k) 4, num h (0x64 + 8 * k) 4)
def hSha (h : Bytes) : Bytes := slice h 0x120 48

/-- Turn depth of the header's code (R60). -/
def hD (h : Bytes) : Nat := match hDepth h with | 0 => 512 | 1 => 1024 | 2 => 2048 | _ => 0

/-- Brake horizon K (R17, R70). -/
def hK (h : Bytes) : Nat := if 1 < hCount h then hL h + 16 else 64

/-- Reserved bytes are 0. -/
def hReservedOk (h : Bytes) : Bool := zeros h 6 8 && zeros h 0x1D 0x1E && zeros h 0xE4 0x120 && zeros h 0x150 0x1F0

/-- Fields that do not apply to the kind are 0; the depth code of a shell is 0b11 (R239). -/
def hKindFieldsOk (h : Bytes) : Bool :=
  if hKind h ≤ 3 then zeros h 0xD 0x10 && hDepth h == 3 && zeros h 0x11 0x12 && zeros h 0x13 0x48 && zeros h 0x54 0xD8
  else
    (if hKind h = 5 then zeros h 0x58 0x60 else zeros h 0x54 0xA0) &&
    (if hTopo h = 1 then decide (1 ≤ hNx h ∧ hNx h ≤ 8 ∧ 1 ≤ hNy h ∧ hNy h ≤ 8) else hTopo h == 0 && hNx h == 0 && hNy h == 0) &&
    (hCount h != 1 || (hL h == 0 && hH h == 0))

/-- Clock declarations (R66). -/
def hClocksOk (h : Bytes) : Bool :=
  decide (hClocks h ≤ 8) && decide (hApprox h < 2 ^ hClocks h) &&
  (List.range (hClocks h)).all (fun k =>
    if hPeriod h k = 0 then hPhase h k == 0 && !(hApprox h).testBit k else decide (hPhase h k < hPeriod h k))

/-! ## Segment table (R240) -/

structure SegEnt where
  raw : Bytes
  deriving DecidableEq, Repr

/-- A reader of image bytes: offset, length. -/
abbrev Reader := Nat → Nat → Bytes

def segEnt (rd : Reader) (i : Nat) : SegEnt := ⟨rd (0x200 + 48 * i) 48⟩
def SegEnt.off (e : SegEnt) : Nat := num e.raw 0 8
def SegEnt.len (e : SegEnt) : Nat := num e.raw 8 4
def SegEnt.idx (e : SegEnt) : Nat := num e.raw 0xC 4
def SegEnt.iv (e : SegEnt) : Bytes := slice e.raw 0x10 12
def SegEnt.tag (e : SegEnt) : Bytes := slice e.raw 0x20 16

/-- The entries obey R240. -/
def tableOk (rd : Reader) (h : Bytes) : Bool :=
  let n := hSegs h
  (List.range n).all (fun i =>
    let e := segEnt rd i
    let prev := if i = 0 then 0x200 + 48 * n else (segEnt rd (i - 1)).off + (segEnt rd (i - 1)).len
    e.idx == i && zeros e.raw 0x1C 0x20 && e.off % 4096 == 0 && e.len % 4096 == 0 && decide (4096 ≤ e.len) &&
    decide (e.len ≤ 2 ^ 20) && decide (prev ≤ e.off)) &&
  (if n = 0 then hLen h % 4096 == 0 && decide (0x200 ≤ hLen h)
   else (segEnt rd (n - 1)).off + (segEnt rd (n - 1)).len == hLen h)

/-! ## Keys and authentication (R245) -/

/-- The first key: the source key for kinds 1 to 3, the unwrapped k0 for kinds 4 and 5. -/
def firstKey (src : BitVec 256) (h : Bytes) : Option (BitVec 256) :=
  if hKind h ≤ 3 then some src
  else Config.unwrap (Config.hkdf src (slice h 0xA0 16) (h.take 0x24)) (slice h 0xB0 40)

/-- The header tag is right under a key. -/
def hTagOk (key : BitVec 256) (h : Bytes) : Bool := (Config.gcmOpen key (slice h 0xD8 12) (h.take 0x1F0) [] (slice h 0x1F0 16)).isSome

/-- A segment's plaintext, if its tag is right. -/
def openSeg (key : BitVec 256) (rd : Reader) (h : Bytes) (e : SegEnt) : Option Bytes :=
  Config.gcmOpen key e.iv (e.raw.take 16 ++ hSha h) (rd e.off e.len) e.tag

/-- The key that a directory carries for the next 16 segments, wrapped under the key in use; only the directory of segment
16j + 15 carries one, and only when segment 16j + 16 exists. -/
def carriesKey (h : Bytes) (i : Nat) : Bool := i % 16 == 15 && decide (i + 1 < hSegs h)

/-- A directory agrees with its entry and length (R241). -/
def dirOk (pt : Bytes) (i len : Nat) : Bool :=
  num pt 0 4 == i && num pt 4 2 + 1 == len / 4096 && zeros pt 6 8 && zeros pt 48 64

/-- The frames of a segment. -/
def segFrames (pt : Bytes) : List (Nat × Bytes) :=
  (List.range (num pt 4 2)).map (fun j => (num pt (64 + 4 * j) 4, slice pt (4096 * (j + 1)) 4096))

/-- SHA-384 of a plaintext as bytes in the header's order. -/
def shaBytes (plain : Bytes) : Bytes := natLe 48 (Config.sha384 plain).toNat

/-! ## Frames (R242) -/

abbrev Frames := List (Nat × Bytes)

def frClass (a : Nat) : Nat := a / 2 ^ 28
def frMill (a : Nat) : Nat := a / 2 ^ 13 % 256
def frStone (a : Nat) : Nat := a / 2 ^ 9 % 16
def frPort (a : Nat) : Nat := a / 2 ^ 10 % 8
def frGroup (a : Nat) : Nat := a / 4 % 128
def frQuad (a : Nat) : Nat := if frClass a = 4 then a / 2 ^ 19 % 4 else frMill a / 64

def frameAt (fs : Frames) (a : Nat) : Option Bytes := (fs.find? (fun f => f.1 == a)).map (·.2)

/-- The lowest of a list of frame addresses. -/
def lowest : List Nat → Option Nat
  | [] => none
  | a :: t => some (t.foldl min a)

/-- Frames of a partial image over those of the loaded one (R176). -/
def overlay (new old : Frames) : Frames := new ++ old.filter (fun f => !(new.any (fun g => g.1 == f.1)))

/-- Location bits that a class names. -/
def frNamed (c : Nat) : Nat :=
  match c with
  | 0 => 0x1FFFFF | 1 => 0x1FFC00 | 2 => 0x1FFE07 | 3 => 0x1FE0FF | 4 => 0x1C1FFF | 5 => 0x1FE000 | 6 => 0x1FFE00 | 8 => 0x1FFF
  | _ => 0

/-- A frame address is out of place (R244): D and n of a design image; n = 0 for a shell. -/
def frBad (d n : Nat) (a : Nat) : Bool :=
  let c := frClass a
  let loc := a % 2 ^ 28
  c == 7 || decide (9 ≤ c) || (loc &&& frNamed c) != loc || (if n = 0 then c != 8 else c == 8 || decide (n ≤ frQuad a)) ||
  (c == 1 && decide (6 ≤ frPort a)) || (c == 0 && (a % 4 == 3 || decide (d / 16 ≤ frGroup a)))

/-- Frames at fault as a whole (R244): `ranges` are a partial image's declared regions. -/
def regionFaults (d n : Nat) (ranges : Option (List (Nat × Nat))) (fs : Frames) : List Nat :=
  (fs.map (·.1)).filter (fun a =>
    frBad d n a || decide (1 < (fs.filter (fun f => f.1 == a)).length) ||
    (frClass a == 0 && !([0, 1, 2].all (fun p => fs.any (fun f => f.1 == a / 4 * 4 + p)))) ||
    (match ranges with
     | none => false
     | some rs => frClass a == 5 || !(rs.any (fun r => r != (0, 0) && decide (r.1 ≤ a) && decide (a ≤ r.2)))))

/-! ## Instructions -/

/-- An instruction of the image that is not a NOP without import: logical mill, stone, BP, step, word, and the address of the
part-0 frame that holds it. -/
structure Ins where
  m : Nat
  st : Nat
  b : Nat
  n : Nat
  w : IWord
  frame : Nat
  deriving DecidableEq, Repr

/-- Word i of a step group: its three parts. -/
def groupWord (fs : Frames) (a i : Nat) : IWord :=
  let part (p : Nat) : Nat := match frameAt fs (a + p) with | some b => num b (4 * i) 4 | none => 0
  BitVec.ofNat 96 (part 0 + 2 ^ 32 * part 1 + 2 ^ 64 * part 2)

/-- Every instruction that the frames give. -/
def insOf (fs : Frames) : List Ins :=
  ((fs.map (·.1)).filter (fun a => frClass a == 0 && a % 4 == 0)).flatMap (fun a =>
    (List.range 1024).filterMap (fun i =>
      let w := groupWord fs a i
      if w = 0 then none else some ⟨frMill a, frStone a, i % 64, 16 * frGroup a + i / 64, w, a⟩))

def Ins.op (i : Ins) : Nat := opOf i.w
def insAt (is : List Ins) (m st b n : Nat) : Option Ins := is.find? (fun i => i.m == m && i.st == st && i.b == b && i.n == n)

/-- A row number an instruction may name at depth d (R27, R28). -/
def rowOk (d r : Nat) : Bool := if r < 0x800 then decide (r < d) else decide (r < 0xE02) || decide (0xF00 ≤ r)

/-- An operand field is well formed (R32). -/
def opndOk (d : Nat) (x : BitVec 18) : Bool := rowOk d (rowOf x) && (!(rowOf x == 0xE00 || rowOf x == 0xE01) || laneOf x == 0)

/-- First row past the region of row r (R27, R47). -/
def regionEnd (d r : Nat) : Nat := if r < 0x800 then d else if r < 0xC00 then 0xC00 else if r < 0xE00 then 0xE00 else if r < 0xF00 then r + 1 else 0x1000

/-- All four operand fields are well formed. -/
def opnds4 (d : Nat) (w : IWord) : Bool := opndOk d (opaOf w) && opndOk d (opbOf w) && opndOk d (opcOf w) && opndOk d (opdOf w)

/-- The member of a FUSE group at BP b executes the op. -/
def mateIs (is : List Ins) (i : Ins) (b op : Nat) : Bool := match insAt is i.m i.st b i.n with | some j => j.op == op | none => false
def mateWord (is : List Ins) (i : Ins) (b : Nat) : IWord := match insAt is i.m i.st b i.n with | some j => j.w | none => 0

/-- The fields of a FUSE4 group led by BP `lead` (R43 to R46). -/
def fuse4Ok (d : Nat) (is : List Ins) (i : Ins) (lead : Nat) : Bool :=
  let w (j : Nat) := mateWord is i (lead + j)
  [0, 1, 2, 3].all (fun j => mateIs is i (lead + j) 4) &&
  (if opdOf (w 1) = fuse4Marker then
    opnds4 d (w 0) && opndOk d (opaOf (w 1)) && opndOk d (opbOf (w 1)) && opcOf (w 1) == 0 &&
    [2, 3].all (fun j => opaOf (w j) == 0 && opbOf (w j) == 0 && opcOf (w j) == 0 && opdOf (w j) == 0)
  else
    [0, 1, 2, 3].all (fun j => opnds4 d (w j)) && [1, 2, 3].all (fun j => ttOf (w j) == 0) && rowOk d ((ttOf (w 0)).toNat / 16))

/-- An instruction by itself, and with the members of its group, breaks no rule of R56. -/
def insOk (d : Nat) (is : List Ins) (i : Ins) : Bool :=
  let w := i.w
  let a := opaOf w
  let noTap := !tapOf w
  (w.extractLsb' 88 3 == 0) &&
  match i.op with
  | 0 => ttOf w == 0 && opbOf w == 0 && opcOf w == 0 && opdOf w == 0 &&
      (match (a.extractLsb' 16 2).toNat with
       | 0 => a == 0 && noTap
       | 1 => (a.extractLsb' 10 6) == 0 && (a.extractLsb' 6 4).toNat != i.st
       | 2 => (a.extractLsb' 9 7) == 0
       | _ => false)
  | 1 => opnds4 d w
  | 2 => (ttOf w).toNat / 256 == 0 && opndOk d a && opndOk d (opbOf w) && opndOk d (opcOf w) &&
      decide (0x800 ≤ rowOf (opdOf w)) && decide (rowOf (opdOf w) < 0xC00)
  | 3 =>
    if i.b % 2 = 0 then mateIs is i (i.b + 1) 3 && opnds4 d w
    else mateIs is i (i.b - 1) 3 && opndOk d a && opbOf w == 0 && opcOf w == 0 && opdOf w == 0
  | 4 => fuse4Ok d is i (i.b / 4 * 4)
  | 5 => ttOf w == 0 && noTap && laneOf a == 0 && rowOk d (rowOf a) && decide ((opbOf w).toNat < 3) && opcOf w == 0 && opdOf w == 0
  | 6 => ttOf w == 0 && noTap && laneOf a == 0 && rowOk d (rowOf a) && laneOf (opbOf w) == 0 && rowOk d (rowOf (opbOf w)) &&
      decide ((opcOf w).toNat < 8) && decide (rowOf (opbOf w) + (opcOf w).toNat + 1 ≤ regionEnd d (rowOf (opbOf w))) &&
      decide ((opdOf w).toNat < 3)
  | 7 => ttOf w == 0 && opcOf w == 0 && decide ((opbOf w).toNat < 8) && laneOf (opdOf w) == 0 && decide (0xF00 ≤ rowOf (opdOf w)) &&
      decide (rowOf (opdOf w) + (opbOf w).toNat + 1 ≤ 0x1000)
  | 8 => ttOf w == 0 && noTap && opndOk d a && opbOf w == 0 && opcOf w == 0 && decide ((opdOf w).toNat < 64)
  | 9 => ttOf w == 0 && decide (a.toNat < 64) && opbOf w == 0 && opcOf w == 0 && decide (0xC00 ≤ rowOf (opdOf w)) && decide (rowOf (opdOf w) < 0xE00)
  | 10 => noTap && opnds4 d w
  | _ => false

/-- Target of an MRD or MWR: 0 mill memory, 1 and 2 far ports 0 and 1. -/
def Ins.target (i : Ins) : Nat := if i.op = 5 then (opbOf i.w).toNat % 4 else (opdOf i.w).toNat % 4

/-- The MRD that a WAIT names, when it comes before it (R47). -/
def mrdOf (is : List Ins) (i : Ins) : Option Ins :=
  match insAt is i.m i.st (laneOf (opaOf i.w)) (rowOf (opaOf i.w)) with
  | some r => if r.op = 5 ∧ r.n < i.n then some r else none
  | none => none

/-- The WAITs that name an MRD. -/
def waitsOf (is : List Ins) (r : Ins) : List Ins :=
  is.filter (fun i => i.op == 7 && i.m == r.m && i.st == r.st && laneOf (opaOf i.w) == r.b && rowOf (opaOf i.w) == r.n)

/-- Two other instructions of the list beside i itself satisfy f: i clashes. -/
def clash (is : List Ins) (i : Ins) (f : Ins → Bool) : Bool := is.any (fun j => j != i && f j)

/-- The memory rules of R47, R49, R76 and R172 that relate instructions. -/
def memRelOk (k : Nat) (is : List Ins) (i : Ins) : Bool :=
  match i.op with
  | 5 => (waitsOf is i).length == 1 &&
      !clash is i (fun j => j.m == i.m && j.n == i.n && j.target == i.target && (j.op == 5 || (j.op == 6 && i.target != 0)))
  | 6 => !clash is i (fun j => j.m == i.m && j.n == i.n && j.target == i.target && (j.op == 6 || (j.op == 5 && i.target != 0)))
  | 7 =>
    (match mrdOf is i with
     | none => false
     | some r => (waitsOf is r).length == 1 && (if r.target = 0 then decide (r.n + 4 ≤ i.n) else decide (r.n + 96 ≤ i.n) && decide (r.n + k < i.n))) &&
    !clash is i (fun j => j.op == 7 && j.m == i.m && j.st == i.st && j.n == i.n &&
      decide (rowOf (opdOf j.w) ≤ rowOf (opdOf i.w) + (opbOf i.w).toNat) && decide (rowOf (opdOf i.w) ≤ rowOf (opdOf j.w) + (opbOf j.w).toNat))
  | _ => true

/-- Single writers: a state bit, a launch bit in a step, a landing-row lane in a step (R40, R50, R51). -/
def writerOk (is : List Ins) (i : Ins) : Bool :=
  match i.op with
  | 2 => !clash is i (fun j => j.op == 2 && j.m == i.m && j.st == i.st && opdOf j.w == opdOf i.w)
  | 8 => !clash is i (fun j => j.op == 8 && j.m == i.m && j.n == i.n && opdOf j.w == opdOf i.w)
  | 9 => !clash is i (fun j => j.op == 9 && j.m == i.m && j.st == i.st && j.n == i.n && opdOf j.w == opdOf i.w)
  | _ => true

/-! ## Tap map (R34, R243) -/

/-- The valid entries of a capture-tap map: capture bit, BP, step. -/
def tapEntries (b : Bytes) : List (Nat × Nat × Nat) :=
  (List.range 64).filterMap (fun j =>
    let e := num b (4 * j) 4
    if e / 2 ^ 31 % 2 = 1 then some (e / 2 ^ 17 % 64, e / 2 ^ 11 % 64, e % 2048) else none)

def tapMapAt (m st : Nat) : Nat := 6 * 2 ^ 28 + m * 2 ^ 13 + st * 2 ^ 9

/-- Frames whose taps break R34 or R243. -/
def tapFaults (fs : Frames) (is : List Ins) : List Nat :=
  let taps := is.filter (fun i => tapOf i.w)
  let map (m st : Nat) := match frameAt fs (tapMapAt m st) with | some b => tapEntries b | none => []
  (taps.filter (fun i => decide (64 < (taps.filter (fun j => j.m == i.m && j.st == i.st)).length) ||
    ((map i.m i.st).filter (fun e => e.2 == (i.b, i.n))).length != 1)).map (·.frame) ++
  ((fs.map (·.1)).filter (fun a => frClass a == 6 &&
    (map (frMill a) (frStone a)).any (fun e => !(taps.any (fun i => i.m == frMill a && i.st == frStone a && e.2 == (i.b, i.n))))))

/-! ## Flume (R113, R121, R134) -/

/-- The flume configuration of each logical quadrant (R242; log entry 20); a quadrant that no frame covers is unconfigured. -/
def imgFlume (fs : Frames) (k : Nat) : FlmImg :=
  match fs.filter (fun f => frClass f.1 == 4 && frQuad f.1 == k) with
  | [] => { regions := [], ports := [], cells := [], mems := [], pins := [] }
  | l => Config.flumeImage l

/-- The launch (`land` false) or landing port of a logical mill that claims a bit. -/
def portOf (g : FlmImg) (land : Bool) (m bit : Nat) : Option FlmPort :=
  g.ports.find? (fun x => x.land == land && x.mode != 0 && x.mill == m % 64 && x.bits.getLsbD bit)

def regionOf (g : FlmImg) (r : Nat) : Option FlmRegion := g.regions.find? (fun x => x.idx == r)

/-- Steps at which a region of logical quadrant k is fired: LAUNCHes of its launch port's fire bit. -/
def firesOf (is : List Ins) (g : FlmImg) (k r : Nat) : List Nat :=
  match g.ports.find? (fun x => !x.land && x.mode == 1 && x.region == r) with
  | none => []
  | some x => (is.filter (fun i => i.op == 8 && i.m == 64 * k + x.mill && (opdOf i.w).toNat == x.keyBit)).map (·.n)

/-- The latest fire before step n. -/
def lastFire (fires : List Nat) (n : Nat) : Option Nat :=
  match fires.filter (· < n) with
  | [] => none
  | f :: t => some (t.foldl max f)

/-- A LAND lies in the turn of its region's LAUNCH, at least B steps after it (R52). -/
def landOk (fs : Frames) (is : List Ins) (i : Ins) : Bool :=
  if i.op = 9 then
    let g := imgFlume fs (i.m / 64)
    match portOf g true i.m (opaOf i.w).toNat with
    | none => true
    | some x =>
      if x.mode = 1 then
        match regionOf g x.region, lastFire (firesOf is g (i.m / 64) x.region) i.n with
        | some r, some f => decide (f + r.budget ≤ i.n)
        | _, _ => false
      else true
  else true

/-- LOAD_ENCODING (R56, R76, R172): frames at fault. -/
def encodingFaults (d k : Nat) (fs : Frames) : List Nat :=
  let is := insOf fs
  (is.filter (fun i => !(insOk d is i && memRelOk k is i && writerOk is i && landOk fs is i))).map (·.frame) ++ tapFaults fs is

/-- Steps at which a landing bit of a logical mill is taken. -/
def landsOf (is : List Ins) (m bit : Nat) : List Nat := (is.filter (fun i => i.op == 9 && i.m == m && (opaOf i.w).toNat == bit)).map (·.n)

/-- Held landing ports of a region. -/
def heldPorts (g : FlmImg) (r : Nat) : List FlmPort := g.ports.filter (fun x => x.land && x.mode == 1 && x.region == r)

/-- The first LAND of a port's ack bit after a fire and before `e`. -/
def ackAfter (is : List Ins) (k : Nat) (x : FlmPort) (f e : Nat) : Option Nat :=
  lowest ((landsOf is (64 * k + x.mill) x.keyBit).filter (fun n => decide (f < n) && decide (n < e)))

/-- Fire spacing and the LANDs of one launched region (R117, R121): D and K. -/
def spacingOk (d kk : Nat) (is : List Ins) (g : FlmImg) (k : Nat) (r : FlmRegion) : Bool :=
  let fires := firesOf is g k r.idx
  fires.all (fun f =>
    let later := fires.filter (fun x => f < x)
    let e := (lowest later).getD d
    let next := (lowest later).getD ((lowest fires).getD 0 + d)
    (heldPorts g r.idx).all (fun x =>
      match ackAfter is k x f e with
      | none => false
      | some a =>
        decide ((if kk ≤ r.budget then a else a + kk) ≤ next) &&
        (List.range 64).all (fun b => !x.bits.getLsbD b || !((landsOf is (64 * k + x.mill) b).any (fun n => decide (a < n) && decide (n < e))))))

/-- The composition of a region (R113). -/
def composedOk (d : Nat) (g : FlmImg) (r : FlmRegion) : Bool :=
  let ps := g.ports.filter (fun x => x.mode != 0 && x.region == r.idx)
  let launches := ps.filter (fun x => !x.land)
  let lands := ps.filter (fun x => x.land)
  if r.launched then
    launches.length == 1 && launches.all (fun x => x.mode == 1) && lands.all (fun x => x.mode == 1) &&
    decide (1 ≤ lands.length) && decide (lands.length ≤ 8) && decide (8 ≤ r.budget) && decide (r.budget + 1 ≤ d)
  else launches.all (fun x => x.mode != 1) && lands.all (fun x => x.mode != 1)

/-- A port's bits belong to it alone, and its fire or ack bit is one of them. -/
def portBitsOk (g : FlmImg) (x : FlmPort) : Bool :=
  let both := g.ports.filter (fun y => y.mode != 0 && y.land == x.land && y.mill == x.mill)
  (both.filter (fun y => y.port == x.port)).length == 1 && (both.filter (fun y => (y.bits &&& x.bits) != 0)).length ≤ 1 &&
  (x.mode != 1 || x.bits.getLsbD x.keyBit)

/-- The inputs that a cell uses, as the drivers connected to each. -/
def cellIns (x : FlmCell) : List (List Nat) :=
  (if x.used.getLsbD 0 then [x.inA] else []) ++ (if x.used.getLsbD 1 then [x.inB] else []) ++ (if x.used.getLsbD 2 then [x.inC] else [])

/-- The inputs of a memory block. -/
def memIns (x : FlmMem) : List (List Nat) := x.insW ++ x.insA ++ x.insD

/-- A net of the quadrant has a configured driver: a cell output, a memory-block port bit, a launch port bit or a pin input port
(R112). -/
def drives (g : FlmImg) (n : Nat) : Bool :=
  if n < 0x30000 then g.cells.any (fun c => c.used != 0 && c.idx == n)
  else if n < 0x38000 then g.mems.any (fun b => b.mode != 0 && b.block == (n - 0x30000) / 64 && decide (n % 64 < b.width))
  else if n < 0x39000 then g.ports.any (fun x => !x.land && x.mode != 0 && x.mill == (n - 0x38000) / 64 && x.bits.getLsbD (n % 64))
  else g.pins.any (fun x => !x.out && 0x3A000 + x.pin == n)

/-- An input is fed by exactly one driver of its quadrant (R112). -/
def netOk (g : FlmImg) (i : List Nat) : Bool :=
  match i with
  | [n] => drives g n
  | _ => false

/-- Cells of the wide multiplexer that cell c belongs to; the cell alone where it belongs to none (R111). -/
def groupOf (g : FlmImg) (c : Nat) : List FlmCell :=
  match g.cells.find? (fun e => e.idx == c) with
  | none => []
  | some x =>
    let n := match x.mux with | 0 => 1 | 1 => 4 | _ => 16
    g.cells.filter (fun e => e.idx / n == c / n)

/-- The cells, and RAM blocks as 0x30000 + 64 × block, that drive a node of the loop rule (R132): a FIFO or a delay line ends a path. A
multiplexer's output depends on every input of its group. -/
def drivers (g : FlmImg) (node : Nat) : List Nat :=
  let nets := if node < 0x30000 then (groupOf g node).flatMap (fun c => (cellIns c).flatten)
    else (g.mems.filter (fun b => 0x30000 + 64 * b.block == node)).flatMap (fun b => (memIns b).flatten)
  nets.filterMap (fun n =>
    if n < 0x30000 then some n
    else if n < 0x38000 then (if g.mems.any (fun b => b.block == (n - 0x30000) / 64 && b.mode == 2) then some (n / 64 * 64) else none)
    else none)

/-- Nodes upstream of a list, within so many hops. -/
def upstream (g : FlmImg) : Nat → List Nat → List Nat
  | 0, l => l
  | fuel + 1, l => upstream g fuel ((l ++ l.flatMap (drivers g)).eraseDups)

/-- A node lies on a loop. -/
def onLoop (g : FlmImg) (node : Nat) : Bool := (upstream g (g.cells.length + g.mems.length) (drivers g node)).contains node

/-- A used input of a MUX4 or MUX16 group outside those named (R111). -/
def muxOk (c : FlmCell) : Bool :=
  let free := c.used.getLsbD 1 || c.used.getLsbD 2
  match c.mux with
  | 0 => true
  | 1 => c.idx % 4 == 0 || !free
  | _ => c.idx % 16 < 2 || !free

/-- The configuration of a memory block (R125). -/
def memOk (b : FlmMem) : Bool :=
  [1, 2, 4, 8, 16, 32, 64].contains b.width && (b.mode != 3 || (decide (1 ≤ b.delayN) && decide (b.delayN ≤ 262144 / b.width)))

/-- An item of a quadrant names a region that the quadrant has. -/
def hasRegion (g : FlmImg) (r : Nat) : Bool := (g.regions.filter (fun x => x.idx == r)).length == 1

/-- LOAD_FLUME (R134, R427): frames at fault, for the n quadrants of the image. `pinBad` says that a pin's bank is disabled. -/
def flumeFaults (d kk n : Nat) (pinBad : Nat → Bool) (fs : Frames) : List Nat :=
  let is := insOf fs
  let allPins := (List.range n).flatMap (fun k => (imgFlume fs k).pins)
  (is.filter (fun i =>
    (i.op == 8 && (portOf (imgFlume fs (i.m / 64)) false i.m (opdOf i.w).toNat).isNone) ||
    (i.op == 9 && (portOf (imgFlume fs (i.m / 64)) true i.m (opaOf i.w).toNat).isNone))).map (·.frame) ++
  (List.range n).flatMap (fun k =>
    let g := imgFlume fs k
    let once (r : Nat) (same : Nat) : Bool := hasRegion g r && same == 1
    (g.regions.filter (fun r => !(decide (r.idx < 512) && hasRegion g r.idx && composedOk d g r && spacingOk d kk is g k r))).map (·.frame) ++
    (g.ports.filter (fun x => x.mode != 0 && !(decide (x.mill < 64) && decide (x.port < 8) && hasRegion g x.region && portBitsOk g x &&
      (!x.land || (List.range 64).all (fun b => !x.bits.getLsbD b || x.nets.any (fun e => e.1 == b && netOk g e.2)))))).map (·.frame) ++
    (g.cells.filter (fun c => c.used != 0 && !(decide (c.idx < 196608) && once c.region (g.cells.filter (fun e => e.idx == c.idx)).length &&
      muxOk c && (cellIns c).all (netOk g) && !onLoop g c.idx))).map (·.frame) ++
    (g.mems.filter (fun b => b.mode != 0 && !(decide (b.block < 512) && once b.region (g.mems.filter (fun e => e.block == b.block)).length &&
      memOk b && (memIns b).all (netOk g) && !(b.mode == 2 && onLoop g (0x30000 + 64 * b.block))))).map (·.frame) ++
    (g.pins.filter (fun x => !(once x.region (allPins.filter (fun y => y.pin == x.pin)).length && !pinBad x.pin && (!x.out || netOk g x.net) &&
      !(x.sync && g.regions.any (fun r => r.idx == x.region && !r.launched))))).map (·.frame))

/-! ## Slot tables (R91) -/

def slotFrame (m port : Nat) : Nat := 2 ^ 28 + m * 2 ^ 13 + port * 2 ^ 10

/-- Entry and route byte of an image's table; 0xFF and 0 where no frame covers it. -/
def imgSlot (fs : Frames) (m port n : Nat) : Nat := match frameAt fs (slotFrame m port) with | some b => num b n 1 | none => 0xFF
def imgRoute (fs : Frames) (m port c : Nat) : Nat := match frameAt fs (slotFrame m port) with | some b => num b (2048 + c) 1 | none => 0

/-- Code of channel c in an entry, and whether it is scheduled. -/
def codeOf (e c : Nat) : Nat := e / 4 ^ c % 4
def isSched (code : Nat) : Bool := code == 1 || code == 2

/-- The compiled quadrants (R169). -/
def compiledSet (n x : Nat) : List Nat := if n = 2 then [0, x] else List.range n

/-- The router in another quadrant's bridge column that a bridge router joins, by logical numbers; none outside the partition. -/
def bridgePeer (set : List Nat) (m : Nat) : Option Nat :=
  match xEnd (64 * (set.getD (m / 64) 0) + m % 64) with
  | .bridge q => (set.findIdx? (· == q)).map (fun k => 64 * k + m % 64)
  | _ => none

/-- What the X port of a logical router attaches: its kind is the same in every quadrant (R84). -/
def isSpokePort (m : Nat) : Bool := colOfMill m == 3 && rowOfMill m % 2 == 0
def isBridgePort (m : Nat) : Bool := colOfMill m == 0 || colOfMill m == 4 || colOfMill m == 7
def isEndpointPort (m : Nat) : Bool := colOfMill m == 2 || (colOfMill m == 5 && decide (rowOfMill m < 5))

/-- The port sends to a neighbour router: a mesh output inside the quadrant, or a bridge. -/
def isLink (m port : Nat) : Bool := if port < 4 then (meshNeighbour m port).isSome else port == 4 && isBridgePort m

/-- A pass-through at slot n has a scheduled word upstream (R91). A spoke's words come from another module: `multi` says the image
has one. -/
def upstreamOk (fs : Frames) (set : List Nat) (d : Nat) (multi : Bool) (m n c src : Nat) : Bool :=
  let back (j : Nat) := (n + d - j % d) % d
  if src < 4 then
    match meshNeighbour m src with
    | some m' => isSched (codeOf (imgSlot fs m' (opposite src) (back 2)) c)
    | none => false
  else if isBridgePort m then
    match bridgePeer set m with
    | some m' => isSched (codeOf (imgSlot fs m' 4 (back 10)) c)
    | none => false
  else isSpokePort m && multi && decide (c < 2)

/-- One slot table and its route bytes break no rule of R91 that the image alone decides. -/
def slotTableOk (fs : Frames) (set : List Nat) (d : Nat) (multi : Bool) (m port : Nat) : Bool :=
  let code (n c : Nat) := codeOf (imgSlot fs m port n) c
  let every (f : Nat → Nat → Bool) := (List.range d).all (fun n => (List.range 4).all (fun c => f n c))
  (List.range 4).all (fun c => let r := imgRoute fs m port c; r / 128 == 0 && r / 8 % 2 == 0 && decide (r / 16 % 8 < 5)) &&
  (port != 5 || every (fun n c => code n c != 1)) &&
  (if port < 4 then (meshNeighbour m port).isSome || every (fun n c => code n c == 3)
   else if port = 4 then
     if isEndpointPort m then every (fun n c => !isSched (code n c))
     else if isBridgePort m then (bridgePeer set m).isSome || every (fun n c => !isSched (code n c))
     else if isSpokePort m then every (fun n c => if c < 2 then multi || !isSched (code n c) else code n c == 3)
     else every (fun n c => code n c == 3)
   else true) &&
  every (fun n c => code n c != 2 || upstreamOk fs set d multi m n c (imgRoute fs m port c / 16 % 8)) &&
  (!isLink m port || (List.range d).all (fun n => (List.range 16).any (fun j => (List.range 4).any (fun c => code ((n + j) % d) c == 0))))

/-- Logical spokes whose X output the image uses. -/
def usedSpokes (fs : Frames) (d n : Nat) : List Nat :=
  (List.range (4 * n)).filter (fun k =>
    (List.range d).any (fun e => (List.range 2).any (fun c => isSched (codeOf (imgSlot fs (64 * (k / 4) + 16 * (k % 4) + 3) 4 e) c))))

/-- LOAD_SLOT, frames at fault; `spokeBad` says that a logical spoke may not be assigned to the partition (R172). -/
def slotFaults (fs : Frames) (h : Bytes) (spokeBad : Nat → Bool) : List Nat :=
  let multi := decide (1 < hCount h)
  ((fs.map (·.1)).filter (fun a => frClass a == 1)).filter (fun a =>
    !(slotTableOk fs (compiledSet (hQuads h) (hPair h)) (hD h) multi (frMill a) (frPort a)) ||
    (frPort a == 4 && isSpokePort (frMill a) && (usedSpokes fs (hD h) (hQuads h)).contains (4 * (frMill a / 64) + rowOfMill (frMill a) / 2) &&
      spokeBad (4 * (frMill a / 64) + rowOfMill (frMill a) / 2)))

/-- The topology of a multi-module image (R191). -/
def topologyOk (h : Bytes) : Bool :=
  if hCount h ≤ 1 then true
  else
    decide (1 ≤ hL h) && decide (hL h ≤ 496) &&
    (if hTopo h = 0 then hH h == 0 && decide (hCount h ≤ 17)
     else hNx h * hNy h == hCount h && hL h == (hNx h / 2 + hNy h / 2) * hH h &&
      (List.range 3).all (fun p => !(hPaces h).testBit p || hH h % (if p = 0 then 8 else 12) == 0))

/-! ## Far ports and descriptors (R136, R140, R143, R147, R149, R161, R243) -/

def bindFrame (m : Nat) : Nat := 5 * 2 ^ 28 + m * 2 ^ 13

/-- The record of far port f of a logical mill; no record where no frame covers it. -/
def bindRec (fs : Frames) (m f : Nat) : Bytes := match frameAt fs (bindFrame m) with | some b => slice b (32 * f) 32 | none => []
def bKind (r : Bytes) : Nat := num r 0 1
def bMode (r : Bytes) : Nat := num r 1 1
def bGroup (r : Bytes) : Nat := num r 2 1
def bChan (r : Bytes) : Nat := num r 3 1
def bWidth (r : Bytes) : Nat := num r 4 1
def bFlags (r : Bytes) : Nat := num r 5 1
def bBase (r : Bytes) : Nat := num r 8 4
def bSize (r : Bytes) : Nat := num r 12 4
def bT (r : Bytes) : Nat := num r 16 2
def bU (r : Bytes) : Nat := num r 18 2

/-- The codes of a record (R243), and what R143, R155, R272 and R290 ask of them. -/
def bindOk (r : Bytes) : Bool :=
  decide (bKind r ≤ 3) && decide (bMode r ≤ 1) && decide (bGroup r ≤ 3) && decide (bChan r ≤ 15) && decide (bWidth r ≤ 7) &&
  decide (bFlags r < 4) && zeros r 6 8 && zeros r 20 32 &&
  (match bKind r with
   | 0 => true
   | 1 => if bMode r = 0 then bGroup r == 0 else bGroup r != 0 && bChan r % groupSize (bGroup r) == 0
   | k => decide (bFlags r / 2 = 0) && (if k = 3 then decide (bBase r < 64) else bWidth r != 0))

/-- Channels of a DRAM record and the range of addresses it takes in each (R143, R210). -/
def bindSpan (r : Bytes) : List (Nat × Nat × Nat) :=
  let n := if bMode r = 0 then 1 else groupSize (bGroup r)
  (List.range n).map (fun i => (bChan r + i, bBase r * 65536 / n, (bBase r + bSize r) * 65536 / n))

/-- Two ranges of one channel share a byte. -/
def spansMeet (a b : List (Nat × Nat × Nat)) : Bool :=
  a.any (fun x => b.any (fun y => x.1 == y.1 && decide (x.2.1 < y.2.2) && decide (y.2.1 < x.2.2)))

/-- Descriptor d of a mill: base row, row count, width (R136, R243). -/
def descRec (fs : Frames) (m d : Nat) : Nat × Nat × Nat :=
  match frameAt fs (bindFrame m) with
  | some b => (num b (64 + 8 * d) 2, num b (66 + 8 * d) 2, num b (68 + 8 * d) 2)
  | none => (0, 0, 0)

/-- The descriptors of a mill obey R136. -/
def descsOk (fs : Frames) (m : Nat) : Bool :=
  (List.range 16).all (fun d =>
    let x := descRec fs m d
    x.2.1 == 0 || (decide (1 ≤ x.2.2) && decide (x.2.2 ≤ 512) && decide (x.1 + x.2.1 ≤ 16384) &&
      (List.range 16).all (fun e =>
        let y := descRec fs m e
        e == d || y.2.1 == 0 || decide (x.1 + x.2.1 ≤ y.1) || decide (y.1 + y.2.1 ≤ x.1))))

/-- Reads of a target outstanding in the mill at the step of an MRD (R140, R147). -/
def outstanding (is : List Ins) (i : Ins) : Nat :=
  (is.filter (fun j => j.op == 5 && j.m == i.m && j.target == i.target && decide (j.n ≤ i.n) &&
    (match waitsOf is j with | w :: _ => decide (i.n < w.n) | [] => false))).length

/-- The two records of a mill obey R161, as far as the image alone decides: codes, the deadline of every MRD, overlaps of Separate
windows with a writer among the mills of the image. -/
def bindsOk (k : Nat) (fs : Frames) (is : List Ins) (mills : List Nat) (m : Nat) : Bool :=
  [0, 1].all (fun f =>
    let r := bindRec fs m f
    let late (i : Ins) := match waitsOf is i with | w :: _ => decide (w.n < i.n + k + bT r) | [] => false
    let meets (m' f' : Nat) :=
      let r' := bindRec fs m' f'
      (m', f') != (m, f) && bKind r' == 1 && bMode r' == 0 && (bFlags r % 2 == 1 || bFlags r' % 2 == 1) && spansMeet (bindSpan r) (bindSpan r')
    bindOk r &&
    (bKind r == 0 || bT r == 0 || !(is.any (fun i => i.op == 5 && i.m == m && i.target == f + 1 && late i))) &&
    !(bKind r == 1 && bMode r == 0 && mills.any (fun m' => [0, 1].any (fun f' => meets m' f'))))

/-- Frames that break the rules of R161 which the image alone decides. -/
def farportFaults (k : Nat) (fs : Frames) : List Nat :=
  let is := insOf fs
  let mills := ((fs.map (·.1)).filter (fun a => frClass a == 5)).map frMill
  let noPort (i : Ins) :=
    let r := bindRec fs i.m (i.target - 1)
    i.target != 0 && (bKind r == 0 || (i.op == 6 && bFlags r % 2 == 0))
  (is.filter (fun i => (i.op == 5 && decide ((if i.target = 0 then 16 else 32) < outstanding is i)) ||
    ((i.op == 5 || i.op == 6) && noPort i))).map (·.frame) ++
  (mills.filter (fun m => !(descsOk fs m && bindsOk k fs is mills m))).map bindFrame

end Sys2Proof.Machine
end

