-- ==== Sys2Proof/Machine/LineOps.lean ====
section
/-!
DEFINITION. Machine/LineOps.lean: pace, spoke assignment, HALT_N as faults and requests drive it (R61, R83, R193, R197, R198).
-/
namespace Sys2Proof.Machine

open Sys2Proof

/-- The pace in force: 0 Thrift, 1 Standard, 2 Overdrive (R61). -/
def State.pace (s : State) : Nat := s.get F.CLK_STATUS_pace

/-- The partition a spoke is assigned to (PART_LINK.spoke_mask). -/
def State.spokeOwner (s : State) (sp : Nat) : Option Nat := [0, 1, 2, 3].find? (fun p => s.bit (F.PART_LINK_spoke_mask p) sp)

/-- The spokes of a partition. -/
def State.spokesOf (s : State) (p : Nat) : List Nat := (List.range 16).filter (fun k => s.bit (F.PART_LINK_spoke_mask p) k)

/-- The record of a spoke. -/
def State.spoke (s : State) (sp : Nat) : SpokeSt := mget (fun _ => {}) s.spokes sp
def State.setSpoke (s : State) (sp : Nat) (x : SpokeSt) : State := { s with spokes := mset (fun _ => {}) s.spokes sp x }

/-- The router of a spoke's X port (R83, R84). -/
def spokeRouter (sp : Nat) : Nat := sp / 4 * 64 + 2 * (sp % 4) * 8 + 3

/-- Hop budget of a partition: L in a full connection, H in a torus (R190). -/
def State.hopBudget (s : State) (p : Nat) : Nat :=
  if (s.part p).hdr.topology = 0 then s.get (F.TURN_CONFIG_l p) else (s.part p).hdr.hopBudget

/-- The spokes' frames begin anew at cycle c (R187). -/
def State.framesFrom (s : State) (p c : Nat) : State := s.each (s.spokesOf p) (fun s sp => s.setSpoke sp { s.spoke sp with rxNext := c, txNext := c })

/-- Record a spoke fault (R200): the first is kept, every one is counted. -/
def State.spokeErr (s : State) (sp kind lane : Nat) : State :=
  let s := if s.on (F.SPK_ERR_flag sp) then s
    else ((s.put (F.SPK_ERR_flag sp) 1).put (F.SPK_ERR_kind sp) kind).put (F.SPK_ERR_lane sp) lane
  s.bump (F.SPK_ERR_count sp) 1

/-- A spoke fault (R196, R197): recorded and raised. In a running partition the spoke's frames are lost from now on, HALT_N is
held low, and turns are invalid from this one, or from the next when the first lost word is due there. The spoke must be trained again:
what its peer has told is void. -/
def State.spokeFault (s : State) (sp kind lane stamp code : Nat) (nextTurn : Bool) : State :=
  let o := s.spokeOwner sp
  let was := s.get (F.SPK_STATUS_state sp)
  let s := (s.spokeErr sp kind lane).put (F.SPK_STATUS_state sp) 6
  let s := (s.setSpoke sp { s.spoke sp with peerInfo := [] }).raise code (ownerField o) [sp, s.get (F.SPK_ERR_kind sp), lane, stamp]
  match o with
  | none => s
  | some p =>
    let s := if was = 5 then s.modPart p (fun x => { x with remeasure := true }) else s
    if s.running p then
      let s := s.haltCause p 6
      let s := s.modPart p (fun x => { x with
        spokeFault := true, invalid := x.invalid || !nextTurn, invalidToTurn0 := x.invalidToTurn0 || !nextTurn, invalidFromNext := x.invalidFromNext || nextTurn })
      { s with lines := s.lines.hold p }
    else s

end Sys2Proof.Machine
end

