-- ==== Sys2Proof/Machine/RingOps.lean ====
section
/-!
DEFINITION. Machine/RingOps.lean: the rings in host memory as every family uses them: posting descriptors, completing commands,
HRDY and MSI-X (R268 to R282).
-/
namespace Sys2Proof.Machine

open Sys2Proof

/-! ## Command descriptors (R273) -/

/-- The number in bytes [o + n − 1 : o] of a descriptor. -/
def dField (d : BitVec 512) (o n : Nat) : Nat := (d.toNat / 2 ^ (8 * o)) % 2 ^ (8 * n)

def dOp (d : BitVec 512) : Nat := dField d 0 2
def dPart (d : BitVec 512) : Nat := dField d 2 1
def dTag (d : BitVec 512) : Nat := dField d 4 4
def dHaddr (d : BitVec 512) : Nat := dField d 8 8
def dLen (d : BitVec 512) : Nat := dField d 16 8
def dDaddr (d : BitVec 512) : Nat := dField d 24 8
def dParam (d : BitVec 512) : Nat := dField d 32 16

/-- Ops of the commands table (R274). -/
def ringOps : List Nat := [0, 1, 2, 0x10, 0x11, 0x12, 0x13, 0x14, 0x20, 0x21, 0x22, 0x30]

/-- Reserved bytes of a descriptor are 0: byte 3, bytes 48 to 63, and of a command that uses daddr the bits of it that no field takes
(R273, R274, R276). -/
def dReservedZero (d : BitVec 512) : Bool :=
  dField d 3 1 == 0 && dField d 48 16 == 0 &&
  (!(([1, 2, 0x10, 0x11] : List Nat).contains (dOp d)) || (decide (dDaddr d < 2 ^ 44) && decide (dDaddr d / 2 ^ 38 % 4 = 0)))

/-! ## Rings -/

def State.ring (s : State) (n : Nat) : Ring := mget (fun _ => {}) s.host.rings n
def State.setRing (s : State) (n : Nat) (x : Ring) : State :=
  { s with host := { s.host with rings := mset (fun _ => {}) s.host.rings n x } }

/-- Whether a ring is enabled, its size exponent, vector and message enable; sluice rings have their own registers (R294, R295). -/
def State.ringEn (s : State) (n : Nat) : Bool :=
  if n < 16 then s.on (F.RING_R_CFG_en n) else s.on (F.SLC_RINGCFG_en.sel (n - 16))
def State.ringSize (s : State) (n : Nat) : Nat :=
  if n < 16 then s.get (F.RING_R_CFG_size n) else s.get (F.SLC_RINGCFG_size.sel (n - 16))
def State.ringVector (s : State) (n : Nat) : Nat :=
  if n < 16 then s.get (F.RING_R_CFG_vector n) else s.get (F.SLC_RINGCFG_vector.sel (n - 16))
def State.ringMsix (s : State) (n : Nat) : Bool :=
  if n < 16 then s.on (F.RING_R_CFG_msix_en n) else s.on (F.SLC_RINGCFG_msix_en.sel (n - 16))
def State.ringBase (s : State) (n : Nat) : Nat :=
  if n < 16 then s.get64 (R.RING_R_BASE_LO n) (R.RING_R_BASE_HI n)
  else s.get64 (selAddr R.SLC_RING_LO (n - 16)) (selAddr R.SLC_RING_HI (n - 16))

/-- Width of a ring's counts: 32 bits, 16 for a sluice ring (R269, R292). -/
def countMod (n : Nat) : Nat := if n < 16 then 2 ^ 32 else 2 ^ 16

/-- The ring has stopped (R282). A sluice ring has no bit of its own; it stops by losing its enable. -/
def State.ringStopped (s : State) (n : Nat) : Bool := decide (n < 13) && s.bit F.RING_STATUS_stopped n

/-- The ring runs: the engine and the ring are enabled, the link is up, the ring has not stopped (R279, R282, R283). -/
def State.ringRuns (s : State) (n : Nat) : Bool :=
  s.on F.RING_CTRL_en && s.on F.PCIE_STATUS_up && s.ringEn n && !s.ringStopped n

/-- Device count minus host count. -/
def State.ringAhead (s : State) (n : Nat) : Nat := ((s.ring n).dev + countMod n - (s.ring n).host % countMod n) % countMod n

/-- The device can post a descriptor. -/
def State.ringRoom (s : State) (n : Nat) : Bool := s.ringRuns n && decide (s.ringAhead n < 2 ^ s.ringSize n)

/-- Phase of the descriptor at count c: 1 on the first pass, flipped on every pass (R277). -/
def phaseOf (size c : Nat) : Nat := 1 - c / 2 ^ size % 2

/-- Host address of the descriptor at count c. -/
def State.ringAddr (s : State) (n c : Nat) : Nat := s.ringBase n + 64 * (c % 2 ^ s.ringSize n)

/-- A posted write into host memory. -/
def State.hostWrite (s : State) (addr : Nat) (data : List Byte) : State :=
  { s with host := { s.host with writes := ⟨addr, data⟩ :: s.host.writes } }

/-- Post a descriptor: bytes 0 to 59 in one write, 60 to 63 with the phase in a second (R277). -/
def State.postBytes (s : State) (n : Nat) (body : List Byte) : State :=
  let x := s.ring n
  let a := s.ringAddr n x.dev
  let s := s.hostWrite a body
  let s := s.hostWrite (a + 60) (natLe 4 (phaseOf (s.ringSize n) x.dev * 2 ^ 31))
  s.setRing n { x with dev := (x.dev + 1) % countMod n }

/-- Bytes 0 to 59 of a completion (R277). -/
def cplBytes (op part flags tag status count tb0 tb1 result : Nat) : List Byte :=
  natLe 2 op ++ natLe 1 part ++ natLe 1 flags ++ natLe 4 tag ++ natLe 2 status ++ natLe 2 0 ++ natLe 4 count ++
  natLe 8 tb0 ++ natLe 8 tb1 ++ natLe 16 result ++ natLe 12 0

/-- Completions held for room are posted, oldest first (R279). -/
def State.postHeld : Nat → State → Nat → State
  | 0, s, _ => s
  | fuel + 1, s, n =>
    match (s.ring n).held with
    | [] => s
    | b :: t => if s.ringRoom n then ((s.setRing n { s.ring n with held := t }).postBytes n b).postHeld fuel n else s

/-- The TB0 flag of a descriptor. -/
def State.anchorFlag (s : State) : Nat := if s.on (F.TBK_STATUS_anchored 0) then 1 else 0

/-- A ring command ends (R276, R277): the command ring's consumer count advances and the completion is posted, or held until
there is room. `serial` names the command; one whose ring has been restarted since has no completion. -/
def State.finish (s : State) (ring serial status result : Nat) : State :=
  match (s.ring ring).running with
  | some (k, d) =>
    if k = serial then
      let x := s.ring ring
      let count := (x.dev + 1) % 2 ^ 32
      let s := s.setRing ring { x with running := none, dev := count }
      let tb1 := if dPart d < 4 then s.turns (dPart d) else 0
      let b := cplBytes (dOp d) (dPart d) s.anchorFlag (dTag d) status count s.tb0 tb1 result
      let y := s.ring (ring + 4)
      (s.setRing (ring + 4) { y with held := y.held ++ [b] }).postHeld 1 (ring + 4)
    else s
  | none => s

/-- A ring command that waits ends, if there is one. -/
def State.finishW (s : State) (w : Option Waiter) (status result : Nat) : State :=
  match w with
  | some w => s.finish w.ring w.serial status result
  | none => s

/-- The next command of a command ring begins, when it is one of the ops in `ops` (R276): the ring runs, no command is in
progress, and no completion waits for room (R279). -/
def State.beginCmd (s : State) (ring : Nat) (ops : List Nat) : Option (State × Nat × BitVec 512) :=
  let x := s.ring ring
  match x.fetched with
  | [] => none
  | d :: t =>
    if s.ringRuns ring && x.running.isNone && (s.ring (ring + 4)).held.isEmpty && ops.contains (dOp d) then
      some ({ s.setRing ring { x with fetched := t, running := some (s.host.serial, d) } with
        host := { (s.setRing ring { x with fetched := t, running := some (s.host.serial, d) }).host with serial := s.host.serial + 1 } }, s.host.serial, d)
    else none

/-- The fields every command is checked for (R276): the part it must carry and reserved bytes. -/
def State.cmdFieldsOk (s : State) (d : BitVec 512) : Bool :=
  let none4 := [0, 1, 2, 0x30].contains (dOp d)
  (if none4 then dPart d == 0xFF else decide (dPart d < 4) && s.partExists (dPart d)) && dReservedZero d

/-- A command fault (R274 to R276): its event (R458) and its completion. -/
def State.cmdFault (s : State) (ring serial : Nat) (d : BitVec 512) (code : Nat) (more : List Nat) (result : Nat) : State :=
  let c := (s.ring ring).dev
  (s.raise code (if dPart d < 4 then dPart d else 0xFF) ([ring, c] ++ more)).finish ring serial code result

/-- A command ring's next command with one of the ops begins, and its fields are checked. -/
def State.onCmd (s : State) (ring : Nat) (ops : List Nat) (f : State → Nat → BitVec 512 → State) : State :=
  match s.beginCmd ring ops with
  | none => s
  | some (s, serial, d) => if s.cmdFieldsOk d then f s serial d else s.cmdFault ring serial d 0x6003 [] 0

/-! ## Events onto the ring (R278, R279) -/

/-- Bytes 0 to 59 of an event descriptor. -/
def evBytes (r : EvRec) (seq : Nat) : List Byte :=
  natLe 2 r.code ++ natLe 1 r.part ++ natLe 1 (if r.anchored then 1 else 0) ++ natLe 4 seq ++ natLe 8 0 ++
  natLe 8 r.tb0 ++ natLe 8 r.tb1 ++ ((r.data ++ [0, 0, 0, 0, 0, 0]).take 6).flatMap (natLe 4) ++ natLe 4 0

/-- Post one event record. -/
def State.postEvent (s : State) (r : EvRec) : State :=
  let q := s.get F.RING_EVSEQ_seq
  let seq := if q = 0xFFFFFFFF then 1 else q + 1
  (s.put F.RING_EVSEQ_seq seq).postBytes 8 (evBytes r seq)

/-- Queued events go to the EVT ring in order while there is room; EVENT_LOST first when events were dropped. -/
def State.drainEvents : Nat → State → State
  | 0, s => s
  | fuel + 1, s =>
    if !s.ringRoom 8 then s
    else if s.evt.lost ≠ 0 then
      let r : EvRec := { code := 0x6007, part := 0xFF, anchored := s.on (F.TBK_STATUS_anchored 0), tb0 := s.tb0, tb1 := 0, data := [s.evt.lost], num := 0 }
      ({ s with evt := { s.evt with lost := 0 } }.postEvent r).drainEvents fuel
    else match s.evt.queue with
      | [] => s
      | r :: t => ({ s with evt := { s.evt with queue := t } }.postEvent r).drainEvents fuel

/-! ## HRDY and MSI-X (R280, R281) -/

/-- Rings the device produces into: CPL, EVT, CAP, and the rings of sluices the host consumes. -/
def State.outRings (s : State) : List Nat :=
  ([4, 5, 6, 7, 8, 9, 10, 11, 12] ++ ((List.range 256).filter (fun k => s.get (F.SLC_CFG_consumer.sel k) == 5)).map (16 + ·)).filter
    (fun n => s.ringEn n)

/-- The device's count that the host acknowledges in a ring. -/
def State.unacked (s : State) (n : Nat) : Bool := s.ringEn n && s.ringAhead n != 0

/-- Dword j of MSI-X table entry v; a vector is masked after reset. -/
def State.msixWord (s : State) (v j : Nat) : Word := mget (fun k => if k % 4 = 3 then 1 else 0) s.host.table (4 * v + j)

/-- Send the message of vector v, or set its pending bit while it is masked (R281): counted by vector. -/
def State.msixSend (s : State) (v : Nat) : State :=
  if !s.host.msix then s
  else if s.host.fmask || (s.msixWord v 3).getLsbD 0 then
    { s with host := { s.host with pba := mset (fun _ => 0) s.host.pba (v / 32) (mget (fun _ => 0) s.host.pba (v / 32) ||| BitVec.ofNat 32 (2 ^ (v % 32))) } }
  else
    let f : Fld := ⟨R.PCIE_MSGCNT (v / 4), v % 4 * 8, 8⟩
    let a := (s.msixWord v 0).toNat + 2 ^ 32 * (s.msixWord v 1).toNat
    ({ s with host := { s.host with msgs := v :: s.host.msgs } }.hostWrite a (natLe 4 (s.msixWord v 2).toNat)).bump f 1

/-- The message of a ring. -/
def State.ringMsg (s : State) (n : Nat) : State := if s.ringMsix n then s.msixSend (s.ringVector n) else s

/-- A ring stops (R282): recorded, raised, and its message sent, unless the host has yet to catch up on an earlier one (R281). -/
def State.ringFault (s : State) (n kind w1 : Nat) : State :=
  let s := if n < 13 then s.setBit F.RING_STATUS_stopped n true else s.put (F.SLC_RINGCFG_en.sel (n - 16)) 0
  let s := if s.on F.RING_ERR_flag then s
    else ((s.put F.RING_ERR_flag 1).put F.RING_ERR_kind kind).put F.RING_ERR_ring (if n < 13 then n else 0)
  let s := s.raise (if kind = 1 then 0x6005 else 0x6006) 0xFF [n, w1]
  if (s.ring n).told then s else (s.setRing n { s.ring n with told := true }).ringMsg n

end Sys2Proof.Machine
end

