-- ==== Sys2Proof/Machine/LoadOps.lean ====
section
/-!
DEFINITION. Machine/LoadOps.lean: what the loader does to the device: placement, locks, the checks that need the device, frames
into their places, clearing quadrants, the release (R128, R129, R170 to R176, R247 to R257).
-/
namespace Sys2Proof.Machine

open Sys2Proof

/-! ## Placement and locks (R248) -/

/-- A range lies within the channel, in shell-owned slices (R248, R275). -/
def State.rangeOk (s : State) (chan addr len : Nat) : Bool :=
  decide (addr + len ≤ s.chanSize chan) &&
  (List.range 16).all (fun i => s.sliceOwner chan i == 0 || decide ((i + 1) * 2 ^ 34 ≤ addr) || decide (addr + len ≤ i * 2 ^ 34))

/-- A staging range lies so, on a channel in service (R248). -/
def State.placementOk (s : State) (chan addr len : Nat) : Bool := s.chanReady chan && s.rangeOk chan addr len

/-- The staging area of a command is locked, or unlocked: once for each command that holds it. -/
def State.lockStage (s : State) (p chan addr len : Nat) : State :=
  { s with loader := { s.loader with locks := ⟨p, chan, addr, len⟩ :: s.loader.locks } }
def State.unlockStage (s : State) (p chan addr len : Nat) : State :=
  { s with loader := { s.loader with locks := s.loader.locks.erase ⟨p, chan, addr, len⟩ } }

/-- A command gives up the staging area it has locked. -/
def State.unlockJob (s : State) (j : LoadJob) : State := if j.locked then s.unlockStage j.part j.chan j.addr j.len else s

/-- Staged bytes as the loader reads them. -/
def State.stageReader (s : State) (chan addr : Nat) : Reader := fun o n => s.dramRead chan (addr + o) n

/-- The loader reads n bytes of a staged range, line by line; some read may not be answered OK (R105, R106, R248). -/
def State.stageRead (s : State) (chan a n : Nat) (e : RowEcc) : Bool × State :=
  let (_, st, s) := State.busReadLines 0x222 4 chan (linesOf a n).length (a / 64 * 64) e s
  (st != 0, s)

/-! ## The loader's queue -/

def State.setLoader (s : State) (x : LoaderSt) : State := { s with loader := x }

/-- CFG_LOADQ follows the queue (R262). -/
def State.syncQueue (s : State) : State :=
  let s := s.flag F.CFG_LOADQ_active s.loader.active.isSome
  let s := s.put F.CFG_LOADQ_partition (match s.loader.active with | some j => j.part | none => 0)
  s.put F.CFG_LOADQ_queued ((List.range 4).foldl (fun a p => if s.loader.queue.any (fun j => j.part == p) then a + 2 ^ p else a) 0)

/-- The loader serves or holds a command, an UNLOAD among them (R63, R248). -/
def State.loaderBusy (s : State) : Bool :=
  s.loader.active.isSome || !s.loader.queue.isEmpty || !s.loader.emptying.isEmpty || !s.loader.unloads.isEmpty

/-- The loader serves or holds a command for partition p (R333). -/
def State.loaderHas (s : State) (p : Nat) : Bool :=
  (match s.loader.active with | some j => j.part == p | none => false) || s.loader.queue.any (fun j => j.part == p) ||
  s.loader.emptying.contains p || s.loader.unloads.any (fun u => u.1 == p)

/-- Result of a loader command's completion (R277). -/
def State.loadResult (s : State) (p : Nat) : Nat := s.get (F.PART_IMAGE_ID_image_id p) + 2 ^ 32 * s.get (F.CFG_P_FRAMES_count p)

/-- The command in progress ends: its completion is posted, the loader is free. -/
def State.jobEnds (s : State) (j : LoadJob) (status us : Nat) : State :=
  let s := (s.setLoader { s.loader with active := none }).syncQueue
  let s := (s.put (F.CFG_P_STATE_pass j.part) 0).put (F.CFG_P_TIME_count j.part) us
  let s := if j.cmd = 2 then s.put (F.CFG_P_PARTIAL_verifying j.part) 0 else s
  s.finishW j.waiter status (s.loadResult j.part)

/-- A staged partial image is dropped and its staging area unlocked (R247, R256). -/
def State.dropStaged (s : State) (p : Nat) : State :=
  match mget (fun _ => none) s.loader.staged p with
  | none => s
  | some g =>
    let s := s.setLoader { s.loader with staged := mset (fun _ => none) s.loader.staged p none }
    (((s.unlockStage p g.chan g.addr g.len).put (F.CFG_P_PARTIAL_staged p) 0).put (F.CFG_P_PIMAGE_value p) 0)

/-! ## Refusals (R250) -/

/-- Authentication failures are counted (R246). -/
def State.authFail (s : State) : State := s.bump F.KEY_FAILCNT_auth 1

/-- A refusal or fault is recorded and raised once (R250, R458): code, place, kind of place. -/
def State.recordFault (s : State) (j : LoadJob) (code faddr kind : Nat) (more : List Nat) : State :=
  let p := j.part
  let s := s.setReg (R.CFG_P_FAULT p) (BitVec.ofNat 32 (2 ^ 31 + kind * 2 ^ 16 + code))
  let s := s.put (F.CFG_P_FADDR_value p) faddr
  s.raise code p ([faddr, kind, j.cmd] ++ more)

/-- A failed LOAD of a multi-module image holds CFG_DONE low (R24, R250); the header tells it even where it has not been authenticated
(log entry 47). -/
def State.holdFault (s : State) (j : LoadJob) : State :=
  if j.cmd = 1 ∧ 1 < j.modules then s.put (F.CFG_P_STATE_fault_hold j.part) 1 else s

/-- A command fails before its write pass (R250): a LOAD returns the partition to EMPTY and, for a multi-module image, sets
fault_hold; a STAGE stages nothing. A COMMIT leaves the partition and the staged image as they are. -/
def State.loadFail (s : State) (j : LoadJob) (code faddr kind : Nat) (more : List Nat) (us : Nat) : State :=
  let p := j.part
  let s := s.recordFault j code faddr kind more
  let s := if j.cmd = 1 then (s.put (F.PART_STATE_state p) stEmpty).holdFault j else s
  let s := if j.cmd = 3 then s else s.unlockJob j
  s.jobEnds j code us

/-- A fault of the header or of the image as a whole. -/
def State.loadFailWhole (s : State) (j : LoadJob) (code : Nat) (more : List Nat) (us : Nat) : State :=
  s.loadFail j code 0xFFFFFFFF 2 more us

/-! ## Checks that need the device -/

/-- The key a source names (R245, R246). -/
def State.sourceKey (s : State) (src : Nat) : Option (BitVec 256) :=
  if src = 1 then (if s.on F.KEY_FUSE_programmed then some Config.fuseKey else none)
  else if 2 ≤ src ∧ src ≤ 5 then mget (fun _ => none) s.keys.slots (src - 2)
  else none

/-- Bits set in a 4-bit mask. -/
def popCount (n : Nat) : Nat := ((List.range 16).filter (fun i => n.testBit i)).length

/-- The binding of an image onto a qmask (R169): m as named, or the least that fits. -/
def bindingOf (set : List Nat) (qmask : Nat) (m : Option Nat) : Option Nat :=
  let fits (m : Nat) : Bool := (set.foldl (fun a k => a ||| 2 ^ (k ^^^ m)) 0) == qmask
  match m with
  | some m => if fits m then some m else none
  | none => (List.range 4).find? fits

/-- Physical quadrant of logical quadrant k under the partition's binding (R169). -/
def boundQuad (set : List Nat) (m k : Nat) : Nat := set.getD k 0 ^^^ m

/-- Identity fields against the module (R2, R3, R239). -/
def State.moduleFits (s : State) (h : Bytes) : Bool :=
  hFamily h == 1 && decide (hParts h < 4) && (hParts h).testBit (s.get F.GLB_PART_part - 1) &&
  decide (hMinStep h ≤ s.get F.GLB_PART_stepping) && decide (s.get F.GLB_PART_stepping ≤ hMaxStep h)

/-- Header checks of a design image for LOAD_IDENTITY (R175 check 1, R239, R256), the key and tag apart. -/
def State.identityOk (s : State) (j : LoadJob) (rd : Reader) (h : Bytes) : Bool :=
  let p := j.part
  hMagic h == 0x314B4F48 && hVersion h == 1 && hKind h == (if j.cmd = 1 then 4 else 5) && tableOk rd h && hPart h == p &&
  s.moduleFits h && hReservedOk h && hKindFieldsOk h && decide (hDepth h < 3) && hClocksOk h && decide (hPaces h < 8) &&
  decide (1 ≤ hQuads h) && decide (hQuads h ≤ 4) && hQuads h == popCount (s.get (F.PART_QMASK_qmask p)) &&
  (if hQuads h = 2 then decide (1 ≤ hPair h) && decide (hPair h ≤ 3) else hPair h == 0) &&
  decide (1 ≤ hCount h) && decide (hCount h ≤ 64) && decide (hIndex h < hCount h) &&
  (j.cmd == 1 ||
    (let l := mget (fun _ => []) s.loader.hdrs p
     hParent h == s.get (F.PART_IMAGE_ID_image_id p) && hDepth h == hDepth l && hQuads h == hQuads l && slice h 0x13 15 == slice l 0x13 15))

/-- The profile is accepted (R167). -/
def State.profileOk (s : State) (h : Bytes) : Bool :=
  (hProfile h == 1 && s.on F.GLB_CAPS_lp1) || (hProfile h == 2 && s.on F.GLB_CAPS_lp2)

/-- A logical spoke of an image bound by m may not be assigned to partition p: its quadrant is disabled, or another partition has
it (R172). -/
def State.spokeTaken (s : State) (p : Nat) (set : List Nat) (m k : Nat) : Bool :=
  let sp := 4 * boundQuad set m (k / 4) + k % 4
  !s.quadEnabled (sp / 4) || (match s.spokeOwner sp with | some o => o != p | none => false)

/-- A DRAM binding to channels in service, of equal capacity, within the capacity and the partition's slices (R13, R205). -/
def State.windowOk (s : State) (p : Nat) (r : Bytes) : Bool :=
  let w := bindSpan r
  w.all (fun x =>
    s.chanReady x.1 && s.chanSize x.1 == s.chanSize (bChan r) && decide (x.2.2 ≤ s.chanSize x.1) &&
    (List.range 16).all (fun i => s.sliceOwner x.1 i == p + 1 || decide (x.2.2 ≤ i * 2 ^ 34) || decide ((i + 1) * 2 ^ 34 ≤ x.2.1)))

/-- The windows that far ports of other partitions are bound to (R153). -/
def State.otherSpans (s : State) (p : Nat) : List (Nat × Nat × Nat) :=
  ((List.range 512).filter (fun id => s.fpKind id == 1 && (match s.fpPart id with | some o => o != p | none => false))).flatMap (fun id =>
    let n := if s.fpInter id then groupSize (s.get (F.MPORT_BIND_group.sel id)) else 1
    (List.range n).map (fun i => (s.get (F.MPORT_BIND_channel.sel id) + i, s.fpBase id * 65536 / n, (s.fpBase id + s.fpSize id) * 65536 / n)))

/-- Frames that break the rules of R161 on the device's side. -/
def State.windowFaults (s : State) (p : Nat) (fs : Frames) : List Nat :=
  ((fs.map (·.1)).filter (fun a => frClass a == 5)).filter (fun a => [0, 1].any (fun f =>
    let r := bindRec fs (frMill a) f
    bKind r == 1 && !(s.windowOk p r && !(spansMeet (bindSpan r) (s.otherSpans p)))))

/-- Checks 5 to 9 of R175, in order: `own` are the image's frames, `fs` those it would leave in place. The event and the lowest
frame address at fault; a fault that lies in no frame has none. -/
def State.contentFault (s : State) (p : Nat) (set : List Nat) (m : Nat) (h : Bytes) (own fs : Frames) : Option (Nat × Option Nat) :=
  let d := hD h
  let n := hQuads h
  let ranges := if hKind h = 5 then some ((List.range 8).map (hRange h)) else none
  match lowest (regionFaults d n ranges own) with
  | some a => some (0x1005, some a)
  | none =>
  match lowest (encodingFaults d (hK h) fs) with
  | some a => some (0x1006, some a)
  | none =>
  match lowest (slotFaults fs h (s.spokeTaken p set m)), topologyOk h with
  | some a, _ => some (0x1007, some a)
  | none, false => some (0x1007, none)
  | none, true =>
  match lowest (flumeFaults d (hK h) n (fun pin => !s.on (F.TIO_BANK_en (pin / 32))) fs) with
  | some a => some (0x1008, some a)
  | none => (lowest (farportFaults (hK h) fs ++ s.windowFaults p fs)).map (fun a => (0x1009, some a))

/-! ## Clearing quadrants -/

/-- Drop the stored registers of the instances n behind a selector that satisfy f: they read their reset value again. -/
def State.dropSel (s : State) (base : Nat) (f : Nat → Bool) : State :=
  { s with regs := mdrop (fun k => decide (0x10000000 ≤ k) && k % 0x10000000 == base && f (k / 0x10000000 - 1)) s.regs }

/-- The fabric of the quadrants is unconfigured (R251, R402). -/
def State.clearFlume (s : State) (mine : Nat → Bool) : State :=
  let f := s.flume
  let s := { s with flume := { f with
    launchBits := mdrop (fun m => mine (m / 64)) f.launchBits
    landBits := mdrop (fun m => mine (m / 64)) f.landBits
    launch := mdrop (fun k => mine (k / 512)) f.launch
    land := mdrop (fun k => mine (k / 512)) f.land
    regions := mdrop (fun r => mine (r / 512)) f.regions
    cells := mdrop (fun k => mine (k / 196608)) f.cells
    mems := mdrop (fun k => mine (k / 512)) f.mems
    hist := mdrop (fun k => mine (k / 8192)) f.hist
    pins := mdrop (fun k => mine (k / 160)) f.pins } }
  { s with gov := { s.gov with win := mdrop (fun k => mine (k / 8192)) s.gov.win, mov := mdrop (fun k => mine (k / 8192)) s.gov.mov } }

/-- Configuration of the quadrants goes back to that of an EMPTY partition (R251): NOPs, slot tables 0b11, route bytes 0, no
flume regions, far ports unbound, no descriptors, no taps. Slots that owe a response stay (R158). -/
def State.clearConfig (s : State) (mine : Nat → Bool) : State :=
  let st := s.stones
  let s := { s with stones := { st with
    words := mdrop (fun k => mine (k / 2 ^ 27)) st.words
    ueWords := mdrop (fun k => mine (k / 2 ^ 27)) st.ueWords
    tapBit := mdrop (fun k => mine (k / 2 ^ 27)) st.tapBit
    writes := st.writes.filter (fun w => !mine (w.site / 1024)) } }
  let s := { s with race := { s.race with
    slots := mdrop (fun k => mine (k / (2048 * 384))) s.race.slots
    routes := mdrop (fun k => mine (k / (4 * 384))) s.race.routes } }
  let s := { s with dm := { s.dm with
    descs := mdrop (fun k => mine (k / 1024)) s.dm.descs
    ports := s.dm.ports.foldl (fun m (e : Nat × FarPort) => mset (fun _ => {}) m e.1 (if mine (e.1 / 128) then { slots := e.2.slots.filter (fun x => x.2.owed) } else e.2)) []
    results := s.dm.results.filter (fun r => !mine (r.mill / 64))
    writes := s.dm.writes.filter (fun w => !mine (w.mill / 64)) } }
  let s := [R.MPORT_BIND, R.MPORT_BASE, R.MPORT_SIZE, R.MPORT_TARGET].foldl (fun s r => s.dropSel r (fun id => mine (id / 128))) s
  let s := s.dropSel R.FLM_PORTSTAT (fun i => mine (i / 1024))
  s.clearFlume mine

/-- Rows and mill memories of the quadrants read 0 (R243): what a full image does not cover. -/
def State.clearRows (s : State) (mine : Nat → Bool) : State :=
  { s with
    stones := { s.stones with
      rows := mdrop (fun k => mine (k / (4864 * 1024))) s.stones.rows
      ueRows := mdrop (fun k => mine (k / (4864 * 1024))) s.stones.ueRows }
    dm := { s.dm with
      mem := mdrop (fun k => mine (k / 2 ^ 20)) s.dm.mem
      ue := mdrop (fun k => mine (k / 2 ^ 23)) s.dm.ue } }

/-- Run-ahead entries of the partition's far ports are discarded (R160), those still to be read with them. -/
def State.dropAhead (s : State) (p : Nat) : State :=
  s.each (List.range 16) (fun s c =>
    let x := s.chan c
    let kept := x.reads.filter (fun r => !hpf r.pk.hdr || s.fpPart (hinit r.pk.hdr) != some p)
    s.setChan c { x with ahead := x.ahead.filter (fun r => s.fpPart r.port != some p), reads := kept })

/-! ## Frames into their places (R171, R242) -/

/-- Physical mill of a logical mill. -/
def physMill (set : List Nat) (m l : Nat) : Nat := 64 * boundQuad set m (l / 64) + l % 64

/-- Part p of the instructions of a step group enters their words: a clean code word. -/
def State.writeGroup (s : State) (mill st g part : Nat) (b : Bytes) : State :=
  s.each (List.range 1024) (fun s i =>
    let k := wordKey (mill * 16 + st) (i % 64) (16 * g + i / 64)
    let w := mget (fun _ => (0 : IWord)) s.stones.words k
    let mask : IWord := BitVec.ofNat 96 ((2 ^ 32 - 1) * 2 ^ (32 * part))
    let w := (w &&& ~~~mask) ||| (BitVec.ofNat 96 (num b (4 * i) 4) <<< (32 * part))
    { s with stones := { s.stones with
      words := mset (fun _ => 0) s.stones.words k w, ueWords := mset (fun _ => false) s.stones.ueWords k false } })

/-- Rows 512b to 512b + 511 of a stone; a state row enters both banks (R41). -/
def State.writeInit (s : State) (mill st blk : Nat) (b : Bytes) : State :=
  s.each (List.range 512) (fun s i =>
    let r := 512 * blk + i
    let v : Row := BitVec.ofNat 64 (num b (8 * i) 8)
    let site := mill * 16 + st
    let put (s : State) (bank : Bool) := (s.setRow site (physRow bank r) v).markRow site (physRow bank r) 0
    if 0xE00 ≤ r ∧ r < 0xF00 then s
    else if 0x800 ≤ r ∧ r < 0xC00 then put (put s false) true
    else put s false)

/-- A slot table and its route bytes. -/
def State.writeSlots (s : State) (mill port : Nat) (b : Bytes) : State :=
  let k := mill * 6 + port
  let s := s.each (List.range 2048) (fun s i => { s with race := { s.race with slots := mset (fun _ => 0xFF) s.race.slots (k * 2048 + i) (BitVec.ofNat 8 (num b i 1)) } })
  s.each (List.range 4) (fun s c => { s with race := { s.race with routes := mset (fun _ => 0) s.race.routes (k * 4 + c) (BitVec.ofNat 8 (num b (2048 + c) 1)) } })

/-- Rows of mill memory: clean code words. -/
def State.writeMillMem (s : State) (mill fr : Nat) (b : Bytes) : State :=
  s.each (List.range 64) (fun s i =>
    let k := mmKey mill (64 * fr + i)
    let s := { s with dm := { s.dm with mem := mset (fun _ => 0) s.dm.mem k (BitVec.ofNat 512 (num b (64 * i) 64)) } }
    s.each (List.range 8) (fun s j => s.setMmMark (k * 8 + j) 0))

/-- The bindings of the two far ports of a mill and its descriptors (R136, R143, R243). -/
def State.writeBindings (s : State) (p mill : Nat) (b : Bytes) : State :=
  let s := s.each [0, 1] (fun s f =>
    let r := slice b (32 * f) 32
    let id := 2 * mill + f
    if bKind r = 0 then [R.MPORT_BIND, R.MPORT_BASE, R.MPORT_SIZE, R.MPORT_TARGET].foldl (fun s r => s.dropSel r (fun i => i == id)) s
    else
      let s := (((s.put (F.MPORT_BIND_kind.sel id) (bKind r)).put (F.MPORT_BIND_mode.sel id) (bMode r)).put (F.MPORT_BIND_group.sel id) (bGroup r)).put
        (F.MPORT_BIND_channel.sel id) (bChan r)
      let s := (((s.put (F.MPORT_BIND_width.sel id) (bWidth r)).put (F.MPORT_BIND_write.sel id) (bFlags r % 2)).put (F.MPORT_BIND_stream.sel id) (bFlags r / 2)).put
        (F.MPORT_BIND_partition.sel id) p
      (((s.put (F.MPORT_BASE_value.sel id) (bBase r)).put (F.MPORT_SIZE_value.sel id) (bSize r)).put (F.MPORT_TARGET_t.sel id) (bT r)).put
        (F.MPORT_TARGET_u.sel id) (bU r))
  s.each (List.range 16) (fun s d =>
    let rows := num b (66 + 8 * d) 2
    let x : Desc := if rows = 0 then {} else ⟨true, num b (64 + 8 * d) 2, rows, num b (68 + 8 * d) 2⟩
    { s with dm := { s.dm with descs := mset (fun _ => {}) s.dm.descs (mill * 16 + d) x } })

/-- A capture-tap map: it replaces the stone's (R242). -/
def State.writeTaps (s : State) (mill st : Nat) (b : Bytes) : State :=
  let site := mill * 16 + st
  let s := { s with stones := { s.stones with tapBit := mdrop (fun k => k / 131072 == site) s.stones.tapBit } }
  s.each (tapEntries b) (fun s e =>
    { s with stones := { s.stones with tapBit := mset (fun _ => 0) s.stones.tapBit (wordKey site e.2.1 e.2.2) (e.1 + 1) } })

/-- One frame of a design image enters its physical place. Flume frames act together, when the pass ends. -/
def State.writeFrame (s : State) (p : Nat) (set : List Nat) (m : Nat) (f : Nat × Bytes) : State :=
  let a := f.1
  let mill := physMill set m (frMill a)
  match frClass a with
  | 0 => s.writeGroup mill (frStone a) (frGroup a) (a % 4) f.2
  | 1 => s.writeSlots mill (frPort a) f.2
  | 2 => s.writeInit mill (frStone a) (a % 8) f.2
  | 3 => s.writeMillMem mill (a % 256) f.2
  | 5 => s.writeBindings p mill f.2
  | 6 => s.writeTaps mill (frStone a) f.2
  | _ => s

/-! ## Flume configuration (R113, R125, R127, R129, R242) -/

/-- Forget a region of quadrant q and everything that belongs to it. -/
def State.dropRegion (s : State) (r : Nat) : State :=
  let q := r / 512
  let f := s.flume
  let ours := (s.region r).launches
  let lands := (s.region r).lands
  let clear (keys : List Nat) (bits : Nat → Row) (m : SMap Row) : SMap Row :=
    keys.foldl (fun m k => mset (fun _ => 0) m (k / 8) (mget (fun _ => 0) m (k / 8) &&& ~~~(bits k))) m
  let ports (dir : Nat) : List Nat := ((List.range 512).map (512 * q + ·)).filter (fun k => s.portMode (k / 8) dir (k % 8) != 0 && s.portRegion (k / 8) dir (k % 8) == r)
  let lp := ours ++ (ports 0).filter (fun k => !ours.contains k)
  let dp := lands ++ (ports 1).filter (fun k => !lands.contains k)
  let s := { s with flume := { f with
    launchBits := clear lp (fun k => (mget (fun _ => {}) f.launch k : LaunchPort).bits) f.launchBits
    landBits := clear dp (fun k => (mget (fun _ => {}) f.land k : LandPort).bits) f.landBits
    launch := mdrop lp.contains f.launch
    land := mdrop dp.contains f.land
    regions := mdrop (· == r) f.regions
    cells := f.cells.filter (fun e => !(e.1 / 196608 == q && e.2.region == r))
    mems := f.mems.filter (fun e => !(e.1 / 512 == q && e.2.region == r))
    hist := mdrop (fun k => k / 16 == r) f.hist
    pins := f.pins.filter (fun e => e.2.region != r) } }
  let s := s.dropSel R.FLM_PORTSTAT (fun i => i / 1024 == q &&
    (if i / 8 % 2 = 0 then lp.contains (i / 16 * 8 + i % 8) else dp.contains (i / 16 * 8 + i % 8)))
  { s with gov := { s.gov with win := mdrop (fun k => k / 16 == r) s.gov.win, mov := mdrop (fun k => k / 16 == r) s.gov.mov } }

/-- The one driver of an input that the loader has accepted (R112, R134); no net where there is none. -/
def netOf (i : List Nat) : Nat := i.headD 0x7FFFF

/-- A memory block as the image configures it: its initial contents, a delay line holding its N entries (R125). -/
def memInit (r : Nat) (b : FlmMem) : MemBlock :=
  let x : MemBlock := { mode := b.mode, width := b.width, region := r, delayN := b.delayN, insW := b.insW.map netOf, insA := b.insA.map netOf,
                        insD := b.insD.map netOf }
  let n := min b.fill x.entries
  let x := if b.mode = 1 then { x with wp := n % x.entries, occ := n } else if b.mode = 3 then { x with occ := b.delayN } else x
  b.data.foldl (fun x e => x.put (e.1 % x.entries) e.2) x

/-- Configure region idx of physical quadrant q from a quadrant's configuration (R113, R128, R129): its cells at spacer, its ports
and blocks as at reset. `stage` is the release it waits for. -/
def State.putRegion (s : State) (q : Nat) (g : FlmImg) (x : FlmRegion) (stage : Nat) : State :=
  let r := 512 * q + x.idx
  let mine := g.ports.filter (fun y => y.mode != 0 && y.region == x.idx)
  let key (y : FlmPort) : Nat := (64 * q + y.mill) * 8 + y.port
  let pins := g.pins.filter (fun y => y.region == x.idx)
  let reg : Region := {
    used := true, launched := x.launched, budget := x.budget, stage := stage
    launches := (mine.filter (fun y => !y.land)).map key
    lands := (mine.filter (fun y => y.land)).map key
    pinsIn := (pins.filter (fun y => y.sync && !y.out)).map (·.pin)
    pinsOut := (pins.filter (fun y => y.sync && y.out)).map (·.pin) }
  let s := s.setRegion r reg
  let s := s.each mine (fun s y =>
    let i := portIdx (64 * q + y.mill) (if y.land then 1 else 0) y.port
    let s := (s.put (F.FLM_PORTSTAT_mode.sel i) y.mode).put (F.FLM_PORTSTAT_region.sel i) r
    if y.land then s.setLandPort (64 * q + y.mill) y.port { bits := y.bits, ackBit := y.keyBit, nets := y.nets.map (fun e => (e.1, netOf e.2)) }
    else s.setLaunchPort (64 * q + y.mill) y.port { bits := y.bits, fireBit := y.keyBit })
  let s := s.each (g.cells.filter (fun c => c.used != 0 && c.region == x.idx)) (fun s c =>
    s.setCell (q * 196608 + c.idx) { region := r, table := c.table, used := c.used, mux := c.mux, inA := netOf c.inA, inB := netOf c.inB, inC := netOf c.inC })
  let s := s.each (g.mems.filter (fun b => b.mode != 0 && b.region == x.idx)) (fun s b => s.setBlock q b.block (memInit r b))
  s.each pins (fun s y => s.setPinPort (pinKey q y.pin) { used := true, out := y.out, sync := y.sync, region := r, net := netOf y.net })

/-- The regions of a quadrant whose configuration some frame of the list carries (R129). -/
def carriedRegions (g : FlmImg) (frames : List Nat) : List Nat :=
  ((g.regions.filter (fun x => frames.contains x.frame)).map (·.idx) ++
   (g.ports.filter (fun x => x.mode != 0 && frames.contains x.frame)).map (·.region) ++
   (g.cells.filter (fun x => x.used != 0 && frames.contains x.frame)).map (·.region) ++
   (g.mems.filter (fun x => x.mode != 0 && frames.contains x.frame)).map (·.region) ++
   (g.pins.filter (fun x => frames.contains x.frame)).map (·.region)).eraseDups

/-! ## Release (R128, R253 to R255) -/

/-- The module holds CFG_DONE low (R253). -/
def State.holdsDone (s : State) : Bool :=
  s.on F.CFG_CTRL_hold_done ||
  (List.range 4).any (fun p => s.on (F.CFG_P_STATE_fault_hold p) ||
    (s.pstate p == stLoading && (s.multi p || (match s.loader.active with | some j => j.part == p && j.cmd == 1 && decide (1 < j.modules) | none => false))))

/-- The release of partition p begins: for a single module at the end of the write pass, for several at CFG_DONE (R254, R255). -/
def State.beginRelease (s : State) (p : Nat) : State :=
  s.setLoader { s.loader with release := mset (fun _ => none) s.loader.release p (some 0) }

/-- Stage k of a partition's release acts on its fabric: every quadrant, or the regions a commit carries. -/
def State.releaseTo (s : State) (p k : Nat) : State :=
  let s := s.setLoader { s.loader with release := mset (fun _ => none) s.loader.release p (some k) }
  let s := s.put F.CFG_RELEASE_stage k
  match s.loader.active with
  | some j =>
    if j.part = p ∧ j.cmd = 3 then s.each j.regions (fun s r => s.setRegion r { s.region r with stage := k })
    else s.each ((List.range 4).filter (fun q => s.ownsQuad p q)) (fun s q => s.setStage q k)
  | none => s.each ((List.range 4).filter (fun q => s.ownsQuad p q)) (fun s q => s.setStage q k)

/-- The last stage that partition p's release has reached; none when none is under way. -/
def State.releaseStage (s : State) (p : Nat) : Option Nat := mget (fun _ => none) s.loader.release p

/-! ## Return to EMPTY (R251, R252) -/

/-- The partition is being emptied: LOADING, pass 0. -/
def State.beginEmpty (s : State) (p : Nat) : State :=
  let s := (s.put (F.PART_STATE_state p) stLoading).put (F.PART_STATE_halt_reason p) 0
  let s := s.put (F.CFG_P_STATE_pass p) 0
  s.setLoader { s.loader with
    release := mset (fun _ => none) s.loader.release p none
    emptying := if s.loader.emptying.contains p then s.loader.emptying else s.loader.emptying ++ [p] }

/-- The registers and records of partition p show no image. -/
def State.forgetImage (s : State) (p : Nat) : State :=
  let s := (s.put (F.PART_QMASK_image_quads p) 0).put (F.PART_QMASK_binding p) 0
  let regs := [R.PART_PROFILE p, R.PART_LINK p, R.PART_IMAGE_ID p, R.PART_CLKCNT p, R.TURN_CONFIG p] ++
    (List.range 8).map (R.PART_CLK p) ++ (List.range 4).map (fun w => R.KEY_LNONCE (4 * p + w))
  let s := s.each regs (fun s r => s.setReg r (resetWord r))
  let s := (s.clearTurns p).put (F.TURN_STATUS_last_valid p) 0
  let s := s.flag (F.TB1_STATUS_anchored p) false
  let s := s.setPart p { waiters := (s.part p).waiters, lossless := (s.part p).lossless }
  (s.setLoader { s.loader with record := mset (fun _ => []) s.loader.record p [], hdrs := mset (fun _ => []) s.loader.hdrs p [] }).settleMis

end Sys2Proof.Machine
end

