-- ==== Sys2Proof/Machine/SessOps.lean ====
section
/-!
DEFINITION. Machine/SessOps.lean: sessions of the debug ports as every family uses them (R324 to R331).
-/
namespace Sys2Proof.Machine

open Sys2Proof

/-- AUTH_JTAG, AUTH_MGMT or AUTH_MBOX: the register that shows port 1, 2 or 3 (R349). -/
def sessReg (port : Nat) : Nat := R.AUTH_JTAG + 4 * (port - 1)

/-- Level of a port: 0 NONE, 1 OBSERVE, 2 FULL. Port 0, shell firmware acting for itself, has every right (R324). -/
def State.sessLevel (s : State) (port : Nat) : Nat := if port = 0 then 2 else (s.reg (sessReg port)).toNat / 2 ^ 30

/-- Scope of a port: bits 0 to 3 partitions, bit 4 the shell. -/
def State.sessScope (s : State) (port : Nat) : Nat := if port = 0 then 31 else (s.reg (sessReg port)).toNat % 32

/-- An operation that concerns partition p, or no partition, is in the port's scope (R326). -/
def State.inScope (s : State) (port : Nat) (p : Option Nat) : Bool :=
  match p with
  | some p => (s.sessScope port).testBit p
  | none => (s.sessScope port).testBit 4

/-- An operation is refused (R326): counted and raised. Reason 1 level, 2 scope, 3 a resource of another port. -/
def State.denied (s : State) (port : Nat) (part : Option Nat) (off reason : Nat) : State :=
  (s.bump F.DBG_DENYCNT_denied 1).raise 0x7005 (ownerField part) [port, off, reason]

/-- Run an operation that needs a level and a scope (R326). -/
def State.allowed (s : State) (port need : Nat) (part : Option Nat) (off : Nat) (f : State → State) : State :=
  if s.sessLevel port < need then s.denied port part off 1
  else if !s.inScope port part then s.denied port part off 2
  else f s

def State.authPort (s : State) (port : Nat) : AuthPort := mget (fun _ => {}) s.dbg.ports port
def State.setAuthPort (s : State) (port : Nat) (x : AuthPort) : State :=
  { s with dbg := { s.dbg with ports := mset (fun _ => {}) s.dbg.ports port x } }

/-! ## Owners (R331) -/

/-- Owner of watch unit u of partition p, and of a miller: 0 none. -/
def State.watchOwner (s : State) (p u : Nat) : Nat := (s.reg (R.DBG_WOWNER p)).toNat / 4 ^ u % 4
def State.setWatchOwner (s : State) (p u port : Nat) : State := s.put ⟨R.DBG_WOWNER p, 2 * u, 2⟩ port
def coreOwnerFld (k : Nat) : Fld := ⟨if k < 16 then R.DBG_MOWNER_LO else R.DBG_MOWNER_HI, 2 * (k % 16), 2⟩
def State.coreOwner (s : State) (k : Nat) : Nat := s.get (coreOwnerFld k)

def State.miller (s : State) (k : Nat) : MillerSt := mget (fun _ => {}) s.millers k
def State.setMiller (s : State) (k : Nat) (x : MillerSt) : State := { s with millers := mset (fun _ => {}) s.millers k x }
def State.schedCore (s : State) (k : Nat) : SchedCore := mget (fun _ => {}) s.sched.cores k
def State.setSchedCore (s : State) (k : Nat) (x : SchedCore) : State :=
  { s with sched := { s.sched with cores := mset (fun _ => {}) s.sched.cores k x } }

/-- Instance of a range register behind DBG_MSEL and DBG_MRSEL: core × 16 + 8 for a data range + index. -/
def rangeIdx (k : Nat) (data : Bool) (i : Nat) : Nat := k * 16 + (if data then 8 else 0) + i

/-- Instances of the ranges of a core: eight instruction ranges, four data ranges (R347). -/
def rangesOf (k : Nat) : List Nat := (List.range 12).map (k * 16 + ·)

end Sys2Proof.Machine
end

