-- ==== Sys2Proof/Machine/TraceOps.lean ====
section
/-!
DEFINITION. Machine/TraceOps.lean: trace packets, their buffers and the trace ring (R370 to R376).
-/
namespace Sys2Proof.Machine

open Sys2Proof

def State.trc (s : State) (k : Nat) : TrcCore := mget (fun _ => {}) s.trace.cores k
def State.setTrc (s : State) (k : Nat) (x : TrcCore) : State :=
  { s with trace := { s.trace with cores := mset (fun _ => {}) s.trace.cores k x } }

/-- Core k is traced at all. -/
def State.traced (s : State) (k : Nat) : Bool := s.on F.TRC_CTRL_en && s.on (F.TRC_CORE_en k)
def State.tracedCores (s : State) : List Nat := cores.filter s.traced

/-! ## Packets (R371 to R375) -/

/-- A packet enters the buffer of core k, or is lost when 256 are there. -/
def State.trcPush (s : State) (k pkt : Nat) : State :=
  let x := s.trc k
  if x.buf.length < 256 then s.setTrc k { x with buf := x.buf ++ [pkt] }
  else ((s.setTrc k { x with lost := x.lost + 1 }).bump F.TRC_LOST_count 1).bump (F.TRC_CORE_dropped k) 1

/-- Control cycles since the previous packet of core k (R373). -/
def State.trcDelta (s : State) (k : Nat) : Nat := let x := s.trc k; x.stopped.getD s.uptime - x.since

/-- A packet of a type and payload; one with a delta above 8,191 follows a CYCLES packet and has delta 0. -/
def State.trcRaw (s : State) (k type payload : Nat) : State :=
  let d := s.trcDelta k
  let head (t : Nat) : Nat := k * 2 ^ 59 + t * 2 ^ 55
  let mark (s : State) : State := let x := s.trc k; s.setTrc k { x with since := x.stopped.getD s.uptime }
  if type = 8 ∨ type = 12 then mark (s.trcPush k (head type + payload % 2 ^ 55))
  else if 8191 < d then mark ((s.trcPush k (head 13 + d % 2 ^ 42)).trcPush k (head type + payload % 2 ^ 42))
  else mark (s.trcPush k (head type + d * 2 ^ 42 + payload % 2 ^ 42))

/-- Bits [42:1] of the core's pc. -/
def State.trcPc (s : State) (k : Nat) : Nat := (s.miller k).pc.toNat / 2 % 2 ^ 42

/-- OVERFLOW and SYNC, when packets were lost and there is room again. -/
def State.trcRoom (s : State) (k : Nat) : State :=
  let x := s.trc k
  if x.lost ≠ 0 ∧ x.buf.length < 254 then ((s.setTrc k { x with lost := 0 }).trcRaw k 10 x.lost).trcRaw k 0 (s.trcPc k) else s

/-- REPEAT, when full maps were suppressed (R374). -/
def State.trcRepeats (s : State) (k : Nat) : State :=
  let x := s.trc k
  if x.repeats = 0 then s else (s.setTrc k { x with repeats := 0 }).trcRaw k 2 x.repeats

/-- Branches held go out as a partial map (R372). -/
def State.trcMap (s : State) (k : Nat) : State :=
  let s := s.trcRepeats k
  let x := s.trc k
  if x.held = 0 then s else (s.setTrc k { x with held := 0, map := 0 }).trcRaw k 1 ((x.held - 1) * 2 ^ 37 + x.map)

/-- A packet other than BRANCHES and REPEAT: what is held goes first. -/
def State.trcPacket (s : State) (k type payload : Nat) : State := ((s.trcRoom k).trcMap k).trcRaw k type payload

/-- A conditional branch (R372, R374). -/
def State.trcBranch (s : State) (k : Nat) (taken : Bool) : State :=
  let s := s.trcRoom k
  let x := s.trc k
  let map := x.map + (if taken then 2 ^ x.held else 0)
  if x.held < 31 then s.setTrc k { x with map := map, held := x.held + 1 }
  else if x.full = some map then
    let s := s.setTrc k { x with map := 0, held := 0, repeats := x.repeats + 1 }
    if x.repeats + 1 = 2 ^ 42 - 1 then s.trcRepeats k else s
  else
    let s := (s.setTrc k { x with map := 0, held := 0 }).trcRepeats k
    (s.setTrc k { s.trc k with full := some map }).trcRaw k 1 (31 * 2 ^ 37 + map)

/-! ## What is traced (R370) -/

/-- The context of the item core k runs, or has been given. -/
def State.trcCtx (s : State) (k : Nat) : Option Nat :=
  let c := s.schedCore k
  let i := match c.waiting with
    | some i => some i
    | none => c.stack.head?
  i.map (fun i => i.w2.toNat / 2 ^ 18 % 8)

/-- An item of ctx c is traced in machine mode, or outside it. -/
def State.trcSel (s : State) (c : Nat) (machine : Bool) : Bool :=
  s.bit F.TRC_CTRL_ctx_mask c && (s.on F.TRC_CTRL_full_auth || (!machine && c != 4))

/-- An untraced stretch begins. -/
def State.trcExclude (s : State) (k : Nat) : State :=
  if s.on (F.TRC_CORE_excluded k) then s
  else
    let s := ((s.trcPacket k 11 0).put (F.TRC_CORE_excluded k) 1).bump F.TRC_EXCL_count 1
    s.setTrc k { s.trc k with resync := true }

/-- Tracing resumes. -/
def State.trcResume (s : State) (k : Nat) : State :=
  if (s.trc k).resync then
    let s := (s.setTrc k { s.trc k with resync := false }).put (F.TRC_CORE_excluded k) 0
    s.trcPacket k 0 (s.trcPc k)
  else s

/-- Something core k does while it runs an item enters its trace by f, or begins an untraced stretch. -/
def State.trcRun (s : State) (k : Nat) (machine : Bool) (f : State → State) : State :=
  if s.traced k then
    match s.trcCtx k with
    | none => s
    | some c => if s.trcSel c machine then f (s.trcResume k) else s.trcExclude k
  else s

/-- An item starts or resumes on core k: ITEM_START, then SYNC. -/
def State.trcStart (s : State) (k ctx seq : Nat) (machine : Bool) : State :=
  if s.traced k then
    if s.trcSel ctx machine then
      let s := (s.setTrc k { s.trc k with resync := false }).put (F.TRC_CORE_excluded k) 0
      (s.trcPacket k 4 ((if machine then 2 ^ 35 else 0) + ctx * 2 ^ 32 + seq)).trcPacket k 0 (s.trcPc k)
    else s.trcExclude k
  else s

/-- An item of core k ends or is pre-empted. -/
def State.trcItemEnd (s : State) (k ctx seq : Nat) : State :=
  if s.traced k && s.bit F.TRC_CTRL_ctx_mask ctx && !s.on (F.TRC_CORE_excluded k) then s.trcPacket k 5 seq else s

/-- A packet of core k that belongs to no instruction: none comes in an untraced stretch. -/
def State.trcOutside (s : State) (k type payload : Nat) : State :=
  if s.traced k && !s.on (F.TRC_CORE_excluded k) then s.trcPacket k type payload else s

/-- The count of core k stops, in Nap or in a debug halt, and goes on (R373). After Nap it starts again. -/
def State.trcHold (s : State) (k : Nat) : State :=
  let x := s.trc k
  if s.traced k && x.stopped.isNone then s.setTrc k { x with stopped := some s.uptime } else s
def State.trcGo (s : State) (k : Nat) (afresh : Bool) : State :=
  let x := s.trc k
  match x.stopped with
  | some t => s.setTrc k { x with stopped := none, since := if afresh then s.uptime else x.since + (s.uptime - t) }
  | none => s

/-! ## The ring (R375) -/

/-- Channel, base and size in bytes of the trace ring, as ACQ_Pp_RING. -/
def State.trcRing (s : State) : Nat × Nat × Nat :=
  let r := (s.reg R.TRC_RING).toNat
  (r / 2 ^ 28, r % 2 ^ 18 * 2 ^ 20, 2 ^ 22 * 2 ^ (r / 2 ^ 24 % 16))

/-- The fill packet. -/
def trcPad : Nat := 2 ^ 64 - 1

/-- One block of core k, of its oldest packets, filled with PAD. A write that fails stops trace. -/
def State.trcBlock (s : State) (k : Nat) : State :=
  let x := s.trc k
  let ps := x.buf.take 8
  let size := s.trcRing.2.2
  let pos := s.get F.TRC_WPOS_blocks
  let r := (s.setTrc k { x with buf := x.buf.drop 8 }).busWrite 0x224 7 s.trcRing.1 (s.trcRing.2.1 + 64 * (pos % (size / 64)))
    ((ps ++ List.replicate (8 - ps.length) trcPad).flatMap (natLe 8)) {}
  let s := r.2
  if r.1 = 0 then
    let s := if size / 64 ≤ pos then s.put F.TRC_STATUS_wrapped 1 else s
    (s.bumpWrap F.TRC_WPOS_blocks 1).bumpWrap F.TRC_PKTCNT_count ps.length
  else
    let s := if s.on F.TRC_ERR_flag then s else (s.put F.TRC_ERR_flag 1).put F.TRC_ERR_status r.1
    (s.put F.TRC_CTRL_en 0).raise 0x9005 0xFF [r.1]

/-- Every block of core k, the partial one too. -/
def State.trcFlushCore (k : Nat) : Nat → State → State
  | 0, s => s
  | fuel + 1, s => if s.on F.TRC_CTRL_en && !(s.trc k).buf.isEmpty then State.trcFlushCore k fuel (s.trcBlock k) else s

/-- One control cycle of the engine: it writes a whole block of the lowest-numbered core that holds one (DESIGN CHOICE, log entry 40). -/
def State.trcTick (s : State) : State :=
  match s.tracedCores.find? (fun k => decide (8 ≤ (s.trc k).buf.length)) with
  | some k => s.trcBlock k
  | none => s

/-! ## Triggers (R376) -/

/-- Trace stops. -/
def State.trcStop (s : State) : State :=
  let on := s.tracedCores
  let s := s.each on (fun s k => s.trcPacket k 14 0)
  let s := s.each on (fun s k => State.trcFlushCore k 33 s)
  if s.on F.TRC_CTRL_en then
    let pos := s.get F.TRC_WPOS_blocks
    let s := ((s.put F.TRC_LASTSTOP_blocks pos).put F.TRC_CTRL_en 0).put F.TRC_STATUS_stopped 1
    s.raise 0x9006 0xFF [pos, s.get F.TRC_STATUS_trig_src]
  else s

/-- A trigger: source 0 range of a core, 1 TRIG_X, 2 TRIG_IN, 3 software. -/
def State.trcTrigger (s : State) (src core : Nat) : State :=
  if s.on F.TRC_CTRL_en && !s.on F.TRC_STATUS_triggered then
    let s := (s.put F.TRC_STATUS_triggered 1).put F.TRC_STATUS_trig_src src
    let s := s.put F.TRC_STATUS_trig_core (if src = 0 then core else 0)
    let s := s.put64 R.TRC_TRIGREC_LO R.TRC_TRIGREC_HI s.tb0
    let s := s.each s.tracedCores (fun s k => s.trcPacket k 9 (src * 2 ^ 40 + (if src = 0 then core * 2 ^ 32 else 0)))
    if s.get F.TRC_STOPDLY_cycles = 0 then s.trcStop else s
  else s

end Sys2Proof.Machine
end

