-- ==== Sys2Proof/Machine/HopOps.lean ====
section
/-!
DEFINITION. Machine/HopOps.lean: the hopper and the task scheduler as every family uses them (R303 to R320).
-/
namespace Sys2Proof.Machine

open Sys2Proof

/-! ## The hopper -/

/-- Bank of a hopper offset: 4 MiB each. -/
def hopBank (off : Nat) : Nat := off / 2 ^ 22 % 16

/-- Owner of a bank: 0 shell, 1 to 4 partitions, 5 host (R315). -/
def State.hopOwner (s : State) (b : Nat) : Nat := s.get (F.HOP_BANK_owner b)

/-- Owner as an event's partition field shows it (R458). -/
def State.hopOwnerField (s : State) (b : Nat) : Nat := let o := s.hopOwner b; if 1 ≤ o ∧ o ≤ 4 then o - 1 else 0xFF

/-- Owner code of a packet's or an item's context (R92, R315): partitions, shell, host; none for the debugger and acquisition. -/
def ctxOwner (ctx : Nat) : Option Nat := if ctx < 4 then some (ctx + 1) else if ctx = 4 then some 0 else if ctx = 5 then some 5 else none

/-- n bytes of the hopper. -/
def State.hopRead (s : State) (off n : Nat) : List Byte := mbytes (fun _ => 0) s.hop.mem off n

/-- Clear the reservations on the granules of a write (R299). -/
def State.clearResv (s : State) (off n : Nat) : State :=
  s.each cores (fun s k =>
    match (s.miller k).resv with
    | some g => if off / 64 ≤ g ∧ 64 * g < off + n then s.setMiller k { s.miller k with resv := none } else s
    | none => s)

/-- Write bytes of the hopper: code words covered whole are clean again (R457), reservations on their granules end (R299). -/
def State.hopWrite (s : State) (off : Nat) (bs : List Byte) : State :=
  if bs.isEmpty then s
  else
    let e := off + bs.length
    let s := { s with hop := { s.hop with mem := mputBytes (fun _ => 0) s.hop.mem off bs } }
    let s := s.each ((List.range ((e - 1) / 8 - off / 8 + 1)).map (off / 8 + ·)) (fun s w =>
      if off ≤ 8 * w ∧ 8 * w + 8 ≤ e then { s with hop := { s.hop with ue := mset (fun _ => false) s.hop.ue w false } } else s)
    s.clearResv off bs.length

/-- Some code word of the bytes is uncorrectable. -/
def State.hopBad (s : State) (off n : Nat) : Bool :=
  (List.range ((off + n - 1) / 8 - off / 8 + 1)).any (fun i => mget (fun _ => false) s.hop.ue (off / 8 + i))

/-- What the decoders see on the way to the hopper (R319): corrected errors are counted, words (offset ÷ 8) go bad. -/
def State.hopEcc (s : State) (e : RowEcc) : State :=
  let s := s.bump F.HOP_ECC_ce_count e.ce
  s.each (e.ue.filter (· < 2 ^ 23)) (fun s w => { s with hop := { s.hop with ue := mset (fun _ => false) s.hop.ue w true } })

/-- Accesses that lost cycles at a bank (R318): a requester that has lost 16 is served next. -/
def State.hopStall (s : State) (l : List (Nat × Nat)) : State :=
  s.each (l.filter (·.1 < 16)) (fun s e => s.bump (F.HOP_STALL_cycles e.1) (min e.2 16))

/-- An uncorrectable error is recorded and raised (R319, R458). -/
def State.hopUe (s : State) (off init : Nat) : State :=
  let off := off / 8 * 8
  let s := if s.on F.HOP_ECC_ue_flag then s else (s.put F.HOP_ECC_ue_flag 1).put F.HOP_ECCADDR_addr off
  s.raise 0x300D (s.hopOwnerField (hopBank off)) [off, init]

/-! ## Work items (R303) -/

def WItem.delay (i : WItem) : Nat := i.w2.toNat / 2 ^ 32
def WItem.list (i : WItem) : Nat := i.w2.toNat / 2 ^ 30 % 4
def WItem.prio (i : WItem) : Nat := i.w2.toNat / 2 ^ 21 % 8
def WItem.ctx (i : WItem) : Nat := i.w2.toNat / 2 ^ 18 % 8
def WItem.aff (i : WItem) : Nat := i.w2.toNat / 2 ^ 16 % 4
def WItem.core (i : WItem) : Nat := i.w2.toNat / 2 ^ 8 % 32
def WItem.machine (i : WItem) : Bool := i.w2.getLsbD 0

/-- Cores an item may run on. -/
def WItem.allows (i : WItem) (k : Nat) : Bool :=
  match i.aff with
  | 0 => true
  | 1 => decide (k < 16)
  | 2 => decide (16 ≤ k)
  | _ => k == i.core

/-- A descriptor keeps R303: entry aligned, reserved bits 0, a context there is; from user mode only its own context and never
machine mode. -/
def WItem.valid (i : WItem) (user : Option Nat) : Bool :=
  !i.w0.getLsbD 0 && decide (i.ctx ≤ 4) && i.w2.toNat / 2 ^ 24 % 64 == 0 && i.w2.toNat / 2 ^ 13 % 8 == 0 && i.w2.toNat / 2 % 128 == 0 &&
  (match user with
   | some c => i.ctx == c && !i.machine
   | none => true)

/-- The running item of a core, newest first. -/
def State.runItem (s : State) (k : Nat) : Option WItem := (s.schedCore k).stack.head?

/-- The core takes work items (R323): not held in reset, not halted by a debugger. -/
def State.coreOn (s : State) (k : Nat) : Bool :=
  s.on (F.MLR_CTRL_sched k) && !s.on (F.MLR_CTRL_hold k) && !(s.miller k).halted

/-- A core with no item (R309). -/
def State.coreIdle (s : State) (k : Nat) : Bool := let c := s.schedCore k; s.coreOn k && c.waiting.isNone && c.stack.isEmpty

/-- CSR mpreempt of a core (R302). -/
def State.mpreempt (s : State) (k : Nat) : Bool := (mget (fun _ => 0) (s.miller k).csr 0x7C0).getLsbD 0

/-- A core that may be pre-empted by an item of priority p (R309): nesting is at most 7 deep. -/
def State.corePreempts (s : State) (k p : Nat) : Bool :=
  let c := s.schedCore k
  s.coreOn k && s.mpreempt k && c.waiting.isNone && decide (c.stack.length ≤ 7) &&
  (match c.stack with
   | i :: _ => decide (i.prio < p)
   | [] => false)

/-- Return every item held in a prefetch slot for which `f` holds to its list (R310): it keeps its place there. -/
def State.cancelHeld (s : State) (f : WItem → Nat → Bool) : State :=
  let gone := s.sched.ready.filter (fun r => match r.held with | some k => f r.item k | none => false)
  let s := s.bumpWrap F.SCHED_CANCELCNT_count gone.length
  { s with sched := { s.sched with ready := s.sched.ready.map (fun r =>
      match r.held with
      | some k => if f r.item k then { r with held := none } else r
      | none => r) } }

/-- An item enters the ready pool (R309, R310): a higher priority cancels the hold of a core it may run on. -/
def State.readyItem (s : State) (i : WItem) : State :=
  let s := s.cancelHeld (fun h k => i.allows k && decide (h.prio < i.prio))
  { s with sched := { s.sched with ready := s.sched.ready ++ [{ item := i }] } }

/-- Insert into the delay lists, after every item of the list that is due no later (R307). -/
def insertDelay (d : DelayItem) : List DelayItem → List DelayItem
  | [] => [d]
  | e :: t => if e.list = d.list ∧ d.due < e.due then d :: e :: t else e :: insertDelay d t

/-- Enqueue an item (R305 to R307): status 0 OK with its sequence number, 1 REFUSED, 2 ENQ_INVALID. `full`: the insertion queue of
its delay list is full. The first sequence number is not stated (log entry 3). -/
def State.enqueue (s : State) (i : WItem) (user : Option Nat) (full : Bool) : Nat × Nat × State :=
  let refuse (s : State) : Nat × Nat × State := (1, 0, s.bump F.SCHED_REFCNT_count 1)
  if !i.valid user then (2, 0, s)
  else
    let seq := ((Config.freeBits 10 0).toNat + s.sched.count) % 2 ^ 32
    let i := { i with seq := seq }
    let took (s : State) : State := { s with sched := { s.sched with count := s.sched.count + 1 } }
    if i.delay = 0 then
      if s.sched.ready.length < 4096 then (0, seq, took (s.readyItem i)) else refuse s
    else if 4096 ≤ s.sched.delayed.length || full then refuse s
    else
      let d : DelayItem := ⟨i, i.list, s.sched.ticks + i.delay⟩
      (0, seq, took { s with sched := { s.sched with delayed := insertDelay d s.sched.delayed } })

/-- An item goes to a core (R309): DISPATCH is raised there and its watchdog starts again. -/
def State.dispatchTo (s : State) (i : WItem) (k : Nat) : State :=
  let c := s.schedCore k
  let s := { s with sched := { s.sched with ready := s.sched.ready.filter (fun r => r.item.seq != i.seq) } }
  let s := s.bumpWrap F.SCHED_DISPCNT_count 1
  let s := if c.stack.isEmpty then s else s.bumpWrap F.SCHED_PREEMPTCNT_count 1
  let s := s.setSchedCore k { c with waiting := some i, shown := some i, expired := false }
  (s.trcStart k i.ctx i.seq i.machine).raiseIrq k 0

/-- The core reads mwiinfo (R301, R302): DISPATCH is cleared, and the item is the core's running item. -/
def State.takeItem (s : State) (k : Nat) : State :=
  let c := s.schedCore k
  let s := match c.waiting with
    | some i => s.setSchedCore k { c with waiting := none, stack := i :: c.stack }
    | none => s
  { s with mlipend := mset (fun _ => 0) s.mlipend k (mget (fun _ => 0) s.mlipend k / 2 * 2) }

/-- The item in a core's prefetch slot. -/
def State.slotItem (s : State) (k : Nat) : Option WItem := (s.sched.ready.find? (fun r => r.held == some k)).map (·.item)

/-- The running item of a core ends (R299, R304, R309, R310): its reservation ends; the item it suspended resumes, or the item of the
prefetch slot is dispatched when its priority is above that one's and the core still takes items. -/
def State.itemEnds (s : State) (k : Nat) : State :=
  let c := s.schedCore k
  match c.stack with
  | [] => s
  | e :: rest =>
    let s := s.trcItemEnd k e.ctx e.seq
    let s := s.setSchedCore k { c with stack := rest, expired := if rest.isEmpty then c.expired else false }
    let s := s.setMiller k { s.miller k with resv := none }
    let back (s : State) (r : WItem) : State := if c.waiting.isNone then s.trcStart k r.ctx r.seq r.machine else s
    let takes := c.waiting.isNone && s.coreOn k && s.on F.SCHED_CTRL_en
    match s.slotItem k, rest with
    | some i, [] => if takes then s.dispatchTo i k else s
    | some i, r :: _ => if takes && s.mpreempt k && decide (r.prio < i.prio) then s.dispatchTo i k else back s r
    | none, r :: _ => back s r
    | none, [] => s

/-- Four doublewords of the hopper as a descriptor. -/
def State.hopItem (s : State) (off : Nat) : WItem :=
  let w (j : Nat) : BitVec 64 := BitVec.ofNat 64 (leNat (s.hopRead (off + 8 * j) 8))
  { w0 := w 0, w1 := w 1, w2 := w 2, w3 := w 3 }

end Sys2Proof.Machine
end

