-- ==== Sys2Proof/Machine/CapRing.lean ====
section
/-!
DEFINITION. Machine/CapRing.lean: the stream of a partition's capture: records, the DRAM ring, reduction, drops (R353 to R368).
-/
namespace Sys2Proof.Machine

open Sys2Proof

/-- Counter c of partition p behind ACQ_CNTSEL (R377): 0 records, 1 turns dropped, 2 gap records, 3 marks, 4 failed CAPTURE checks,
5 units copied, 6 invalid turns, 7 incomplete records. -/
def State.capCount (s : State) (p c n : Nat) : State := s.bump (F.ACQ_CNTDATA_count.sel (p * 8 + c)) n

/-- Size of a partition's ring, and the bytes in it not yet copied (R363). -/
def State.capSize (s : State) (p : Nat) : Nat := 2 ^ 22 * 2 ^ s.get (F.ACQ_P_RING_size p)
def State.capUsed (s : State) (p : Nat) : Nat := (s.cap p).written - (s.cap p).copied

/-- Room a record type may fill to (R368): the last 2 KiB are for marks and gap records, the last 64 bytes of them for a stop
record. -/
def State.capLimit (s : State) (p kind : Nat) : Nat :=
  s.capSize p - (match kind with | 6 => 0 | 3 => 64 | 4 => 64 | _ => 2048)

/-- A record (R353): header, specific bytes, data padded to a whole number of units. -/
def capRecord (s : State) (p kind flags turn : Nat) (spec data : List Byte) : List Byte :=
  let data := data ++ List.replicate ((64 - data.length % 64) % 64) 0
  let anchored := if s.on (F.TBK_STATUS_anchored 0) then 2 else 0
  natLe 1 kind ++ natLe 1 (flags + anchored) ++ natLe 1 p ++ natLe 1 (s.get (F.PART_QMASK_binding p)) ++ natLe 4 (1 + data.length / 64) ++
    natLe 8 turn ++ natLe 8 s.tb0 ++ natLe 8 (s.cap p).seq ++ (spec ++ List.replicate 32 0).take 32 ++ data

/-- The first fault of the engine (R377). -/
def State.acqErr (s : State) (p kind : Nat) : State :=
  if s.on F.ACQ_ERR_flag then s else ((s.put F.ACQ_ERR_flag 1).put F.ACQ_ERR_kind kind).put F.ACQ_ERR_partition p

/-- Write bytes at the ring's position, around its end: the status of the first failure, and its offset (R365). -/
def State.ringPut (s : State) (p : Nat) (bs : List Byte) : State × Nat × Nat :=
  let size := s.capSize p
  let ch := s.get (F.ACQ_P_RING_channel p)
  let base := s.get (F.ACQ_P_RING_base p) * 2 ^ 20
  let pos := (s.cap p).written % size
  let n := min (bs.length / 64) ((size - pos) / 64)
  let (k, st, s) := State.busWriteLines 0x223 7 ch n (base + pos) bs s
  if st ≠ 0 then (s, st, pos + 64 * k)
  else
    let (k, st, s) := State.busWriteLines 0x223 7 ch (bs.length / 64 - n) base (bs.drop (64 * n)) s
    (s, st, 64 * k)

/-- Bytes enter the ring as a record; a failed write ends the capture (R365). -/
def State.capWrite (s : State) (p kind turn : Nat) (bs : List Byte) : State :=
  let (s, st, off) := s.ringPut p bs
  if st = 0 then
    let x := s.cap p
    let s := s.setCap p { x with written := x.written + bs.length, recs := x.recs ++ [(x.written, kind, turn)] }
    let s := s.capCount p 0 1
    if kind = 3 then s.capCount p 3 1 else if kind = 4 then s.capCount p 2 1 else s
  else
    let s := (s.raise 0x9003 p [st, off]).acqErr p 1
    let s := s.put (F.ACQ_P_CTRL_en p) 0
    let s := s.setCap p { s.cap p with items := [], staged := [], marks := 0, nextMarks := 0, units := 0, post := none }
    let stop := capRecord s p 6 0 (s.turns p) [3] []
    let (s', st, _) := s.ringPut p stop
    if st = 0 then
      let x := s'.cap p
      (s'.setCap p { x with written := x.written + 64, recs := x.recs ++ [(x.written, 6, s.turns p)], seq := x.seq + 1 }).capCount p 0 1
    else s'

/-- The record number of a record that will be written. -/
def State.capTake (s : State) (p : Nat) : State := s.setCap p { s.cap p with seq := (s.cap p).seq + 1 }

/-- A record that fits is written, after the gap record that is owed (R368). -/
def State.capPut (s : State) (p kind turn flags : Nat) (spec data : List Byte) : State :=
  let s := match (s.cap p).gap with
    | some (first, turns, marks) =>
      let b := capRecord s p 4 0 first (natLe 8 turns ++ natLe 4 marks) []
      ((s.setCap p { s.cap p with gap := none }).capTake p).capWrite p 4 first b
    | none => s
  let b := capRecord s p kind flags turn spec data
  (s.capTake p).capWrite p kind turn b

/-- A record is dropped (R367, R368): turns and lost marks are counted; in lossless capture, and for a mark, CAPTURE_LOST is raised,
for records once per gap. -/
def State.capDrop (s : State) (p kind turn turns : Nat) : State :=
  let lossless := (s.part p).lossless
  let x := s.cap p
  let g := x.gap.getD (turn, 0, 0)
  let mark := kind == 3
  let s := s.setCap p { x with gap := some (g.1, g.2.1 + turns, g.2.2 + (if mark then 1 else 0)) }
  let s := s.capCount p 1 turns
  if mark then (s.raise 0x9004 p [2, turn]).acqErr p 2
  else if lossless && x.gap.isNone then (s.raise 0x9004 p [1, turn]).acqErr p 2
  else s

/-- Bytes in the staging buffer. -/
def stagedBytes (x : CapPart) : Nat := (x.staged.map (fun r => r.bytes.length)).sum

/-- A record joins the stream: into the ring, or in lossless capture the staging buffer; else it is dropped. A stop record always finds
room (R368), the gap record before it only when it fits too. -/
def State.capEmit (s : State) (p kind turn turns flags : Nat) (spec data : List Byte) : State :=
  let x := s.cap p
  let len := 64 + (data.length + 63) / 64 * 64
  let owed := if x.gap.isSome then 64 else 0
  if x.staged.isEmpty && decide (s.capUsed p + owed + len ≤ s.capLimit p kind) then s.capPut p kind turn flags spec data
  else if kind = 6 ∧ x.staged.isEmpty = true ∧ s.capUsed p + len ≤ s.capLimit p kind then
    (s.capTake p).capWrite p kind turn (capRecord s p kind flags turn spec data)
  else if kind = 6 || ((s.part p).lossless && decide (stagedBytes x + owed + len ≤ 131072)) then
    let s := match x.gap with
      | some (first, ts, marks) =>
        let b := capRecord s p 4 0 first (natLe 8 ts ++ natLe 4 marks) []
        s.setCap p { s.cap p with gap := none, seq := x.seq + 1, staged := x.staged ++ [⟨4, first, ts, b⟩] }
      | none => s
    let b := capRecord s p kind flags turn spec data
    let s := s.capTake p
    s.setCap p { s.cap p with staged := (s.cap p).staged ++ [⟨kind, turn, turns, b⟩] }
  else s.capDrop p kind turn turns

/-- Staged records enter the ring while they fit. -/
def State.capUnstage (p : Nat) : Nat → State → State
  | 0, s => s
  | fuel + 1, s =>
    match (s.cap p).staged with
    | [] => s
    | r :: rest =>
      if s.capUsed p + r.bytes.length ≤ s.capLimit p r.kind then
        State.capUnstage p fuel ((s.setCap p { s.cap p with staged := rest }).capWrite p r.kind r.turn r.bytes)
      else s

/-! ## Turns, intervals, marks -/

/-- The captured turn as a turn record (R354, R355). -/
def State.turnRecord (s : State) (p : Nat) (i : CapItem) : State :=
  let data := i.mills.flatMap (fun m => (List.range 16).flatMap (fun st => natLe 8 (mget (fun _ => 0) i.words (m * 16 + st) : Row).toNat))
  let s := s.capCount p 6 (if i.valid then 0 else 1)
  let s := s.capCount p 7 (if i.incomplete then 1 else 0)
  s.capEmit p 1 i.turn 1 ((if i.valid then 1 else 0) + (if i.incomplete then 16 else 0)) (natLe 2 i.mills.length) data

/-- Groups that reduce partition p's words, in order (R356). -/
def State.capGroups (s : State) (p : Nat) : List Nat :=
  (List.range 256).filter (fun g => s.on (F.ACQ_GDEF_en.sel g) && s.get (F.ACQ_GDEF_partition.sel g) == p)

/-- The mill is captured (R352). -/
def State.millCaptured (s : State) (m : Nat) : Bool := s.bit (F.ACQ_MILLEN_mills (m / 32)) (m % 32)

/-- A group's value in a turn. -/
def State.groupValue (s : State) (g : Nat) (i : CapItem) : Int :=
  let f (f : Fld) := s.get (f.sel g)
  let w : Row := mget (fun _ => 0) i.words (f F.ACQ_GDEF_mill * 16 + f F.ACQ_GDEF_stone)
  let width := f F.ACQ_GDEF_width + 1
  let v := w.toNat / 2 ^ f F.ACQ_GDEF_lsb % 2 ^ width
  if f F.ACQ_GDEF_signed = 1 ∧ 2 ^ (width - 1) ≤ v then (v : Int) - 2 ^ width else v

/-- A turn enters the interval in progress (R356). -/
def State.reduceTurn (s : State) (p : Nat) (i : CapItem) : State :=
  let x := s.cap p
  let first := x.iTurns == 0
  let x := { x with iFirst := if first then i.turn else x.iFirst, iTurns := x.iTurns + 1, iValid := x.iValid + (if i.valid then 1 else 0),
                    iInc := x.iInc || i.incomplete }
  let fresh := i.valid && x.iValid == 1
  let x := if i.valid then
      (s.capGroups p).foldl (fun x g =>
        let v := s.groupValue g i
        { x with
          iMin := mset (fun _ => 0) x.iMin g (if fresh then v else min v (mget (fun _ => 0) x.iMin g))
          iMax := mset (fun _ => 0) x.iMax g (if fresh then v else max v (mget (fun _ => 0) x.iMax g)) }) x
    else x
  (s.setCap p x).capCount p 6 (if i.valid then 0 else 1)

/-- The interval in progress is written (R352, R354, R356, R357): as a partial one when it covers fewer turns than N, as an incomplete
one when the words of one of its turns were discarded. -/
def State.closeInterval (s : State) (p : Nat) : State :=
  let x := s.cap p
  if x.iTurns = 0 then s
  else
    let gs := s.capGroups p
    let live (g : Nat) : Bool := s.millCaptured (s.get (F.ACQ_GDEF_mill.sel g)) && x.iValid != 0
    let enc (v : Int) : List Byte := natLe 8 (v % 2 ^ 64).toNat
    let data := gs.flatMap (fun g => if live g then enc (mget (fun _ => 0) x.iMin g) ++ enc (mget (fun _ => 0) x.iMax g) else List.replicate 16 0)
    let flags := (if x.iValid = x.iTurns then 1 else 0) + (if x.iTurns < s.get (F.ACQ_P_CTRL_interval p) then 4 else 0) + (if x.iValid = 0 then 8 else 0) +
      (if x.iInc then 16 else 0)
    let spec := natLe 2 gs.length ++ natLe 2 0 ++ natLe 4 x.iTurns ++ natLe 4 x.iValid
    let s := (s.setCap p { x with iTurns := 0, iValid := 0, iInc := false, iMin := [], iMax := [] }).capCount p 7 (if x.iInc then 1 else 0)
    s.capEmit p 2 x.iFirst x.iTurns flags spec data

/-- An item of the stream is written. -/
def State.capItem (s : State) (p : Nat) (i : CapItem) : State :=
  match i.kind with
  | 1 => if s.get (F.ACQ_P_CTRL_interval p) = 0 then s.turnRecord p i else s.reduceTurn p i
  | 2 => s.closeInterval p
  | 3 =>
    let s := ((s.put F.ACQ_TRIGREC_partition p).put F.ACQ_TRIGREC_sources i.sources).put F.ACQ_TRIGREC_turn i.turn
    s.capEmit p 3 i.turn 0 (if i.idle then 32 else 0) (natLe 1 i.sources ++ natLe 1 0 ++ natLe 2 i.step ++ natLe 4 i.units) []
  | _ => s.capEmit p 6 i.turn 0 0 (natLe 1 i.reason) []

/-- Everything that waits for no more words is written, in order. -/
def State.capDrain (p : Nat) : Nat → State → State
  | 0, s => s
  | fuel + 1, s =>
    match (s.cap p).items with
    | [] => s
    | i :: rest =>
      if i.kind = 1 ∧ !i.missing.isEmpty then s
      else State.capDrain p fuel ((s.setCap p { s.cap p with items := rest }).capItem p i)

def State.capFlow (s : State) (p : Nat) : State := State.capDrain p (s.cap p).items.length s

/-- Items join the end of the stream. -/
def State.capPush (s : State) (p : Nat) (is : List CapItem) : State := (s.setCap p { s.cap p with items := (s.cap p).items ++ is }).capFlow p

/-- Capture of partition p ends (R362, R369): the interval in progress, a stop record, en to 0. -/
def State.capStop (s : State) (p reason : Nat) : State :=
  if s.on (F.ACQ_P_CTRL_en p) then
    let s := (s.put (F.ACQ_P_CTRL_en p) 0).setCap p { s.cap p with marks := 0, nextMarks := 0, units := 0, post := none }
    s.capPush p [{ kind := 2, turn := s.turns p }, { kind := 6, turn := s.turns p, reason := reason }]
  else s

/-- The interval in progress is cut before a commit's turn 0 (R357). -/
def State.capCut (s : State) (p : Nat) : State :=
  if s.on (F.ACQ_P_CTRL_en p) then s.capPush p [{ kind := 2, turn := s.turns p }] else s

/-! ## The end of a turn (R355, R360 to R362) -/

/-- A mill whose buffer holds the words of 8 turns loses the oldest (R352). -/
def State.capOverflow (s : State) (p m : Nat) : State :=
  let x := s.cap p
  if 8 ≤ (x.items.filter (fun i => i.missing.contains m)).length then
    match x.items.find? (fun i => i.missing.contains m) with
    | some i =>
      let j := { i with missing := i.missing.erase m, incomplete := true, words := mdrop (fun k => k / 16 == m) i.words }
      s.setCap p { x with items := x.items.map (fun y => if y = i then j else y) }
    | none => s
  else s

/-- Action 3 of R22 for turn t of partition p: the capture of the turn closes; true when the post-trigger action halts the
partition. A post-trigger action acts at the turn end at which its count reaches 0 (R362). -/
def State.capTurnEnd (s : State) (p t : Nat) (valid : Bool) (taps : SMap Row) : State × Bool :=
  if !s.on (F.ACQ_P_CTRL_en p) then (s, false)
  else
    let mills := (List.range 256).filter (fun m => s.millCaptured m && s.millOwner m == some p)
    let s := s.each mills (fun s m => s.capOverflow p m)
    let x := s.cap p
    let timeout := s.get (F.ACQ_P_AUTO_timeout p)
    let n := x.auto + 1
    let src := x.marks ||| (if timeout ≠ 0 ∧ timeout ≤ n then 16 else 0)
    let marked := src != 0
    let left := x.post.getD (if marked then s.get (F.ACQ_P_POST_turns p) + 1 else 0)
    let act := if left = 1 then s.get (F.ACQ_P_CTRL_post_action p) else 0
    let interval := s.get (F.ACQ_P_CTRL_interval p)
    let items : List CapItem :=
      [{ kind := 1, turn := t, valid := valid, mills := mills, missing := mills, words := mdrop (fun k => !mills.contains (k / 16)) taps }] ++
      (if marked then [{ kind := 3, turn := t, sources := src, step := x.step, units := x.units }] else []) ++
      (if interval ≠ 0 ∧ ((s.part p).sinceZero + 1) % interval = 0 then [{ kind := 2, turn := t }] else []) ++
      (if act % 2 = 1 then [{ kind := 2, turn := t }, { kind := 6, turn := t, reason := 2 }] else [])
    let s := s.setCap p { x with marks := x.nextMarks, nextMarks := 0, step := 0, units := 0, auto := if marked then 0 else n, post := if marked || x.post.isSome then some (left - 1) else none }
    let s := if act % 2 = 1 then s.put (F.ACQ_P_CTRL_en p) 0 else s
    (s.capPush p items, decide (2 ≤ act))

end Sys2Proof.Machine
end

