-- ==== Sys2Proof/Machine/PinOps.lean ====
section
/-!
DEFINITION. Machine/PinOps.lean: what the device drives on its GPIO and target I/O pins, the switching sequence, and pins at the
release and the emptying of a partition (R420 to R428).
-/
namespace Sys2Proof.Machine

open Sys2Proof

/-! ## Probe channels (R131) -/

/-- The level a net shows: rail 1, held through the spacer. -/
def State.netLevel (s : State) (q net : Nat) : Bool :=
  if net < 0x30000 then (s.cell (q * 196608 + net)).level
  else if net < 0x38000 then (s.block q ((net - 0x30000) / 64)).last.getLsbD (net % 64)
  else if net < 0x39000 then
    let mill := q * 64 + (net - 0x38000) / 64
    match s.launchOwner mill (net % 64) with
    | some j => (s.launchPort mill j).last.getLsbD (net % 64)
    | none => false
  else if 0x3A000 ≤ net ∧ net < 0x3A0A0 then (s.pinPort (pinKey q (net - 0x3A000))).bit
  else false

/-- What a probe channel shows of net `net` of quadrant q (R131): its level, or whether it holds data. A landing bit stands for the net
that feeds it. -/
def State.probeNet (s : State) (q net : Nat) (completion : Bool) : Bool :=
  let n := if 0x39000 ≤ net ∧ net < 0x3A000 then
      let mill := q * 64 + (net - 0x39000) / 64
      (match s.landOwner mill (net % 64) with
      | some j => (((s.landPort mill j).nets.find? (fun e => e.1 == net % 64)).map (·.2)).getD 0x7FFFF
      | none => 0x7FFFF)
    else net
  if completion then s.netFull q n else s.netLevel q n

/-- The level probes drive on a pin; low when no channel names it. Of several the lowest number does (log entry 45). -/
def State.probeLevel (s : State) (tio : Bool) (pin : Nat) : Bool :=
  match (List.range 64).find? (fun c => s.on (F.FLM_PROBE_en c) && s.on (F.FLM_PROBE_pin_kind c) == tio && s.get (F.FLM_PROBE_pin c) == pin) with
  | some c =>
    let q := s.get (F.FLM_PROBE_quadrant c)
    decide (1 ≤ s.stage q) && s.probeNet q (s.get (F.FLM_PROBE_net c)) (s.on (F.FLM_PROBE_mode c))
  | none => false

/-! ## The switching sequence (R423) -/

def State.pinSeq (s : State) (key : Nat) : Nat := mget (fun _ => 0) s.pins.seq key

/-- A sequence begins: the keeper takes the level last driven. -/
def State.startSeq (s : State) (key : Nat) (level : Option Bool) : State :=
  { s with pins := { s.pins with seq := mset (fun _ => 0) s.pins.seq key 4, keep := mset (fun _ => none) s.pins.keep key level } }

/-! ## Drivers -/

/-- An output stage: open drain drives low and releases for high. -/
def driveOd (od v : Bool) : Option Bool := if od && v then none else some v

/-- What the boundary-scan register drives on a pin (R326). -/
def State.scanLevel (s : State) (key : Nat) : Option Bool := mget (fun _ => none) s.pins.scan key

/-- What the device drives on GPIO pin n; none when it drives nothing (R420, R422). The levels of CLKOUT and of the console and
I2C functions are not modelled (log entry 46). -/
def State.gpioDrive (s : State) (n : Nat) : Option Bool :=
  if (s.scanLevel n).isSome then s.scanLevel n
  else if s.pinSeq n ≠ 0 then mget (fun _ => none) s.pins.keep n
  else
    match s.get (F.GPIO_PIN_func n) with
    | 0 => if s.bit (F.GPIO_OE_value (n / 16)) (n % 16) then driveOd (s.on (F.GPIO_PIN_od n)) (s.bit (F.GPIO_OUT_value (n / 16)) (n % 16)) else none
    | 1 => driveOd (s.on (F.GPIO_PIN_od n)) (s.time.pulse.testBit (n % 8))
    | 3 => driveOd (s.on (F.GPIO_PIN_od n)) (s.probeLevel false n)
    | 6 => if s.on F.RING_HRDY_level || s.on F.SENS_STATUS_warn then some false else none
    | 7 => driveOd (s.on (F.GPIO_PIN_od n)) (s.pstate (n % 4) == stHalted)
    | 9 => if s.boot.xretry then some false else none
    | _ => none

/-- The level of a GPIO pad the device does not drive. The board pulls pin 47 up (R259). -/
def padDefault (n : Nat) : Bool := n == 47

/-- The pad level of GPIO pin n. -/
def State.gpioLevel (s : State) (n : Nat) : Bool := (s.gpioDrive n).getD (mget padDefault s.pins.pad n)

/-- Register of a target I/O pin's configuration. -/
def tioFld (f : Fld) (p : Nat) : Fld := f.sel p

/-- The level of rst_level: high impedance, 0 or 1; 3 acts as 0. -/
def rstDrive (v : Nat) : Option Bool := match v with | 1 => some false | 2 => some true | _ => none

/-- Owner of a target I/O pin: 0 shell, 1 to 4 partitions. -/
def State.tioOwner (s : State) (p : Nat) : Nat := s.get (F.TIO_PINCFG_owner.sel p)
def State.tioMode (s : State) (p : Nat) : Nat := s.get (F.TIO_PINCFG_mode.sel p)

/-- The pin output port of a partition's image that serves a pin; one that is unused where there is none. -/
def State.servingPort (s : State) (p part : Nat) : PinPort :=
  (((List.range 4).filter (fun q => s.ownsQuad part q)).map (fun q => s.pinPort (pinKey q p))).find? (fun x => x.used && x.out) |>.getD {}

/-- What the device drives on target I/O pin p (R425, R426, R428). -/
def State.tioDrive (s : State) (p : Nat) : Option Bool :=
  if (s.scanLevel (64 + p)).isSome then s.scanLevel (64 + p)
  else if !s.on (F.TIO_BANK_en (p / 32)) then none
  else if s.pinSeq (64 + p) ≠ 0 then mget (fun _ => none) s.pins.keep (64 + p)
  else
    let od := s.on (F.TIO_PINCFG_od.sel p)
    match s.tioMode p with
    | 1 =>
      let o := s.tioOwner p
      if o = 0 ∨ !s.on (F.TIO_PART_released (o - 1)) then none
      else if (s.servingPort p (o - 1)).live then driveOd od (s.servingPort p (o - 1)).drive
      else (rstDrive (s.get (F.TIO_PINCFG_rst_level.sel p))).bind (driveOd od)
    | 2 => driveOd od (s.probeLevel true p)
    | 3 => driveOd od (s.bit (F.TIO_OUT_value (p / 16)) (p % 16))
    | _ => none

/-- The pad level TIO_IN shows: 0 in mode 0 or a disabled bank (R426, R431). -/
def State.tioLevel (s : State) (p : Nat) : Bool :=
  s.on (F.TIO_BANK_en (p / 32)) && s.tioMode p != 0 && (s.tioDrive p).getD (s.pinLevel p)

/-! ## Release and emptying (R254, R421, R428) -/

/-- GPIOs owned by partition p. -/
def State.gpiosOf (s : State) (p : Nat) : List Nat := (List.range 48).filter (fun n => s.get (F.GPIO_PIN_owner n) == p + 1)

/-- GPIO n drives a reset level: high impedance, 0 or 1. -/
def State.gpioReset (s : State) (n : Nat) (lv : Option Bool) : State :=
  let s := s.setBit (F.GPIO_OE_value (n / 16)) (n % 16) lv.isSome
  match lv with
  | some v => s.setBit (F.GPIO_OUT_value (n / 16)) (n % 16) v
  | none => s

/-- TIO_UNSERVED shows the pins with a port that is unserved (R428). -/
def State.showUnserved (s : State) (pin : Nat) : State :=
  s.setBit (F.TIO_UNSERVED_pins (pin / 32)) (pin % 32) ((List.range 4).any (fun q => (s.pinPort (pinKey q pin)).unserved))

/-- The pins of partition p at its outputs stage; `mine`: the pin ports that the release covers. -/
def State.pinsRelease (s : State) (p : Nat) (mine : PinPort → Bool) : State :=
  let s := s.each (s.gpiosOf p) (fun s n => s.gpioReset n (rstDrive (s.get (F.GPIO_PIN_rst_level n))))
  let s := s.put (F.TIO_PART_released p) 1
  let keys := (List.range 640).filter (fun k => (s.pinPort k).used && s.ownsQuad p (k / 160) && mine (s.pinPort k))
  let unserved (k : Nat) : Bool :=
    let pin := k % 160
    !s.on (F.TIO_BANK_en (pin / 32)) || s.tioOwner pin != p + 1 || s.tioMode pin != 1
  let s := s.each keys (fun s k => (s.setPinPort k { s.pinPort k with unserved := unserved k, live := false }).showUnserved (k % 160))
  let bad := (keys.filter unserved).map (· % 160)
  let s := s.put (F.TIO_PART_unserved p) bad.length
  match bad with
  | [] => s
  | first :: _ =>
    let s := if s.on F.TIO_ERR_flag then s
      else (((s.put F.TIO_ERR_flag 1).put F.TIO_ERR_kind 2).put F.TIO_ERR_partition p).put F.TIO_ERR_unit first
    s.raise 0x100F p [bad.length, first]

/-- The pins of partition p as it becomes EMPTY: its GPIOs and its mode-1 pins are high impedance again. -/
def State.pinsEmpty (s : State) (p : Nat) : State :=
  let s := s.each (s.gpiosOf p) (fun s n => s.gpioReset n none)
  let s := s.each ((List.range 160).filter (fun pin => s.tioOwner pin == p + 1 && s.tioMode pin == 1)) (fun s pin =>
    if (s.tioDrive pin).isSome then s.startSeq (64 + pin) (s.tioDrive pin) else s)
  let s := s.each ((List.range 640).filter (fun k => (s.pinPort k).used && s.ownsQuad p (k / 160))) (fun s k =>
    (s.setPinPort k { s.pinPort k with unserved := false }).showUnserved (k % 160))
  s.put (F.TIO_PART_released p) 0

end Sys2Proof.Machine
end

