-- ==== Sys2Proof/Machine/Frames.lean ====
section
/-!
DEFINITION. Machine/Frames.lean: what the spokes carry: training blocks, frames bit by bit with their check, the PRBS31 pattern, and the
partition cycles that frames cover (R180, R181, R185 to R188).
-/
namespace Sys2Proof.Machine

open Sys2Proof

/-! ## Bits (R185; log entry 27) -/

/-- The low n bits of a number, bit 0 first. -/
def lowBits (n v : Nat) : List Bool := (List.range n).map v.testBit

/-- Scheduled bits of one cycle: channel 1 carries its lower half alone at Overdrive (R186). -/
def cycleBits (pace : Nat) (w : Unit128 × Unit128) : List Bool := lowBits 128 w.1.toNat ++ lowBits (if pace = 2 then 64 else 128) w.2.toNat

/-- Partition cycles of a frame, and records it has room for, by pace. -/
def framePeriod (pace : Nat) : Nat := if pace = 0 then 8 else 12
def frameRecords (pace : Nat) : Nat := match pace with | 0 => 19 | 1 => 3 | _ => 9

/-- A frame up to its check: header, payload, vote field, idle fill. -/
def Frame.body (f : Frame) (pace : Nat) : List Bool :=
  lowBits 16 (f.kind * 4096 + f.stamp % 4096) ++
  (List.range (framePeriod pace)).flatMap (fun i => cycleBits pace (f.payload.getD i (0, 0))) ++
  (List.range (frameRecords pace)).flatMap (fun i => lowBits 24 (f.records.getD i 0)) ++
  (if pace = 2 then [] else List.replicate 16 false)

/-- One bit enters the CRC-24 register. -/
def crcStep (c : Nat) (b : Bool) : Nat := (c * 2 % 2 ^ 24) ^^^ (if c.testBit 23 != b then 0x864CFB else 0)

/-- CRC-24 of a bit string. -/
def crc24 (bits : List Bool) : Nat := bits.foldl crcStep 0xB704CE

/-- The check that belongs to a frame. -/
def Frame.check (f : Frame) (pace : Nat) : Nat := crc24 (f.body pace)

/-- All bits of a frame, in the order sent, its check from bit 23 down; bit j travels on lane j mod 8. -/
def Frame.bits (f : Frame) (pace : Nat) : List Bool := f.body pace ++ (lowBits 24 f.crc).reverse

/-- The bits of a frame on lane l. -/
def Frame.laneBits (f : Frame) (pace l : Nat) : List Bool :=
  ((f.bits pace).zipIdx.filter (fun e => e.2 % 8 == l)).map (·.1)

/-! ## Training blocks (R181) -/

/-- What this module sends as info word i: 0 who it is, 1 the build identifier, 2 L and H, both 0 before an image is loaded. -/
def State.ownInfo (s : State) (sp i : Nat) : Nat :=
  match i with
  | 0 =>
    s.get (F.PART_LINK_module_index ((s.spokeOwner sp).getD 0)) + ((s.spokeOwner sp).getD 0) * 2 ^ 6 + sp * 2 ^ 8 + s.pace * 2 ^ 12 +
      s.get (F.SPK_CTRL_role sp) * 2 ^ 14
  | 3 => 0
  | _ =>
    match s.spokeOwner sp with
    | none => 0
    | some p => if i = 1 then (s.part p).hdr.buildId else s.get (F.TURN_CONFIG_l p) + (s.part p).hdr.hopBudget * 2 ^ 12

/-- The training block of lane l with count `seq`, after its sync header; `last`: frames follow. -/
def State.trainingBlock (s : State) (sp l seq : Nat) (last : Bool) : BitVec 64 :=
  let info := if seq % 4 = 3 ∧ last = true then 0xF0F0F0F0 else s.ownInfo sp (seq % 4)
  BitVec.ofNat 64 (0xD5 + l * 2 ^ 8 + seq % 2 ^ 16 * 2 ^ 16 + info % 2 ^ 32 * 2 ^ 32)

/-- Type, lane and reserved bits of a training block of lane l. -/
def isTraining (l : Nat) (b : BitVec 64) : Bool := b.toNat % 2 ^ 16 == 0xD5 + l * 2 ^ 8

/-! ## PRBS31 (R180; log entry 27) -/

/-- The next bit of the sequence x^31 + x^28 + 1, and the last 31 bits with it. -/
def prbsNext (h : Nat) : Bool × Nat :=
  let b := h.testBit 30 != h.testBit 27
  (b, h * 2 % 2 ^ 31 + (if b then 1 else 0))

/-- Errored bits of a piece of the sequence: the checker takes the first 31 bits it sees as they are and counts on from them. -/
def prbsErrors (bits : List Bool) (h : Option Nat) : Nat × Option Nat :=
  let run (h : Nat) (l : List Bool) : Nat × Nat := l.foldl (fun acc b => (if (prbsNext acc.2).1 == b then acc.1 else acc.1 + 1, (prbsNext acc.2).2)) (0, h)
  match h with
  | some h => ((run h bits).1, some (run h bits).2)
  | none =>
    let seed := (bits.take 31).foldl (fun a b => a * 2 + (if b then 1 else 0)) 0
    ((run seed (bits.drop 31)).1, some (run seed (bits.drop 31)).2)

/-! ## Partition cycles (R70, R187) -/

/-- Quanta held before step x of a turn, from its log. -/
def quantaBefore (log : List (Nat × Nat)) (x : Nat) : Nat := (log.filter (fun e => decide (e.1 ≤ x))).foldl (fun a e => a + e.2) 0

/-- The first step of a turn that executes t cycles or more after its beginning; `lo`: the step the last hold lay before, after q quanta
in all; the holds still to come in order. -/
def stepFrom (t : Nat) : Nat → Nat → List (Nat × Nat) → Nat
  | lo, q, [] => max lo (t - 32 * q)
  | lo, q, (h, n) :: rest => if t < lo + 32 * q then lo else if t - 32 * q < h then t - 32 * q else stepFrom t h (q + n) rest

/-- The cycle step x executed in, in this turn or the last (R70). -/
def State.cycleAt (s : State) (p x : Nat) (prev : Bool) : Nat :=
  let q := s.part p
  if prev then q.prevBase + x + 32 * quantaBefore q.prevLog x else q.turnBase + x + 32 * quantaBefore q.holdLog x

/-- The first step that executes in cycle c or later, and whether it belongs to the last turn. -/
def State.stepAfter (s : State) (p c : Nat) : Nat × Bool :=
  let q := s.part p
  if q.turnBase ≤ c then (stepFrom (c - q.turnBase) 0 0 q.holdLog, false) else (stepFrom (c - q.prevBase) 0 0 q.prevLog, true)

/-- The step that executes in cycle c: none in a hold and beyond a halt (R187). -/
def State.slotAt (s : State) (p c : Nat) : Option (Nat × Bool) :=
  let e := s.stepAfter p c
  if s.cycleAt p e.1 e.2 = c ∧ e.1 < s.depth p ∧ (e.2 = true ∨ s.running p = true) then some e else none

/-- The last step executed at cycle r, in this turn or the last (R188). -/
def State.lastStepAt (s : State) (p r : Nat) : Option (Nat × Bool) :=
  match (List.range (s.depth p)).reverse.find? (fun x => decide (s.cycleAt p x false ≤ r)) with
  | some x => some (x, false)
  | none => ((List.range (s.depth p)).reverse.find? (fun x => decide (s.cycleAt p x true ≤ r))).map (fun x => (x, true))

/-- The first word of a frame that begins in cycle c is due in the turn after the one in progress (R20, R187). -/
def State.dueNext (s : State) (p c : Nat) : Bool :=
  let e := s.stepAfter p c
  decide ((if e.2 then 2 * s.depth p else s.depth p) ≤ e.1 + s.get (F.TURN_CONFIG_l p))

/-- The partition cycle of REFCLK edge t (R194): m is 8, 9.6 or 12 cycles to an edge. -/
def State.cycleOfEdge (s : State) (p t : Nat) : Nat :=
  let x := s.part p
  x.startCycle + (t - x.startEdge) * (match s.pace with | 0 => 40 | 1 => 48 | _ => 60) / 5

/-- Measure frames of partition p are being exchanged (R195). -/
def State.measuringNow (s : State) (p : Nat) : Bool := (s.part p).syncStart && (s.part p).measure && !s.lines.syncPending

end Sys2Proof.Machine
end

