-- ==== Sys2Proof/Machine/Spokes.lean ====
section
/-!
DEFINITION. Machine/Spokes.lean: the spokes: training, frames, vote records and faults (R178 to R192, R196, R200, R201).
-/
namespace Sys2Proof.Machine

open Sys2Proof

/-- Index of a lane's LANE_STAT. -/
def laneIdx (sp l : Nat) : Nat := 8 * sp + l

def State.laneSt (s : State) (sp l : Nat) : LaneSt := mget (fun _ => {}) (s.spoke sp).lanes l
def State.setLaneSt (s : State) (sp l : Nat) (x : LaneSt) : State :=
  let k := s.spoke sp
  s.setSpoke sp { k with lanes := mset (fun _ => {}) k.lanes l x }

/-- A lane has lost its boundary. -/
def State.laneOff (s : State) (sp l : Nat) : State :=
  let n := laneIdx sp l
  let s := s.setLaneSt sp l { s.laneSt sp l with plain := 0, inverted := 0 }
  ((s.put (F.LANE_STAT_lock n) 0).put (F.LANE_STAT_pattern_ok n) 0).setBit (F.SPK_STATUS_locked sp) l false

/-- The spoke exists on this part (R2). -/
def State.spokeExists (s : State) (sp : Nat) : Bool := s.quadEnabled (sp / 4)

/-- The roles pair (R184): full with full, E with W, N with S. -/
def rolesPair (a b : Nat) : Bool := (a == 1 && b == 1) || (a == 2 && b == 3) || (a == 3 && b == 2) || (a == 4 && b == 5) || (a == 5 && b == 4)

/-- A spoke enters state 2: the governor keeps the eye of its lanes (R228). -/
def State.holdFoms (s : State) (sp : Nat) : State :=
  s.each (List.range 8) (fun s l => { s with gov := { s.gov with foms := mset (fun _ => 0) s.gov.foms (laneIdx sp l) (s.get (F.LANE_STAT_fom (laneIdx sp l))) } })

/-- The agreement bits of SPK_PEER (R184), from what the peer has sent; the spoke moves between states 2 and 3 by them. -/
def State.agree (s : State) (sp : Nat) : State :=
  let x := s.spoke sp
  let info (i : Nat) : Option Nat := mget (fun _ => none) x.peerInfo i
  let build := info 1 == some (s.ownInfo sp 1)
  let budget := info 2 == some (s.ownInfo sp 2)
  let pace := s.get (F.SPK_PEER_peer_pace sp) == s.pace
  let role := rolesPair (s.get (F.SPK_CTRL_role sp)) (s.get (F.SPK_PEER_peer_role sp))
  let s := (((s.flag (F.SPK_PEER_build_ok sp) build).flag (F.SPK_PEER_budget_ok sp) budget).flag (F.SPK_PEER_pace_ok sp) pace).flag (F.SPK_PEER_role_ok sp) role
  let ok := build && budget && pace && role
  match s.get (F.SPK_STATUS_state sp) with
  | 2 => if ok then s.put (F.SPK_STATUS_state sp) 3 else s
  | 3 | 4 => if ok then s else (s.put (F.SPK_STATUS_state sp) 2).holdFoms sp
  | _ => s

/-- Info word 0 of the peer (R181, R200). -/
def State.takePeer (s : State) (sp v : Nat) : State :=
  let s := s.put (F.SPK_PEER_peer_module sp) v
  let s := s.put (F.SPK_PEER_peer_part sp) (v / 2 ^ 6)
  let s := s.put (F.SPK_PEER_peer_spoke sp) (v / 2 ^ 8)
  let s := s.put (F.SPK_PEER_peer_pace sp) (v / 2 ^ 12)
  s.put (F.SPK_PEER_peer_role sp) (v / 2 ^ 14)

/-- The agreement of every spoke is taken again: an image, a pace or a role has changed (R184). -/
def State.agreeAll (s : State) : State := s.each ((List.range 16).filter s.spokeExists) State.agree

/-- The fields of SPK_CTRL take a write (R200): a role of 6 or 7 is ignored, loopback while the partition is RUNNING. -/
def State.putSpkCtrl (s : State) (sp : Nat) (value : Word) : State :=
  let role := (F.SPK_CTRL_role sp).of value
  let loop := (F.SPK_CTRL_loopback sp).of value
  let busy := match s.spokeOwner sp with | some p => s.running p | none => false
  let frozen := s.on (F.SPK_CTRL_eq_freeze sp)
  let s := s.put (F.SPK_CTRL_en sp) ((F.SPK_CTRL_en sp).of value)
  let s := s.put (F.SPK_CTRL_tx_mode sp) ((F.SPK_CTRL_tx_mode sp).of value)
  let s := if role < 6 then s.put (F.SPK_CTRL_role sp) role else s
  let s := s.put (F.SPK_CTRL_eq_freeze sp) ((F.SPK_CTRL_eq_freeze sp).of value)
  let s := if busy then s else s.put (F.SPK_CTRL_loopback sp) loop
  let s := s.put (F.SPK_CTRL_fom_low sp) ((F.SPK_CTRL_fom_low sp).of value)
  let x := s.spoke sp
  if !frozen && s.on (F.SPK_CTRL_eq_freeze sp) then s.setSpoke sp { x with freezes := x.freezes + 1 } else s

/-- SPOKE_CTRL_WRITE (R183, R184, R185, R195, R200). en = 0 takes the lanes to electrical idle. A spoke that trains again, or that has
left state 5, has learned nothing of its peer yet. -/
def execSpokeCtrlWrite (sp : Spoke) (value : Word) (s : State) : Out :=
  if !s.spokeExists sp then .next s
  else
    let st := s.get (F.SPK_STATUS_state sp)
    let s := s.putSpkCtrl sp value
    let leave (s : State) : State := match s.spokeOwner sp with
      | some p => if st = 5 then s.modPart p (fun x => { x with remeasure := true }) else s
      | none => s
    if !s.on (F.SPK_CTRL_en sp) then
      let s := ((leave s).each (List.range 8) (fun s l => s.laneOff sp l)).setReg (R.SPK_PEER sp) (resetWord (R.SPK_PEER sp))
      .next ((s.put (F.SPK_STATUS_state sp) 0).setSpoke sp { s.spoke sp with peerInfo := [] }).settleMis
    else if st = 0 ∨ (s.get (F.SPK_CTRL_tx_mode sp) = 1 ∧ st = 6) then
      .next (((s.put (F.SPK_STATUS_state sp) 1).setSpoke sp { s.spoke sp with peerInfo := [] }).agree sp).settleMis
    else .next (s.agree sp)

/-- Errored bits of PRBS31 on a lane are counted (R180, R200). -/
def State.takePrbs (s : State) (sp l : Nat) (sync : BitVec 2) (block : BitVec 64) : State :=
  let bits := lowBits 2 sync.toNat ++ lowBits 64 block.toNat
  let bits := if s.on (F.LANE_STAT_polarity (laneIdx sp l)) then bits.map not else bits
  let x := s.laneSt sp l
  let (n, h) := prbsErrors bits x.prbs
  (s.setLaneSt sp l { x with prbs := h }).bump (F.SPK_ERR_count sp) n

/-- What matches at a lane's block boundary (R182): training blocks in a row, plain and inverted; the fourth sets pattern_ok and lock. -/
def State.matchBlock (s : State) (sp l : Nat) (plain flip : Bool) : State :=
  let n := laneIdx sp l
  let x := s.laneSt sp l
  let x := { x with plain := if plain then x.plain + 1 else 0, inverted := if flip then x.inverted + 1 else 0 }
  let s := s.setLaneSt sp l x
  if 4 ≤ x.plain ∨ 4 ≤ x.inverted then
    ((((s.put (F.LANE_STAT_pattern_ok n) 1).put (F.LANE_STAT_lock n) 1).flag (F.LANE_STAT_polarity n) (decide (4 ≤ x.inverted))).setBit (F.SPK_STATUS_locked sp) l true)
  else if !plain && !flip then s.put (F.LANE_STAT_pattern_ok n) 0
  else s

/-- All 8 lanes match, are open to 24 and lie within 4 blocks of one another (R180, R183). -/
def State.canAlign (s : State) (sp skew : Nat) : Bool :=
  (List.range 8).all (fun j => s.on (F.LANE_STAT_pattern_ok (laneIdx sp j)) && decide (24 ≤ s.get (F.LANE_STAT_fom (laneIdx sp j)))) && decide (skew ≤ 4)

/-- A training block arrives on lane l (R181 to R184). -/
def State.takeBlock (s : State) (sp l : Nat) (sync : BitVec 2) (block : BitVec 64) (skew : Nat) : State :=
  let n := laneIdx sp l
  let plain := sync == 0b10#2 && isTraining l block
  let flip := sync == 0b01#2 && isTraining l (~~~block)
  let s := s.matchBlock sp l plain flip
  let b := if flip then ~~~block else block
  let info := b.toNat / 2 ^ 32
  let seq := b.toNat / 2 ^ 16 % 4
  let s := if s.on (F.LANE_STAT_pattern_ok n) && (plain || flip) then
      let s := if seq = 0 then s.takePeer sp info else s
      let k := s.spoke sp
      if seq = 3 then s else s.setSpoke sp { k with peerInfo := mset (fun _ => none) k.peerInfo seq (some info) }
    else s
  let s := if s.get (F.SPK_STATUS_state sp) = 1 ∧ s.canAlign sp skew then (s.put (F.SPK_STATUS_state sp) 2).holdFoms sp else s
  s.agree sp

/-- TRAINING_BLOCK_RECEIVE (R180 to R184): a lane receives a 64-bit block after a sync header; `skew` is the lane-to-lane skew in blocks.
In tx_mode 3 the block is a piece of PRBS31, and in loopback it is the block the module itself sends on that lane (log entry 27). -/
def execTrainingBlockReceive (sp : Spoke) (lane : Fin 8) (sync : BitVec 2) (block : BitVec 64) (skew : Nat) (s : State) : Out :=
  let l := lane.val
  let mode := s.get (F.SPK_CTRL_tx_mode sp)
  if !s.on (F.SPK_CTRL_en sp) || !s.spokeExists sp then .next s
  else if mode = 3 then .next (if s.on (F.SPK_CTRL_loopback sp) then s else s.takePrbs sp l sync block)
  else if s.on (F.SPK_CTRL_loopback sp) then
    .next (if mode = 1 then s.takeBlock sp l 0b10#2 (s.trainingBlock sp l (block.toNat / 2 ^ 16) false) skew else s)
  else .next (s.takeBlock sp l sync block skew)

/-- LANE_SLIP (R182): the boundary moves one unit interval; what matched before the move matches no more. -/
def execLaneSlip (sp : Spoke) (lane : Fin 8) (s : State) : Out :=
  let n := laneIdx sp lane
  if !s.spokeExists sp then .next s
  else
    let s := s.setLaneSt sp lane { boundary := ((s.laneSt sp lane).boundary + 1) % 66 }
    .next ((s.put (F.LANE_STAT_pattern_ok n) 0).put (F.LANE_STAT_slip n) 0)

/-- FOM_REFRESH (R180): SPOKE_EYE_LOW is raised once until the lowest FOM is back at fom_low. -/
def execFomRefresh (sp : Spoke) (lane : Fin 8) (fom : BitVec 8) (s : State) : Out :=
  if !s.spokeExists sp then .next s
  else
    let s := s.put (F.LANE_STAT_fom (laneIdx sp lane)) fom.toNat
    let low := ((List.range 8).map (fun j => s.get (F.LANE_STAT_fom (laneIdx sp j)))).foldl min 255
    let s := s.put (F.SPK_STATUS_min_fom sp) low
    let x := s.spoke sp
    if low < s.get (F.SPK_CTRL_fom_low sp) then
      if x.lowSent then .next s
      else .next ((s.setSpoke sp { x with lowSent := true }).raise 0x4006 (ownerField (s.spokeOwner sp)) [sp, lane, fom.toNat])
    else .next (s.setSpoke sp { x with lowSent := false })

/-- SPOKE_LANE_DOWN (R196, R197): the words of the frame being received are the first lost. In a halted partition only the event, and the
spoke must be trained again. -/
def execSpokeLaneDown (sp : Spoke) (lane : Fin 8) (s : State) : Out :=
  if !s.spokeExists sp || !s.on (F.SPK_CTRL_en sp) then .next s
  else
    let c := (s.spoke sp).rxNext
    let later := match s.spokeOwner sp with | some p => s.dueNext p c | none => false
    .next ((s.laneOff sp lane).spokeFault sp 5 lane (c % 4096) 0x400A later)

/-! ## Frames -/

/-- The word on channel c of a spoke's X output in slot n, `back` turns ago (R186): at Overdrive the upper half of channel 1 is not
carried. -/
def State.xWord (s : State) (p sp n back c : Nat) : Unit128 :=
  BitVec.ofNat 128 ((List.range (if s.pace = 2 ∧ c = 1 then 64 else 128)).foldl (fun acc b =>
    if s.outBit p c b 2048 (spokeRouter sp) 4 n back = some true then acc + 2 ^ b else acc) 0)

/-- The payload of a cycle (R187): 0 in a hold and beyond a halt. -/
def State.cycleWords (s : State) (p sp c : Nat) : Unit128 × Unit128 :=
  match s.slotAt p c with
  | some (n, prev) => (s.xWord p sp n (if prev then 1 else 0) 0, s.xWord p sp n (if prev then 1 else 0) 1)
  | none => (0, 0)

/-- Spoke sp is the lowest-numbered one of its role in the partition. -/
def State.firstOfRole (s : State) (p sp : Nat) : Bool :=
  (s.spokesOf p).find? (fun k => s.get (F.SPK_CTRL_role k) == s.get (F.SPK_CTRL_role sp)) == some sp

/-- Oldest raise first: a record takes its place in a list in order. -/
def insertVote (v : VoteOut) : List VoteOut → List VoteOut
  | [] => [v]
  | a :: as => if a.raised ≤ v.raised then a :: insertVote v as else v :: a :: as

/-- The records due in the frame of spoke sp that begins at cycle c (R188): relayed ones first, on the lowest spoke of each role but the
one they came by (R189), then the module's own, each oldest raise first. -/
def State.dueRecords (s : State) (p sp c : Nat) : List VoteOut :=
  let f := framePeriod s.pace
  let h := (s.part p).hdr.hopBudget
  let due := ((s.part p).outVotes.filter (fun v => decide (c ≤ v.raised + 8 + v.hops * h) && decide (v.raised + 8 + v.hops * h < c + f))).foldl (fun l v => insertVote v l) []
  due.filter (fun v => v.hops != 0 && s.firstOfRole p sp && v.role != s.get (F.SPK_CTRL_role sp)) ++ due.filter (fun v => v.hops == 0)

/-- A vote record's 24 bits (R188). -/
def State.encodeRecord (s : State) (p c : Nat) (v : VoteOut) : Nat :=
  v.hops * 2 ^ 20 + (v.raised + 8 + v.hops * (s.part p).hdr.hopBudget - c) * 2 ^ 16 + v.hold % 512 * 2 ^ 7 + v.causes % 128

/-- The kind of frame a spoke sends now (R187, R195): run while the partition runs, and to complete the frame in which it halted; measure
while it measures; else idle. -/
def State.frameKind (s : State) (p sp : Nat) : Nat :=
  if s.running p || decide ((s.spoke sp).txNext < (s.part p).turnBase) then 1 else if s.measuringNow p then 2 else 0

/-- SPOKE_FRAME_SEND (R185 to R189): the next frame of a spoke in tx_mode 2, sent when its cycles have passed. Records that do not fit are
lost, a spoke fault. -/
def execSpokeFrameSend (sp : Spoke) (s : State) : Out :=
  match s.spokeOwner sp with
  | none => .next s
  | some p =>
    if s.get (F.SPK_CTRL_tx_mode sp) ≠ 2 then .next s
    else
      let kind := s.frameKind p sp
      let x := s.spoke sp
      let first := x.txNext
      let recs := if kind = 1 then s.dueRecords p sp first else []
      let room := frameRecords s.pace
      let f : Frame := {
        kind := kind, stamp := if kind = 0 then 0 else first % 4096,
        payload := (List.range (framePeriod s.pace)).map (fun i => if kind = 1 then s.cycleWords p sp (first + i) else (0, 0)),
        records := (recs.take room).map (s.encodeRecord p first) }
      let f := { f with crc := f.check s.pace }
      let s := s.setSpoke sp { x with sent := f :: x.sent, txNext := if kind = 0 then first else first + framePeriod s.pace }
      if room < recs.length then .next (s.spokeFault sp 6 0 (first % 4096) 0x400B false) else .next s

/-- Take a vote record (R188, R189): none when it is malformed. -/
def State.takeRecord (s : State) (p sp c rec : Nat) : Option State :=
  let hops := rec / 2 ^ 20 % 16
  let offset := rec / 2 ^ 16 % 16
  let hold := rec / 2 ^ 7 % 512
  let causes := rec % 128
  let k := s.horizon p
  let d := s.depth p
  if causes = 0 then some s
  else
    let away := 8 + hops * (s.part p).hdr.hopBudget
    let r := c + offset - away
    match (if c + offset < away then none else s.lastStepAt p r) with
    | none => none
    | some (last, prev) =>
      match ((List.range k).map (fun i => last + 1 + i)).find? (fun h => h % d % 512 == hold) with
      | none => none
      | some h =>
        -- step h counts on from the turn of `last`; the check point is K steps before it
        let o := if k ≤ h then (if h - k < d then s.cycleAt p (h - k) prev else s.cycleAt p (h - k - d) false) else s.cycleAt p (h + d - k) true
        if r < o ∨ (r - o) % 32 ≠ 0 then none
        else
          let round := (r - o) / 32
          let turnOff := if prev then (if h < d then none else some (h - d, false)) else some (if h < d then (h, false) else (h - d, true))
          let seen := (s.part p).seenVotes.filter (fun v => v.raised == r && v.hold == hold)
          let old := seen.foldl (fun a v => a ||| v.causes) 0
          let new := causes &&& (127 ^^^ (old &&& 127))
          let s := match turnOff with
            | some (hs, nx) => s.each ((List.range 7).filter (fun i => new.testBit i)) (fun s i =>
                if !nx && (s.part p).limitSteps.contains hs then s
                else s.modPart p (fun x => { x with votes := x.votes ++ [(⟨hs, nx, round, i, true⟩ : Vote)] }))
            | none => s
          let role := s.get (F.SPK_CTRL_role sp)
          let v : VoteOut := { raised := r, hold := hold, causes := new, hops := hops + 1, role := role }
          some (s.modPart p (fun x => { x with
            seenVotes := (⟨r, hold, causes, hops, role⟩ : VoteOut) :: x.seenVotes,
            outVotes := if x.hdr.topology ≠ 0 ∧ new ≠ 0 then x.outVotes ++ [v] else x.outVotes }))

/-- Take the vote records of a frame in order: none as soon as one is malformed. -/
def State.takeRecords (s : State) (p sp c : Nat) (recs : List Nat) : Option State :=
  recs.foldl (fun o rec => o.bind (fun s => s.takeRecord p sp c rec)) (some s)

/-- Store a received word for the slot L later (R187); `prev`: it was sent in the previous turn. At Overdrive the upper half of channel 1
is presented as 0 (R186). -/
def State.storeWord (s : State) (p sp n : Nat) (prev : Bool) (w : Unit128 × Unit128) : State :=
  let w1 := if s.pace = 2 then BitVec.ofNat 128 (w.2.toNat % 2 ^ 64) else w.2
  let d := s.depth p
  let due := n + s.get (F.TURN_CONFIG_l p)
  let bank := if prev then (if due < d then none else if due < 2 * d then some (due - d) else some (4096 + (due - 2 * d)))
    else (if due < d then some due else some (4096 + (due - d)))
  match bank with
  | some b => { s with spokeRx := mset (fun _ => 0) (mset (fun _ => 0) s.spokeRx ((sp * 8192 + b) * 2) w.1) ((sp * 8192 + b) * 2 + 1) w1 }
  | none => s

/-- A run frame is taken (R187, R188, R192): late beyond the hop budget; its words are stored and its records take effect, unless one of
them is malformed. -/
def State.takeFrame (s : State) (p sp ready : Nat) (frame : Frame) : State :=
  let x := s.spoke sp
  let first := x.rxNext
  let limit := first + s.hopBudget p
  if limit < ready then s.spokeFault sp 4 0 frame.stamp 0x4009 (s.dueNext p first)
  else match s.takeRecords p sp first frame.records with
    | none => s.spokeFault sp 3 0 frame.stamp 0x4008 (s.dueNext p first)
    | some t =>
      let t := t.put (F.SPK_LAT_min_slack sp) (min (t.get (F.SPK_LAT_min_slack sp)) (limit - ready))
      let t := t.each (List.range (framePeriod t.pace)) (fun t i =>
        match t.slotAt p (first + i) with
        | some (n, prev) => t.storeWord p sp n prev (frame.payload.getD i (0, 0))
        | none => t)
      t.setSpoke sp { t.spoke sp with rxNext := first + framePeriod t.pace }

/-- A frame arrives (R185, R187, R195, R196): in a running partition, and for the frames still on their way at a halt, only the next run
frame is right; in a measurement the next measure frame is taken; otherwise nothing but its check and type matters. -/
def State.takeAny (s : State) (p sp ready : Nat) (frame : Frame) : State :=
  let x := s.spoke sp
  let next := x.rxNext
  let run := s.running p || decide (next < (s.part p).turnBase)
  if frame.crc ≠ frame.check s.pace then s.spokeFault sp 1 0 (next % 4096) 0x4008 (s.dueNext p next)
  else if 3 ≤ frame.kind ∨ (run = true ∧ (frame.kind ≠ 1 ∨ frame.stamp ≠ next % 4096)) ∨
      (run = false ∧ s.measuringNow p = true ∧ frame.kind = 2 ∧ frame.stamp ≠ next % 4096) then
    s.spokeFault sp 2 0 frame.stamp 0x4008 (s.dueNext p next)
  else if run then s.takeFrame p sp ready frame
  else if s.measuringNow p && frame.kind == 2 then
    s.setSpoke sp { x with measuring := some (max (ready - next) (x.measuring.getD 0)), rxNext := next + framePeriod s.pace }
  else s

/-- SPOKE_FRAME_RECEIVE (R185 to R192, R196): a frame as it is received; `ready` is the cycle it is ready in. In loopback it is the last
frame the module has sent. After a spoke fault every frame is discarded until the partition halts (R197). -/
def execSpokeFrameReceive (sp : Spoke) (frame : Frame) (ready : Nat) (s : State) : Out :=
  match s.spokeOwner sp with
  | none => .next s
  | some p =>
    if (s.part p).spokeFault || !s.on (F.SPK_CTRL_en sp) then .next s
    else if s.on (F.SPK_CTRL_loopback sp) then
      .next (match (s.spoke sp).sent with
        | f :: _ => s.takeAny p sp ready f
        | [] => s)
    else .next (s.takeAny p sp ready frame)

/-- SPOKE_LATE_FRAME (R192, R196): the next frame is not ready within the hop budget. -/
def execSpokeLateFrame (sp : Spoke) (s : State) : Out :=
  match s.spokeOwner sp with
  | none => .next s
  | some p =>
    let c := (s.spoke sp).rxNext
    if (s.part p).spokeFault || !s.running p then .next s else .next (s.spokeFault sp 4 0 (c % 4096) 0x4009 (s.dueNext p c))

/-- SPK_LAT_CLEAR (R200). -/
def execSpkLatClear (sp : Spoke) (s : State) : Out :=
  .next ((s.put (F.SPK_LAT_min_slack sp) 4095).put (F.SPK_ERR_count sp) 0)

end Sys2Proof.Machine
end

