-- ==== Sys2Proof/Machine/Load.lean ====
section
/-!
DEFINITION. Machine/Load.lean: the loader's commands, its passes, and the staged release (R247 to R257).
-/
namespace Sys2Proof.Machine

open Sys2Proof

/-! ## Commands (R247) -/

/-- A loader command in a state that does not accept it: LOAD_STATE is the completion's status, or an event for shell firmware. -/
def State.refuseLoad (s : State) (p cmd : Nat) (w : Option Waiter) : State :=
  match w with
  | some w => s.finish w.ring w.serial 0x100C (if cmd ≤ 3 then s.loadResult p else 0)
  | none => s.raise 0x100C p [cmd, s.pstate p]

/-- A command given by a ring, or by shell firmware: f takes the state, the partition, and the waiter with its descriptor. -/
def State.loadFrom (s : State) (src : LoadSrc) (op : Nat) (f : State → Nat → Option (Waiter × BitVec 512) → State) : State :=
  match src with
  | .ring i => s.onCmd i.val [op] (fun s serial d =>
      if (op = 0x10 || op = 0x11) && !(dDaddr d % 4096 == 0 && dLen d % 4096 == 0) then s.cmdFault i.val serial d 0x6003 [] 0
      else f s (dPart d) (some (⟨i.val, serial, op⟩, d)))
  | .shell p => if s.partExists p.val then f s p.val none else s

/-- The host window table as a read of it returns it (R272): nothing is read while the link is down or the engine is disabled. -/
def State.takeWins (s : State) (wins : List HostWin) : State :=
  if s.on F.RING_CTRL_en && s.on F.PCIE_STATUS_up then
    { s with hostWins := (List.range 64).foldl (fun m w => mset (fun _ => {}) m w (wins.getD w {})) [] }
  else s

/-- The staging parameters of a ring command enter the CFG registers (R262). -/
def State.putSource (s : State) (p : Nat) (d : BitVec 512) : State :=
  let s := (s.put (F.CFG_P_SRC_LO_addr p) (dDaddr d / 4096)).put (F.CFG_P_SRC_HI_addr_hi p) (dDaddr d / 2 ^ 32)
  (s.put (F.CFG_P_SRC_HI_channel p) (dDaddr d / 2 ^ 40)).put64 (R.CFG_P_LEN_LO p) (R.CFG_P_LEN_HI p) (dLen d)

/-- The staging parameters as the CFG registers hold them: channel, address, length. -/
def State.sourceOf (s : State) (p : Nat) : Nat × Nat × Nat :=
  (s.get (F.CFG_P_SRC_HI_channel p), s.get (F.CFG_P_SRC_HI_addr_hi p) * 2 ^ 32 + s.get (F.CFG_P_SRC_LO_addr p) * 4096,
   s.get64 (R.CFG_P_LEN_LO p) (R.CFG_P_LEN_HI p) / 4096 * 4096)

/-- A command joins the loader's queue; the staging area of an acceptable placement is locked from now on (R248). -/
def State.queueJob (s : State) (j : LoadJob) : State :=
  let ok := j.cmd ≤ 2 && j.len != 0 && s.placementOk j.chan j.addr j.len
  let s := s.setLoader { s.loader with queue := s.loader.queue ++ [{ j with locked := ok }] }
  (if ok then s.lockStage j.part j.chan j.addr j.len else s).syncQueue

/-- LOAD (R247, R248). -/
def execLoad (src : LoadSrc) (wins : List HostWin) (s : State) : Out :=
  .next (s.loadFrom src 0x10 (fun s p w =>
    if s.pstate p = stEmpty ∧ s.get (F.PART_QMASK_qmask p) ≠ 0 then
      let s := match w with | some (_, d) => s.putSource p d | none => s
      let named := match w with
        | some (_, d) => (dParam d % 2 == 1, dParam d / 2 % 4)
        | none => (s.on (F.CFG_P_STATE_m_named p), s.get (F.CFG_P_STATE_m p))
      let s := s.takeWins wins
      let x := s.sourceOf p
      let s := (s.put (F.PART_STATE_state p) stLoading).put (F.CFG_P_STATE_pass p) 0
      s.queueJob { cmd := 1, part := p, chan := x.1, addr := x.2.1, len := x.2.2, m := if named.1 then some named.2 else none, waiter := w.map (·.1) }
    else s.refuseLoad p 1 (w.map (·.1))))

/-- STAGE (R247, R256): a partial staged before is discarded at acceptance. -/
def execStage (src : LoadSrc) (s : State) : Out :=
  .next (s.loadFrom src 0x11 (fun s p w =>
    if s.pstate p = stRunning ∨ s.pstate p = stHalted then
      let s := match w with | some (_, d) => s.putSource p d | none => s
      let s := s.dropStaged p
      let x := s.sourceOf p
      s.queueJob { cmd := 2, part := p, chan := x.1, addr := x.2.1, len := x.2.2, waiter := w.map (·.1) }
    else s.refuseLoad p 2 (w.map (·.1))))

/-- COMMIT (R247, R257). -/
def execCommit (src : LoadSrc) (wins : List HostWin) (s : State) : Out :=
  .next (s.loadFrom src 0x12 (fun s p w =>
    if s.pstate p = stHalted && s.on (F.CFG_P_PARTIAL_staged p) then
      (s.takeWins wins).queueJob { cmd := 3, part := p, waiter := w.map (·.1) }
    else s.refuseLoad p 3 (w.map (·.1))))

/-- A queued command is dropped, or one in progress abandoned: LOAD_ABANDONED (R247, R252). -/
def State.dropQueued (s : State) (f : LoadJob → Bool) : State :=
  let gone := s.loader.queue.filter f
  let s := (s.setLoader { s.loader with queue := s.loader.queue.filter (fun j => !f j) }).syncQueue
  s.each gone (fun s j => (s.unlockJob j).finishW j.waiter 0x1010 (s.loadResult j.part))

/-- DISCARD (R247): drops a staged partial, abandons a STAGE of the partition at its next segment boundary, or drops a queued one. -/
def execDiscard (src : LoadSrc) (s : State) : Out :=
  .next (s.loadFrom src 0x13 (fun s p w =>
    let s := s.dropStaged p
    let s := s.dropQueued (fun j => j.part == p && j.cmd == 2)
    let s := match s.loader.active with
      | some j => if j.part = p ∧ j.cmd = 2 then s.setLoader { s.loader with active := some { j with abandon := true } } else s
      | none => s
    s.finishW (w.map (·.1)) 0 0))

/-- The command in progress is abandoned (R252): nothing is recorded; an UNLOAD that waits goes on. -/
def State.abandonJob (s : State) (j : LoadJob) (us : Nat) : State :=
  let p := j.part
  let s := if j.cmd = 3 then s.dropStaged p else s.unlockJob j
  let s := s.jobEnds j 0x1010 us
  if s.loader.unloads.any (fun u => u.1 == p) then s.beginEmpty p else s

/-- UNLOAD (R252): ahead of the queue; a start that is pending fails. -/
def execUnload (src : LoadSrc) (s : State) : Out :=
  .next (s.loadFrom src 0x14 (fun s p w =>
    if s.pstate p = stRunning then s.refuseLoad p 5 (w.map (·.1))
    else
      let s := (s.put (F.CFG_P_STATE_fault_hold p) 0).dropStaged p
      let s := s.dropQueued (fun j => j.part == p)
      let starts := (s.part p).waiters
      let s := s.modPart p (fun x => { x with startPend := false, waiters := [] })
      let s := s.each starts (fun s w => s.finish w.ring w.serial 0x2005 0)
      let s := s.setLoader { s.loader with unloads := s.loader.unloads ++ [(p, w.map (·.1))] }
      let s := (s.put (F.PART_STATE_state p) stLoading).put (F.PART_STATE_halt_reason p) 0
      match s.loader.active with
      | some j =>
        if j.part = p then
          if j.pass = 5 then s.abandonJob j (s.get (F.CFG_P_TIME_count p))
          else s.setLoader { s.loader with active := some { j with abandon := true } }
        else s.beginEmpty p
      | none => s.beginEmpty p))

/-! ## Passes (R249) -/

/-- Steps 1 to 3 of R249 on the header of a LOAD or STAGE. -/
def State.headerPass (s : State) (j : LoadJob) (ecc : RowEcc) (us : Nat) : State :=
  let p := j.part
  let rd := s.stageReader j.chan j.addr
  let h := rd 0 512
  let (bad, s) := s.stageRead j.chan j.addr 512 ecc
  if bad || !(hMagic h == 0x314B4F48 && hVersion h == 1 && hKind h == (if j.cmd = 1 then 4 else 5)) then s.loadFailWhole j 0x1001 [] us
  else
    let j := { j with modules := hCount h }
    let (bad, s) := s.stageRead j.chan (j.addr + 512) (48 * hSegs h) ecc
    if bad then s.loadFailWhole j 0x1001 [] us
    else match (s.sourceKey (hKeySource h)).bind (fun k => firstKey k h) with
    | none => s.authFail.loadFailWhole j 0x1001 [] us
    | some k0 =>
      if !hTagOk k0 h then s.authFail.loadFailWhole j 0x1001 [] us
      else
        let s := (s.put F.KEY_LASTSRC_kind (hKind h)).put F.KEY_LASTSRC_source (hKeySource h)
        let j := { j with key0 := k0, key := k0 }
        let set := compiledSet (hQuads h) (hPair h)
        if !s.identityOk j rd h then s.loadFailWhole j 0x1001 [] us
        else if !s.profileOk h then s.loadFailWhole j 0x1002 [] us
        else if !(hPaces h).testBit s.pace then s.loadFailWhole j 0x1003 [] us
        else
          let m := if j.cmd = 2 then some (s.get (F.PART_QMASK_binding p) % 4) else bindingOf set (s.get (F.PART_QMASK_qmask p)) j.m
          match m with
          | none => s.loadFailWhole j 0x1004 [] us
          | some m =>
            if j.len < hLen h then s.loadFailWhole j 0x100A [hLen h % 2 ^ 32, hLen h / 2 ^ 32] us
            else
              let s := (s.put (F.CFG_P_STATE_pass p) 2).put (F.CFG_P_PROG_count p) 0
              s.setLoader { s.loader with active := some { j with m := some m, pass := 2 } }

/-- A write-pass fault (R24, R251): the loader stops writing, and the partition becomes EMPTY. -/
def State.writeFault (s : State) (j : LoadJob) (us : Nat) : State :=
  let s := s.recordFault j 0x100D j.seg 1 []
  let s := if j.cmd = 3 then s.dropStaged j.part else (s.unlockJob j).holdFault j
  (s.jobEnds j 0x100D us).beginEmpty j.part

/-- A COMMIT begins (R257): the pace check, then what stands in flight is discarded. -/
def State.beginCommit (s : State) (j : LoadJob) (us : Nat) : State :=
  let p := j.part
  match mget (fun _ => none) s.loader.staged p with
  | none => s.jobEnds j 0x100C us
  | some g =>
    if !(hPaces g.hdr).testBit s.pace then s.loadFailWhole j 0x1003 [] us
    else
      let s := s.modPart p (fun x => { x with votes := [], rechecks := [], outVotes := [], seenVotes := [], votePend := [] })
      let spokes := s.spokesOf p
      let s := { s with spokeRx := mdrop (fun k => spokes.contains (k / 16384)) s.spokeRx }
      let s := s.dropAhead p
      let s := ((s.put (F.CFG_P_STATE_pass p) 3).put (F.CFG_P_PROG_count p) 0).put (F.CFG_P_FRAMES_count p) 0
      let j := { j with chan := g.chan, addr := g.addr, len := g.len, pass := 3, frames := g.frames, m := some (s.get (F.PART_QMASK_binding p) % 4) }
      match (s.sourceKey (hKeySource g.hdr)).bind (fun k => firstKey k g.hdr) with
      | none => s.authFail.writeFault j us
      | some k0 => s.setLoader { s.loader with active := some { j with key0 := k0, key := k0 } }

/-- LOADER_COMMAND_START (R247, R248, R249): the next queued command is served; one whose placement failed at its acceptance has locked
nothing and is refused. `ecc`: what the channel's decoders see on its reads of
the header. -/
def execLoaderCommandStart (ecc : RowEcc) (us : Word) (s : State) : Out :=
  match s.loader.active, s.loader.queue with
  | none, j :: rest =>
    let j := { j with pass := 1 }
    let s := (s.setLoader { s.loader with active := some j, queue := rest }).syncQueue
    let us := us.toNat
    if j.cmd = 3 then .next (s.beginCommit j us)
    else
      let s := s.put (F.CFG_P_STATE_pass j.part) 1
      let s := if j.cmd = 2 then s.put (F.CFG_P_PARTIAL_verifying j.part) 1 else s
      if j.len = 0 then .next (s.loadFailWhole j 0x100A [] us)
      else if !j.locked then .next (s.loadFailWhole j 0x100D [] us)
      else .next (s.headerPass j ecc us)
  | _, _ => .next s

/-- The key in use after segment i, and the one it carried. -/
def LoadJob.afterSeg (j : LoadJob) (i : Nat) (carried : Option (BitVec 256)) : LoadJob :=
  let key := match carried with | some k => k | none => j.key
  { j with seg := j.seg + 1, key := if i % 16 = 15 then key else j.key }

/-- The frames that stand after a verify pass: the image's own, over the loaded image's for a partial one (R176). -/
def State.jobFrames (s : State) (j : LoadJob) : Frames :=
  if j.cmd = 1 then j.frames else overlay j.frames (mget (fun _ => []) s.loader.record j.part)

/-- The compiled quadrants an image's frames are placed by: a partial image goes where the loaded one is (R171, R256). -/
def State.imageSet (s : State) (j : LoadJob) (h : Bytes) : List Nat :=
  let l := if j.cmd = 1 then h else mget (fun _ => []) s.loader.hdrs j.part
  compiledSet (hQuads l) (hPair l)

/-- LOADER_SEGMENT_END (R249, R251, R252): the loader finishes a segment of the verify or the write pass. `ecc`: what the
channel's decoders see on its reads of it. -/
def execLoaderSegmentEnd (ecc : RowEcc) (us : Word) (s : State) : Out :=
  match s.loader.active with
  | none => .next s
  | some j =>
    let p := j.part
    let rd := s.stageReader j.chan j.addr
    let h := rd 0 512
    let i := j.seg
    let us := us.toNat
    if !(j.pass == 2 || j.pass == 3) || decide (hSegs h ≤ i) then .next s
    else if j.abandon then .next (s.abandonJob j us)
    else
      let e := segEnt rd i
      let (unread, s) := s.stageRead j.chan (j.addr + e.off) e.len ecc
      match (if unread then none else openSeg j.key rd h e) with
      | none => .next (if j.pass = 3 then s.writeFault j us else (if unread then s else s.authFail).loadFail j 0x100B i 1 [] us)
      | some pt =>
        if j.pass = 2 then
          if !dirOk pt i e.len then .next (s.loadFail j 0x1005 i 1 [] us)
          else
            let next := if carriesKey h i then Config.unwrap j.key (slice pt 8 40) else none
            if carriesKey h i && next.isNone then .next (s.authFail.loadFail j 0x100B i 1 [] us)
            else
              let s := s.put (F.CFG_P_PROG_count p) (i + 1)
              .next (s.setLoader { s.loader with active := some { j.afterSeg i next with plain := j.plain ++ pt, frames := j.frames ++ segFrames pt } })
        else
          let set := s.imageSet j h
          let s := s.each (segFrames pt) (fun s f => s.writeFrame p set (j.m.getD 0) f)
          let s := (s.put (F.CFG_P_PROG_count p) (i + 1)).bump (F.CFG_P_FRAMES_count p) (segFrames pt).length
          let next := if carriesKey h i then Config.unwrap j.key (slice pt 8 40) else none
          .next (s.setLoader { s.loader with active := some (j.afterSeg i next) })

/-- LOAD_VERIFY_PASS_END (R249, R250, R256): the SHA-384, then checks 5 to 9 of R175. A LOAD goes on to its write pass; a STAGE ends. -/
def execLoadVerifyPassEnd (us : Word) (s : State) : Out :=
  match s.loader.active with
  | none => .next s
  | some j =>
    let p := j.part
    let h := s.stageReader j.chan j.addr 0 512
    let us := us.toNat
    if j.pass ≠ 2 ∨ j.seg ≠ hSegs h then .next s
    else if j.abandon then .next (s.abandonJob j us)
    else if shaBytes j.plain ≠ hSha h then .next (s.authFail.loadFailWhole j 0x100B [] us)
    else
      match s.contentFault p (s.imageSet j h) (j.m.getD 0) h j.frames (s.jobFrames j) with
      | some (code, some a) => .next (s.loadFail j code a 0 [] us)
      | some (code, none) => .next (s.loadFailWhole j code [] us)
      | none =>
        if j.cmd = 2 then
          let s := s.dropStaged p
          let g : Staged := ⟨j.chan, j.addr, j.len, j.frames, h⟩
          let s := s.setLoader { s.loader with staged := mset (fun _ => none) s.loader.staged p (some g) }
          let s := (s.put (F.CFG_P_PARTIAL_staged p) 1).put (F.CFG_P_PIMAGE_value p) (num (hSha h) 0 4)
          .next (s.jobEnds j 0 us)
        else
          let mine (q : Nat) := s.ownsQuad p q
          let s := ((s.clearConfig mine).clearRows mine).dropAhead p
          let s := s.each ((List.range 4).filter mine) (fun s q => s.setStage q 0)
          let s := ((s.put (F.CFG_P_STATE_pass p) 3).put (F.CFG_P_PROG_count p) 0).put (F.CFG_P_FRAMES_count p) 0
          .next (s.setLoader { s.loader with active := some { j with pass := 3, seg := 0, key := j.key0, plain := [] } })

/-- The spokes whose X outputs the frames in place use belong to the partition (R172). -/
def State.takeSpokes (s : State) (p : Nat) (set : List Nat) (m : Nat) (h : Bytes) (fs : Frames) : State :=
  let spokes := if 1 < hCount h then (usedSpokes fs (hD h) (hQuads h)).foldl (fun a k => a + 2 ^ (4 * boundQuad set m (k / 4) + k % 4)) 0 else 0
  (s.put (F.PART_LINK_spoke_mask p) spokes).settleMis

/-- The registers and records that a loaded image sets (R66, R67, R78, R169, R172, R231, R249 step 7, R339). -/
def State.showImage (s : State) (p m : Nat) (h : Bytes) (fs : Frames) : State :=
  let set := compiledSet (hQuads h) (hPair h)
  let n := hQuads h
  let s := (s.put (F.PART_QMASK_image_quads p) n).put (F.PART_QMASK_binding p) ((List.range n).foldl (fun a k => a + boundQuad set m k * 4 ^ k) 0)
  let s := ((s.put (F.PART_PROFILE_depth p) (hDepth h)).put (F.PART_PROFILE_paces p) (hPaces h)).put (F.PART_PROFILE_profile p) (hProfile h)
  let s := ((s.put (F.PART_LINK_module_count p) (hCount h)).put (F.PART_LINK_module_index p) (hIndex h)).takeSpokes p set m h fs
  let s := s.put (F.PART_IMAGE_ID_image_id p) (num (hSha h) 0 4)
  let flume := (List.range (hClocks h)).foldl (fun a k => if hPeriod h k = 0 then a + 2 ^ k else a) 0
  let s := ((s.put (F.PART_CLKCNT_count p) (hClocks h)).put (F.PART_CLKCNT_approx_mask p) (hApprox h)).put (F.PART_CLKCNT_flume_mask p) flume
  let s := s.each (List.range 8) (fun s k =>
    if k < hClocks h then (s.put (F.PART_CLK_period p k) (hPeriod h k)).put (F.PART_CLK_phase p k) (hPhase h k) else s.setReg (R.PART_CLK p k) 0)
  let s := ((s.put (F.TURN_CONFIG_depth p) (hDepth h)).put (F.TURN_CONFIG_k p) (hK h)).put (F.TURN_CONFIG_l p) (hL h)
  let s := s.each (List.range 4) (fun s w => s.put (F.KEY_LNONCE_data (4 * p + w)) (num h (0xA0 + 4 * w) 4))
  let s := s.each (List.range n) (fun s k => s.put (F.GOV_VFLUME_floor (boundQuad set m k)) (hFloor h k))
  let hdr : ImageHdr := {
    buildId := hBuild h, topology := hTopo h, hopBudget := hH h }
  let s := s.setPart p { hdr := hdr, turn0 := true, lossless := (s.part p).lossless }
  (s.setBit F.DBG_BREAKEN_en p false).agreeAll

/-- TB1 and the counters stand at 0, unanchored, at the end of every write pass (R80, R82, R257, R387); a clear that waits still does. -/
def State.zeroTurns (s : State) (p : Nat) : State :=
  ((s.zeroCounters p).put (F.TURN_STATUS_last_valid p) 0).flag (F.TB1_STATUS_anchored p) false

/-- Region configuration of a full image, quadrant by quadrant, and its governor targets (R113, R232). -/
def State.putFlume (s : State) (set : List Nat) (m n : Nat) (fs : Frames) : State :=
  s.each (List.range n) (fun s k =>
    let q := boundQuad set m k
    let g := imgFlume fs k
    (s.each g.regions (fun s x => s.putRegion q g x 3)).railToCeiling q)

/-- The regions of a partial image: those whose frames it carries are reset and reloaded, and wait for their release (R129, R257). The
list of these regions. -/
def State.commitFlume (s : State) (set : List Nat) (m n : Nat) (own old fs : Frames) : State × List Nat :=
  (List.range n).foldl (fun (acc : State × List Nat) k =>
    let q := boundQuad set m k
    let addrs := own.map (·.1)
    let g := imgFlume fs k
    let ids := (carriedRegions (imgFlume old k) addrs ++ carriedRegions g addrs).eraseDups
    let s := acc.1.each ids (fun s r => s.dropRegion (512 * q + r))
    let s := s.each (g.regions.filter (fun x => ids.contains x.idx)) (fun s x => s.putRegion q g x 0)
    let s := if addrs.any (fun a => frClass a == 4 && frQuad a == k) then s.railToCeiling q else s
    (s, acc.2 ++ ids.map (512 * q + ·))) (s, [])

/-- LOAD_WRITE_PASS_END (R249 step 7, R255, R257). -/
def execLoadWritePassEnd (us : Word) (s : State) : Out :=
  match s.loader.active with
  | none => .next s
  | some j =>
    let p := j.part
    let h := s.stageReader j.chan j.addr 0 512
    let set := s.imageSet j h
    let m := j.m.getD 0
    let us := us.toNat
    if j.pass ≠ 3 ∨ j.seg ≠ hSegs h then .next s
    else if j.abandon then .next (s.abandonJob j us)
    else if j.cmd = 1 then
      let s := (s.putFlume set m (hQuads h) j.frames).showImage p m h j.frames
      let s := s.zeroTurns p
      let s := s.setLoader { s.loader with record := mset (fun _ => []) s.loader.record p j.frames, hdrs := mset (fun _ => []) s.loader.hdrs p h }
      let s := (s.put (F.PART_STATE_state p) stLoaded).unlockJob j
      let s := if hCount h = 1 then s.beginRelease p else s
      .next (s.jobEnds j 0 us)
    else
      let old := mget (fun _ => []) s.loader.record p
      let fs := overlay j.frames old
      let (s, regions) := s.commitFlume set m (hQuads h) j.frames old fs
      let s := (s.put (F.PART_IMAGE_ID_image_id p) (num (hSha h) 0 4)).takeSpokes p set m (mget (fun _ => []) s.loader.hdrs p) fs
      let s := s.agreeAll
      let s := (s.capCut p).zeroTurns p
      let s := s.modPart p (fun x => { x with turn0 := true, turnBase := 0, prevBase := 0, holdLog := [], prevLog := [], quanta := 0, hold := 0, served := 0 })
      let s := s.setLoader { s.loader with record := mset (fun _ => []) s.loader.record p fs }
      let s := s.dropStaged p
      .next ((s.setLoader { s.loader with active := some { j with pass := 5, regions := regions } }).beginRelease p)

/-- EMPTY_RETURN_COMPLETE (R251, R252). -/
def execEmptyReturnComplete (p : Part) (s : State) : Out :=
  if s.loader.emptying.contains p.val then
    let mine (q : Nat) := s.ownsQuad p q
    let waits := s.loader.unloads.filter (fun u => u.1 == p.val)
    let s := s.each ((List.range 4).filter mine) (fun s q => s.setStage q 0)
    let s := ((s.capStop p 1).pinsEmpty p).clearConfig mine
    let s := ((s.forgetImage p).put (F.PART_STATE_state p) stEmpty).agreeAll
    let s := s.setLoader { s.loader with
      emptying := s.loader.emptying.filter (· != p.val)
      unloads := s.loader.unloads.filter (fun u => u.1 != p.val) }
    .next (s.each waits (fun s u => s.finishW u.2 0 0))
  else .next s

/-! ## Release (R253 to R255) -/

/-- HOLD_DONE_WRITE (R253). -/
def execHoldDoneWrite (hold : Bool) (s : State) : Out := .next (s.flag F.CFG_CTRL_hold_done hold)

/-- CFG_DONE_RISE_ACTED (R254): every LOADED, unreleased partition of more than one module begins its release. -/
def execCfgDoneRiseActed (s : State) : Out :=
  if s.lines.cfgPending then
    let s := { s with lines := { s.lines with cfgPending := false } }
    .next (s.each ((List.range 4).filter (fun p => s.multi p && s.pstate p == stLoaded && !(s.part p).released)) State.beginRelease)
  else .next s

/-- RELEASE_WRITE_ENABLES (R128, R254, R255). -/
def execReleaseWriteEnables (p : Part) (s : State) : Out :=
  if s.releaseStage p = some 1 then .next (s.releaseTo p 2) else .next s

/-- RELEASE_DESIGN_RESETS (R128, R254, R255, R257): the partition is released; a commit ends. -/
def execReleaseDesignResets (p : Part) (us : Word) (s : State) : Out :=
  if s.releaseStage p = some 2 then
    let s := (s.releaseTo p 3).setBit F.CFG_RELEASE_parts p true
    let s := s.setLoader { s.loader with release := mset (fun _ => none) s.loader.release p none }
    let s := s.modPart p (fun x => { x with released := true })
    match s.loader.active with
    | some j => if j.part = p.val ∧ j.cmd = 3 ∧ j.pass = 5 then .next (s.jobEnds j 0 us.toNat) else .next s
    | none => .next s
  else .next s

end Sys2Proof.Machine
end

