-- ==== Sys2Proof/Machine/Boot.lean ====
section
/-!
DEFINITION. Machine/Boot.lean: the shell's start from flash or from the hopper, and key RAM (R258 to R264).
-/
namespace Sys2Proof.Machine

open Sys2Proof

/-- A reader of bytes in hand. -/
def listReader (b : Bytes) : Reader := slice b

/-- The plaintext of the segments of a kind 1 to 3 image, in index order; none when a tag fails (R245). -/
def openAll (key : BitVec 256) (rd : Reader) (h : Bytes) : Option (List Bytes) :=
  (List.range (hSegs h)).mapM (fun i => openSeg key rd h (segEnt rd i))

/-- Frames of a shell are hopper frames of the table's form, in directories that agree with their segments (R241, R244, R260). -/
def shellFramesOk (pts : List Bytes) : Bool :=
  (pts.zipIdx.all (fun x => dirOk x.1 x.2 x.1.length)) && (regionFaults 0 0 none (pts.flatMap segFrames)).isEmpty

/-- The checks of R260 on an image of `data` bytes, for the kinds accepted: what failed, or its frames. The state counts an
authentication failure (R246). -/
def State.checkShell (s : State) (rd : Reader) (data : Nat) (kinds : List Nat) : State × Except Nat (Bytes × Frames) :=
  let h := rd 0 512
  if data < 512 then (s, .error 0x100A)
  else if !(hMagic h == 0x314B4F48 && hVersion h == 1 && kinds.contains (hKind h) && decide (1 ≤ hSegs h) && s.moduleFits h &&
      hReservedOk h && hKindFieldsOk h) then (s, .error 0x1001)
  else
    match s.sourceKey (hKeySource h) with
    | none => (s.authFail, .error 0x1001)
    | some key =>
      if !hTagOk key h then (s.authFail, .error 0x1001)
      else
        let s := (s.put F.KEY_LASTSRC_kind (hKind h)).put F.KEY_LASTSRC_source (hKeySource h)
        if data < hLen h ∨ 0x8000000 < hLen h then (s, .error 0x100A)
        else if !tableOk rd h then (s, .error 0x1001)
        else
          match openAll key rd h with
          | none => (s.authFail, .error 0x100B)
          | some pts =>
            if shaBytes pts.flatten != hSha h then (s.authFail, .error 0x100B)
            else if !shellFramesOk pts then (s, .error 0x1005)
            else (s, .ok (h, pts.flatMap segFrames))

/-- Record an attempt in the first free CFG_BOOTLOG; the first failure in CFG_BOOT (R262). -/
def State.bootLog (s : State) (source fault : Nat) : State :=
  let s := match (List.range 8).find? (fun i => s.get (F.CFG_BOOTLOG_source i) = 0) with
    | some i => ((s.put (F.CFG_BOOTLOG_source i) source).flag (F.CFG_BOOTLOG_loaded i) (fault == 0)).put (F.CFG_BOOTLOG_event i) fault
    | none => s
  if fault ≠ 0 ∧ s.get F.CFG_BOOT_fault = 0 then s.put F.CFG_BOOT_fault fault else s

/-- The frames fill banks 0 to 7, and miller 0 starts at hopper offset 0 in machine mode (R260). -/
def State.startShell (s : State) (h : Bytes) (fs : Frames) (source ms : Nat) : State :=
  let s := s.each fs (fun s f => s.hopWrite (4096 * (f.1 % 2 ^ 28)) f.2)
  let s := s.setMiller 0 { s.miller 0 with pc := 0x10000000, machine := true }
  let s := (s.put F.CFG_BOOT_state (if hKind h = 3 then 3 else 1)).put F.CFG_BOOT_source source
  let s := s.setReg R.CFG_SHELL_ID (BitVec.ofNat 32 (num (hSha h) 0 4))
  let s := { s.bootLog source 0 with boot := { s.boot with xretry := false } }
  if hKind h = 3 then s else (s.put F.RST_SEQ_stage 4).put F.RST_SEQ_ms ms

/-- XSPI_STREAM_END (R258 to R260): a flash stream has ended with these bytes: the primary image, the primary again, or the golden
image. `ms`: time since the release of RESET_N. -/
def execXspiStreamEnd (stream : Fin 3) (image : List Byte) (ms : BitVec 16) (s : State) : Out :=
  if s.get F.CFG_BOOT_state ≠ 0 then .next s
  else
    let s := (s.put F.CFG_BOOT_streams (min 3 (s.get F.CFG_BOOT_streams + 1))).put F.CFG_XSPI_mode_8d 1
    let s := s.put F.CFG_XSPI_clock 200
    let golden := stream.val = 2
    let source := if golden then 2 else 1
    match s.checkShell (listReader image) image.length (if golden then [2] else [1]) with
    | (s, .ok (h, fs)) => .next (s.startShell h fs source ms.toNat)
    | (s, .error e) =>
      let s := s.bootLog source e
      if golden then
        let s := s.put F.CFG_BOOT_state 2
        let s := s.each (List.range 8) (fun s b => s.put (F.HOP_BANK_owner (8 + b)) 5)
        .next { s with boot := { s.boot with xretry := false } }
      else .next { s with boot := { s.boot with xretry := true } }

/-- BOOT_HOPPER (R261, R262): a write of CFG_CTRL.boot_hopper, ignored outside recovery. The image stands in banks 8 to 15. -/
def execBootHopper (ms : BitVec 16) (s : State) : Out :=
  if s.get F.CFG_BOOT_state ≠ 2 then .next s
  else
    let n := s.get F.CFG_RECOV_length
    if n = 0 ∨ 8192 < n then .next (s.bootLog 3 0x100A)
    else
      match s.checkShell (fun o k => s.hopRead (2 ^ 25 + o) (min k (4096 * n - o))) (4096 * n) [1, 2, 3] with
      | (s, .ok (h, fs)) => .next (s.startShell h fs 3 ms.toNat)
      | (s, .error e) => .next (s.bootLog 3 e)

/-! ## Key RAM (R263, R264) -/

/-- The port a requester acts through: 0 shell firmware, 1 to 3 a debug session, none for the host and for handlers. -/
def sessOf : Requester → Option Nat
  | .shell _ => some 0
  | .jtag => some 1
  | .mgmt => some 2
  | .mbox => some 3
  | .host => none
  | .handler _ => none

/-- Shell firmware in machine mode, or a FULL session. -/
def State.fullRights (s : State) (who : Requester) : Bool :=
  match sessOf who with
  | some port => s.sessLevel port == 2
  | none => false

/-- A key write that is not allowed is ignored and counted (R263). -/
def State.keyAllowed (s : State) (who : Requester) (f : State → State) : State :=
  if s.fullRights who then f s else s.bump F.KEY_FAILCNT_denied 1

/-- Slot n holds a key, or is empty. -/
def State.putKey (s : State) (n : Nat) (k : Option (BitVec 256)) : State :=
  let s := { s with keys := { s.keys with slots := mset (fun _ => none) s.keys.slots n k } }
  let s := (s.flag (F.KEY_SLOT_valid n) k.isSome).setBit F.KEY_STATUS_valid n k.isSome
  s.setReg (R.KEY_KCV n) (match k with | some k => Config.keyCheck k | none => 0)

/-- The key in KEY_WDATA. -/
def State.wdata (s : State) : BitVec 256 :=
  BitVec.ofNat 256 ((List.range 8).foldl (fun a w => a + (s.reg (R.KEY_WDATA w)).toNat * 2 ^ (32 * w)) 0)

/-- KEY_WRITE (R263): a write of KEY_CTRL.write. -/
def execKeyWrite (who : Requester) (sel : Fin 8) (s : State) : Out :=
  .next (s.keyAllowed who (fun s =>
    let n := sel.val
    let s := s.put F.KEY_CTRL_sel n
    if s.on (F.KEY_SLOT_lock n) then s
    else
      let s := (s.putKey n (some s.wdata)).bump (F.KEY_SLOT_writes n) 1
      s.each (List.range 8) (fun s w => s.setReg (R.KEY_WDATA w) 0)))

/-- KEY_ZEROISE (R263): the slot is erased unless it is locked. -/
def execKeyZeroise (who : Requester) (sel : Fin 8) (s : State) : Out :=
  .next (s.keyAllowed who (fun s =>
    let n := sel.val
    let s := s.put F.KEY_CTRL_sel n
    if s.on (F.KEY_SLOT_lock n) then s else (s.putKey n none).put (F.KEY_SLOT_writes n) 0))

/-- Every slot and lock is erased, and KEY_TAMPER shows it (R263, R264). -/
def State.eraseKeys (s : State) : State :=
  let s := s.each (List.range 8) (fun s n => ((s.putKey n none).setReg (R.KEY_SLOT n) 0).setBit F.KEY_STATUS_locked n false)
  (s.put F.KEY_TAMPER_zeroised 1).bump F.KEY_TAMPER_count 1

/-- KEY_ZEROISE_ALL (R263). -/
def execKeyZeroiseAll (who : Requester) (s : State) : Out := .next (s.keyAllowed who State.eraseKeys)

/-- KEY_RAM_LOSS (R263): VBAT and main power are both lost. -/
def execKeyRamLoss (s : State) : Out := .next s.eraseKeys

end Sys2Proof.Machine
end

