-- ==== Sys2Proof/Machine/Capture.lean ====
section
/-!
DEFINITION. Machine/Capture.lean: commands of the acquisition engine (R352, R355, R358, R363 to R369, R377).
-/
namespace Sys2Proof.Machine

open Sys2Proof

/-- CAPTURE_WORDS_ARRIVAL (R352, R355): the oldest words mill m holds reach the engine, in one packet of eight units. -/
def execCaptureWordsArrival (m : Mill) (s : State) : Out :=
  match [0, 1, 2, 3].find? (fun p => (s.cap p).items.any (fun i => i.missing.contains m.val)) with
  | none => .next s
  | some p =>
    let x := s.cap p
    match x.items.find? (fun i => i.missing.contains m.val) with
    | none => .next s
    | some i =>
      let j := { i with missing := i.missing.erase m.val }
      let s := (s.busCount 0x223 8).setCap p { x with items := x.items.map (fun y => if y = i then j else y) }
      .next (s.capFlow p)

/-- Two ranges of a channel meet. -/
def ringsMeet (a b la lb : Nat) : Bool := decide (a < b + lb) && decide (b < a + la)

/-- The ring a RING register describes lies wholly in shell-owned slices of a channel in service, aligned to its size (R363). -/
def State.capRingOk (s : State) (ring : Word) : Bool :=
  let size := ring.toNat / 2 ^ 24 % 16
  let base := ring.toNat % 2 ^ 18 * 2 ^ 20
  let len := 2 ^ 22 * 2 ^ size
  decide (size ≤ 12) && base % len == 0 && s.placementOk (ring.toNat / 2 ^ 28) base len

/-- The ring lies apart from those of the enabled partitions but p (R363, R375). -/
def State.capRingFree (s : State) (p : Nat) (ring : Word) : Bool :=
  let ch := ring.toNat / 2 ^ 28
  let base (r : Word) : Nat := r.toNat % 2 ^ 18 * 2 ^ 20
  let len (r : Word) : Nat := 2 ^ 22 * 2 ^ (r.toNat / 2 ^ 24 % 16)
  [0, 1, 2, 3].all (fun p' =>
    let r := s.reg (R.ACQ_P_RING p')
    p' == p || !s.on (F.ACQ_P_CTRL_en p') || r.toNat / 2 ^ 28 != ch || !ringsMeet (base ring) (base r) (len ring) (len r))

/-- CAPTURE_ENABLE (R363, R369): a write of ACQ_Pp_CTRL with en = 1 while it is 0. Every field of the write applies but en, when the
enable is refused. -/
def execCaptureEnable (p : Part) (value : Word) (s : State) : Out :=
  let p := p.val
  if s.on (F.ACQ_P_CTRL_en p) || !s.partExists p then .next s
  else
    let s := s.setReg (R.ACQ_P_CTRL p) (value &&& 0x7E00FFFF)
    let ring := s.reg (R.ACQ_P_RING p)
    let area := s.get (F.ACQ_P_HBUF_LO_size p)
    let host := s.get64 (R.ACQ_P_HBUF_LO p) (R.ACQ_P_HBUF_HI p) / 2 ^ 20
    if s.capRingOk ring && s.capRingFree p ring && decide (area ≤ 10) && host % 2 ^ area == 0 then
      let s := (s.setCap p {}).put (F.ACQ_P_CTRL_en p) 1
      let s := s.each (List.range 8) (fun s c => s.put (F.ACQ_CNTDATA_count.sel (p * 8 + c)) 0)
      .next (s.capEmit p 5 (s.turns p) 0 0 (natLe 4 (s.reg (R.ACQ_P_CTRL p)).toNat) [])
    else .next (s.put F.ACQ_STATUS_refused 1)

/-- CAPTURE_DISABLE (R369): a write of en = 0. -/
def execCaptureDisable (p : Part) (s : State) : Out := .next (s.capStop p 1)

/-- ACQ_SWTRIG (R358). -/
def execAcqSwtrig (parts : BitVec 4) (s : State) : Out :=
  .next (s.each ((List.range 4).filter parts.getLsbD) (fun s p => (s.capTrigger p 3 0 0).capFlow p))

/-- Size of partition p's host area, and the bytes in it that the host has not freed (R364). -/
def State.capArea (s : State) (p : Nat) : Nat := 2 ^ 20 * 2 ^ s.get (F.ACQ_P_HBUF_LO_size p)
def State.capHeld (s : State) (p : Nat) : Nat :=
  (((s.cap p).chunks.filter (fun c => decide ((c.1 + 2 ^ 32 - (s.ring (9 + p)).host % 2 ^ 32) % 2 ^ 32 < 2 ^ 31))).map (·.2)).sum

/-- Read the lines of a chunk from the capture ring (R364). -/
def State.chunkData (s : State) (ch : Nat) (lines : List Nat) (ecc : RowEcc) : State × List Byte :=
  lines.foldl (fun (r : State × List Byte) a =>
    let (_, bs, s) := r.1.busRead 0x223 7 ch a 64 { ecc with ce := 0 }
    (s, r.2 ++ bs)) (s, [])

/-- CAPTURE_CHUNK_POST (R364): up to 64 KiB of the ring go to the host area, not past its end, and their descriptor is posted; what
was staged enters the ring. -/
def execCaptureChunkPost (p : Part) (ecc : RowEcc) (s : State) : Out :=
  let p := p.val
  let n := 9 + p
  let x := s.cap p
  let area := s.capArea p
  let len := min (min 65536 (s.capUsed p)) (area - x.copied % area)
  let ch := s.get (F.ACQ_P_RING_channel p)
  let base := s.get (F.ACQ_P_RING_base p) * 2 ^ 20
  let lines := (List.range (len / 64)).map (fun i => base + (x.copied + 64 * i) % s.capSize p)
  if len = 0 ∨ !s.ringRoom n ∨ area < s.capHeld p + len ∨ lines.any (fun a => s.busBlocked ch a 7) then .next s
  else
    let (s, data) := (match lines with | a :: _ => s.dramCes ch a ecc.ce | [] => s).chunkData ch lines ecc
    let mine := x.recs.filter (fun r => decide (r.1 < x.copied + len))
    let has (k : Nat) : Nat := if mine.any (fun r => r.2.1 == k) then 1 else 0
    let haddr := s.get64 (R.ACQ_P_HBUF_LO p) (R.ACQ_P_HBUF_HI p) / 2 ^ 20 * 2 ^ 20 + x.copied % area
    let first := match mine with | r :: _ => (r.1 - x.copied) / 64 | [] => 0xFFFFFFFF
    let turn := match mine.getLast? with | some r => r.2.2 | none => 0
    let desc := natLe 2 1 ++ natLe 1 p ++ natLe 1 (s.anchorFlag + 2 * has 3 + 4 * has 4) ++ natLe 4 (len / 64) ++ natLe 8 x.copied ++
      natLe 8 s.tb0 ++ natLe 8 haddr ++ natLe 4 first ++ natLe 4 mine.length ++ natLe 8 turn ++ natLe 12 0
    let s := s.hostWrite haddr data
    let count := (s.ring n).dev
    let s := s.postBytes n desc
    let held := x.chunks.filter (fun c => decide ((c.1 + 2 ^ 32 - (s.ring n).host % 2 ^ 32) % 2 ^ 32 < 2 ^ 31))
    let s := s.setCap p { x with copied := x.copied + len, recs := x.recs.filter (fun r => decide (x.copied + len ≤ r.1)), chunks := held ++ [(count, len)] }
    let s := s.capCount p 5 (len / 64)
    .next (State.capUnstage p (s.cap p).staged.length s)

/-- ACQ_CNT_CLEAR (R377). -/
def execAcqCntClear (s : State) : Out := .next (s.each (List.range 32) (fun s n => s.put (F.ACQ_CNTDATA_count.sel n) 0))

/-- The ring is at or above its high-water mark, or a mill holds four unsent turns (R366). -/
def State.captureFull (s : State) (p : Nat) : Bool :=
  let items := (s.cap p).items
  decide (max 1 (s.get F.ACQ_HWM_level) * s.capSize p ≤ 16 * s.capUsed p) ||
  (List.range 256).any (fun m => decide (4 ≤ (items.filter (fun i => i.missing.contains m)).length))

/-- Reference of the re-check of CAPTURE votes. -/
def capRef : Nat := 0x40000

/-- CAPTURE_CHECK (R366, R68, R71): in lossless capture, at step n. A failed check is a vote for step n + K; it is re-checked every 32
cycles until one passes. Where the engine does not check, no re-check is left. -/
def execCaptureCheck (p : Part) (n : Step) (s : State) : Out :=
  let p := p.val
  let rest := (s.part p).rechecks.filter (fun r => r.ref != capRef)
  if !(s.running p && (s.part p).lossless && s.on (F.ACQ_P_CTRL_en p)) then .next (s.modPart p (fun x => { x with rechecks := rest }))
  else
    let mine := (s.part p).rechecks.find? (fun r => r.ref == capRef)
    if s.captureFull p then
      let s := (s.setBit F.ACQ_STATUS_braking p true).capCount p 4 1
      match mine with
      | some r =>
        let s := s.vote p r.hold r.next (r.round + 1) 5 r.origin
        .next (s.modPart p (fun x => { x with rechecks := rest ++ [{ r with round := r.round + 1 }] }))
      | none =>
        let (h, nx) := s.holdOf p n
        let o := s.cycleOf p n
        let s := s.vote p h nx 0 5 o
        .next (s.modPart p (fun x => { x with rechecks := rest ++ [⟨h, nx, 0, 5, o, capRef⟩] }))
    else .next ((s.setBit F.ACQ_STATUS_braking p false).modPart p (fun x => { x with rechecks := rest }))

end Sys2Proof.Machine
end

