-- ==== Sys2Proof/Machine/Dram.lean ====
section
/-!
DEFINITION. Machine/Dram.lean: the DRAM channels' own commands: population, training, owners, refresh, power-down, completion,
scrub and errors (R152, R154, R202 to R222).
-/
namespace Sys2Proof.Machine

open Sys2Proof

/-- Why a population is refused (R203, R222): 1 kind, 2 width, 3 density, 4 capacity, 5 modules differ, 6 speed; 0 accepted. The
first that holds. -/
def spdReason (speed : Nat) (ms : List Spd) : Nat :=
  let m := ms.headD ⟨true, true, true, some false, 1, 1, 0⟩
  let logical := ms.length * m.ranks * m.height
  let slices := logical * (if m.density = some true then 4 else 2)
  if ms.any (fun x => !x.registered || !x.sideEcc || !([1, 2, 4].contains x.height)) then 1
  else if ms.any (fun x => !x.x4) then 2
  else if ms.any (fun x => x.density.isNone) then 3
  else if !([1, 2, 4, 8].contains logical) ∨ 16 < slices ∨ 2 < ms.length then 4
  else if ms.any (fun x => x.density != m.density || x.ranks != m.ranks || x.height != m.height || x.registered != m.registered) then 5
  else if ms.any (fun x => x.rated < speed) then 6
  else 0

/-- SPD_READ_COMPLETE (R202 to R204): a channel that the speed in force does not suit brings the device to DDR5-4800. -/
def execSpdReadComplete (ch : Chan) (modules : List Spd) (s : State) : Out :=
  let c := ch.val
  match modules with
  | [] => .next ((s.setReg (R.DDRC_POP c) 0).put (F.DDRC_STATUS_state c) 0).settleMis
  | m :: _ =>
    let speed := if s.on F.CLK_STATUS_ddr_speed && modules.length == 1 && modules.all (fun x => decide (6400 ≤ x.rated)) then 6400 else 4800
    let s := s.flag F.CLK_STATUS_ddr_speed (speed == 6400)
    let reason := spdReason speed modules
    let logical := modules.length * m.ranks * m.height
    let s := s.setReg (R.DDRC_POP c) 0
    let s := (s.put (F.DDRC_POP_dimms c) modules.length).flag (F.DDRC_POP_stacked c) (decide (1 < m.height))
    let s := (s.flag (F.DDRC_POP_density c) (m.density == some true)).put (F.DDRC_POP_ranks c) (m.ranks - 1)
    let s := (s.put (F.DDRC_POP_height c) (m.height / 2)).put (F.DDRC_POP_rho c) (Nat.log2 logical)
    let s := s.put (F.DDRC_POP_reason c) reason
    let s := s.setChan c { s.chan c with rated := modules.foldl (fun a x => min a x.rated) 65535 }
    if reason = 0 then
      .next ((s.put (F.DDRC_POP_slices c) (logical * (if m.density = some true then 4 else 2))).put (F.DDRC_STATUS_state c) 2).settleMis
    else .next ((s.put (F.DDRC_STATUS_state c) 1).raise 0x3007 0xFF [c, (s.reg (R.DDRC_POP c)).toNat]).settleMis

/-- DDRC_TRAIN (R206): ignored while a bound partition is not EMPTY, on a channel without accepted modules, and while it trains. -/
def execDdrcTrain (ch : Chan) (s : State) : Out :=
  let c := ch.val
  let st := s.get (F.DDRC_STATUS_state c)
  if s.chanBusy c || decide (st < 2) || st == 3 then .next s
  else
    let s := (s.put (F.DDRC_STATUS_state c) 3).put (F.DDRC_TRAIN_step c) 1
    let x := s.chan c
    .next ((s.setPostponed c []).setChan c { rated := x.rated, hot := x.hot, doubled := x.doubled }).settleMis

/-- TRAINING_COMPLETE (R206, R223): what was found for every lane, or the step, rank and lane that failed. -/
def execTrainingComplete (ch : Chan) (fail : Option (Fin 8 × Fin 16 × Fin 20)) (found : List LaneTrain) (ms : BitVec 16) (s : State) : Out :=
  let c := ch.val
  if s.get (F.DDRC_STATUS_state c) ≠ 3 then .next s
  else
    let s := s.put (F.DDRC_TRAIN_duration c) ms.toNat
    match fail with
    | some (step, rank, lane) =>
      let s := ((s.put (F.DDRC_TRAIN_step c) (step.val + 1)).put (F.DDRC_TRAIN_rank c) rank).put (F.DDRC_TRAIN_lane c) lane
      .next ((s.put (F.DDRC_STATUS_state c) 5).raise 0x3008 0xFF [c, (s.reg (R.DDRC_TRAIN c)).toNat])
    | none =>
      let s := ((s.put (F.DDRC_TRAIN_step c) 9).put (F.DDRC_TRAIN_rank c) 0).put (F.DDRC_TRAIN_lane c) 0
      let s := s.each found (fun s f =>
        let n := f.rank.val * 32 + f.lane.val
        let s := ((s.put ((F.DPHY_RDEYE_left c).sel n) f.left.toNat).put ((F.DPHY_RDEYE_right c).sel n) f.right.toNat).put ((F.DPHY_RDEYE_centre c).sel n) f.centre.toNat
        let s := (s.put ((F.DPHY_WRDLY_osc c).sel n) f.osc.toNat).put ((F.DPHY_WRDLY_delay c).sel n) f.delay.toNat
        let s := (s.put ((F.DPHY_VREF_wr_vref c).sel n) f.wrVref.toNat).put ((F.DPHY_VREF_rd_vref c).sel n) f.rdVref.toNat
        let s := (s.put ((F.DPHY_DRIFT_osc_base c).sel n) f.osc.toNat).put ((F.DPHY_DRIFT_max_shift c).sel n) 0
        let k := c * 512 + n
        { s with gov := { s.gov with oscAt := mset (fun _ => 0) s.gov.oscAt k f.osc.toNat, oscUp := mset (fun _ => false) s.gov.oscUp k f.up,
                                     centre0 := mset (fun _ => 0) s.gov.centre0 k f.centre.toNat } })
      .next ((s.put (F.DPHY_CTRL_adj_count c) 0).put (F.DDRC_STATUS_state c) 4)

/-- DDRC_OWN_WRITE (R209). -/
def execDdrcOwnWrite (ch : Chan) (hi : Bool) (value : Word) (s : State) : Out :=
  let c := ch.val
  let a := if hi then R.DDRC_OWN_HI c else R.DDRC_OWN_LO c
  let first := if hi then 8 else 0
  let fieldOf (v : Nat) (i : Nat) : Nat := v / 16 ^ i % 16
  if (List.range 8).any (fun i => decide (4 < fieldOf value.toNat i)) then .next s
  else
    let inCap (i : Nat) : Bool := decide (first + i < s.get (F.DDRC_POP_slices c))
    let isEmpty (o : Nat) : Bool := o == 0 || s.pstate (o - 1) == stEmpty
    let old := (s.reg a).toNat
    let changed := (List.range 8).filter (fun i => inCap i && fieldOf old i != fieldOf value.toNat i)
    if changed.all (fun i => isEmpty (fieldOf old i) && isEmpty (fieldOf value.toNat i)) then
      .next (s.setReg a (BitVec.ofNat 32 ((List.range 8).foldr (fun i acc => (if inCap i then fieldOf value.toNat i else 0) + 16 * acc) 0)))
    else .next (s.raise 0x3009 0xFF [c, if hi then 1 else 0, value.toNat])

/-! ## Refresh and power-down -/

/-- A request queued for a physical rank is at or above DDRC_REF.steer_level (R216). -/
def State.steered (s : State) (c rank : Nat) (now : List Nat) : Bool :=
  let steer := s.get (F.DDRC_REF_steer_level c)
  let x := s.chan c
  let here (a : Nat) : Bool := s.physRank c (s.rankOf c a) == rank
  steer != 0 && (x.reads.any (fun r => here (haddr r.pk.hdr) && decide (steer ≤ s.urgAt c now r)) ||
    x.writes.any (fun w => here (64 * w.line) && decide (steer ≤ w.urg)))

/-- REFRESH_DUE (R215, R216): postponed while a request for the rank is urgent, up to 4 or 8; otherwise issued, ahead of every request at
the limit. `now`: the partitions' cycles. -/
def execRefreshDue (ch : Chan) (rank : Fin 16) (now : List Nat) (s : State) : Out :=
  let c := ch.val
  let limit := if s.on (F.DDRC_CTRL_fgr c) then 8 else 4
  let n := s.postponedOf c rank
  if s.cstate c ≠ 4 then .next s
  else if limit ≤ n then .next ((s.bump (F.DDRC_REFSTAT_high c) 1).closeRank c rank)
  else if s.steered c rank now then .next (s.setPostponed c (mset (fun _ => 0) (s.chan c).postponed rank.val (n + 1)))
  else .next (s.closeRank c rank)

/-- REFRESH_MAKEUP (R216): a burst makes up n postponed refreshes, while no request for the rank is urgent. -/
def execRefreshMakeup (ch : Chan) (rank : Fin 16) (n : Nat) (now : List Nat) (s : State) : Out :=
  let c := ch.val
  let k := s.postponedOf c rank
  if s.cstate c ≠ 4 ∨ k = 0 ∨ n = 0 ∨ s.steered c rank now = true then .next s
  else .next (((s.setPostponed c (mset (fun _ => 0) (s.chan c).postponed rank.val (k - n))).bump (F.DDRC_REFSTAT_low c) 1).closeRank c rank)

/-- POWER_DOWN_ENTRY (R217). -/
def execPowerDownEntry (ch : Chan) (rank : Fin 16) (s : State) : Out :=
  let c := ch.val
  if s.get (F.DDRC_PD_idle c) = 0 ∨ s.cstate c ≠ 4 then .next s
  else
    let x := s.chan c
    .next (s.setChan c { x with powerDown := mset (fun _ => false) x.powerDown rank.val true })

/-- MR4_RATE_REPORT (R215, R222). -/
def execMr4RateReport (ch : Chan) (rank : Fin 16) (doubled : Bool) (s : State) : Out :=
  let c := ch.val
  let x := s.chan c
  let m := mset (fun _ => false) x.doubled rank.val doubled
  .next ((s.setChan c { x with doubled := m }).put (F.DDRC_TEMP_rate c) (if m.isEmpty then 1 else 2))

/-! ## Requests -/

/-- INTERLEAVED_ADMISSION (R152): at its admission cycle. A channel in fault admits nothing (R221). -/
def execInterleavedAdmission (ch : Chan) (s : State) : Out :=
  let x := s.chan ch
  if s.cstate ch = 6 then .next s
  else match nextWaiting x.waiting with
  | some r => .next ((s.setChan ch { x with waiting := x.waiting.erase r }).dramAdmit ch r (s.cyclesWith (hctx r.pk.hdr) r.admitAt))
  | none => .next s

/-- Admit what still waits of a partition, in order. -/
def State.drainChan (s : State) (c p : Nat) : Nat → State
  | 0 => s
  | fuel + 1 =>
    let x := s.chan c
    match nextWaiting (x.waiting.filter (fun r => hctx r.pk.hdr == p)) with
    | some r => ((s.setChan c { x with waiting := x.waiting.erase r }).dramAdmit c r (s.cyclesWith p r.admitAt)).drainChan c p fuel
    | none => s

/-- HALT_DRAIN_END (R152): by 64 step-clock cycles after the halt every request issued before it has been admitted. -/
def execHaltDrainEnd (p : Part) (s : State) : Out :=
  let s := s.each ((List.range 16).filter (fun c => s.cstate c != 6)) (fun s c => s.drainChan c p (s.chan c).waiting.length)
  .next (s.modPart p (fun x => { x with draining := false }))

/-- RUNAHEAD_EXPIRE (R154). -/
def execRunaheadExpire (ch : Chan) (m : Mill) (f : Fin 2) (line : Nat) (s : State) : Out :=
  let x := s.chan ch
  match x.ahead.find? (fun r => r.port == 2 * m.val + f.val && r.line == line) with
  | some r =>
    let reads := x.reads.filter (fun q => !(hpf q.pk.hdr && hinit q.pk.hdr == r.port && haddr q.pk.hdr / 64 == r.line))
    .next ((s.setChan ch { x with ahead := x.ahead.erase r, reads := reads }).bump F.MPORT_PFDISC_count 1)
  | none => .next s

/-- What the decoders saw on one line of a read (R219): a corrected error is counted, an uncorrectable one marks the line. -/
def State.takeLine (s : State) (c line : Nat) (ecc : WordEcc) : State :=
  match ecc with
  | .corrected => s.dramCe c (64 * line)
  | .uncorrectable => s.setLineBad c line true
  | .clean => s

/-- A read that departs after its deadline is counted (R214). -/
def State.countLate (s : State) (c : Nat) (r : DramReq) (cycle : Nat) : State :=
  match s.deadline r with
  | some d =>
    if d < cycle then (s.bump (F.DDRC_LATE_high c) 1).put (F.DDRC_LATE_low c) (min 65535 (max (s.get (F.DDRC_LATE_low c)) (cycle - d))) else s
  | none => s

/-- A prefetch has been read (R154, R219): one that meets an uncorrectable error is discarded with its entry, and a read that waits for it
reads its line itself. The reads that wait for a good one are answered. -/
def State.fetched (s : State) (c : Nat) (r : DramReq) : State :=
  let h := r.pk.hdr
  let line := haddr h / 64
  let x := s.chan c
  let mine (q : DramReq) : Bool := q.ahead && hinit q.pk.hdr == hinit h && haddr q.pk.hdr / 64 == line
  if s.lineBad c line then
    let s := s.setChan c { x with
      ahead := x.ahead.filter (fun e => !(e.port == hinit h && e.line == line)),
      reads := x.reads.map (fun q => if mine q then { q with ahead := false } else q) }
    s.dramUe c (64 * line) 2 (hinit h) 0xFF
  else
    let s := s.setChan c { x with reads := x.reads.filter (fun q => !mine q) }
    s.each (x.reads.filter mine) (fun s q => s.answer q.pk.hdr 0 (bytesUnits (hlen q.pk.hdr) q.data))

/-- The response of a read (R219): data with status ECC where a line is uncorrectable (R457). -/
def State.readDone (s : State) (c : Nat) (r : DramReq) : State :=
  let h := r.pk.hdr
  let id := hinit h
  match (linesOf (haddr h) (16 * hlen h)).find? (fun l => s.lineBad c l) with
  | some l =>
    (s.dramUe c (64 * l) (if id < 0x200 then 1 else 2) id (if id < 0x200 then hctx h else 0xFF)).answer h 2 (bytesUnits (hlen h) r.data)
  | none => s.answer h 0 (bytesUnits (hlen h) r.data)

/-- Banks whose rows have been closed for want of an access, which an idle of 255 never does (R214). -/
def State.closeIdle (s : State) (c : Nat) (closed : List Nat) : State :=
  if s.get (F.DDRC_PAGE_idle c) % 256 = 255 then s
  else s.setChan c { s.chan c with rows := mdrop (fun k => closed.contains k) (s.chan c).rows }

/-- DRAM_READ_COMPLETE (R214, R219): the read that the subchannel serves next departs. `now`: the partitions' cycles; `closed`: banks whose
rows have been closed since the last command; `ecc`: what the read's `line`-th
line showed. In self-refresh and in fault nothing is served (R217, R221). -/
def execDramReadComplete (ch : Chan) (sub : Fin 2) (line : Nat) (ecc : WordEcc) (now closed : List Nat) (s : State) : Out :=
  let c := ch.val
  if s.cstate c ≠ 4 then .next s
  else
    let s := s.closeIdle c closed
    match s.nextRead c sub now with
    | none => .next s
    | some r =>
      let h := r.pk.hdr
      let x := s.chan c
      let s := (s.setChan c { x with reads := x.reads.erase r }).countLate c r (now.getD (hctx h) (s.cycleNow (hctx h)))
      let s := (s.openRow c (haddr h)).takeLine c (haddr h / 64 + line) ecc
      .next ((if hpf h then s.fetched c r else s.readDone c r).drainWrites c now)

/-- PATROL_SCRUB (R220): a period of 0 stops it. -/
def execPatrolScrub (ch : Chan) (line : Nat) (ecc : WordEcc) (s : State) : Out :=
  let c := ch.val
  let size := s.chanSize c
  if s.get (F.DDRC_SCRUB_period c) = 0 ∨ s.get (F.DDRC_STATUS_state c) ≠ 4 ∨ size ≤ 64 * line then .next s
  else
    let s := s.put (F.DDRC_SCRUB_progress c) (64 * line * 65536 / size)
    let s := s.takeLine c line ecc
    if s.lineBad c line then .next (s.dramUe c (64 * line) 3 0 0xFF) else .next s

/-- ALERT_N (R221): `replayed` commands; `failed`: three replays of one command have failed. -/
def execAlertN (ch : Chan) (replayed : Nat) (failed : Bool) (s : State) : Out :=
  let c := ch.val
  let s := (s.bump (F.DDRC_ALERT_high c) 1).bump (F.DDRC_ALERT_low c) replayed
  if failed then .next (((s.put (F.DDRC_STATUS_state c) 6).raise 0x300B 0xFF [c, (s.reg (R.DDRC_ALERT c)).toNat]).settleMis) else .next s

/-- The hottest module sensor of channel c reads t °C (R221): DRAM_HOT is raised once, until it has fallen 5 °C below the limit. -/
def State.dimmTemp (s : State) (c t : Nat) : State :=
  let limit := s.get (F.DDRC_TEMP_limit c)
  let s := s.put (F.DDRC_TEMP_hottest c) (min t 255)
  let x := s.chan c
  if limit ≠ 0 ∧ limit < t ∧ x.hot = false then (s.setChan c { x with hot := true }).raise 0x300C 0xFF [c, t]
  else if t + 5 ≤ limit then s.setChan c { x with hot := false }
  else s

/-- DDRC_CE_CLEAR (R222). -/
def execDdrcCeClear (ch : Chan) (s : State) : Out :=
  let c := ch.val
  let s := s.put (F.DDRC_CE_ce_count c) 0
  .next (s.each [R.DDRC_REFSTAT c, R.DDRC_LATE c, R.DDRC_ALERT c] (fun s a => s.setReg a 0))

end Sys2Proof.Machine
end

