-- ==== Sys2Proof/Machine/Clk.lean ====
section
/-!
DEFINITION. Machine/Clk.lean: pace, VCORE, the DDR clock and the clock monitors (R61 to R64, R397 to R400, R412, R434).
-/
namespace Sys2Proof.Machine

open Sys2Proof

/-- VCORE target of a pace in mV (GLB_VTARGET, R434, R453). -/
def State.vcoreOf (s : State) (pace : Nat) : Nat :=
  700 + (match pace with | 0 => s.get F.GLB_VTARGET_thrift | 1 => s.get F.GLB_VTARGET_standard | _ => s.get F.GLB_VTARGET_overdrive)

/-- Command VCORE (R434). -/
def State.setVcore (s : State) (mv : Nat) : State := { s with gov := { s.gov with vcore := mv, vcoreRamp := true } }

/-- Mask of the partitions that satisfy f. -/
def partMask (f : Nat → Bool) : Nat := (List.range 4).foldl (fun a p => if f p then a + 2 ^ p else a) 0

/-- The step clocks stop and the divider switches (R63, R400). -/
def State.switchPace (s : State) (p : Nat) : State :=
  { s with clk := { s.clk with paceWait := none, paceTo := some p } }.put F.CLK_STATUS_switching 1

/-- PACE_CHANGE (R63, R434): a write of CLK_PACE. A faster pace waits for VCORE before the step clocks stop. -/
def execPaceChange (pace : BitVec 2) (s : State) : Out :=
  let v := pace.toNat
  if v = 3 ∨ v = s.pace ∨ s.clk.paceWait.isSome ∨ s.clk.paceTo.isSome then .next s
  else
    let busy := partMask (fun p => s.pstate p != stEmpty && s.pstate p != stHalted)
    let bad := partMask (fun p => s.pstate p != stEmpty && !s.bit (F.PART_PROFILE_paces p) v)
    if busy ≠ 0 then .next (s.raise 0x2002 0xFF [v, 1, busy])
    else if s.loaderBusy then .next (s.raise 0x2002 0xFF [v, 2])
    else if bad ≠ 0 then .next (s.raise 0x2002 0xFF [v, 3, bad])
    else
      let s := s.put F.CLK_PACE_pace v
      if s.pace < v then .next ({ s with clk := { s.clk with paceWait := some v } }.setVcore (s.vcoreOf v))
      else .next (s.switchPace v)

/-- PACE_SWITCH_DONE (R63, R400): the step clocks restart. Every rail goes to its ceiling (R232), a multi-module partition
measures again (R195), the spokes compare the paces again (R184), and a slower pace lowers VCORE now (R434). The switch waits for an admission drain (R152). -/
def execPaceSwitchDone (us : BitVec 16) (s : State) : Out :=
  match s.clk.paceTo with
  | none => .next s
  | some v =>
    if (List.range 4).any (fun p => (s.part p).draining) then .next s
    else
      let old := s.pace
      let s := { s with clk := { s.clk with paceTo := none } }
      let s := ((s.put F.CLK_STATUS_switching 0).put F.CLK_STATUS_pace v).put F.CLK_PACETIME_us us.toNat
      let s := s.each (List.range 4) (fun s p => s.modPart p (fun x => { x with remeasure := true }))
      let s := s.each ((List.range 4).filter (fun q => s.quadEnabled q)) (fun s q => s.railToCeiling q)
      let s := s.agreeAll
      .next (if v < old then s.setVcore (s.vcoreOf v) else s)

/-- REGULATOR_TARGET_REACHED (R230, R232, R234, R434): the regulator of a rail, 0 VCORE, 1 to 4 VFLUME0 to VFLUME3, reports its
target. The window of a flume rail begins. -/
def execRegulatorTargetReached (rail : Fin 5) (s : State) : Out :=
  if rail.val = 0 then
    let s := { s with gov := { s.gov with vcoreRamp := false } }
    match s.clk.paceWait with
    | some v => .next (s.switchPace v)
    | none => .next s
  else
    let q := rail.val - 1
    if s.gov.ramp.testBit q then
      let s := { s with gov := { s.gov with ramp := s.gov.ramp - 2 ^ q, win := mdrop (fun k => k / 8192 == q) s.gov.win } }
      .next (((s.put (F.GOV_VFLUME_actual q) (s.get (F.GOV_VFLUME_target q))).flag F.GOV_STATUS_ramping (s.gov.ramp != 0)).settleFreeze)
    else .next s

/-- REGULATOR_TIMEOUT (R434): VCORE has not reached its target within 1 ms. -/
def execRegulatorTimeout (mv : BitVec 16) (s : State) : Out :=
  if s.gov.vcoreRamp then
    let s := { s with clk := { s.clk with paceWait := none } }
    .next ((s.put F.CLK_PACE_pace s.pace).raise 0x8002 0xFF [0, mv.toNat, s.gov.vcore])
  else .next s

/-- CLK_DDR_WRITE (R400): accepted only while every channel is disabled and none trains. -/
def execClkDdrWrite (speed : Bool) (s : State) : Out :=
  if (List.range 16).any (fun c => s.on (F.DDRC_CTRL_en c) || s.get (F.DDRC_STATUS_state c) == 3) then .next (s.put F.CLK_STATUS_refused 1)
  else
    let s := (s.flag F.CLK_DDR_speed speed).put F.CLK_STATUS_ddr_lock 0
    .next (s.each ((List.range 16).filter (fun c => s.get (F.DDRC_STATUS_state c) == 4 || s.get (F.DDRC_STATUS_state c) == 5))
      (fun s c => s.put (F.DDRC_STATUS_state c) 2))

/-- DDR_PHY_RELOCK (R400, R204): the clock locks at the speed written; at DDR5-4800 unless every module allows DDR5-6400. -/
def execDdrPhyRelock (s : State) : Out :=
  .next ((s.put F.CLK_STATUS_ddr_lock 1).flag F.CLK_STATUS_ddr_speed (s.on F.CLK_DDR_speed && s.allFast))

/-- Expected frequency of a monitored clock in 0.1 MHz (R397, R258, R265, R412). -/
def State.expectedFreq (s : State) (m : Nat) : Nat :=
  if m = 0 then 96000
  else if m ≤ 4 then (match s.pace with | 0 => 8000 | 1 => 9600 | _ => 12000)
  else if m = 5 then 8000
  else if m ≤ 21 then (if s.on F.CLK_STATUS_ddr_speed then 32000 else 24000)
  else if m = 22 then 1000 else 2000

/-- CLOCK_MONITOR_SAMPLE (R399, R412): monitors 0 to 23 in 0.1 MHz, 24 the REFCLK average in kHz. -/
def execClockMonitorSample (mon : Fin 25) (freq : BitVec 20) (s : State) : Out :=
  let f := freq.toNat
  let m := mon.val
  if m = 24 then
    let s := s.put F.CLK_REFMON_khz f
    if s.on F.CLK_CTRL_mon_en && (decide (f < 99400) || decide (100030 < f)) then .next (s.raise 0x8003 0xFF [24, f]) else .next s
  else
    let s := s.put (F.CLK_MON_freq m) f
    let e := s.expectedFreq m
    let out := decide (100 * f < 99 * e) || decide (101 * e < 100 * f)
    let stopped := decide (1 ≤ m) && decide (m ≤ 4) && s.on F.CLK_STATUS_switching
    if s.on F.CLK_CTRL_mon_en && out && !stopped && !s.on (F.CLK_MON_fault m) then
      .next (((s.put (F.CLK_MON_fault m) 1).setBit F.CLK_STATUS_mon_fault m true).raise 0x8003 0xFF [m, (s.reg (R.CLK_MON m)).toNat % 2 ^ 20])
    else .next s

end Sys2Proof.Machine
end

