-- ==== Sys2Proof/Machine/MillPort.lean ====
section
/-!
DEFINITION. Machine/MillPort.lean: accesses to mill memory through the back door, dport 3 (R141, R142, R340, R341).
-/
namespace Sys2Proof.Machine

open Sys2Proof

/-- The step a back-door access of mill m is served at: that of the turn in progress. -/
def State.doorStep (s : State) (m : Nat) : Nat :=
  match s.millOwner m with
  | some p => if s.running p then (s.part p).step else 4095
  | none => 4095

/-- The errors the decoders see on rows from `row` on: words numbered from that row's first. -/
def State.doorEcc (s : State) (m row : Nat) (e : RowEcc) : State :=
  let s := s.bump F.MPORT_STATUS_mm_ce_count e.ce
  s.each e.ue (fun s k => if row + k / 8 < 16384 then s.setMmMark (mmWordKey m (row + k / 8) (k % 8)) (mmFound (s.doorStep m)) else s)

/-- The entry a byte of mill memory belongs to: its index, and its bits [63:0] (DESIGN CHOICE, log entry 41). The first valid
descriptor whose rows hold the byte gives it; 0 when none does. -/
def State.doorEntry (s : State) (m a n : Nat) : Nat × Nat :=
  let row := a / 64
  let bit := a % 64 * 8
  match (List.range 16).find? (fun d => let x := s.desc m d; x.valid && decide (x.base ≤ row) && decide (row < x.base + x.rows)) with
  | some d =>
    let x := s.desc m d
    let e := 512 / x.width
    let j := min (bit / x.width) (e - 1)
    ((row - x.base) * e + j, (getBits (s.mmRow m row n) (j * x.width) (min 64 x.width)).toNat)
  | none => (0, 0)

/-- A back-door access is offered to the watch units of the mill's owner (R341). -/
def State.doorWatch (s : State) (m a : Nat) (write : Bool) (ctx : Nat) : State :=
  match s.millOwner m with
  | some p =>
    let (i, v) := s.doorEntry m a (s.doorStep m)
    s.watch p ⟨false, m, write, i, v, ctx, (s.part p).step, true⟩
  | none => s

/-- Read n bytes at byte address a of mill memory: status, bytes (R142, R95). -/
def State.doorRead (s : State) (m a n ctx : Nat) (e : RowEcc) : Nat × List Byte × State :=
  if 2 ^ 20 < a + n then (5, [], s)
  else
    let step := s.doorStep m
    let s := s.doorEcc m (a / 64) e
    let byte (i : Nat) : Byte := (s.mmRow m ((a + i) / 64) step).extractLsb' ((a + i) % 64 * 8) 8
    let bad := (List.range n).any (fun i => s.mmBad m ((a + i) / 64) ((a + i) % 64 / 8) step)
    (if bad then 2 else 0, (List.range n).map byte, s.doorWatch m a false ctx)

/-- Write bytes at byte address a of mill memory: status (R142). They join the writes of the turn, or enter the memory. -/
def State.doorWrite (s : State) (m a : Nat) (bs : List Byte) (ctx : Nat) (e : RowEcc) : Nat × State :=
  if 2 ^ 20 < a + bs.length then (5, s)
  else
    let step := s.doorStep m
    let s := s.doorEcc m (a / 64) e
    let put (s : State) (row lsb : Nat) (l : List Byte) : State :=
      if l.isEmpty then s
      else
        let w : MmWrite := ⟨m, row, lsb, 8 * l.length, step, BitVec.ofNat 512 (leNat l)⟩
        if step = 4095 then s.mmCommit w
        else (s.mmWrite w).each ((List.range 8).filter w.covers) (fun s j => s.setMmMark (mmWordKey m row j) 0)
    let first := 64 - a % 64
    let s := put s (a / 64) (a % 64 * 8) (bs.take first)
    let s := s.each (List.range ((bs.length - first + 63) / 64)) (fun s i => put s (a / 64 + 1 + i) 0 ((bs.drop (first + 64 * i)).take 64))
    (0, s.doorWatch m a true ctx)

end Sys2Proof.Machine
end

