-- ==== Sys2Proof/Machine/PowOps.lean ====
section
/-!
DEFINITION. Machine/PowOps.lean: power domains: kinds, holds and caps (R401 to R403).
-/
namespace Sys2Proof.Machine

open Sys2Proof

/-- Commanded level of supply monitor m in mV (R409, R415, R433, R434): VCORE, the governor's VFLUME targets, the fixed rails, and the
declared VIO; 0 until the board has powered the rails (R411). -/
def State.vmonTarget (s : State) (m : Nat) : Nat :=
  if s.get F.RST_SEQ_stage = 0 then 0
  else if m < 4 then s.gov.vcore
  else if m < 8 then s.get (F.GOV_VFLUME_target (m - 4))
  else match m with
    | 8 => 750
    | 9 => 1100
    | 15 => 850
    | m => voltOf (s.get (F.TIO_BANK_volt (m - 10)))

/-- The tolerance of monitor m is checked (R409, R415, R425): with SENS_VTOL at 0 none is; a VIO only while its bank is enabled. -/
def State.vmonChecked (s : State) (m : Nat) : Bool :=
  s.get F.SENS_VTOL_permille != 0 && s.vmonTarget m != 0 && (m < 10 || 14 < m || s.on (F.TIO_BANK_en (m - 10)))

/-- A domain's kind takes the state (R402). -/
def takesState (u st : Nat) : Bool :=
  if u < 40 then decide (st ≤ 5)
  else if u < 44 then st == 0 || st == 1 || st == 2 || st == 5
  else if u = 44 then decide (st ≤ 1)
  else st == 0

/-- The owner of a mill-row or flume domain. -/
def State.domOwner (s : State) (u : Nat) : Option Nat :=
  if u < 32 then s.quadOwner (u / 8) else if u < 36 then s.quadOwner (u - 32) else none

/-- Far ports of partition p bound to a channel of group g. -/
def State.bindsGroup (s : State) (p g : Nat) : Bool :=
  ((List.range 4).filter (fun q => s.ownsQuad p q)).any (fun q => (List.range 128).any (fun j =>
    let id := q * 128 + j
    let first := s.get (F.MPORT_BIND_channel.sel id)
    let n := if s.on (F.MPORT_BIND_mode.sel id) then (match s.get (F.MPORT_BIND_group.sel id) with | 0 => 1 | 1 => 4 | 2 => 8 | _ => 16) else 1
    s.get (F.MPORT_BIND_kind.sel id) == 1 && decide (first < 4 * g + 4) && decide (4 * g < first + n)))

/-- Something uses a channel of DDR group g (R403): training, a staging area, a COPY, a capture or trace ring, BAR4. -/
def State.groupUsed (s : State) (g : Nat) : Bool :=
  let mine (c : Nat) : Bool := c / 4 == g
  (List.range 4).any (fun i => s.get (F.DDRC_STATUS_state (4 * g + i)) == 3) ||
  s.loader.locks.any (fun l => mine l.chan) ||
  (List.range 4).any (fun r => match (s.ring r).running with
    | some (_, d) => (dOp d == 1 || dOp d == 2) && mine (dDaddr d / 2 ^ 40 % 16)
    | none => false) ||
  (List.range 4).any (fun p => s.on (F.ACQ_P_CTRL_en p) && mine ((s.reg (R.ACQ_P_RING p)).toNat / 2 ^ 28)) ||
  (s.on F.TRC_CTRL_en && mine s.trcRing.1) ||
  (s.on F.PCIE_BAR4CTL_en && (let t := s.get F.PCIE_BAR4CTL_target
    let n := if s.on F.PCIE_BAR4CTL_interleaved then (match s.get F.PCIE_BAR4CTL_group with | 0 => 1 | 1 => 4 | 2 => 8 | _ => 16) else 1
    decide (t < 4 * g + 4) && decide (4 * g < t + n)))

/-- A partition that runs, loads, has a command at the loader (R248), or has a start pending. -/
def State.partBusy (s : State) (p : Nat) : Bool :=
  s.running p || s.pstate p == stLoading || (match s.loader.active with | some j => j.part == p | none => false) ||
  s.loader.queue.any (fun j => j.part == p) || (s.part p).startPend || (s.part p).syncStart

/-- The domain is held in Run (R403). `l0`: the PCIe link is up and in L0. -/
def State.domHeld (s : State) (u : Nat) (l0 : Bool) : Bool :=
  if u < 32 then (match s.domOwner u with | some p => s.partBusy p | none => false)
  else if u < 36 then
    let q := u - 32
    s.bit F.FLM_QUIESCE_request q ||
    (match s.domOwner u with
     | some p => s.partBusy p || (s.pstate p != stEmpty &&
        (s.flume.regions.any (fun e => s.ownsQuad p (e.1 / 512) && e.2.used && !e.2.launched) ||
         s.flume.pins.any (fun e => e.2.used && s.ownsQuad p (e.2.region / 512))))
     | none => false)
  else if u < 40 then s.groupUsed (u - 36) || (List.range 4).any (fun p => (s.running p || (s.part p).startPend) && s.bindsGroup p (u - 36))
  else if u < 44 then (List.range 4).any (fun i => s.on (F.SPK_CTRL_en (4 * (u - 40) + i)))
  else if u = 44 then l0
  else true

/-- The deepest state the manager may choose while the domain is not held (R403). -/
def State.domCap (s : State) (u : Nat) : Nat :=
  if u < 36 then
    match s.domOwner u with
    | none => 5
    | some p => if s.pstate p = stEmpty then 5 else if 32 ≤ u ∨ s.multi p then 2 else 3
  else if u < 40 then 3 else if u < 44 then 5 else 1

/-- The domains a start of partition p waits for (R406): its rows and flumes, and the DRAM groups its far ports use. -/
def State.startReady (s : State) (p : Nat) : Bool :=
  ((List.range 4).filter (fun q => s.ownsQuad p q)).all (fun q =>
    (List.range 8).all (fun r => s.dstate (8 * q + r) == 0) && s.dstate (32 + q) == 0) &&
  (List.range 4).all (fun g => !s.bindsGroup p g || s.dstate (36 + g) == 0)

end Sys2Proof.Machine
end

