-- ==== Sys2Proof/Machine/RunOps.lean ====
section
/-!
DEFINITION. Machine/RunOps.lean: requests to run and halt a partition, its start, and its halt (R22, R333 to R338, R459).
-/
namespace Sys2Proof.Machine

open Sys2Proof

/-! ## Requests (R333) -/

/-- Requests as the event RUN_STATE names them (R458). -/
abbrev reqRun : Nat := 1
abbrev reqStep : Nat := 2
abbrev reqHalt : Nat := 3

/-- Why a run request is refused, none when it is accepted: 0 state, 1 loader, 2 start pending, 3 context lost. -/
def State.runRefusal (s : State) (p : Nat) : Option Nat :=
  let x := s.part p
  if !(s.pstate p == stHalted || (s.pstate p == stLoaded && x.released)) then some 0
  else if s.loaderHas p then some 1
  else if x.startPend then some 2
  else if x.contextLost then some 3
  else none

/-- This module leads the partition (R195). -/
def State.leads (s : State) (p : Nat) : Bool := s.get (F.PART_LINK_module_index p) == 0

/-- An accepted RUN or STEP (R334 to R336): the count is armed; a single-module partition, or the lead's, has a start pending. The count
armed, where the command completes at once. -/
def State.runRequest (s : State) (p n : Nat) (w : Option Waiter) : State :=
  let s := s.modPart p (fun x => { x with armed := some n, dbgReq := 0 })
  if s.multi p && !s.leads p then s.finishW w 0 n
  else
    let s := s.modPart p (fun x => { x with startPend := true, waiters := x.waiters ++ w.toList })
    if s.multi p then { s with lines := { s.lines with syncPulse := true } } else s.railsToRun p

/-- An accepted HALT of a running partition (R337): it halts at the end of the turn, or by a request pulse. -/
def State.haltRequest (s : State) (p : Nat) (w : Option Waiter) : State :=
  let s := (s.haltCause p 1).modPart p (fun x => { x with waiters := x.waiters ++ w.toList })
  if s.multi p then s.haltPulse else s

/-! ## Starting -/

/-- Waiters of partition p that pick `f` end. -/
def State.endWaiters (s : State) (p : Nat) (f : Waiter → Bool) (status result : Nat) : State :=
  let gone := (s.part p).waiters.filter f
  let s := s.modPart p (fun x => { x with waiters := x.waiters.filter (fun w => !f w) })
  s.each gone (fun s w => s.finish w.ring w.serial status result)

/-- The partition becomes RUNNING (R195, R334, R336, R387): a turn 0 clears its counters and anchors TB1; a mark that waited applies to
the turn that begins (R459); the armed count enters DBG_RUNLEFT, 0 when there is none. -/
def State.startRun (s : State) (p : Nat) : State :=
  let x := s.part p
  let s := (s.put (F.PART_STATE_state p) stRunning).put (F.PART_STATE_halt_reason p) 0
  let s := s.put64 (R.DBG_RUNLEFT_LO p) (R.DBG_RUNLEFT_HI p) (x.armed.getD 0)
  let s := if x.turn0 then
      (((s.zeroCounters p).put (F.TURN_STATUS_last_valid p) 0).put (F.TB1_STATUS_first_invalid p) 0).put (F.TB1_STATUS_anchored p) 1
    else s
  let s := s.modPart p (fun x => { x with
    armed := none, startPend := false, syncStart := false, measure := false, remeasure := false, spokeFault := false, haltActed := false, haltNext := false,
    draining := false, causes := 0, causeTurn := 0, invalid := false, invalidToHalt := false,
    sinceZero := if x.turn0 then 0 else x.sinceZero, invalidToTurn0 := x.invalidToTurn0 && !x.turn0, anyInvalid := x.anyInvalid && !x.turn0, pendInvalid := false, pendSticky := false })
  let s := if x.pendInvalid then s.faultTurn p x.pendSticky else s
  let s := s.railsRun p
  s.endWaiters p (fun w => w.op == 0x20) 0 (s.turns p)

/-! ## Halting -/

/-- Highest halt reason of a mask. -/
def topReason (m : Nat) : Nat := ((List.range 16).filter (fun r => m.testBit r)).foldl max 0

/-- The partition stops at this turn end (R22, R338): recorded and raised; its rails go to their floor. -/
def State.haltNow (s : State) (p : Nat) : State :=
  let x := s.part p
  let reason := topReason x.causes
  let s := (s.put (F.PART_STATE_state p) stHalted).put (F.PART_STATE_halt_reason p) reason
  let s := (s.put (F.DBG_HALTCAUSE_turn p) x.causeTurn).put (F.DBG_HALTCAUSE_causes p) (x.causes / 2)
  let s := if x.spokeFault then s.framesFrom p x.turnBase else s
  let s := s.modPart p (fun x => { x with draining := true, haltActed := false, haltNext := false, spokeFault := false, causes := 0 })
  let s := s.raise 0x2004 p [reason, (s.reg (R.DBG_HALTCAUSE p)).toNat, s.get (F.TURN_COUNT_LO_value p), s.get (F.TURN_COUNT_HI_value p)]
  (s.railsToFloor p).endWaiters p (fun w => w.op == 0x21 || w.op == 0x22) 0 0

/-! ## The end of a turn (R22) -/

/-- The words spokes have received move on by one turn (R187). -/
def shiftRx (mine : Nat → Bool) (m : SMap Unit128) : SMap Unit128 :=
  m.foldl (fun acc e =>
    let sp := e.1 / 16384
    let slot := e.1 / 2 % 8192
    let ch := e.1 % 2
    if !mine sp then mset (fun _ => 0) acc e.1 e.2
    else if slot < 2048 then mset (fun _ => 0) acc ((sp * 8192 + slot + 2048) * 2 + ch) e.2
    else if slot < 4096 then acc
    else mset (fun _ => 0) acc ((sp * 8192 + slot - 4096) * 2 + ch) e.2) []

/-- Action 1: the writes of the turn stand, and the shadow bank is the committed one (R14, R29, R139). -/
def State.closeBanks (s : State) (p : Nat) : State :=
  let mine (m : Nat) : Bool := s.ownsQuad p (m / 64)
  let s := (s.mergeWrites (fun site => mine (site / 16))).mmMerge mine
  let s := { s with dm := { s.dm with results := s.dm.results.filter (fun r => !mine r.mill) } }
  let s := { s with spokeRx := shiftRx (fun sp => s.bit (F.PART_LINK_spoke_mask p) sp) s.spokeRx }
  s.modPart p (fun x => { x with bank := !x.bank })

/-- Action 2: TB1 advances and the counters of the turn are counted (R77, R387). -/
def State.countTurn (s : State) (p : Nat) (valid : Bool) : State :=
  let x := s.part p
  let t := s.turns p
  let s := s.put64 (R.TURN_COUNT_LO p) (R.TURN_COUNT_HI p) ((t + 1) % 2 ^ 64)
  let s := (s.flag (F.TURN_STATUS_last_valid p) valid).flag (F.TB1_STATUS_last_valid p) valid
  let s := if valid then s else
    let s := s.bump (F.TURN_STATUS_invalid_count p) 1
    if x.anyInvalid then s else (s.put (F.TB1_STATUS_first_invalid p) t).modPart p (fun x => { x with anyInvalid := true })
  let s := s.put64 (R.TURN_QUANTA_LO p) (R.TURN_QUANTA_HI p) ((s.get64 (R.TURN_QUANTA_LO p) (R.TURN_QUANTA_HI p) + x.quanta) % 2 ^ 64)
  let s := s.each (List.range 7) (fun s c => s.bump (F.TURN_CAUSE_quanta p c) (mget (fun _ => 0) x.causeQuanta c))
  match x.lastHold with
  | some (step, quanta, causes) =>
    ((s.put (F.TURN_LASTBRAKE_step p) step).put (F.TURN_LASTBRAKE_quanta p) (min quanta 4095)).put (F.TURN_LASTBRAKE_causes p) causes
  | none => s

/-- The records of the turn that has ended give way to those of the next. -/
def State.nextTurn (s : State) (p : Nat) : State :=
  let d := s.depth p
  let s := s.modPart p (fun x =>
    let base := x.turnBase + d + 32 * x.quanta
    { x with
      prevLog := x.holdLog, holdLog := [], prevBase := x.turnBase, turnBase := base,
      votes := (x.votes.filter (·.next)).map (fun v => { v with next := false }),
      rechecks := (x.rechecks.filter (·.next)).map (fun v => { v with next := false }),
      outVotes := x.outVotes.filter (fun v => decide (base ≤ v.raised + 24 + v.hops * x.hdr.hopBudget)),
      seenVotes := x.seenVotes.filter (fun v => decide (x.turnBase ≤ v.raised)),
      haltActed := x.haltNext, haltNext := false, limitSteps := [], hold := 0, served := 0, servedCauses := 0, quanta := 0, causeQuanta := [], lastHold := none,
      invalid := false, invalidToTurn0 := x.invalidToTurn0 || x.invalidFromNext, invalidFromNext := false,
      storeUe := false, breakKey := none, taps := [], turn0 := false, sinceZero := x.sinceZero + 1, step := 0, breakEn := s.bit F.DBG_BREAKEN_en p,
      lossless := s.on (F.PART_MODE_capture_lossless p) })
  if s.on (F.TURN_CTRL_clear p) then s.clearTurns p else s

/-- DBG_RUNLEFT counts down; true when the turns to run are done (R334). -/
def State.countRun (s : State) (p : Nat) : Bool × State :=
  let n := s.get64 (R.DBG_RUNLEFT_LO p) (R.DBG_RUNLEFT_HI p)
  if n = 0 then (false, s) else (n == 1, s.put64 (R.DBG_RUNLEFT_LO p) (R.DBG_RUNLEFT_HI p) (n - 1))

/-- A halt reason that arises at the end of turn t. -/
def State.endCause (s : State) (p r t : Nat) : State :=
  s.modPart p (fun x => { x with causes := x.causes ||| 2 ^ r, causeTurn := if x.causes = 0 then t else x.causeTurn })

/-- Step D − 1 has ended: what becomes known with it (R57, R68). -/
def State.lastStep (s : State) (p : Nat) : State := (s.raiseStoreErr p).votesDue p (fun _ => true)

/-- The turn that ends is valid: nothing has marked it (R459, R133, R197). -/
def PartSt.turnValid (x : PartSt) : Bool := !(x.invalid || x.invalidToHalt || x.invalidToTurn0 || x.invalidToLoad)

/-- The actions of R22, in order. -/
def State.turnEnd (s : State) (p : Nat) : State :=
  let s := s.lastStep p
  let x := s.part p
  let t := s.turns p
  let valid := x.turnValid
  let s := (s.closeBanks p).countTurn p valid
  let (s, capHalt) := s.capTurnEnd p t valid x.taps
  let s := if capHalt then
      let s := s.endCause p 1 t
      if s.multi p then s.haltPulse else s
    else s
  let (done, s) := s.countRun p
  let s := if done then s.endCause p 2 t else s
  let stop := if s.multi p then x.haltActed || done || !x.limitSteps.isEmpty else (s.part p).causes != 0
  let s := s.nextTurn p
  if stop then s.haltNow p else s

end Sys2Proof.Machine
end

