-- ==== Sys2Proof/Machine/SessClose.lean ====
section
/-!
DEFINITION. Machine/SessClose.lean: releasing a halted miller, and the end of a session (R330, R331, R345, R346).
-/
namespace Sys2Proof.Machine

open Sys2Proof

/-- A debugger releases a halted core (R345, R346): it runs on, its watchdog starts again, and its trace has TIME and SYNC (R373). -/
def State.releaseCore (s : State) (k : Nat) : State :=
  let s := s.setMiller k { s.miller k with halted := false }
  let s := s.setSchedCore k { s.schedCore k with expired := false }
  let s := s.setReg (selAddr R.DBG_MSTATUS k) 0
  let s := s.setBit F.DBG_MHALTED_cores k false
  let s := s.trcGo k false
  s.trcRun k (s.miller k).machine (fun s => (s.trcPacket k 12 s.tb0).trcPacket k 0 (s.trcPc k))

/-- A core no longer held by any halt or range of its owner has no owner (R331). -/
def State.dropCoreOwner (s : State) (k : Nat) : State :=
  if (s.miller k).halted || (rangesOf k).any (fun n => s.on (F.DBG_MRCFG_en.sel n)) then s else s.put (coreOwnerFld k) 0

/-- A session closes (R330): its units and ranges are disabled, the millers it halted run on. Reasons as R458 gives them. -/
def State.closeSession (s : State) (port reason : Nat) : State :=
  if s.sessLevel port = 0 then s
  else
    let s := s.setReg (sessReg port) 0
    let s := if s.trace.auth = port then { s.put F.TRC_CTRL_full_auth 0 with trace := { s.trace with auth := 0 } } else s
    let s := s.raise 0x7004 0xFF [port, reason]
    let s := s.each (List.range 4) (fun s p => s.each (List.range 16) (fun s u =>
      if s.watchOwner p u = port then (s.put (F.DBG_WCFG_en.sel (16 * p + u)) 0).setWatchOwner p u 0 else s))
    s.each (cores.filter (fun k => s.coreOwner k == port)) (fun s k =>
      let s := s.each (rangesOf k) (fun s n => s.put (F.DBG_MRCFG_en.sel n) 0)
      let s := if (s.miller k).halted then s.releaseCore k else s
      s.put (coreOwnerFld k) 0)

end Sys2Proof.Machine
end

