-- ==== Sys2Proof/Machine/Session.lean ====
section
/-!
DEFINITION. Machine/Session.lean: opening and closing the sessions of the debug ports (R324 to R330).
-/
namespace Sys2Proof.Machine

open Sys2Proof

/-- The port an access to the AUTH and DBG blocks acts for (R325): shell firmware names it in DBG_CTRL; none for the host and for
handlers, whose accesses do nothing. -/
def State.dbgPort (s : State) (who : Requester) : Option Nat :=
  match who with
  | .shell _ => some (s.get F.DBG_CTRL_port)
  | _ => sessOf who

/-- Run an operation of ports 1 to 3. -/
def State.onPort (s : State) (who : Requester) (f : State → Nat → State) : State :=
  match s.dbgPort who with
  | some port => if port = 0 then s else f s port
  | none => s

/-- Run of failures of a port (R329). -/
def runFld (port : Nat) : Fld := ⟨R.AUTH_FAILCNT, 4 * (port - 1), 4⟩

/-- AUTH_LOCKOUT.left: the longest lockout of a locked port. -/
def State.showLockout (s : State) : State :=
  let left (port : Nat) : Nat := if s.bit F.AUTH_STATUS_locked (port - 1) then (s.authPort port).lock else 0
  s.put F.AUTH_LOCKOUT_left (max (left 1) (max (left 2) (left 3)))

/-- An attempt fails (R328, R329): reason 1 mismatch, 2 expired or absent challenge, 3 no key. -/
def State.authFails (s : State) (port reason : Nat) : State :=
  let s := (s.bump F.AUTH_FAILCNT_total 1).bump (runFld port) 1
  let s := s.raise 0x7001 0xFF [port, reason]
  if s.get (runFld port) < 4 then s
  else
    let x := s.authPort port
    let lock := min 1024 (if x.lock = 0 then max 1 (s.get F.AUTH_LOCKOUT_base) else 2 * x.lock)
    let was := s.bit F.AUTH_STATUS_locked (port - 1)
    let s := ((s.setAuthPort port { x with lock := lock }).setBit F.AUTH_STATUS_locked (port - 1) true).showLockout
    if was then s else s.raise 0x7002 0xFF [port, lock]

/-- Key slots of a level (R327). -/
def levelSlots (level : Nat) : List Nat := if level = 1 then [4, 6] else [5, 7]
def State.key (s : State) (n : Nat) : Option (BitVec 256) := mget (fun _ => none) s.keys.slots n

/-- Four words of the random source. -/
def State.draw (s : State) : BitVec 256 × State :=
  let (a, s) := s.fresh 8
  let (b, s) := s.fresh 8
  let (c, s) := s.fresh 8
  let (d, s) := s.fresh 8
  (d ++ c ++ b ++ a, s)

/-- The pending challenge of a port goes. -/
def State.dropChallenge (s : State) (port : Nat) : State :=
  (s.setAuthPort port { s.authPort port with chal := none, resp := [] }).setBit F.AUTH_STATUS_chal_ready (port - 1) false

/-- AUTH_OPEN (R328, R329): a write of AUTH_CTRL with open = 1. -/
def execAuthOpen (who : Requester) (value : Word) (s : State) : Out :=
  .next (s.onPort who (fun s port =>
    let level := F.AUTH_CTRL_level.of value
    let s := s.put F.AUTH_CTRL_level level
    if level ≠ 1 ∧ level ≠ 2 then s
    else if s.bit F.AUTH_STATUS_locked (port - 1) then s
    else
      let s := s.dropChallenge port
      if (levelSlots level).all (fun n => (s.key n).isNone) then s.authFails port 3
      else
        let (c, s) := s.draw
        (s.setAuthPort port { s.authPort port with chal := some c, level := level, scope := s.get F.AUTH_STATUS_req_scope, resp := [] }).setBit
          F.AUTH_STATUS_chal_ready (port - 1) true))

/-- The message that is authenticated (R328). -/
def authMessage (c : BitVec 256) (port level scope : Nat) : List Byte := natLe 32 c.toNat ++ natLe 1 port ++ natLe 1 level ++ natLe 1 scope ++ [0]

/-- The response written to AUTH_RESP0 to AUTH_RESP7. -/
def AuthPort.response (x : AuthPort) : BitVec 256 :=
  BitVec.ofNat 256 ((List.range 8).foldl (fun a w => a + (mget (fun _ => 0) x.resp w : Word).toNat * 2 ^ (32 * w)) 0)

/-- A write of AUTH_RESPw (R349). -/
def State.writeResp (s : State) (port w : Nat) (value : Word) : State :=
  let x := s.authPort port
  s.setAuthPort port { x with resp := mset (fun _ => 0) x.resp w value }

/-- AUTH_RESPONSE_SUBMIT (R328): the write of AUTH_RESP7. A challenge is good for one response. -/
def execAuthResponseSubmit (who : Requester) (value : Word) (s : State) : Out :=
  .next ((s.onPort who (fun s port =>
    let x := (s.writeResp port 7 value).authPort port
    let s := s.dropChallenge port
    match x.chal with
    | none => s.authFails port 2
    | some c =>
      let ok (n : Nat) : Bool := match s.key n with
        | some k => Config.hmac k (authMessage c port x.level x.scope) == x.response
        | none => false
      match (levelSlots x.level).find? ok with
      | none => s.authFails port 1
      | some n =>
        let s := s.closeSession port 7
        let s := s.setReg (sessReg port) (BitVec.ofNat 32 (x.level * 2 ^ 30 + (if 6 ≤ n then 2 ^ 29 else 0) + x.scope))
        let s := (s.put (runFld port) 0).setAuthPort port { s.authPort port with lock := 0 }
        s.raise 0x7003 0xFF [port, x.level, x.scope])).edgeOrder s)

/-- AUTH_LOCKOUT_END (R329). -/
def execAuthLockoutEnd (port : Fin 3) (s : State) : Out := .next (s.setBit F.AUTH_STATUS_locked port.val false).showLockout

/-- CHALLENGE_EXPIRY (R328). -/
def execChallengeExpiry (port : Fin 3) (s : State) : Out := .next (s.dropChallenge (port.val + 1))

/-- AUTH_CLOSE (R330). `ended`: shell firmware closes port 2 because its management connection has ended. -/
def execAuthClose (who : Requester) (ended : Bool) (s : State) : Out :=
  .next (s.onPort who (fun s port => s.closeSession port (if ended && port == 2 then 6 else 1)))

/-- SESSION_IDLE_TIMEOUT (R330). -/
def execSessionIdleTimeout (port : Fin 3) (s : State) : Out :=
  if s.get F.AUTH_IDLE_seconds = 0 then .next s else .next (s.closeSession (port.val + 1) 2)

/-- TAP_RESET (R330): the boundary-scan register lets go of the pins. -/
def execTapReset (s : State) : Out := .next { s.closeSession 1 3 with pins := { (s.closeSession 1 3).pins with scan := [] } }

end Sys2Proof.Machine
end

