-- ==== Sys2Proof/Machine/SluiceOps.lean ====
section
/-!
DEFINITION. Machine/SluiceOps.lean: sluice items in their banks: admission, drops, pieces, notify (R284 to R290, R314).
-/
namespace Sys2Proof.Machine

open Sys2Proof

def State.sluice (s : State) (k : Nat) : SluiceSt := mget (fun _ => {}) s.sluices k
def State.setSluice (s : State) (k : Nat) (x : SluiceSt) : State := { s with sluices := mset (fun _ => {}) s.sluices k x }
def State.slEn (s : State) (k : Nat) : Bool := s.on (F.SLC_CFG_en.sel k)
def State.slProducer (s : State) (k : Nat) : Nat := s.get (F.SLC_CFG_producer.sel k)
def State.slConsumer (s : State) (k : Nat) : Nat := s.get (F.SLC_CFG_consumer.sel k)

/-- Bytes of one bank (R284). -/
def State.slBank (s : State) (k : Nat) : Nat := 8192 * 2 ^ s.get (F.SLC_SIZE_bank.sel k)

/-- Bytes an item of length l takes in its bank (R284). -/
def itemSpace (l : Nat) : Nat := 64 + 64 * ((l + 63) / 64)

/-- Bytes of a bank in use. -/
def bankUse (l : List SlItem) : Nat := (l.map (fun i => itemSpace i.len)).sum

/-- The consumer may start on an item: it is complete, or has reached the cut-through threshold (R288). -/
def State.slReady (s : State) (k : Nat) (i : SlItem) : Bool :=
  let t := min 64 (s.get (F.SLC_CUT_threshold.sel k))
  i.gap || i.data.length == i.len || (t != 0 && decide (64 * t ≤ i.data.length))

/-- The banks swap when the draining bank is empty and the filling bank holds an item that can be started (R285). -/
def State.slSwap (s : State) (k : Nat) : State :=
  let x := s.sluice k
  if x.drain.isEmpty && x.cur.isNone && x.fill.any (fun i => s.slReady k i) then s.setSluice k { x with drain := x.fill, fill := [] } else s

/-- The sluice holds no item. -/
def State.slEmpty (s : State) (k : Nat) : Bool := let x := s.sluice k; x.fill.isEmpty && x.drain.isEmpty && x.cur.isNone

/-- The item the consumer takes next: highest priority, then order of admission (R285). -/
def bestItem (l : List SlItem) : Option SlItem :=
  l.foldl (fun best i =>
    match best with
    | none => some i
    | some b => if b.prio < i.prio ∨ (i.prio = b.prio ∧ i.order < b.order) then some i else best) none

/-- The consumer's current item is begun if none is (R285). -/
def State.slBegin (s : State) (k : Nat) : State :=
  let s := s.slSwap k
  let x := s.sluice k
  match x.cur with
  | some _ => s
  | none =>
    match bestItem (x.drain.filter (fun i => s.slReady k i)) with
    | none => s
    | some i => s.setSluice k { x with cur := some (i, 0), drain := x.drain.erase i }

/-- Notify the millers (R314): a copy of the sluice's notify item is enqueued; a refused one is owed. -/
def State.notifyTry (s : State) (k : Nat) : State :=
  let off := (s.get F.SCHED_NTBASE_offset * 8192 + 32 * k) % 2 ^ 26
  let i := s.hopItem off
  if !s.on F.SCHED_NTBASE_en || i.delay != 0 || i.w0 == 0 then s
  else
    let (st, _, s) := s.enqueue i none false
    s.setSluice k { s.sluice k with notify := st == 1 }

/-- The sluice has gone from empty to holding an item (R314). -/
def State.slArrived (s : State) (k : Nat) (wasEmpty : Bool) : State :=
  let s := s.slSwap k
  if wasEmpty && s.slConsumer k == 4 then s.notifyTry k else s

/-- Admit an item whose first bytes are `data` (R285 to R287): the order it is given, or none when it is dropped for want of room,
which a gap marker records. -/
def State.slAdmit (s : State) (k prio len : Nat) (data : List Byte) : Option Nat × State :=
  let x := s.sluice k
  let e := s.slEmpty k
  let used := bankUse (x.fill.filter (fun i => !i.gap))
  if used + itemSpace len + 64 ≤ s.slBank k then
    let i : SlItem := { prio := prio, len := len, data := data, tb0 := s.tb0, order := x.next }
    let s := s.setSluice k { x with fill := x.fill ++ [i], next := x.next + 1 }
    (some x.next, (s.bumpWrap (F.SLC_ITEMS_count.sel k) 1).slArrived k e)
  else
    let s := s.bump (F.SLC_DROPS_full.sel k) 1
    if x.fill.any (·.gap) then
      (none, s.setSluice k { x with fill := x.fill.map (fun i => if i.gap then { i with drops := min 65535 (i.drops + 1) } else i) })
    else
      let i : SlItem := { prio := 7, len := 0, gap := true, drops := 1, tb0 := s.tb0, order := x.next }
      (none, (s.setSluice k { x with fill := x.fill ++ [i], next := x.next + 1 }).slArrived k e)

/-- More bytes of an item arrive (R285, R289): they join it where it stands, or are discarded and counted. -/
def State.slMore (s : State) (k order : Nat) (bs : List Byte) : State :=
  let x := s.sluice k
  let add (i : SlItem) : SlItem := if i.order = order ∧ i.gap = false then { i with data := (i.data ++ bs).take i.len } else i
  if x.discard.contains order then s.bump (F.SLC_DROPS_remainder.sel k) ((bs.length + 63) / 64)
  else (s.setSluice k { x with fill := x.fill.map add, drain := x.drain.map add, cur := x.cur.map (fun c => (add c.1, c.2)) }).slSwap k

/-- Drop the rest of the current item (R289): what it still holds is discarded, and what is still to arrive as it arrives. -/
def State.slDrop (s : State) (k : Nat) : State :=
  let x := s.sluice k
  match x.cur with
  | none => s
  | some (i, off) =>
    let s := s.bump (F.SLC_DROPS_remainder.sel k) ((i.data.length - off + 63) / 64)
    let x := { x with cur := none, discard := if i.data.length < i.len then i.order :: x.discard else x.discard }
    (s.setSluice k x).slSwap k

/-- Header of a piece (R290). -/
def slHeader (i : SlItem) (off : Nat) (last : Bool) : Nat :=
  i.drops * 2 ^ 48 + (if i.gap then 2 ^ 36 else 0) + (if last then 2 ^ 35 else 0) + i.prio * 2 ^ 32 + off * 2 ^ 16 + i.len

/-- The header of an empty poll (R290). -/
def slEmptyHeader : Nat := 2 ^ 37

/-- The next piece of n bytes of the current item (R288, R290): its header and its bytes, and the state with the piece taken. None
while its bytes have not arrived. -/
def State.slPiece (s : State) (k n : Nat) : Option (Nat × List Byte × State) :=
  let s := s.slBegin k
  let x := s.sluice k
  match x.cur with
  | none => none
  | some (i, off) =>
    let last := decide (i.len ≤ off + n)
    if !i.gap && decide (i.data.length < min i.len (off + n)) then none
    else
      let bs := (i.data.drop off).take n
      let s := s.setSluice k { x with cur := if last then none else some (i, off + n) }
      some (slHeader i off last, bs, if last then s.slSwap k else s)

/-- A design access the sluice refuses is recorded (R290, R291): the first, until cleared. -/
def State.slErr (s : State) (k p : Nat) : State :=
  if s.on F.SLC_ERR_flag then s else ((s.put F.SLC_ERR_flag 1).put F.SLC_ERR_part p).put F.SLC_ERR_sluice k

end Sys2Proof.Machine
end

