-- ==== Sys2Proof/Machine/Debug.lean ====
section
/-!
DEFINITION. Machine/Debug.lean: operations of the DBG block (R326, R331 to R348).
-/
namespace Sys2Proof.Machine

open Sys2Proof

/-- An operation of the DBG block: its port must have a level, and the scope of what it concerns (R325, R326). -/
def State.onDbg (s : State) (who : Requester) (need : Nat) (part : Option Nat) (off : Nat) (f : State → Nat → State) : State :=
  match s.dbgPort who with
  | some port => s.allowed port need part off (fun s => f s port)
  | none => s

/-! ## Run control (R333, R336, R337, R339) -/

/-- DBG_HALTREQ_HALT. -/
def execDbgHaltreqHalt (who : Requester) (p : Part) (s : State) : Out :=
  .next (s.onDbg who 2 (some p) R.DBG_HALTREQ (fun s _ =>
    if s.running p then s.haltRequest p none
    else if s.pstate p = stHalted then s
    else s.raise 0x2005 p [reqHalt, s.pstate p, 0]))

/-- A run or step bit of DBG_HALTREQ: it reads 1 until the start has taken place or failed (R10). -/
def State.dbgRun (s : State) (who : Requester) (p req n : Nat) : State :=
  s.onDbg who 2 (some p) R.DBG_HALTREQ (fun s _ =>
    match s.runRefusal p with
    | some r => s.raise 0x2005 p [req, s.pstate p, r]
    | none => (s.runRequest p n none).modPart p (fun x => { x with dbgReq := req }))

/-- DBG_HALTREQ_RUN: the count is DBG_RUNLEFT. -/
def execDbgHaltreqRun (who : Requester) (p : Part) (s : State) : Out :=
  .next (s.dbgRun who p reqRun (s.get64 (R.DBG_RUNLEFT_LO p) (R.DBG_RUNLEFT_HI p)))

/-- DBG_HALTREQ_STEP. -/
def execDbgHaltreqStep (who : Requester) (p : Part) (s : State) : Out := .next (s.dbgRun who p reqStep 1)

/-- DBG_BREAKEN_WRITE (R339): every bit that changes needs FULL and its partition in scope. It acts at once unless the partition is
RUNNING. -/
def execDbgBreakenWrite (who : Requester) (value : BitVec 4) (s : State) : Out :=
  .next (s.onDbg who 1 none R.DBG_BREAKEN (fun s _ => s) |> fun s0 =>
    match s.dbgPort who with
    | none => s
    | some port =>
      if s.sessLevel port = 0 then s0
      else s.each ((List.range 4).filter (fun p => value.getLsbD p != s.bit F.DBG_BREAKEN_en p)) (fun s p =>
        s.allowed port 2 (some p) R.DBG_BREAKEN (fun s =>
          let s := s.setBit F.DBG_BREAKEN_en p (value.getLsbD p)
          if s.running p then s else s.modPart p (fun x => { x with breakEn := value.getLsbD p }))))

/-! ## Watch units (R331, R342) -/

/-- The unit DBG_WSEL names: its partition, number and instance. -/
def State.selUnit (s : State) : Nat × Nat × Nat :=
  let p := s.get F.DBG_WSEL_part
  let u := s.get F.DBG_WSEL_unit
  (p, u, watchIdx p u)

/-- A resource with an owner may be written by its owner and by port 0 (R331). -/
def State.ownerOk (s : State) (port owner off : Nat) (part : Option Nat) (f : State → State) : State :=
  if port = 0 ∨ owner = 0 ∨ owner = port then f s else s.denied port part off 3

/-- A write of DBG_WCFG. Enabling needs the level of its action (R326) and takes the unit; disabling releases it. -/
def State.writeWcfg (s : State) (port : Nat) (value : Word) : State :=
  let (p, u, n) := s.selUnit
  s.ownerOk port (s.watchOwner p u) R.DBG_WCFG (some p) (fun s =>
    if F.DBG_WCFG_kind.of value = 3 ∨ (u = 0 ∧ F.DBG_WCFG_link.of value = 1) then s
    else if F.DBG_WCFG_en.of value = 1 then
      s.allowed port (if F.DBG_WCFG_action.of value % 2 = 1 then 2 else 1) (some p) R.DBG_WCFG (fun s =>
        let s := s.setReg (selAddr R.DBG_WCFG n) (value &&& 0xFFFFC1FF#32)
        if port = 0 then s else s.setWatchOwner p u port)
    else (s.setReg (selAddr R.DBG_WCFG n) (value &&& 0xFFFFC1FF#32)).setWatchOwner p u 0)

/-- WATCH_UNIT_ENABLE (R331). -/
def execWatchUnitEnable (who : Requester) (value : Word) (s : State) : Out :=
  .next (match s.dbgPort who with
    | some port => if s.sessLevel port = 0 then s.denied port none R.DBG_WCFG 1 else s.writeWcfg port (F.DBG_WCFG_en.into value 1)
    | none => s)

/-- REARM (R342). -/
def execRearm (who : Requester) (s : State) : Out :=
  let p := s.get F.DBG_WSEL_part
  .next (s.onDbg who 1 (some p) R.DBG_CTRL (fun s _ =>
    let s := s.each (List.range 16) (fun s u => s.put (F.DBG_WCOUNT_count.sel (watchIdx p u)) 0)
    { s with watchFirst := mdrop (fun k => k / 16 == p) s.watchFirst }))

/-! ## Back door (R343) -/

/-- The partition, or the shell, that the access concerns; none when nothing in scope can be (R343). -/
def State.doorScope (s : State) (port kind target a : Nat) : Bool :=
  let sc := s.sessScope port
  match kind with
  | 0 => let o := s.sliceOwner (target % 16) (a / 2 ^ 34); if o = 0 then sc.testBit 4 else decide (o ≤ 4) && sc.testBit (o - 1)
  | 1 => match s.millOwner target with
    | some p => sc.testBit p
    | none => false
  | _ => let side (v : Nat) : Bool := decide (v < 4) && sc.testBit v
    side (s.slProducer target) || side (s.slConsumer target)

/-- The head item of a draining bank, as a peek finds it. -/
def State.slHead (s : State) (k : Nat) : Option SlItem :=
  let x := s.sluice k
  match x.cur with
  | some (i, _) => some i
  | none => bestItem x.drain

/-- The access itself: status and the 16 bytes read. A mill of the disabled quadrant has no target (R96); an isolated one answers
TARGET_DEAD (R95, R102); one in Idle, Nap or Doze wakes for the access, which waits for it (R406; log entry 53). -/
def State.doorAccess (s : State) (write : Bool) (kind target a : Nat) (data : List Byte) (e : RowEcc) : Nat × List Byte × State :=
  match kind with
  | 0 =>
    if write then let (st, s) := s.busWrite 0x225 6 (target % 16) a data e; (st, [], s)
    else s.busRead 0x225 6 (target % 16) a 16 e
  | 1 =>
    let u := target / 8
    if !s.quadEnabled (target / 64) then (5, [], s)
    else
      let s := s.busCount 0x225 (if write then 1 else 0)
      if s.isolated (targetKey false target) then let (st, s) := s.busDead; (st, if write then [] else badBytes 16, s.busAnswered 0x225 (if write then 0 else 1))
      else if 4 ≤ s.dstate u then (5, [], s.busAnswered 0x225 0)
      else if s.dstate u ≠ 0 ∧ s.on (F.PWR_DOM_force_en u) then
        let (st, s) := s.busSilent ⟨false, Fin.ofNat 256 target⟩
        (st, if st = 1 ∧ write = false then badBytes 16 else [], s)
      else
        let s := if s.dstate u = 0 then s else (s.wakeTo u 0).domainUp u 0
        let s := s.busAnswered 0x225 (if write then 0 else 1)
        if write then let (st, s) := s.doorWrite target a data 6 e; (st, [], s)
        else s.doorRead target a 16 6 e
  | _ => match s.slHead target with
    | some i => if a < i.data.length then (0, ((i.data.drop a).take 16 ++ List.replicate 16 0).take 16, s) else (5, [], s)
    | none => (5, [], s)

/-- BACKDOOR_ACCESS: a write of DBG_BDCTRL with go = 1. A sluice is only read. -/
def execBackdoorAccess (who : Requester) (value : Word) (e : RowEcc) (s : State) : Out :=
  .next (match s.dbgPort who with
    | none => s
    | some port =>
      if s.sessLevel port = 0 then s.denied port none R.DBG_BDCTRL 1
      else
        let write := F.DBG_BDCTRL_write.of value == 1
        let kind := F.DBG_BDCTRL_kind.of value
        let target := F.DBG_BDCTRL_target.of value
        let s := ((s.put F.DBG_BDCTRL_write (F.DBG_BDCTRL_write.of value)).put F.DBG_BDCTRL_kind kind).put F.DBG_BDCTRL_target target
        let a := s.get F.DBG_BDADDR_LO_addr * 16 + s.get F.DBG_BDADDR_HI_addr_hi * 2 ^ 32
        let part : Option Nat := if kind = 1 then s.millOwner target else none
        let refuse (s : State) (r : Nat) : State := (s.put F.DBG_BDSTAT_status 3).denied port part R.DBG_BDCTRL r
        if kind = 3 then s
        else if write && s.sessLevel port != 2 then refuse s 1
        else if kind = 1 ∧ s.quadEnabled (target / 64) = false then s.put F.DBG_BDSTAT_status 5
        else if !s.doorScope port kind target a || (write && kind == 2) then refuse s 2
        else
          let data := (List.range 4).flatMap (fun w => natLe 4 (s.reg (R.DBG_BDDATA w)).toNat)
          let (st, bs, s) := s.doorAccess write kind target a data e
          let s := s.put F.DBG_BDSTAT_status st
          let s := if bs.length = 16 then s.each (List.range 4) (fun s w => s.setReg (R.DBG_BDDATA w) (BitVec.ofNat 32 (leNat ((bs.drop (4 * w)).take 4)))) else s
          if kind = 1 then (match s.millOwner target with | some p => s.capFlow p | none => s) else s)

/-! ## State read-back (R344) -/

/-- SRDATA_READ: a read of DBG_SRDATA_LO. -/
def execSrdataRead (who : Requester) (s : State) : Out :=
  let m := s.get F.DBG_SRSEL_mill
  let row := s.get F.DBG_SRSEL_row
  let site := m * 16 + s.get F.DBG_SRSEL_stone
  let none' (s : State) : State := { s.put F.DBG_SRSEL_refused 1 with readData := 0 }
  match s.dbgPort who with
  | none => .next { s with readData := 0 }
  | some port =>
    match s.millOwner m with
    | some p =>
      if s.sessLevel port = 0 then .next { s.denied port (some p) R.DBG_SRDATA_LO 1 with readData := 0 }
      else if !s.inScope port (some p) then .next (none' (s.denied port (some p) R.DBG_SRDATA_LO 2))
      else if s.pstate p ≠ stHalted then .next (none' s)
      else
        let v : Row :=
          if row = 0xE01 then BitVec.allOnes 64
          else if 0xE00 ≤ row ∧ row < 0xF00 then 0
          else s.baseRow site (physRow (s.part p).bank row)
        .next { s.setReg R.DBG_SRDATA_HI (v.extractLsb' 32 32) with readData := v.extractLsb' 0 32 }
    | none => .next (none' s)

/-! ## Millers (R331, R345 to R347) -/

/-- Halt core k in a debug halt (R345): 1 request, 2 step complete, 3 instruction range, 4 data range. -/
def State.haltCore (s : State) (k cause : Nat) : State :=
  let m := s.miller k
  let waits := m.wfi || m.getWait
  let s := s.setMiller k { m with halted := true, stepping := false, resv := none, wfi := false, getWait := false }
  let s := s.cancelHeld (fun _ k' => k' == k)
  let f (f : Fld) : Fld := f.sel k
  let s := ((s.put (f F.DBG_MSTATUS_halted) 1).put (f F.DBG_MSTATUS_cause) cause).flag (f F.DBG_MSTATUS_resv_cleared) m.resv.isSome
  let s := s.flag (f F.DBG_MSTATUS_wait_abandoned) waits
  let s := (s.setBit F.DBG_MHALTED_cores k true).trcHold k
  if cause = 2 then s else s.raise 0x9002 0xFF [k, cause, (s.reg (selAddr R.DBG_MHIT k)).toNat]

/-- An operation on the core of DBG_MSEL: FULL with the shell bit, and no other port's core. -/
def State.onCore (s : State) (who : Requester) (off : Nat) (f : State → Nat → Nat → State) : State :=
  let k := s.get F.DBG_MSEL_core
  s.onDbg who 2 none off (fun s port => s.ownerOk port (s.coreOwner k) off none (fun s => f s port k))

/-- MILLER_HALT (R345): the port takes the core. -/
def execMillerHalt (who : Requester) (s : State) : Out :=
  .next (s.onCore who R.DBG_MCTRL (fun s port k =>
    if (s.miller k).halted then s
    else
      let s := s.haltCore k 1
      if port = 0 then s else s.put (coreOwnerFld k) port))

/-- MILLER_RESUME (R346). -/
def execMillerResume (who : Requester) (s : State) : Out :=
  .next (s.onCore who R.DBG_MCTRL (fun s _ k => if (s.miller k).halted then (s.releaseCore k).dropCoreOwner k else s))

/-- MILLER_STEP (R346): the next instruction of the core runs, and the core is then halted with cause 2. -/
def execMillerStep (who : Requester) (s : State) : Out :=
  .next (s.onCore who R.DBG_MCTRL (fun s _ k =>
    if (s.miller k).halted then
      let s := s.setMiller k { s.miller k with stepping := true }
      s.setSchedCore k { s.schedCore k with expired := false }
    else s))

/-- The range DBG_MSEL and DBG_MRSEL name; none for data ranges 4 to 7. -/
def State.selRange (s : State) : Option Nat :=
  let i := s.get F.DBG_MRSEL_index
  let data := s.on F.DBG_MRSEL_data
  if data && decide (4 ≤ i) then none else some (rangeIdx (s.get F.DBG_MSEL_core) data i)

/-- A write of DBG_MRCFG (R326, R331, R347): enabling takes the core; disabling its last range releases one that is not halted. The arm
of the range is cleared. The configuration of a range that is and stays disabled is written freely. -/
def State.writeMrcfg (s : State) (who : Requester) (value : Word) : State :=
  match s.selRange with
  | none => s
  | some n =>
    let keep (s : State) : State :=
      let s := s.setReg (selAddr R.DBG_MRCFG n) (value &&& 0xFF000000#32)
      { s with dbg := { s.dbg with rangeHit := mset (fun _ => false) s.dbg.rangeHit n false } }
    if F.DBG_MRCFG_en.of value = 0 ∧ s.on (F.DBG_MRCFG_en.sel n) = false then
      (match s.dbgPort who with
       | some port => s.ownerOk port (s.coreOwner (s.get F.DBG_MSEL_core)) R.DBG_MRCFG none keep
       | none => s)
    else s.onCore who R.DBG_MRCFG (fun s port k =>
      let s := keep s
      if F.DBG_MRCFG_en.of value = 1 then (if port = 0 then s else s.put (coreOwnerFld k) port) else s.dropCoreOwner k)

/-- MILLER_RANGE_ENABLE (R331). -/
def execMillerRangeEnable (who : Requester) (value : Word) (s : State) : Out := .next (s.writeMrcfg who (F.DBG_MRCFG_en.into value 1))

/-! ## Boundary scan (R326) -/

/-- JTAG_EXTEST: FULL with the shell bit, every partition EMPTY; `drive` gives the levels of the boundary register by pin (GPIO n at n,
target I/O p at 64 + p, lane l of spoke sp at 256 + 8 sp + l). They stand until a TAP reset. -/
def execJtagExtest (drive : List (Nat × Bool)) (s : State) : Out :=
  .next (if (List.range 4).all (fun p => s.pstate p == stEmpty) then
      s.allowed 1 2 none 0 (fun s => { s with pins := { s.pins with scan := drive.foldl (fun m e => mset (fun _ => none) m e.1 (some e.2)) [] } })
    else s.denied 1 none 0 2)

end Sys2Proof.Machine
end

