-- ==== Sys2Proof/Machine/Gov.lean ====
section
/-!
DEFINITION. Machine/Gov.lean: the governor's own commands: DRAM and lane tracking, flume trimming, the power cap, freezing and
the comparison of commanded and observed state (R224 to R237).
-/
namespace Sys2Proof.Machine

open Sys2Proof

/-! ## DRAM tracking (R225 to R227) -/

/-- A change reaches a nibble lane (R218, R222, R223, R236): it is counted and logged. -/
def State.dramAdjusted (s : State) (c n loop before after : Nat) : State :=
  ((s.bump (F.DPHY_CTRL_adj_count c) 1).bump (F.GOV_DRAMADJ_applied c) 1).govLog loop (c * 256 + n) before after

/-- A measurement is skipped (R226, R227). -/
def State.dramSkipped (s : State) (c : Nat) : State := (s.bump (F.GOV_DRAMADJ_other c) 1).bumpWrap F.GOV_SKIPCNT_count 1

/-- Twice the centre error in 1/64 UI: right − left (R225). -/
def edgeError (left right : Nat) : Int := (right : Int) - (left : Int)

/-- A parameter of 8 bits one step up or down; at the end of its range it stays (R218). -/
def stepBy (up : Bool) (v : Nat) : Nat := if up then min 255 (v + 1) else v - 1

/-- The samplers' eye edges, and the oscillator's count, reach the lane's registers (R223). -/
def State.showEye (s : State) (c n : Nat) (m : LaneMeas) : State :=
  (s.put ((F.DPHY_RDEYE_left c).sel n) m.left.toNat).put ((F.DPHY_RDEYE_right c).sel n) m.right.toNat

/-- Read centre: one step towards the error, when it is large enough (R225). -/
def State.moveCentre (s : State) (c n : Nat) (m : LaneMeas) : Option State :=
  let err := edgeError m.left.toNat m.right.toNat
  let f := (F.DPHY_RDEYE_centre c).sel n
  let old := s.get f
  let new := stepBy (decide (0 < err)) old
  if err.natAbs < 2 * max 1 (s.get F.GOV_DRAMCFG_centre_thr) ∨ new = old then none
  else
    let s := s.put f new
    let t := mget (fun _ => 0) s.gov.centre0 (c * 512 + n)
    let shift := (new - t) + (t - new)
    let d := (F.DPHY_DRIFT_max_shift c).sel n
    some ((s.put d (max (s.get d) (min 255 shift))).dramAdjusted c n 1 old new)

/-- Receiver Vref: one step of 0.5 % when the vertical centre lies 1 % away or more (R225). -/
def State.moveVref (s : State) (c n : Nat) (m : LaneMeas) : Option State :=
  let f := (F.DPHY_VREF_rd_vref c).sel n
  let old := s.get f
  let v := m.vertical.toNat
  if v < old + 2 ∧ old < v + 2 then none
  else
    let new := stepBy (decide (old < v)) old
    some ((s.put f new).dramAdjusted c n 3 old new)

/-- Write delay: one step for osc_per_step counts of the oscillator since the last, in the direction training recorded (R225). -/
def State.moveDelay (s : State) (c n osc : Nat) : Option State :=
  let k := c * 512 + n
  let per := s.get F.GOV_DRAMCFG_osc_per_step
  let ref := mget (fun _ => 0) s.gov.oscAt k
  let f := (F.DPHY_WRDLY_delay c).sel n
  let old := s.get f
  let rise := decide (ref + per ≤ osc)
  let new := stepBy (rise == mget (fun _ => false) s.gov.oscUp k) old
  if per = 0 ∨ (rise = false ∧ ref < osc + per) ∨ new = old then none
  else
    let s := { s with gov := { s.gov with oscAt := mset (fun _ => 0) s.gov.oscAt k (if rise then ref + per else ref - per) } }
    some ((s.put f new).dramAdjusted c n 2 old new)

/-- One step for one lane in an interval (R225): of the parameters that want one, the read centre before the receiver Vref before
the write delay (log entry 66). -/
def State.moveLane (s : State) (c n : Nat) (m : LaneMeas) : State :=
  if s.govFrozen then s
  else
    let eye := decide (64 * s.get F.GOV_DRAMCFG_min_bursts ≤ m.bursts)
    match (if eye then s.moveCentre c n m else none), (if eye then s.moveVref c n m else none), m.osc with
    | some t, _, _ => t
    | none, some t, _ => t
    | none, none, some osc => (s.moveDelay c n osc.toNat).getD s
    | none, none, none => s

/-- GOV_DRAM_INTERVAL (R225 to R227): the interval of one nibble lane of one rank ends. -/
def execGovDramInterval (ch : Chan) (rank : Fin 8) (lane : Fin 20) (m : LaneMeas) (s : State) : Out :=
  let c := ch.val
  let n := rank.val * 32 + lane.val
  if !s.on F.GOV_CTRL_dram_en || s.get F.GOV_DRAMCFG_interval == 0 then .next s
  else if s.get (F.DDRC_STATUS_state c) ≠ 4 ∨ s.on (F.DPHY_CTRL_freeze c) = true ∨ 3 ≤ s.dstate (36 + c / 4) then .next (s.dramSkipped c)
  else
    let s := match m.probeUe with
      | some line => s.dramUe c (64 * line) 2 0 0xFF
      | none => s
    let s := if 64 * s.get F.GOV_DRAMCFG_min_bursts ≤ m.bursts then s.showEye c n m else s
    match m.osc with
    | some osc => .next ((s.put ((F.DPHY_WRDLY_osc c).sel n) osc.toNat).moveLane c n m)
    | none => .next ((s.moveLane c n m).dramSkipped c)

/-! ## Lane tracking (R228) -/

/-- Unit number of a lane in the log (R236), and the log of a lane step. -/
def State.laneLog (s : State) (n loop before after : Nat) : State := s.govLog loop n before after

/-- GOV_LANE_INTERVAL (R228): a trial starts when the eye has fallen and DFE tap 1 stands at an end of its range. -/
def execGovLaneInterval (sp : Spoke) (lane : Fin 8) (tapEnd : Bool) (code : BitVec 8) (s : State) : Out :=
  let n := laneIdx sp lane
  let st := s.get (F.SPK_STATUS_state sp)
  let drop := s.get F.GOV_LANECFG_fom_drop
  if !s.on F.GOV_CTRL_lane_en || s.govFrozen || s.get F.GOV_LANECFG_interval == 0 || drop == 0 || s.on (F.SPK_CTRL_eq_freeze sp)
      || decide (st < 2) || decide (5 < st) || (mget (fun _ => none) s.gov.trials n).isSome then .next s
  else if tapEnd = true ∧ s.get (F.LANE_STAT_fom n) + drop ≤ mget (fun _ => 0) s.gov.foms n then
    let dn := mget (fun _ => false) s.gov.up n
    let new := stepBy (!dn) code.toNat
    let s := { s with gov := { s.gov with up := mset (fun _ => false) s.gov.up n (!dn), eqCode := mset (fun _ => 0) s.gov.eqCode n new } }
    if new = code.toNat then .next s
    else
      let s := { s with gov := { s.gov with trials := mset (fun _ => none) s.gov.trials n (some (code.toNat, s.get (F.LANE_STAT_fom n))) } }
      .next (s.laneLog n 4 code.toNat new)
  else .next { s with gov := { s.gov with eqCode := mset (fun _ => 0) s.gov.eqCode n code.toNat } }

/-- GOV_LANE_TRIAL_END (R228, R236): kept when fom has risen, otherwise the code before is restored. While eq_freeze is 1 the lane is
not touched, and its trial waits (R179; log entry 66). -/
def execGovLaneTrialEnd (sp : Spoke) (lane : Fin 8) (s : State) : Out :=
  let n := laneIdx sp lane
  match (if s.on (F.SPK_CTRL_eq_freeze sp) then none else mget (fun _ => none) s.gov.trials n) with
  | none => .next s
  | some (code, fom) =>
    let now := mget (fun _ => 0) s.gov.eqCode n
    let s := { s with gov := { s.gov with trials := mset (fun _ => none) s.gov.trials n none } }
    if fom < s.get (F.LANE_STAT_fom n) then
      .next (((s.bump (F.GOV_LANEADJ_applied sp) 1).laneLog n 4 code now).settleFreeze)
    else
      let s := { s with gov := { s.gov with eqCode := mset (fun _ => 0) s.gov.eqCode n code } }
      .next (((s.bump (F.GOV_LANEADJ_other sp) 1).laneLog n 5 now code).settleFreeze)

/-! ## Flume trimming (R230 to R232) -/

/-- Fires of region r in a bin, of the window and of the time its rail moved. -/
def State.winFires (s : State) (r bin : Nat) : Nat := mget (fun _ => 0) s.gov.win (r * 16 + bin)
def State.movFires (s : State) (r bin : Nat) : Nat := mget (fun _ => 0) s.gov.mov (r * 16 + bin)

/-- The lowest non-empty bin over the launched regions of a quadrant, of the window and of the time its rail moved. -/
def State.lowestBin (s : State) (q : Nat) : Option Nat :=
  (List.range 16).find? (fun b => (s.launchedRegions q).any (fun r => s.winFires r b + s.movFires r b != 0))

/-- A launched region of the quadrant fired in the window. Counts made while the rail moved do not tell (R230, R231). -/
def State.firedInWindow (s : State) (q : Nat) : Bool :=
  (s.launchedRegions q).any (fun r => (List.range 16).any (fun b => s.winFires r b != 0))

/-- The decision at a window end (R230, R231). -/
def State.trim (s : State) (q : Nat) : State :=
  let t := s.get (F.GOV_VFLUME_target q)
  let hold := mget (fun _ => 0) s.gov.holdoff q - 1
  let s := { s with gov := { s.gov with holdoff := mset (fun _ => 0) s.gov.holdoff q hold } }
  let rs := s.launchedRegions q
  let parked := match s.quadOwner q with
    | some p => s.pstate p == stHalted && !s.multi p
    | none => false
  if rs.isEmpty || parked then s.setFlumeTarget q (s.flumeFloor q)
  else match s.lowestBin q with
    | none => s
    | some b =>
      if b ≤ s.get F.GOV_FLMCFG_raise_bin then s.raiseFlume q (s.get F.GOV_FLMLIM_up_step)
      else if s.get F.GOV_FLMCFG_lower_bin ≠ 0 ∧ s.get F.GOV_FLMCFG_lower_bin ≤ b ∧ hold = 0 ∧ s.get F.GOV_FLMLIM_down_step ≠ 0 ∧
          s.firedInWindow q = true ∧ rs.all (fun r => decide (16 * s.get F.GOV_FLMCFG_min_fires ≤ ((List.range 16).map (s.winFires r)).sum)) = true then
        s.setFlumeTarget q (t - s.get F.GOV_FLMLIM_down_step)
      else s

/-- GOV_FLUME_WINDOW (R230 to R232): a window of quadrant q ends. While its rail moves no window runs. -/
def execGovFlumeWindow (q : Quad) (s : State) : Out :=
  if s.gov.ramp.testBit q || s.get F.GOV_FLMCFG_window == 0 || !s.quadEnabled q then .next s
  else
    let run := s.dstate (32 + q.val) == 0 && s.on F.GOV_CTRL_flume_en && !s.govFrozen
    let s := { s with gov := { s.gov with wide := if s.gov.wide.testBit q then s.gov.wide - 2 ^ q.val else s.gov.wide } }
    let s := if run then s.trim q else s
    let s := if s.gov.wanted.testBit q then s
      else { s with gov := { s.gov with ceil := if s.gov.ceil.testBit q then s.gov.ceil - 2 ^ q.val else s.gov.ceil } }.setBit F.GOV_STATUS_ceiling q false
    let s := { s with gov := { s.gov with wanted := if s.gov.wanted.testBit q then s.gov.wanted - 2 ^ q.val else s.gov.wanted } }
    .next (s.newWindow q)

/-! ## Power cap (R233) -/

/-- Credit of a partition up to partition cycle c, at the hold fraction in force. -/
def State.accrue (s : State) (p c : Nat) : State :=
  let d := c - mget (fun _ => 0) s.gov.creditAt p
  let k := mget (fun _ => 0) s.gov.credit p + s.get F.GOV_CAPSTAT_h * d
  { s with gov := { s.gov with credit := mset (fun _ => 0) s.gov.credit p k, creditAt := mset (fun _ => 0) s.gov.creditAt p c } }

/-- A change of the hold fraction: the band is shown, and its change is logged (R236). -/
def State.setHold (s : State) (h : Nat) : State :=
  let b0 := s.get F.GOV_CAPSTAT_h / 64
  let s := (s.put F.GOV_CAPSTAT_h h).put F.GOV_STATUS_cap_band (h / 64)
  if b0 = h / 64 then s else s.govLog 7 0 b0 (h / 64)

/-- A rail's report: voltage and current, or its missing bit; a flume rail's voltage is GOV_VFLUME.actual (R237). -/
def State.takeRail (s : State) (r : Nat) (x : RailRead) : State :=
  match x with
  | none => s.setBit F.GOV_STATUS_rails_missing r true
  | some (mv, amps) =>
    let s := ((s.setBit F.GOV_STATUS_rails_missing r false).put (F.GOV_RAIL_low r) mv.toNat).put (F.GOV_RAIL_high r) amps.toNat
    if 1 ≤ r ∧ r ≤ 4 then s.put (F.GOV_VFLUME_actual (r - 1)) mv.toNat else s

/-- Power over the eight rails, in mW. -/
def State.railPower (s : State) : Nat := ((List.range 8).map (fun r => s.get (F.GOV_RAIL_low r) * s.get (F.GOV_RAIL_high r))).sum

/-- The hold fraction follows the cap (R233): 0 without one; otherwise by the 1 ms average, `sum` mW over `n` samples. -/
def State.holdAfter (s : State) (sum n : Nat) : Nat :=
  let cap := 1000 * n * s.get F.GOV_CAP_watts
  let h := s.get F.GOV_CAPSTAT_h
  if s.get F.GOV_CAP_watts = 0 ∨ s.on F.GOV_CTRL_cap_en = false then 0
  else if cap < sum then min 960 (h + 8) else if 100 * sum < 98 * cap then h - 4 else h

/-- A write that leaves no cap sets the hold fraction to 0 at once (R233). Credit was taken at the old fraction up to the partition
cycles the write meets. -/
def State.capOff (s : State) (cycles : List Nat) : State :=
  if s.get F.GOV_CAP_watts = 0 ∨ s.on F.GOV_CTRL_cap_en = false then
    let s := s.each ((List.range 4).filter (fun p => s.running p)) (fun s p => s.accrue p (cycles.getD p 0))
    let s := s.setHold 0
    { s with gov := { s.gov with capRun := 0, capRaised := false } }
  else s

/-- GOV_POWER_SAMPLE (R233, R237): 100 µs have passed. `cycles`: the partition cycle each partition stands at. -/
def execGovPowerSample (rails : List RailRead) (cycles : List Nat) (s : State) : Out :=
  let s := s.each ((List.range 4).filter (fun p => s.running p)) (fun s p => s.accrue p (cycles.getD p 0))
  let s := s.each (List.range 8) (fun s r => s.takeRail r (rails.getD r none))
  let ps := (s.railPower :: s.gov.power).take 10
  let s := { s with gov := { s.gov with power := ps } }
  let s := (s.put F.GOV_POWER_low (ps.sum / ps.length / 1000)).put F.GOV_POWER_high (ps.foldl max 0 / 1000)
  let h' := s.holdAfter ps.sum ps.length
  let s := s.setHold h'
  if h' = 960 ∧ 1000 * ps.length * s.get F.GOV_CAP_watts < ps.sum then
    let s := { s with gov := { s.gov with capRun := s.gov.capRun + 1, capAll := s.gov.capAll + 1 } }
    let s := s.put F.GOV_CAPSTAT_unmet_ms (min 65535 (s.gov.capAll / 10))
    if 100 ≤ s.gov.capRun ∧ s.gov.capRaised = false then
      .next ({ s with gov := { s.gov with capRaised := true } }.raise 0x8007 0xFF [(s.reg R.GOV_POWER).toNat, (s.reg R.GOV_CAP).toNat])
    else .next s
  else .next { s with gov := { s.gov with capRun := 0, capRaised := s.gov.capRaised && h' == 960 } }

/-- POWER_VOTE (R233, R68): the credit has reached 32 cycles at step n, and one POWER round is voted. -/
def execPowerVote (p : Part) (n : Step) (s : State) : Out :=
  if s.running p then
    let c := s.cycleOf p n
    let s := s.accrue p c
    let k := mget (fun _ => 0) s.gov.credit p
    if 32 * 1024 ≤ k then
      let (h, nx) := s.holdOf p n
      .next ({ s with gov := { s.gov with credit := mset (fun _ => 0) s.gov.credit p (k - 32 * 1024) } }.voteRounds p h nx 1 4 c)
    else .next s
  else .next s

/-! ## Freezing (R234) -/

/-- GOV_FREEZE (R234). When freeze goes to 0 every loop restarts its window. -/
def execGovFreeze (on : Bool) (s : State) : Out :=
  let s := s.flag F.GOV_CTRL_freeze on
  if on then .next s.settleFreeze else .next ((s.each (List.range 4) (fun s q => s.newWindow q)).railsInRange.settleFreeze)

/-- GOV_VFLUME_WRITE (R234, R237): accepted only while frozen and within floor to ceiling. -/
def execGovVflumeWrite (q : Quad) (value : Word) (s : State) : Out :=
  let v := value.toNat / 256 % 4096
  if s.quadEnabled q = true ∧ s.on F.GOV_STATUS_frozen = true ∧ s.flumeFloor q ≤ v ∧ v ≤ s.flumeCeiling then .next (s.setFlumeTarget q v) else .next s

/-- STATE_MISMATCH (R235): the states of a unit have disagreed for 1 ms. -/
def execStateMismatch (unit : Fin 44) (s : State) : Out :=
  let s := s.settleMis
  if s.unitMismatch unit && !s.misBit unit then
    .next ((s.setMisBit unit true).raise 0x8009 0xFF [unit.val, if s.unitOn unit then 1 else 0, if s.unitSeen unit then 1 else 0])
  else .next s

end Sys2Proof.Machine
end

