-- ==== Sys2Proof/Machine/Hopper.lean ====
section
/-!
DEFINITION. Machine/Hopper.lean: commands of the hopper, the scheduler, the watchdogs and the ports of a core (R301 to R323).
-/
namespace Sys2Proof.Machine

open Sys2Proof

/-! ## Hopper banks (R316, R320) -/

/-- Writer codes of an event (R458): as RST_CAUSE.writer, and 5 for a handler. -/
def writerCode : Requester → Nat
  | .shell _ => 0
  | .jtag => 1
  | .mgmt => 2
  | .mbox => 3
  | .host => 4
  | .handler _ => 5

/-- A handover is accepted from its writer (R316). -/
def State.handoverOk (s : State) (who : Requester) (bank : Nat) : Bool :=
  match who with
  | .shell _ => true
  | .host => s.hopOwner bank == 5
  | .handler k => match s.runItem k with
    | some i => decide (i.ctx < 4) && s.hopOwner bank == i.ctx + 1
    | none => false
  | _ => false

/-- BANK_HANDOVER (R316): a handover that is accepted waits for the accesses of the old owner; an owner of 6 or 7 is ignored. -/
def State.handover (s : State) (who : Requester) (bank owner : Nat) (scrub : Bool) : State :=
  if 6 ≤ owner then s
  else if s.handoverOk who bank then
    { s with hop := { s.hop with heir := mset (fun _ => none) s.hop.heir bank (some (owner, scrub)) } }.setBit F.HOP_STATUS_handover bank true
  else s.raise 0xB004 0xFF [bank, owner, writerCode who]

def execBankHandover (who : Requester) (bank : Fin 16) (owner : Fin 8) (scrub : Bool) (s : State) : Out :=
  .next (s.handover who bank owner scrub)

/-- HANDOVER_COMPLETE (R316): the old owner's accesses are done: the bank is the new owner's, zeroed if asked. While it is being zeroed
HOP_STATUS.scrubbing shows it; the command's next arrival ends that. -/
def execHandoverComplete (bank : Fin 16) (s : State) : Out :=
  let b := bank.val
  match mget (fun _ => none) s.hop.heir b with
  | some (owner, scrub) =>
    let s := { s with hop := { s.hop with heir := mset (fun _ => none) s.hop.heir b none } }
    let s := (s.setBit F.HOP_STATUS_handover b false).put (F.HOP_BANK_owner b) owner
    if scrub then
      let s := { s with hop := { s.hop with
        mem := mdrop (fun a => a / 2 ^ 22 == b) s.hop.mem, ue := mdrop (fun w => w / 2 ^ 19 == b) s.hop.ue } }
      .next ((s.clearResv (b * 2 ^ 22) (2 ^ 22)).setBit F.HOP_STATUS_scrubbing b true)
    else .next s
  | none => .next (s.setBit F.HOP_STATUS_scrubbing b false)

/-- HOPPER_TEST_REGION (R320): the region under test is tested; contents are kept. -/
def execHopperTestRegion (fail : Bool) (s : State) : Out :=
  if s.on F.HOP_CTRL_test_en then
    let r := s.get F.HOP_TEST_region
    let b := r / 16384
    let s := if fail then
        let s := s.bump F.HOP_TESTFAIL_failures 1
        let used := s.get (F.HOP_BANK_spares_used b)
        if used < 16 then (s.put (F.HOP_BANK_spares_used b) (used + 1)).raise 0x300E 0xFF [r, 1, used + 1]
        else s.raise 0x300E 0xFF [r, 0, used]
      else s
    let s := s.bumpWrap F.HOP_TEST_region 1
    .next (if r = 262143 then s.bump F.HOP_TESTFAIL_passes 1 else s)
  else .next s

/-- HOP_CNT_CLEAR (R321). -/
def execHopCntClear (s : State) : Out :=
  .next (s.each (List.range 16) (fun s b => s.setReg (R.HOP_STALL b) 0) |> fun s => (s.setReg R.HOP_DENY 0).put F.HOP_ECC_ce_count 0)

/-! ## The scheduler (R305 to R312) -/

/-- SCHED_CNT_CLEAR (R322). -/
def execSchedCntClear (s : State) : Out :=
  .next ((s.each [R.SCHED_REFCNT, R.SCHED_DISPCNT, R.SCHED_PREEMPTCNT, R.SCHED_CANCELCNT] (fun s a => s.setReg a 0)).put F.SCHED_STATUS_late_due 0)

/-- Due items of the delay lists move to the ready lists while there is room, list 0 first (R306, R307). True when one found none. -/
def State.releaseDue : List DelayItem → State → State × Bool
  | [], s => (s, false)
  | d :: t, s =>
    if s.sched.ready.length < 4096 then
      State.releaseDue t ({ s with sched := { s.sched with delayed := s.sched.delayed.erase d } }.readyItem d.item)
    else (s, true)

/-- DELAY_TICK (R306 to R308): one µs of TB0. -/
def execDelayTick (s : State) : Out :=
  let s := { s with sched := { s.sched with ticks := s.sched.ticks + 1 } }
  let due := (List.range 4).flatMap (fun l => s.sched.delayed.filter (fun d => d.list == l && decide (d.due ≤ s.sched.ticks)))
  let (s, late) := State.releaseDue due s
  .next (if late then s.bump F.SCHED_STATUS_late_due 1 else s)

/-- The core an item goes to (R309): the lowest idle one it may run on, else the one to pre-empt: lowest running priority, lowest
number. -/
def State.placeItem (s : State) (i : WItem) : Option Nat :=
  match cores.find? (fun k => i.allows k && s.coreIdle k) with
  | some k => some k
  | none => (cores.filter (fun k => i.allows k && s.corePreempts k i.prio)).foldl (fun best k =>
      let pr (k : Nat) : Nat := ((s.runItem k).map WItem.prio).getD 0
      match best with
      | none => some k
      | some b => if pr k < pr b then some k else best) none

/-- Ready items, highest priority first, oldest first within a priority. -/
def State.readyOrder (s : State) : List ReadyItem :=
  (List.range 8).flatMap (fun j => s.sched.ready.filter (fun r => r.item.prio == 7 - j))

/-- DISPATCH (R309, R310): with none, the best item that a core can take goes to it, and a hold of it elsewhere is cancelled; with a
core, the best item that would next go to that running core is put into its prefetch slot. -/
def execDispatch (pre : Option Core) (s : State) : Out :=
  if !s.on F.SCHED_CTRL_en then .next s
  else match pre with
    | none =>
      match s.readyOrder.findSome? (fun r => (s.placeItem r.item).map (fun k => (r.item, k))) with
      | none => .next s
      | some (i, k) =>
        let s := s.cancelHeld (fun h k' => h.seq == i.seq && k' != k)
        let s := match s.runItem k with
          | some r => s.trcItemEnd k r.ctx r.seq
          | none => s
        .next (s.dispatchTo i k)
    | some k =>
      let k := k.val
      if s.on F.SCHED_CTRL_predispatch && s.coreOn k && !(s.schedCore k).stack.isEmpty && (s.slotItem k).isNone then
        match s.readyOrder.find? (fun r => r.held.isNone && r.item.allows k && (s.placeItem r.item).isNone) with
        | none => .next s
        | some r => .next { s with sched := { s.sched with ready := s.sched.ready.map (fun x => if x.item.seq = r.item.seq then { x with held := some k } else x) } }
      else .next s

/-- ITEM_END (R304). -/
def execItemEnd (k : Core) (s : State) : Out := .next (s.itemEnds k)

/-! ## Watchdogs (R312) -/

/-- The core's watchdog counts. -/
def State.wdogOn (s : State) (k : Nat) : Bool :=
  s.get (F.MLR_WDOG_timeout k) != 0 && !(s.schedCore k).stack.isEmpty && !(s.miller k).halted

/-- WATCHDOG_FIRST_EXPIRY (R312). -/
def execWatchdogFirstExpiry (k : Core) (s : State) : Out :=
  if s.wdogOn k && !(s.schedCore k).expired then
    .next (((s.setSchedCore k { s.schedCore k with expired := true }).bump (F.MLR_STATUS_expiries k) 1).raiseIrq k 1)
  else .next s

/-- A core restarts at the boot ROM in machine mode (R323): its registers and CSRs at their reset values, mpreempt at MLR_CTRL.preempt
(R302), its caches empty. -/
def State.resetCore (s : State) (k : Nat) : State :=
  s.setMiller k { mtimecmp := (s.miller k).mtimecmp, msip := (s.miller k).msip,
                  csr := mset (fun _ => 0) [] 0x7C0 (if s.on (F.MLR_CTRL_preempt k) then 1 else 0) }

/-- MILLER_WATCHDOG (R312): the second expiry. -/
def execMillerWatchdog (k : Core) (s : State) : Out :=
  let c := s.schedCore k
  if s.wdogOn k && c.expired then
    let seqs := c.stack.map (·.seq)
    let s := match c.stack with
      | i :: _ => s.trcItemEnd k i.ctx i.seq
      | [] => s
    let s := (s.resetCore k).setSchedCore k { c with stack := [], expired := false }
    let s := s.bump (F.MLR_STATUS_resets k) 1
    .next (s.raise 0xB003 0xFF ([k.val, seqs.length] ++ seqs.take 4))
  else .next s

/-- WATCHDOG_KICK (R312). -/
def execWatchdogKick (k : Core) (s : State) : Out := .next (s.setSchedCore k { s.schedCore k with expired := false })

/-! ## The core-local controller and the caches (R297, R301, R302, R323) -/

/-- mlien of a core, and what MEIP is. -/
def State.meip (s : State) (k : Nat) : Bool :=
  (mget (fun _ => 0) (s.miller k).csr 0x7C1).toNat % 32 &&& mget (fun _ => 0) s.mlipend k != 0

/-- MTIP (R301): TB0 − mtimecmp, signed, is zero or more. -/
def State.mtip (s : State) (k : Nat) : Bool := !(BitVec.ofNat 64 s.tb0 - (s.miller k).mtimecmp).msb

/-- mip of a core. -/
def State.mip (s : State) (k : Nat) : Nat :=
  (if (s.miller k).msip then 8 else 0) + (if s.mtip k then 128 else 0) + (if s.meip k then 2048 else 0)

/-- Instructions core k has retired: minstret counts unless mcountinhibit stops it. -/
def State.retired (s : State) (k n : Nat) : State :=
  let m := s.miller k
  let c (i : Nat) : BitVec 64 := mget (fun _ => 0) m.csr i
  if (c 0x320).getLsbD 2 then s else s.setMiller k { m with csr := mset (fun _ => 0) m.csr 0xB02 (c 0xB02 + BitVec.ofNat 64 n) }

/-- An interrupt that core k enables is pending. -/
def State.wakes (s : State) (k : Nat) : Bool := s.mip k &&& (mget (fun _ => 0) (s.miller k).csr 0x304).toNat != 0

/-- A core that waits in WFI goes on behind it when an interrupt it enables is pending. -/
def State.wakeCore (s : State) (k : Nat) : State :=
  let m := s.miller k
  if m.wfi && s.wakes k then (s.setMiller k { m with wfi := false, pc := m.pc + 4, lastPc := m.pc }).retired k 1 else s

/-- MTIMECMP_EXPIRY (R301): MTIP is a comparison with TB0, so its rise only wakes the core. -/
def execMtimecmpExpiry (k : Core) (s : State) : Out := .next (s.wakeCore k)

/-- MSIP_WRITE (R301). -/
def execMsipWrite (k : Core) (value : Word) (s : State) : Out := .next ((s.setMiller k { s.miller k with msip := value.getLsbD 0 }).wakeCore k)

/-- MDFLUSH (R297, R302): one line, or with all ones the whole D-cache. -/
def State.mdflush (s : State) (k : Nat) (addr : BitVec 64) : State :=
  let m := s.miller k
  s.setMiller k { m with dcache := if addr = BitVec.allOnes 64 then [] else mset (fun _ => none) m.dcache (addr.toNat / 64) none }

def execMdflush (k : Core) (addr : BitVec 64) (s : State) : Out := .next (s.mdflush k addr)

/-- MILLER_RELEASE (R323): MLR_CTRL.hold goes from 1 to 0. -/
def execMillerRelease (k : Core) (s : State) : Out :=
  if s.on (F.MLR_CTRL_hold k) then .next ((s.put (F.MLR_CTRL_hold k) 0).resetCore k) else .next s

/-! ## The enqueue and sluice ports of a core (R305, R313) -/

/-- A word of a core's ports: 0 to 3 the descriptor, 4 SEL, 5 BUF. -/
def State.portWord (s : State) (k w : Nat) : BitVec 64 := mget (fun _ => 0) s.sched.port (k * 8 + w)
def State.setPort (s : State) (k w : Nat) (v : BitVec 64) : State :=
  { s with sched := { s.sched with port := mset (fun _ => 0) s.sched.port (k * 8 + w) v } }

/-- The context of a core's accesses: none in machine mode (R300, R305). -/
def State.userCtx (s : State) (k : Nat) : Option Nat :=
  if (s.miller k).machine then none else some (((s.runItem k).map WItem.ctx).getD 7)

/-- The status doubleword of an enqueue (R305). -/
def enqStatus (st seq : Nat) : BitVec 64 := BitVec.ofNat 64 (st * 2 ^ 62 + seq)

/-- A read of the enqueue port's status (R305). -/
def State.portEnqueue (s : State) (k : Nat) (full : Bool) : BitVec 64 × State :=
  let i : WItem := { w0 := s.portWord k 0, w1 := s.portWord k 1, w2 := s.portWord k 2, w3 := s.portWord k 3 }
  let (st, seq, s) := s.enqueue i (s.userCtx k) full
  (enqStatus st seq, s)

/-- ENQUEUE (R305). -/
def execEnqueue (k : Core) (full : Bool) (s : State) : Out :=
  let (v, s) := s.portEnqueue k full
  .next { s with portData := v }

/-- The hopper offset of a physical address in the uncached or the cached view. -/
def hopView (a : Nat) : Option Nat :=
  if 0x10000000 ≤ a ∧ a < 0x14000000 then some (a - 0x10000000)
  else if 0x20000000 ≤ a ∧ a < 0x24000000 then some (a - 0x20000000)
  else none

/-- The buffer of a sluice port, n bytes: 64-byte aligned, in one bank that the core may use (R313, R315). -/
def State.portBuf (s : State) (k n : Nat) : Option Nat :=
  match hopView (s.portWord k 5).toNat with
  | none => none
  | some o =>
    let ok (o : Nat) : Bool := match s.userCtx k with
      | none => true
      | some c => ctxOwner c == some (s.hopOwner (hopBank o))
    if o % 64 == 0 && ok o && decide (o % 2 ^ 22 + n ≤ 2 ^ 22) then some o else none

/-- The core may use the sluice as its producer or consumer (R313): user mode only when the other side is its own partition. -/
def State.portSide (s : State) (k sl : Nat) (produce : Bool) : Bool :=
  let (mine, other) := if produce then (s.slProducer sl, s.slConsumer sl) else (s.slConsumer sl, s.slProducer sl)
  s.slEn sl && mine == 4 && (match s.userCtx k with
    | none => true
    | some c => decide (c < 4) && other == c)

def State.selSluice (s : State) (k : Nat) : Nat := (s.portWord k 4).toNat % 256

/-- A read of PUT (R313): one item from the buffer. -/
def State.portPut (s : State) (k : Nat) : BitVec 64 × State :=
  let sel := (s.portWord k 4).toNat
  let len := sel / 2 ^ 16 % 8192
  if !s.portSide k (s.selSluice k) true then (0x7007, s)
  else if len = 0 then (0x6001, s)
  else match s.portBuf k len with
    | none => (0x7007, s)
    | some o =>
      if 4096 < len then (0x7007, s)
      else
        let (r, s) := s.slAdmit (s.selSluice k) (sel / 256 % 8) len (s.hopRead o len)
        (if r.isSome then 0 else 0x600A, s)

/-- A read of GET or POLL (R313): none while a GET must wait. Drop in SEL drops the rest of the current item first. -/
def State.portGet (s : State) (k : Nat) (poll : Bool) : Option (BitVec 64 × State) :=
  let sl := s.selSluice k
  if !s.portSide k sl false then some (0x7007, s)
  else match s.portBuf k 4096 with
    | none => some (0x7007, s)
    | some o =>
      let s := if (s.portWord k 4).getLsbD 31 then s.slDrop sl else s
      match s.slPiece sl 4096 with
      | some (hd, bs, s) => some (BitVec.ofNat 64 hd, s.hopWrite o bs)
      | none => if poll then some (BitVec.ofNat 64 slEmptyHeader, s) else none

/-- PUT, GET, POLL (R313). A GET that must wait has no effect until its piece is there. -/
def execPut (k : Core) (s : State) : Out :=
  let (v, s) := s.portPut k
  .next { s with portData := v }

def execGet (k : Core) (s : State) : Out :=
  match s.portGet k false with
  | some (v, s) => .next { s with portData := v }
  | none => .next s

def execPoll (k : Core) (s : State) : Out :=
  match s.portGet k true with
  | some (v, s) => .next { s with portData := v }
  | none => .next s

end Sys2Proof.Machine
end

