-- ==== Sys2Proof/Machine/MilDec.lean ====
section
/-!
DEFINITION. Machine/MilDec.lean: words of RV64IMAC: immediates, compressed instructions by their 32-bit equals, and the arithmetic
(R296).
-/
namespace Sys2Proof.Machine

/-! ## Fields and immediates -/

/-- w bits of i from bit b. -/
def fld (i b w : Nat) : Nat := i / 2 ^ b % 2 ^ w

/-- An n-bit two's complement value as 64 bits. -/
def sxt (n v : Nat) : BitVec 64 := BitVec.ofNat 64 (if v < 2 ^ (n - 1) then v else v + (2 ^ 64 - 2 ^ n))

def immI (i : Nat) : BitVec 64 := sxt 12 (fld i 20 12)
def immS (i : Nat) : BitVec 64 := sxt 12 (fld i 25 7 * 32 + fld i 7 5)
def immB (i : Nat) : BitVec 64 := sxt 13 (fld i 31 1 * 2 ^ 12 + fld i 7 1 * 2 ^ 11 + fld i 25 6 * 2 ^ 5 + fld i 8 4 * 2)
def immU (i : Nat) : BitVec 64 := sxt 32 (fld i 12 20 * 2 ^ 12)
def immJ (i : Nat) : BitVec 64 := sxt 21 (fld i 31 1 * 2 ^ 20 + fld i 12 8 * 2 ^ 12 + fld i 20 1 * 2 ^ 11 + fld i 21 10 * 2)

/-! ## Building 32-bit words -/

def mkR (f7 rs2 rs1 f3 rd op : Nat) : Nat := f7 * 2 ^ 25 + rs2 * 2 ^ 20 + rs1 * 2 ^ 15 + f3 * 2 ^ 12 + rd * 2 ^ 7 + op
def mkI (imm rs1 f3 rd op : Nat) : Nat := imm % 2 ^ 12 * 2 ^ 20 + rs1 * 2 ^ 15 + f3 * 2 ^ 12 + rd * 2 ^ 7 + op
def mkS (imm rs2 rs1 f3 : Nat) : Nat := imm / 32 % 128 * 2 ^ 25 + rs2 * 2 ^ 20 + rs1 * 2 ^ 15 + f3 * 2 ^ 12 + imm % 32 * 2 ^ 7 + 0x23
def mkB (imm rs1 f3 : Nat) : Nat :=
  fld imm 12 1 * 2 ^ 31 + fld imm 5 6 * 2 ^ 25 + rs1 * 2 ^ 15 + f3 * 2 ^ 12 + fld imm 1 4 * 2 ^ 8 + fld imm 11 1 * 2 ^ 7 + 0x63
def mkJ (imm rd : Nat) : Nat :=
  fld imm 20 1 * 2 ^ 31 + fld imm 1 10 * 2 ^ 21 + fld imm 11 1 * 2 ^ 20 + fld imm 12 8 * 2 ^ 12 + rd * 2 ^ 7 + 0x6F

/-- An n-bit two's complement value as m bits. -/
def widen (n m v : Nat) : Nat := if v < 2 ^ (n - 1) then v else v + 2 ^ m - 2 ^ n

/-! ## Compressed instructions -/

/-- Quadrant 0: loads and stores of the eight registers x8 to x15. -/
def expand0 (c : Nat) : Option Nat :=
  let rd := 8 + fld c 2 3
  let rs := 8 + fld c 7 3
  let w := fld c 10 3 * 8 + fld c 6 1 * 4 + fld c 5 1 * 64
  let d := fld c 10 3 * 8 + fld c 5 2 * 64
  match fld c 13 3 with
  | 0 =>
    let n := fld c 11 2 * 16 + fld c 7 4 * 64 + fld c 6 1 * 4 + fld c 5 1 * 8
    if n = 0 then none else some (mkI n 2 0 rd 0x13)
  | 2 => some (mkI w rs 2 rd 0x03)
  | 3 => some (mkI d rs 3 rd 0x03)
  | 6 => some (mkS w rd rs 2)
  | 7 => some (mkS d rd rs 3)
  | _ => none

/-- The arithmetic of quadrant 1. -/
def expandAlu (c : Nat) : Option Nat :=
  let rd := 8 + fld c 7 3
  let rs := 8 + fld c 2 3
  let sh := fld c 12 1 * 32 + fld c 2 5
  match fld c 10 2 with
  | 0 => some (mkI sh rd 5 rd 0x13)
  | 1 => some (mkI (sh + 0x400) rd 5 rd 0x13)
  | 2 => some (mkI (widen 6 12 sh) rd 7 rd 0x13)
  | _ =>
    match fld c 12 1, fld c 5 2 with
    | 0, 0 => some (mkR 0x20 rs rd 0 rd 0x33)
    | 0, 1 => some (mkR 0 rs rd 4 rd 0x33)
    | 0, 2 => some (mkR 0 rs rd 6 rd 0x33)
    | 0, 3 => some (mkR 0 rs rd 7 rd 0x33)
    | 1, 0 => some (mkR 0x20 rs rd 0 rd 0x3B)
    | 1, 1 => some (mkR 0 rs rd 0 rd 0x3B)
    | _, _ => none

/-- Quadrant 1. -/
def expand1 (c : Nat) : Option Nat :=
  let rd := fld c 7 5
  let i6 := fld c 12 1 * 32 + fld c 2 5
  let j := fld c 12 1 * 2 ^ 11 + fld c 11 1 * 2 ^ 4 + fld c 9 2 * 2 ^ 8 + fld c 8 1 * 2 ^ 10 + fld c 7 1 * 2 ^ 6 + fld c 6 1 * 2 ^ 7 +
    fld c 3 3 * 2 + fld c 2 1 * 2 ^ 5
  let b := fld c 12 1 * 2 ^ 8 + fld c 10 2 * 2 ^ 3 + fld c 5 2 * 2 ^ 6 + fld c 3 2 * 2 + fld c 2 1 * 2 ^ 5
  match fld c 13 3 with
  | 0 => some (mkI (widen 6 12 i6) rd 0 rd 0x13)
  | 1 => if rd = 0 then none else some (mkI (widen 6 12 i6) rd 0 rd 0x1B)
  | 2 => some (mkI (widen 6 12 i6) 0 0 rd 0x13)
  | 3 =>
    if i6 = 0 then none
    else if rd = 2 then
      let n := fld c 12 1 * 2 ^ 9 + fld c 6 1 * 2 ^ 4 + fld c 5 1 * 2 ^ 6 + fld c 3 2 * 2 ^ 7 + fld c 2 1 * 2 ^ 5
      some (mkI (widen 10 12 n) 2 0 2 0x13)
    else some (widen 6 20 i6 * 2 ^ 12 + rd * 2 ^ 7 + 0x37)
  | 4 => expandAlu c
  | 5 => some (mkJ (widen 12 21 j) 0)
  | 6 => some (mkB (widen 9 13 b) (8 + fld c 7 3) 0)
  | _ => some (mkB (widen 9 13 b) (8 + fld c 7 3) 1)

/-- Quadrant 2. -/
def expand2 (c : Nat) : Option Nat :=
  let rd := fld c 7 5
  let rs := fld c 2 5
  let sh := fld c 12 1 * 32 + rs
  match fld c 13 3 with
  | 0 => some (mkI sh rd 1 rd 0x13)
  | 2 => if rd = 0 then none else some (mkI (fld c 12 1 * 32 + fld c 4 3 * 4 + fld c 2 2 * 64) 2 2 rd 0x03)
  | 3 => if rd = 0 then none else some (mkI (fld c 12 1 * 32 + fld c 5 2 * 8 + fld c 2 3 * 64) 2 3 rd 0x03)
  | 4 =>
    if fld c 12 1 = 0 then
      (if rs ≠ 0 then some (mkR 0 rs 0 0 rd 0x33) else if rd = 0 then none else some (mkI 0 rd 0 0 0x67))
    else if rs ≠ 0 then some (mkR 0 rs rd 0 rd 0x33)
    else if rd = 0 then some 0x00100073
    else some (mkI 0 rd 0 1 0x67)
  | 6 => some (mkS (fld c 9 4 * 4 + fld c 7 2 * 64) rs 2 2)
  | 7 => some (mkS (fld c 10 3 * 8 + fld c 7 3 * 64) rs 2 3)
  | _ => none

/-- The 32-bit instruction a 16-bit one stands for; none for reserved words and those of absent extensions. -/
def expand (c : Nat) : Option Nat :=
  match c % 4 with
  | 0 => expand0 c
  | 1 => expand1 c
  | 2 => expand2 c
  | _ => none

/-! ## Arithmetic -/

/-- Register and immediate operations by funct3; `alt`: SUB and SRA. -/
def aluOp {n : Nat} (f3 : Nat) (alt : Bool) (sh : Nat) (a b : BitVec n) : BitVec n :=
  match f3 with
  | 0 => if alt then a - b else a + b
  | 1 => a <<< sh
  | 2 => if a.slt b then 1 else 0
  | 3 => if a.ult b then 1 else 0
  | 4 => a ^^^ b
  | 5 => if alt then a.sshiftRight sh else a >>> sh
  | 6 => a ||| b
  | _ => a &&& b

/-- The M extension by funct3: MUL, MULH, MULHSU, MULHU, DIV, DIVU, REM, REMU. -/
def mulDivOp {n : Nat} (f3 : Nat) (a b : BitVec n) : BitVec n :=
  match f3 with
  | 0 => a * b
  | 1 => BitVec.ofInt n (a.toInt * b.toInt / 2 ^ n)
  | 2 => BitVec.ofInt n (a.toInt * (b.toNat : Int) / 2 ^ n)
  | 3 => BitVec.ofNat n (a.toNat * b.toNat / 2 ^ n)
  | 4 => if b = 0 then BitVec.allOnes n else BitVec.ofInt n (a.toInt.tdiv b.toInt)
  | 5 => if b = 0 then BitVec.allOnes n else BitVec.ofNat n (a.toNat / b.toNat)
  | 6 => if b = 0 then a else BitVec.ofInt n (a.toInt.tmod b.toInt)
  | _ => if b = 0 then a else BitVec.ofNat n (a.toNat % b.toNat)

/-- A conditional branch is taken, by funct3; none for the two reserved ones. -/
def branchOp (f3 : Nat) (a b : BitVec 64) : Option Bool :=
  match f3 with
  | 0 => some (a == b)
  | 1 => some (a != b)
  | 4 => some (a.slt b)
  | 5 => some (!a.slt b)
  | 6 => some (a.ult b)
  | 7 => some (!a.ult b)
  | _ => none

/-- OP and OP-32: the result, or none for a reserved funct7; `w`: the 32-bit forms. -/
def opResult (w : Bool) (f7 f3 : Nat) (a b : BitVec 64) : Option (BitVec 64) :=
  let a' : BitVec 32 := a.truncate 32
  let b' : BitVec 32 := b.truncate 32
  if f7 = 1 then
    (if w then (if f3 = 0 ∨ 4 ≤ f3 then some ((mulDivOp f3 a' b').signExtend 64) else none) else some (mulDivOp f3 a b))
  else if f7 = 0 ∨ (f7 = 0x20 ∧ (f3 = 0 ∨ f3 = 5)) then
    (if w then (if f3 = 0 ∨ f3 = 1 ∨ f3 = 5 then some ((aluOp f3 (f7 == 0x20) (b.toNat % 32) a' b').signExtend 64) else none)
     else some (aluOp f3 (f7 == 0x20) (b.toNat % 64) a b))
  else none

/-- OP-IMM and OP-IMM-32. -/
def immResult (w : Bool) (i : Nat) (a : BitVec 64) : Option (BitVec 64) :=
  let f3 := fld i 12 3
  let v := immI i
  let a' : BitVec 32 := a.truncate 32
  let top := fld i 26 6
  let sh := fld i 20 6
  let alt := f3 == 5 && top == 0x10
  if (f3 = 1 ∧ top ≠ 0) ∨ (f3 = 5 ∧ top ≠ 0 ∧ top ≠ 0x10) then none
  else if w then
    (if f3 = 0 ∨ ((f3 = 1 ∨ f3 = 5) ∧ sh < 32) then some ((aluOp f3 alt sh a' (v.truncate 32)).signExtend 64) else none)
  else some (aluOp f3 alt sh a v)

end Sys2Proof.Machine
end

