-- ==== Sys2Proof/Machine/MilCsr.lean ====
section
/-!
DEFINITION. Machine/MilCsr.lean: control and status registers of a miller, its physical memory protection, and taking a trap (R296,
R301, R302). The standard ones are those of the RISC-V privileged specification for a core with machine and user modes only; where it
leaves a field's legal values open, log entry 50 gives the choice.
-/
namespace Sys2Proof.Machine

open Sys2Proof

/-- A stored CSR. -/
def State.csrRaw (s : State) (k n : Nat) : BitVec 64 := mget (fun _ => 0) (s.miller k).csr n
def State.setCsrRaw (s : State) (k n : Nat) (v : BitVec 64) : State :=
  s.setMiller k { s.miller k with csr := mset (fun _ => 0) (s.miller k).csr n v }

/-! ## Physical memory protection (R296): 16 entries of a granularity of 64 bytes -/

/-- Configuration byte of entry i: L in bit 7, A in bits [4:3], X, W, R. -/
def State.pmpCfg (s : State) (k i : Nat) : Nat := (s.csrRaw k (0x3A0 + 2 * (i / 8))).toNat / 256 ^ (i % 8) % 256

/-- Ones at the low end of a number. -/
def onesLow : Nat → Nat → Nat
  | 0, _ => 0
  | n + 1, v => if v % 2 = 1 then onesLow n (v / 2) + 1 else 0

/-- pmpaddr of entry i as it reads: the bits below the granule are ones for a NAPOT entry, zeros otherwise. -/
def State.pmpAddr (s : State) (k i : Nat) : Nat :=
  let v := (s.csrRaw k (0x3B0 + i)).toNat
  if s.pmpCfg k i / 16 % 2 = 1 then v / 8 * 8 + 7 else v / 16 * 16

/-- The bytes entry i covers: first, and first beyond. -/
def State.pmpRange (s : State) (k i : Nat) : Nat × Nat :=
  match s.pmpCfg k i / 8 % 4 with
  | 0 => (0, 0)
  | 1 => (if i = 0 then 0 else (s.csrRaw k (0x3B0 + (i - 1))).toNat / 16 * 64, (s.csrRaw k (0x3B0 + i)).toNat / 16 * 64)
  | _ =>
    let v := (s.csrRaw k (0x3B0 + i)).toNat / 8 * 8 + 7
    let t := onesLow 54 v
    ((v / 2 ^ (t + 1)) * 2 ^ (t + 3), (v / 2 ^ (t + 1)) * 2 ^ (t + 3) + 2 ^ (t + 3))

/-- An access of n bytes is allowed: bit 0 read, 1 write, 2 execute. The lowest entry that holds any of its bytes decides. -/
def State.pmpOk (s : State) (k : Nat) (machine : Bool) (a n bit : Nat) : Bool :=
  match (List.range 16).find? (fun i => let (lo, hi) := s.pmpRange k i; decide (lo < a + n) && decide (a < hi) && decide (lo < hi)) with
  | none => machine
  | some i =>
    let (lo, hi) := s.pmpRange k i
    let c := s.pmpCfg k i
    decide (lo ≤ a) && decide (a + n ≤ hi) && ((machine && decide (c < 128)) || c.testBit bit)

/-- A configuration byte as it is kept: reserved bits 0; write without read loses write; NA4 becomes NAPOT. -/
def pmpLegal (c : Nat) : Nat :=
  let c := c % 32 + c / 128 * 128
  let c := if c % 4 = 2 then c - 2 else c
  if c / 8 % 4 = 2 then c + 8 else c

/-- A write of pmpcfg: locked entries keep their byte. -/
def State.pmpWriteCfg (s : State) (k n : Nat) (v : BitVec 64) : State :=
  let b (j : Nat) : Nat :=
    let old := (s.csrRaw k n).toNat / 256 ^ j % 256
    if 128 ≤ old then old else pmpLegal (v.toNat / 256 ^ j % 256)
  s.setCsrRaw k n (BitVec.ofNat 64 ((List.range 8).foldl (fun acc j => acc + b j * 256 ^ j) 0))

/-- A write of pmpaddr: an entry that is locked, or is the base of a locked range, keeps its value. -/
def State.pmpWriteAddr (s : State) (k i : Nat) (v : BitVec 64) : State :=
  let next := if i < 15 then s.pmpCfg k (i + 1) else 0
  if 128 ≤ s.pmpCfg k i ∨ (128 ≤ next ∧ next / 8 % 4 = 1) then s
  else s.setCsrRaw k (0x3B0 + i) (v &&& BitVec.ofNat 64 (2 ^ 54 - 1))

/-! ## The registers -/

/-- misa: RV64 with I, M, A, C and user mode. -/
def misaValue : BitVec 64 := BitVec.ofNat 64 (2 ^ 63 + 2 ^ 20 + 2 ^ 12 + 2 ^ 8 + 2 ^ 2 + 1)

/-- Bits of mstatus that hold a value: MIE, MPIE, MPP, MPRV, TW. UXL reads 2. -/
def mstatusMask : Nat := 0x221888

/-- Words 0, 1 and 3 of the item being dispatched, and word 2 with its sequence number (R302). -/
def wiInfo (i : WItem) : BitVec 64 := BitVec.ofNat 64 (i.w2.toNat % 2 ^ 32 + i.seq % 2 ^ 32 * 2 ^ 32)

/-- A CSR as it reads, without its side effect; none where there is none of that number. -/
def State.csrPeek (s : State) (k n : Nat) : Option (BitVec 64) :=
  let shown (f : WItem → BitVec 64) : BitVec 64 := ((s.schedCore k).shown.map f).getD 0
  if n = 0x300 then some (s.csrRaw k n ||| BitVec.ofNat 64 (2 ^ 33))
  else if n = 0x301 then some misaValue
  else if n = 0x344 then some (BitVec.ofNat 64 (s.mip k))
  else if n = 0xF14 then some (BitVec.ofNat 64 k)
  else if 0xF11 ≤ n ∧ n ≤ 0xF15 then some 0
  else if [0x304, 0x305, 0x306, 0x30A, 0x320, 0x340, 0x341, 0x342, 0x343, 0x3A0, 0x3A2, 0xB00, 0xB02, 0x7C0, 0x7C1, 0x8C0].contains n then
    some (s.csrRaw k n)
  else if 0x3B0 ≤ n ∧ n ≤ 0x3BF then some (BitVec.ofNat 64 (s.pmpAddr k (n - 0x3B0)))
  else if n = 0xC00 then some (s.csrRaw k 0xB00)
  else if n = 0xC01 then some (BitVec.ofNat 64 s.tb0)
  else if n = 0xC02 then some (s.csrRaw k 0xB02)
  else if (0x323 ≤ n ∧ n ≤ 0x33F) ∨ (0xB03 ≤ n ∧ n ≤ 0xB1F) ∨ (0xC03 ≤ n ∧ n ≤ 0xC1F) then some 0
  else if n = 0x7C2 then some (BitVec.ofNat 64 (mget (fun _ => 0) s.mlipend k))
  else if n = 0x7C3 ∨ n = 0x8C1 then some 0
  else if n = 0xFC0 then some (shown (·.w0))
  else if n = 0xFC1 then some (shown (·.w1))
  else if n = 0xFC2 then some (shown (·.w3))
  else if n = 0xFC3 then some (shown wiInfo)
  else if n = 0xCC0 then some (((s.runItem k).map wiInfo).getD 0)
  else none

/-- A read of a CSR: mwiinfo takes the item (R302). -/
def State.csrRead (s : State) (k n : Nat) : Option (BitVec 64 × State) :=
  (s.csrPeek k n).map (fun v => (v, if n = 0xFC3 then s.takeItem k else s))

/-- Code of a core may reach the CSR: its mode, and for the user counters mcounteren. -/
def State.csrMay (s : State) (k n : Nat) : Bool :=
  (s.miller k).machine ||
  (n / 256 % 4 == 0 && (!(decide (0xC00 ≤ n) && decide (n ≤ 0xC1F)) || (s.csrRaw k 0x306).getLsbD (n - 0xC00)))

/-- A write of a CSR. `cycles`: what mcycle still counts for the instruction that makes it, so that the value written is what the next
instruction reads. -/
def State.csrWrite (s : State) (k n : Nat) (v : BitVec 64) (cycles retired : Nat) : State :=
  let keep (mask : Nat) : State := s.setCsrRaw k n (v &&& BitVec.ofNat 64 mask)
  if n = 0x300 then
    let mpp := v.toNat / 2 ^ 11 % 4
    let w := v.toNat &&& mstatusMask
    let w := if mpp = 0 ∨ mpp = 3 then w else w - mpp * 2 ^ 11 + (s.csrRaw k n).toNat / 2 ^ 11 % 4 * 2 ^ 11
    s.setCsrRaw k n (BitVec.ofNat 64 w)
  else if n = 0x304 then keep 0x888
  else if n = 0x305 then s.setCsrRaw k n (v &&& ~~~2#64)
  else if n = 0x306 then keep 7
  else if n = 0x320 then keep 5
  else if n = 0x30A ∨ n = 0x7C0 then keep 1
  else if n = 0x340 ∨ n = 0x342 ∨ n = 0x343 then s.setCsrRaw k n v
  else if n = 0x341 then s.setCsrRaw k n (v &&& ~~~1#64)
  else if n = 0x3A0 ∨ n = 0x3A2 then s.pmpWriteCfg k n v
  else if 0x3B0 ≤ n ∧ n ≤ 0x3BF then s.pmpWriteAddr k (n - 0x3B0) v
  else if n = 0xB00 then s.setCsrRaw k n (if (s.csrRaw k 0x320).getLsbD 0 then v else v - BitVec.ofNat 64 cycles)
  else if n = 0xB02 then s.setCsrRaw k n (if (s.csrRaw k 0x320).getLsbD 2 then v else v - BitVec.ofNat 64 retired)
  else if n = 0x7C1 then keep 0x1F
  else if n = 0x7C2 then
    { s with mlipend := mset (fun _ => 0) s.mlipend k (mget (fun _ => 0) s.mlipend k &&& ~~~(v &&& 0x1E#64)).toNat }
  else if n = 0x7C3 then s.mdflush k v
  else if n = 0x8C0 then (s.setCsrRaw k n v).itemEnds k
  else if n = 0x8C1 then
    let w := v.toNat
    if w / 2 ^ 31 % 2 = 1 then
      let who : Requester := if (s.miller k).machine then .shell (Fin.ofNat 32 k) else .handler (Fin.ofNat 32 k)
      s.handover who (w / 2 ^ 16 % 16) (w % 8) (w / 2 ^ 30 % 2 == 1)
    else s
  else s

/-! ## Traps -/

/-- Core k takes a trap into machine mode: `tval` for mtval. Its reservation ends (R299), and its trace has a TRAP packet (R372). -/
def State.trapMiller (s : State) (k cause : Nat) (intr : Bool) (tval : BitVec 64) : State :=
  let s := s.trcRun k (s.miller k).machine (fun s => s.trcPacket k 6 ((if intr then 2 ^ 41 else 0) + cause % 32 * 2 ^ 36))
  let m := s.miller k
  let st := (s.csrRaw k 0x300).toNat
  let st' := st - (st &&& 0x1888) + (if st.testBit 3 then 0x80 else 0) + (if m.machine then 0x1800 else 0)
  let tv := s.csrRaw k 0x305
  let base := tv &&& ~~~3#64
  let c : BitVec 64 := BitVec.ofNat 64 (cause + if intr then 2 ^ 63 else 0)
  let csr := [(0x300, BitVec.ofNat 64 st'), (0x341, m.pc), (0x342, c), (0x343, tval)].foldl (fun l e => mset (fun _ => 0) l e.1 e.2) m.csr
  s.setMiller k { m with csr := csr, machine := true, resv := none, wfi := false,
                         pc := if intr && tv.getLsbD 0 then base + BitVec.ofNat 64 (4 * cause) else base }

/-- The interrupt core k takes before its next instruction: external, then software, then timer. -/
def State.interruptOf (s : State) (k : Nat) : Option Nat :=
  let m := s.miller k
  if m.machine && !(s.csrRaw k 0x300).getLsbD 3 then none
  else [11, 3, 7].find? (fun i => (s.mip k).testBit i && (s.csrRaw k 0x304).getLsbD i)

/-- MRET. -/
def State.mretMiller (s : State) (k : Nat) : State :=
  let m := s.miller k
  let st := (s.csrRaw k 0x300).toNat
  let toM := st / 2 ^ 11 % 4 == 3
  let st' := st - (st &&& 0x1888) + (if st.testBit 7 then 8 else 0) + 0x80
  let st' := if toM then st' else st' - (st' &&& 0x20000)
  s.setMiller k { m with csr := mset (fun _ => 0) m.csr 0x300 (BitVec.ofNat 64 st'), machine := toM, pc := s.csrRaw k 0x341 }

end Sys2Proof.Machine
end

