-- ==== Sys2Proof/Machine/Time.lean ====
section
/-!
DEFINITION. Machine/Time.lean: the time bases TB0, TB2 and TB3 (index 0, 1, 2), their correction, pulse generators, capture inputs
and the PTP port (R379 to R395).
-/
namespace Sys2Proof.Machine

open Sys2Proof

/-- The number events give a base: 0, 2 or 3 (R458). -/
def baseName (k : Nat) : Nat := if k = 0 then 0 else k + 1

/-- Whole nanoseconds of a base, and its count in 2^-32 ns. -/
def State.baseNs (s : State) (k : Nat) : Nat := mget (fun _ => 0) s.time.ns k
def State.baseCount (s : State) (k : Nat) : Nat := s.baseNs k * 2 ^ 32 + mget (fun _ => 0) s.time.frac k

/-- Set the count of a base; the whole part wraps (R379). -/
def State.setBase (s : State) (k : Nat) (c : Int) : State :=
  let n := (c % 2 ^ 96).toNat
  { s with time := { s.time with
    ns := mset (fun _ => 0) s.time.ns k (n / 2 ^ 32), frac := mset (fun _ => 0) s.time.frac k (n % 2 ^ 32) } }

/-- Slew outstanding, in 2^-32 ns. -/
def State.slewOf (s : State) (k : Nat) : Int := mget (fun _ => 0) s.time.slew k
def State.setSlew (s : State) (k : Nat) (v : Int) : State := { s with time := { s.time with slew := mset (fun _ => 0) s.time.slew k v } }

/-- The signed rate correction in 2^-40 (R384). -/
def State.rateOf (s : State) (k : Nat) : Int := (s.reg (R.TBK_RATE k)).toInt

/-- Base k adds TB0's rate and slew to its own (R384). -/
def State.follows (s : State) (k : Nat) : Bool := k != 0 && s.on (F.TBK_CFG_follow k)

/-- ±500 ppm in units of 2^-40. -/
def maxRate : Nat := 549755814

/-- 1.25 ns times a correction of c × 2^-40, divided by 1 − spread ÷ 2, in 2^-32 ns and rounded down (R380). -/
def State.perCycle (s : State) (c : Int) : Int :=
  (5 * 2 ^ 30 * 4000 * c) / ((2 ^ 40 * (4000 - min 10 (s.get F.TB_CTRL_spread)) : Nat) : Int)

/-- What of its outstanding slew a base applies in one cycle (R383). -/
def State.slewStep (s : State) (k : Nat) : Int :=
  let left := s.slewOf k
  let most := s.perCycle maxRate
  if left < 0 then max left (-most) else min left most

/-- One control cycle: every base counts on (R380, R383, R384). -/
def State.tick (s : State) : State :=
  let s0 := s
  s.each [0, 1, 2] (fun s k =>
    let f := s0.follows k
    let inc := s0.perCycle (2 ^ 40 + s0.rateOf k + (if f then s0.rateOf 0 else 0)) + s0.slewStep k + (if f then s0.slewStep 0 else 0)
    (s.setBase k (s.baseCount k + inc)).setSlew k (s0.slewOf k - s0.slewStep k))

/-- A correction is accepted from its writer (R385). -/
def State.tbAllowed (s : State) (who : Requester) (k : Nat) : Bool :=
  match sessOf who with
  | some port => s.sessLevel port == 2 && s.inScope port none
  | none => who == .host && (k != 0 || s.on (F.TBK_CFG_source 0))

/-! ## Pulse generators (R388 to R390) -/

/-- A compare of a value with a target passes (R388). -/
def reached (value target : Nat) : Bool := decide ((value + 2 ^ 64 - target % 2 ^ 64) % 2 ^ 64 < 2 ^ 63)

/-- Value of a generator's time base. -/
def State.pgValue (s : State) (g : Nat) : Nat :=
  match s.get (F.TB_PGCFG_tb.sel g) with
  | 3 => s.turns (s.get (F.TB_PGCFG_part.sel g))
  | k => s.baseNs k

def State.pgNext (s : State) (g : Nat) : Nat := mget (fun _ => 0) s.time.next g
def State.setPgNext (s : State) (g v : Nat) : State := { s with time := { s.time with next := mset (fun _ => 0) s.time.next g (v % 2 ^ 64) } }
def State.setPulse (s : State) (g : Nat) (b : Bool) : State :=
  { s with time := { s.time with pulse := if b then s.time.pulse ||| 2 ^ g else s.time.pulse &&& (255 - 2 ^ g) } }
def State.pgStart (s : State) (g : Nat) : Nat := s.get64 (selAddr R.TB_PGSTART_LO g) (selAddr R.TB_PGSTART_HI g)
def State.pgPeriod (s : State) (g : Nat) : Nat := s.get64 (selAddr R.TB_PGPERIOD_LO g) (selAddr R.TB_PGPERIOD_HI g)

/-- A fire (R389): the bit, the pulse, the miller; a one-shot, and a periodic generator after its last fire, stops. -/
def State.pgFire (s : State) (g : Nat) : State :=
  let s := (s.setBit F.TB_EVSTAT_pg_fired g true).setPulse g true
  let s := if s.on (F.TB_PGCFG_irq.sel g) then s.raiseIrq (s.get (F.TB_PGCFG_core.sel g)) 3 else s
  let cnt := s.get (F.TB_PGCOUNT_count.sel g)
  let s := s.put (F.TB_PGCOUNT_count.sel g) (cnt - 1)
  let s := s.setPgNext g (s.pgNext g + s.pgPeriod g)
  if s.pgPeriod g = 0 ∨ cnt = 1 then s.put (F.TB_PGCFG_en.sel g) 0 else s

/-- The first fire of a generator after a value: the least start + k × period beyond it (R390). -/
def State.pgAfter (s : State) (g v : Nat) : Nat :=
  let st := s.pgStart g
  if reached v st then st + ((v + 2 ^ 64 - st) % 2 ^ 64 / s.pgPeriod g + 1) * s.pgPeriod g else st

/-- A step of base k reschedules its generators (R390). -/
def State.pgStep (s : State) (k : Nat) : State :=
  s.each ((List.range 8).filter (fun g => s.on (F.TB_PGCFG_en.sel g) && s.get (F.TB_PGCFG_tb.sel g) == k)) (fun s g =>
    if s.pgPeriod g = 0 then (if reached (s.baseNs k) (s.pgNext g) then s.pgFire g else s)
    else s.setPgNext g (s.pgAfter g (s.baseNs k)))

/-- PG_FIRE (R389): a running generator whose compare passes fires. -/
def execPgFire (gen : Fin 8) (s : State) : Out :=
  let g := gen.val
  .next (if s.on (F.TB_PGCFG_en.sel g) && reached (s.pgValue g) (s.pgNext g) then s.pgFire g else s)

/-- PULSE_WIDTH_END (R389): the output falls; one as wide as its period stays high until its generator stops. -/
def execPulseWidthEnd (gen : Fin 8) (s : State) : Out :=
  let g := gen.val
  let width := max 1 (s.get (F.TB_PGCFG_width.sel g)) * 100
  .next (if s.on (F.TB_PGCFG_en.sel g) && s.get (F.TB_PGCFG_tb.sel g) != 3 && s.pgPeriod g != 0 && decide (s.pgPeriod g ≤ width) then s
    else s.setPulse g false)

/-! ## Steps and rates (R382 to R385) -/

/-- TB_STEP_SUBMIT (R382, R383): a write of TBk_STEP_HI; TBk_STEP_LO holds the low half. -/
def execTbStepSubmit (who : Requester) (k : Fin 3) (hi : Word) (s : State) : Out :=
  let k := k.val
  if !s.tbAllowed who k then .next s
  else
    let s := s.setReg (R.TBK_STEP_HI k) hi
    let raw := s.get64 (R.TBK_STEP_LO k) (R.TBK_STEP_HI k)
    let off : Int := (BitVec.ofNat 64 raw).toInt
    let data := [baseName k, raw % 2 ^ 32, raw / 2 ^ 32]
    if !s.on (F.TBK_STATUS_anchored k) then
      let s := (s.setBase k (s.baseCount k + off * 2 ^ 32)).put (F.TBK_STATUS_anchored k) 1
      .next ((s.pgStep k).raise 0xA001 0xFF data)
    else
      let thr := s.get F.TB_JUMPTHR_us
      if thr ≠ 0 ∧ off.natAbs * 2 ^ 32 + (s.slewOf k).natAbs ≤ thr * 1000 * 2 ^ 32 then .next (s.setSlew k (s.slewOf k + off * 2 ^ 32))
      else .next ((s.bump F.TB_STATUS_refused 1).raise 0xA002 0xFF data)

/-- TB_UNANCHOR (R382). -/
def execTbUnanchor (who : Requester) (k : Fin 3) (s : State) : Out :=
  .next (if s.tbAllowed who k.val then s.put (F.TBK_STATUS_anchored k.val) 0 else s)

/-- TB_RATE_WRITE (R384): beyond ±500 ppm the nearer limit takes effect. -/
def execTbRateWrite (who : Requester) (k : Fin 3) (value : Word) (s : State) : Out :=
  let k := k.val
  if !s.tbAllowed who k then .next s
  else
    let v := value.toInt
    let c := max (-(maxRate : Int)) (min (maxRate : Int) v)
    .next ((s.setReg (R.TBK_RATE k) (BitVec.ofInt 32 c)).flag (F.TBK_STATUS_clamped k) (c != v))

/-- SLEW_COMPLETE (R383): the outstanding slew has been applied, to the bases that follow as well (R384). -/
def execSlewComplete (k : Fin 3) (s : State) : Out :=
  let k := k.val
  let left := s.slewOf k
  let who := if k = 0 then [0, 1, 2].filter (fun j => j == 0 || s.follows j) else [k]
  .next ((s.each who (fun s j => s.setBase j (s.baseCount j + left))).setSlew k 0)

/-! ## Capture inputs (R391) -/

/-- The GPIO pin that serves capture input i (R420): the lowest-numbered one set to it, once its input routing has changed (R423). -/
def State.tcapPin (s : State) (i : Nat) : Bool :=
  match (List.range 6).find? (fun j => s.get (F.GPIO_PIN_func (8 * j + i)) == 2) with
  | some j => decide ((mget (fun _ => 0) s.pins.seq (8 * j + i) : Nat) ≤ 1)
  | none => false

/-- TCAP_EDGE: an edge on capture input i, sampled two control cycles after the pin. An input that no GPIO pin serves sees none. -/
def execTcapEdge (i : Fin 8) (rising : Bool) (s : State) : Out :=
  let i := i.val
  let cfg := s.get F.TB_CAPCFG_inputs / 16 ^ i % 16
  if !s.tcapPin i ∨ cfg / 4 = 3 ∨ !(cfg % 4).testBit (if rising then 0 else 1) then .next s
  else if s.bit F.TB_EVSTAT_captured i then
    let s := s.setBit F.TB_EVSTAT_cap_overrun i true
    if s.time.overran.testBit i then .next s
    else .next ({ s with time := { s.time with overran := s.time.overran ||| 2 ^ i } }.raise 0xA003 0xFF [i])
  else
    let at_ := ((s.baseCount (cfg / 4) : Int) - 5 * 2 ^ 31) % 2 ^ 96
    let s := s.put64 (R.TB_CAP_LO i) (R.TB_CAP_HI i) (at_.toNat / 2 ^ 32)
    let s := { s with time := { s.time with overran := s.time.overran &&& (255 - 2 ^ i) } }
    .next (s.setBit F.TB_EVSTAT_captured i true)

/-! ## The PTP port (R392, R393, R395) -/

/-- An event message the filter recognises is stamped and queued; one of another domain is counted. -/
def State.ptpStamp (s : State) (tx : Bool) (m : PtpMsg) : State :=
  let on := s.on F.PTP_CTRL_en && s.on (if tx then F.PTP_CTRL_ts_tx_en else F.PTP_CTRL_ts_rx_en)
  if !on || !s.bit F.PTP_FILTER_transports (2 - m.transport.val) then s
  else if !(s.on F.PTP_FILTER_any_domain) && s.get F.PTP_FILTER_domain != m.domain.toNat then s.bump F.PTP_DOMAINDROP_count 1
  else
    let lat : Int := (s.get (if tx then F.PTP_TXLAT_ps else F.PTP_RXLAT_ps) * 2 ^ 32 / 1000 : Nat)
    let at_ := (((s.baseCount 0 : Int) + (if tx then lat else -lat)) % 2 ^ 96).toNat
    let e : PtpStamp := ⟨at_, BitVec.ofNat 32 (m.mtype.val * 2 ^ 28 + m.domain.toNat * 2 ^ 20 + m.seq.toNat), m.clockId, m.port⟩
    let s := s.bump (if tx then F.PTP_TXEVENTS_count else F.PTP_RXEVENTS_count) 1
    let s := if m.mtype.val = 0 then s.put64 R.PTP_LASTSYNC_LO R.PTP_LASTSYNC_HI (at_ / 2 ^ 32) else s
    let s := if m.mtype.val = 0 ∧ tx = false then s.bump F.PTP_RXSYNC_count 1 else s
    if tx then (if s.time.tx.length < 64 then { s with time := { s.time with tx := s.time.tx ++ [e] } } else s.bump F.PTP_TSLOST_count 1)
    else (if s.time.rx.length < 64 then { s with time := { s.time with rx := s.time.rx ++ [e] } } else s.bump F.PTP_TSLOST_count 1)

/-- PTP_RX_EVENT_MESSAGE (R392). -/
def execPtpRxEventMessage (msg : PtpMsg) (s : State) : Out :=
  .next (if s.on F.PTP_CTRL_en then (s.bump F.PTP_RXFRAMES_count 1).ptpStamp false msg else s)

/-- PTP_TX_EVENT_MESSAGE (R392). -/
def execPtpTxEventMessage (msg : PtpMsg) (s : State) : Out :=
  .next (if s.on F.PTP_CTRL_en then (s.bump F.PTP_TXFRAMES_count 1).ptpStamp true msg else s)

/-- PTP_TSPOP (R393). -/
def execPtpTspop (dir : Bool) (s : State) : Out :=
  let s := s.flag F.PTP_TSPOP_dir dir
  match if dir then s.time.tx else s.time.rx with
  | [] => .next (s.put F.PTP_TSPOP_valid 0)
  | e :: rest =>
    let s := { s with time := if dir then { s.time with tx := rest } else { s.time with rx := rest } }
    let s := (s.put64 R.PTP_TS_NS_LO R.PTP_TS_NS_HI (e.at_ / 2 ^ 32)).setReg R.PTP_TS_FRAC (BitVec.ofNat 32 e.at_)
    let s := (s.setReg R.PTP_TS_ID e.id).put64 R.PTP_TS_SRC0 R.PTP_TS_SRC1 e.clockId.toNat
    .next ((s.put F.PTP_TS_SRC2_port_num e.port.toNat).put F.PTP_TSPOP_valid 1)

/-- PTP_CNT_CLEAR (R395). -/
def execPtpCntClear (s : State) : Out :=
  .next (s.each [R.PTP_RXFRAMES, R.PTP_TXFRAMES, R.PTP_RXEVENTS, R.PTP_TXEVENTS, R.PTP_TSLOST, R.PTP_RXERR, R.PTP_DOMAINDROP,
    R.PTP_RXSYNC] (fun s a => s.setReg a 0))

/-- MGMT_LINK_CHANGE (R392, R395). -/
def execMgmtLinkChange (up anDone : Bool) (partner : BitVec 16) (s : State) : Out :=
  .next (((s.flag F.PTP_STATUS_link up).flag F.PTP_STATUS_an_done anDone).put F.PTP_AN_partner partner.toNat)

end Sys2Proof.Machine
end

