-- ==== Sys2Proof/Machine/Power.lean ====
section
/-!
DEFINITION. Machine/Power.lean: power domains, sensors and supplies (R402 to R409, R413, R415).
-/
namespace Sys2Proof.Machine

open Sys2Proof

/-! ## Domains -/

/-- PWR_DSTATn as it reads (R413). -/
def State.dstat (s : State) (u : Nat) : Nat :=
  (s.reg ((F.PWR_DSTAT_held u).addr)).toNat / 2 ^ 26 * 2 ^ 26 + (if s.domHeld u (s.on F.PCIE_STATUS_up) then 2 ^ 25 else 0) +
    (s.reg (R.PWR_DSTAT u)).toNat % 2 ^ 25

/-- The first power fault is kept (R413). -/
def State.powFault (s : State) (kind u : Nat) : State :=
  if s.on F.PWR_FAULT_flag then s else ((s.put F.PWR_FAULT_flag 1).put F.PWR_FAULT_kind kind).put F.PWR_FAULT_domain u

/-- A power event: the owner of a row or flume domain, the domain and its status (R458). -/
def State.powEvent (s : State) (code u : Nat) : State := s.raise code (ownerField (s.domOwner u)) [u, s.dstat u]

/-- The mills of row domain u lose their stores and memories; in Off their instruction stores too, which NOPs refill (R402). -/
def State.loseRow (s : State) (u : Nat) (off : Bool) : State :=
  let mine (m : Nat) : Bool := m / 8 == u
  let st := s.stones
  let st := { st with
    rows := mdrop (fun k => mine (k / (4864 * 16))) st.rows, ueRows := mdrop (fun k => mine (k / (4864 * 16))) st.ueRows,
    writes := st.writes.filter (fun w => !mine (w.site / 16)) }
  let st := if off then { st with
      words := mdrop (fun k => mine (k / 2 ^ 21)) st.words, ueWords := mdrop (fun k => mine (k / 2 ^ 21)) st.ueWords,
      tapBit := mdrop (fun k => mine (k / 2 ^ 21)) st.tapBit }
    else st
  { s with
    stones := st
    dm := { s.dm with
      mem := mdrop (fun k => mine (k / 16384)) s.dm.mem, ue := mdrop (fun k => mine (k / 131072)) s.dm.ue,
      writes := s.dm.writes.filter (fun w => !mine w.mill), results := s.dm.results.filter (fun r => !mine r.mill),
      ports := mdrop (fun id => mine (id / 2)) s.dm.ports } }

/-- Every region of quadrant q is at spacer again, as at the design-reset stage (R130): memory contents and configuration stay. -/
def State.spaceFlume (s : State) (q : Nat) : State :=
  let f := s.flume
  { s with flume := { f with
    cells := mmap (fun _ => {}) (fun k x => if k / 196608 = q then { x.empty with level := false } else x) f.cells,
    launch := mmap (fun _ => {}) (fun k x => if k / 512 = q then { bits := x.bits, fireBit := x.fireBit } else x) f.launch,
    land := mmap (fun _ => {}) (fun k x => if k / 512 = q then { bits := x.bits, ackBit := x.ackBit, nets := x.nets } else x) f.land,
    mems := mmap (fun _ => {}) (fun k x => if k / 512 = q then { x with phase := 0, ack := false } else x) f.mems,
    pins := mmap (fun _ => {}) (fun k x => if k / 160 = q then { x with phase := 0, ack := false, held := none, owes := false } else x) f.pins,
    regions := mmap (fun _ => {}) (fun k x => if k / 512 = q then { x with awaiting := [], acceptCycle := none, counted := true } else x) f.regions } }

/-- DRAM of group g is lost, and its channels are untrained (R402). -/
def State.loseDram (s : State) (g : Nat) : State :=
  let mine (c : Nat) : Bool := c / 4 == g
  let s := { s with dram := { s.dram with
    mem := mdrop (fun k => mine (k / 2 ^ 38)) s.dram.mem, ue := mdrop (fun k => mine (k / 2 ^ 32)) s.dram.ue } }
  s.each ((List.range 4).map (4 * g + ·)) (fun s c =>
    let x := s.chan c
    let s := (s.setPostponed c []).setChan c { rated := x.rated, hot := x.hot }
    if 2 < s.cstate c then s.put (F.DDRC_STATUS_state c) 2 else s)

/-- The spokes of group g lose everything (R402). -/
def State.loseSpokes (s : State) (g : Nat) : State :=
  s.each ((List.range 4).map (4 * g + ·)) (fun s sp =>
    let s := s.each ([R.SPK_CTRL sp, R.SPK_STATUS sp, R.SPK_PEER sp, R.SPK_LAT sp, R.SPK_ERR sp, R.SPK_EQ sp]) (fun s a => s.setReg a (resetWord a))
    let s := { s with regs := mdrop (fun a => R.LANE_STAT (8 * sp) ≤ a && a < R.LANE_STAT (8 * sp) + 8 * 0x100) s.regs }
    s.setSpoke sp {})

/-- What a domain loses on entering a state (R130, R402). -/
def State.enterState (s : State) (u st : Nat) : State :=
  if u < 32 then (if 4 ≤ st then s.loseRow u (st == 5) else s)
  else if u < 36 then (if 4 ≤ st then s.clearFlume (fun q => q == u - 32) else if st = 3 then s.spaceFlume (u - 32) else s)
  else if u < 40 then
    if st = 5 then s.loseDram (u - 36)
    else if 3 ≤ st then s.each ((List.range 4).map (4 * (u - 36) + ·)) State.chanSleeps
    else s
  else if u < 44 then (if st = 5 then s.loseSpokes (u - 40) else s)
  else s

/-- A domain goes down to a state: counted as a transition, and as an entry from Nap on (R413). -/
def State.lowerTo (s : State) (u st : Nat) : State :=
  let s := (s.enterState u st).bumpWrap F.PWR_TRANS_count 1
  let s := ((s.put (F.PWR_DSTAT_state u) st).put (F.PWR_DSTAT_target u) st).put (F.PWR_DSTAT_waking u) 0
  (if 2 ≤ st then s.bump (F.PWR_DSTAT_entries u) 1 else s).settleMis

/-- PWR_DOM.max_state: fixed for domains 44 to 47; 6 and 7 act as 5. -/
def State.maxState (s : State) (u : Nat) : Nat := min 5 (s.get (F.PWR_DOM_max_state u))

/-- Core k is in Nap. -/
def State.napping (s : State) (k : Nat) : Bool := s.bit F.PWR_CORENAP_cores k

/-- The known events of core k (R405), each as its time from now in ns and its source as PWR_NEXTSRC names it: the heads of the delay
lists whose item would be dispatched to the core, its mtimecmp, and the pulse generators that raise TIME on it. -/
def State.coreEvents (s : State) (k : Nat) : List (Nat × Nat) :=
  let heads := (List.range 4).filterMap (fun l => s.sched.delayed.find? (fun d => d.list == l))
  (heads.filter (fun d => s.placeItem d.item == some k)).map (fun d => ((d.due - s.sched.ticks) * 1000 - s.tb0 % 1000, 1)) ++
  (if s.mtip k then [] else [(((s.miller k).mtimecmp - BitVec.ofNat 64 s.tb0).toNat, 2)]) ++
  ((List.range 8).filter (fun g => s.on (F.TB_PGCFG_en.sel g) && s.on (F.TB_PGCFG_irq.sel g) && s.get (F.TB_PGCFG_core.sel g) == k &&
    s.get (F.TB_PGCFG_tb.sel g) != 3)).map (fun g =>
      (if reached (s.pgValue g) (s.pgNext g) then 0 else (s.pgNext g + 2 ^ 64 - s.pgValue g % 2 ^ 64) % 2 ^ 64, 3))

/-- Core k may take Nap (R402, R405): PWR_CTRL.factor times its wake of 2 µs is no more than the time to its next known event. -/
def State.napWorth (s : State) (k : Nat) : Bool :=
  (s.coreEvents k).all (fun e => decide (max 1 (s.get F.PWR_CTRL_factor) * 2000 ≤ e.1))

/-- The earliest known event of the cores: time in ns and source; none when no core has one. -/
def State.nextEvent (s : State) : Option (Nat × Nat) :=
  (cores.flatMap s.coreEvents).foldl (fun best e =>
    match best with
    | none => some e
    | some b => if e.1 < b.1 then some e else best) none

/-- POWER_STATE_ENTRY (R403, R405): the manager lowers domain u, or, from 48 on, core u − 48 in WFI to Nap. -/
def execPowerStateEntry (u : Fin 80) (st : Fin 6) (s : State) : Out :=
  if 48 ≤ u.val then
    let k := u.val - 48
    if s.on F.PWR_CTRL_en && st.val == 2 && s.bit F.PWR_CORECFG_cores k && (s.miller k).wfi && !s.napping k && s.napWorth k then
      .next (((s.trcOutside k 7 0).trcHold k).setBit F.PWR_CORENAP_cores k true)
    else .next s
  else
    let u := u.val
    if s.on F.PWR_CTRL_en && s.unitExists u && !s.on (F.PWR_DOM_force_en u) && !s.on (F.PWR_DSTAT_waking u) && takesState u st &&
        !s.domHeld u false && decide (st.val ≤ min (s.maxState u) (s.domCap u)) && decide (s.dstate u < st.val) then
      .next (s.lowerTo u st)
    else .next s

/-- WAKE_START (R405): before a known event, for a hold, or because the manager is off. -/
def execWakeStart (u : Fin 80) (s : State) : Out :=
  if u.val < 48 ∧ s.unitExists u ∧ s.dstate u ≠ 0 ∧ !s.on (F.PWR_DOM_force_en u) then .next (s.wakeTo u 0) else .next s

/-- ACCESS_WAKE (R406): a mill in Sleep or Off is not woken by a packet. -/
def execAccessWake (u : Fin 80) (s : State) : Out :=
  if u.val < 48 ∧ s.unitExists u ∧ s.dstate u ≠ 0 ∧ !s.on (F.PWR_DOM_force_en u) ∧ !(u.val < 32 && decide (4 ≤ s.dstate u)) then .next (s.wakeTo u 0) else .next s

/-- WAKE_COMPLETE (R404, R217): the domain has reached its target; a group's channels leave self-refresh. A core leaves Nap. -/
def execWakeComplete (u : Fin 80) (s : State) : Out :=
  if 48 ≤ u.val then
    let k := u.val - 48
    if s.napping k then .next (((s.setBit F.PWR_CORENAP_cores k false).trcGo k true).trcOutside k 8 s.tb0) else .next s
  else
    let u := u.val
    if s.on (F.PWR_DSTAT_waking u) then
      .next (s.domainUp u (s.get (F.PWR_DSTAT_target u)))
    else .next s

/-- PWR_FORCE_WRITE (R407, R413): a write of PWR_DOMn. A force of 6 or 7 makes it ignored, and so does a disabled quadrant. -/
def execPwrForceWrite (d : Fin 48) (value : Word) (s : State) : Out :=
  let u := d.val
  let force := (F.PWR_DOM_force u).of value
  let ms := (F.PWR_DOM_max_state u).of value
  if 6 ≤ force ∨ !s.unitExists u then .next s
  else
    let s0 := s
    let s := if (F.PWR_DOM_refused u).of value = 1 then s.put (F.PWR_DOM_refused u) 0 else s
    let s := if u < 44 then s.put (F.PWR_DOM_max_state u) ms else s
    if (F.PWR_DOM_force_en u).of value = 0 then .next ((s.put (F.PWR_DOM_force_en u) 0).put (F.PWR_DOM_force u) force)
    else if !takesState u force || (decide (0 < force) && s.domHeld u (s.on F.PCIE_STATUS_up)) then
      .next (((s.put (F.PWR_DOM_refused u) 1).powEvent 0x8004 u).powFault 2 u)
    else
      let s := (s.put (F.PWR_DOM_force_en u) 1).put (F.PWR_DOM_force u) force
      let lost := match s.domOwner u with
        | some p => if decide (4 ≤ force) && decide (s.dstate u < force) && (s.pstate p == stHalted || s.pstate p == stLoaded) then some p else none
        | none => none
      let s := if s.dstate u < force then s.lowerTo u force else if force < s.dstate u then s.wakeTo u force else (s.put (F.PWR_DSTAT_target u) force).settleMis
      match lost with
      | some p => .next ((((s.modPart p (fun x => { x with contextLost := true, invalidToLoad := true })).powEvent 0x8005 u).powFault 3 u).edgeOrder s0)
      | none => .next s

/-- PWR_WAKE_TIMEOUT (R407). -/
def execPwrWakeTimeout (d : Fin 48) (s : State) : Out :=
  if s.on (F.PWR_DSTAT_waking d) then .next ((s.powEvent 0x8006 d).powFault 1 d) else .next s

/-- PWR_CNT_CLEAR (R413). -/
def execPwrCntClear (s : State) : Out :=
  .next ((s.put F.PWR_TRANS_count 0).each (List.range 48) (fun s u => s.put (F.PWR_DSTAT_entries u) 0))

/-! ## Sensors and supplies -/

/-- A temperature in 1/16 °C (R415). -/
def tempOf (v : Nat) : Int := (BitVec.ofNat 16 v).toInt

/-- The hottest valid sensor and its reading. -/
def State.hottest (s : State) : Nat × Nat :=
  (List.range 24).foldl (fun b i =>
    let t := s.get (F.SENS_TEMP_temp i)
    if s.on (F.SENS_TEMP_valid i) && (!s.on (F.SENS_TEMP_valid b.1) || decide (tempOf b.2 < tempOf t)) then (i, t) else b) (0, s.get (F.SENS_TEMP_temp 0))

/-- SENS_HOTTEST, SENS_PEAK and SENS_STATUS follow a reading (R415). A warn limit of 0 compares nothing. -/
def State.showTemps (s : State) : State :=
  let (i, t) := s.hottest
  let s := (s.put F.SENS_HOTTEST_sensor i).put F.SENS_HOTTEST_temp t
  let s := if tempOf (s.get F.SENS_PEAK_temp) < tempOf t then (s.put F.SENS_PEAK_sensor i).put F.SENS_PEAK_temp t else s
  let w := s.get F.SENS_LIMITS_warn
  let tooHot (i : Nat) : Bool := w != 0 && s.on (F.SENS_TEMP_valid i) && decide ((16 * w : Int) ≤ tempOf (s.get (F.SENS_TEMP_temp i)))
  let s := s.put F.SENS_STATUS_over ((List.range 24).foldl (fun a i => if tooHot i then a + 2 ^ i else a) 0)
  s.flag F.SENS_STATUS_warn ((List.range 24).any tooHot)

/-- A new reading of a sensor, short of a trip (R408, R415). -/
def State.takeTemp (s : State) (i t : Nat) : State :=
  let s := ((s.put (F.SENS_TEMP_valid i) 1).put (F.SENS_TEMP_temp i) t).showTemps
  let w := s.get F.SENS_LIMITS_warn
  let cool := (List.range 24).all (fun j => !s.on (F.SENS_TEMP_valid j) || decide (tempOf (s.get (F.SENS_TEMP_temp j)) ≤ 16 * (w : Int) - 80))
  let s := if s.power.warned && cool then { s with power := { s.power with warned := false } } else s
  if s.bit F.SENS_STATUS_over i && !s.power.warned then
    { s.raise 0x8001 0xFF [i, (s.reg (R.SENS_TEMP i)).toNat] with power := { s.power with warned := true } }
  else s

/-- VOLTAGE_FAULT (R409): a supply has stayed at mv for 10 µs. -/
def execVoltageFault (mon : Fin 16) (mv : BitVec 16) (s : State) : Out :=
  let m := mon.val
  let s := s.put (F.SENS_VMON_mv m) mv.toNat
  let target := s.vmonTarget m
  let tol := s.get F.SENS_VTOL_permille
  let dev := if mv.toNat < target then target - mv.toNat else mv.toNat - target
  if s.vmonChecked m ∧ target * tol < 1000 * dev ∧ !s.bit F.SENS_VFAULT_monitors m then
    .next ((s.setBit F.SENS_VFAULT_monitors m true).raise 0x8002 0xFF [m, mv.toNat, target])
  else .next s

/-- SENS_PEAK_CLEAR (R415). -/
def execSensPeakClear (s : State) : Out :=
  .next ((s.put F.SENS_PEAK_sensor (s.get F.SENS_HOTTEST_sensor)).put F.SENS_PEAK_temp (s.get F.SENS_HOTTEST_temp))

end Sys2Proof.Machine
end

