-- ==== Sys2Proof/Machine/Race.lean ====
section
/-!
DEFINITION. Machine/Race.lean: the race's own commands: headers at routers, ageing, isolation and readmission, statistics
(R96 to R108, R58).
-/
namespace Sys2Proof.Machine

open Sys2Proof

/-! ## Headers at routers -/

/-- A header stands at an input of a router: it is routed and enters the buffer of its virtual channel (R96, R97). `seen`: the header as
it was received, which an undetected link fault may have made malformed (R104). -/
def State.buffer (s : State) (router input : Nat) (pk : Pkt) (seen : Unit128) : State :=
  if hdrMalformed seen then (s.malformed router input seen).losePacket pk.hdr
  else { s with race := { s.race with bufs := s.race.bufs ++ [⟨router, input, virtualChannel router pk.hdr, routePort router pk.hdr, pk⟩] } }

/-- A packet is received at an input with what the decoders see (R104). -/
def State.receive (s : State) (router input : Nat) (pk : Pkt) (seen : Unit128) (ecc : HdrEcc) : State :=
  match ecc with
  | .clean => s.buffer router input pk seen
  | .corrected n => (s.bump F.RACE_ECC_ce_count n).buffer router input pk seen
  | .badHeader ch => ((s.linkUe false none router input ch).dropMalformed).losePacket pk.hdr
  | .badData us ch =>
    (s.linkUe false none router input ch).buffer router input
      { pk with poison := (List.range pk.data.length).map (fun i => pk.poison.getD i false || us.contains i) } seen

/-- A packet enters the race at an input that no router feeds (R84, R96, R101): a far port at its mill, another initiator at its X port
in the destination's quadrant, and a response where its target is. Packets of one initiator enter in order (R98). -/
def State.enters (s : State) (router input : Nat) (pk : Pkt) : Bool :=
  let h := pk.hdr
  let here :=
    if hdrResponse h then
      match s.race.flight.find? (fun f => samePacket f.hdr h) with
      | some f => f.source == targetKey (input == 4) router
      | none => true
    else if input = 4 then decide (0x200 ≤ hinit h) && initRouter (hinit h) (hdq h) == router
    else hinit h / 2 == router
  (input == 4 || (input == 5 && s.quadEnabled (quadOfMill router))) && here && s.roomAt router input pk &&
    !s.race.bufs.any (fun b => samePacket b.pkt.hdr h) && s.inOrder h

/-- PACKET_HEADER_ARRIVAL (R96, R97, R100, R104): a header arrives at an input of a router with its data units. From a router comes
the packet that its output sends next; `waited`: cycles its header waited there. -/
def execPacketHeaderArrival (router : Mill) (input : Fin 6) (pk : Pkt) (ecc : HdrEcc) (waited : Nat) (s : State) : Out :=
  match feeder router input with
  | some (m, o) =>
    match s.granted m o (s.roomAt router input) with
    | some b =>
      if samePacket pk.hdr b.pkt.hdr || hdrMalformed pk.hdr then .next ((s.departs b waited).receive router input b.pkt pk.hdr ecc)
      else .next s
    | none => .next s
  | none =>
    if (input.val == 4 && xEnd router == .none) || decide (input.val < 4) || !s.enters router input pk then .next s
    else .next (s.receive router input pk pk.hdr ecc)

/-- The step of urgency level u (R99, R107). -/
def State.ageStep (s : State) (u : Nat) : Nat :=
  match u with
  | 0 => s.get F.RACE_AGE0_step0
  | 1 => s.get F.RACE_AGE0_step1
  | 2 => s.get F.RACE_AGE0_step2
  | 3 => s.get F.RACE_AGE0_step3
  | 4 => s.get F.RACE_AGE1_step4
  | 5 => s.get F.RACE_AGE1_step5
  | 6 => s.get F.RACE_AGE1_step6
  | _ => 0

/-- A header with its urgency raised. -/
def raiseUrg (h : Unit128) : Unit128 :=
  if hurg h < 7 then h + BitVec.ofNat 128 (2 ^ 115) else h

/-- URGENCY_AGEING (R99): the count of the i-th waiting header has reached 4 × step_u. The header leaves with the urgency it has then. -/
def execUrgencyAgeing (i : Nat) (s : State) : Out :=
  match s.race.bufs[i]? with
  | some b =>
    if s.on F.RACE_CTRL_age_en && decide (hurg b.pkt.hdr < 7) && s.ageStep (hurg b.pkt.hdr) != 0 then
      .next { s with race := { s.race with bufs := s.race.bufs.set i { b with pkt := { b.pkt with hdr := raiseUrg b.pkt.hdr } } } }
    else .next s
  | none => .next s

/-! ## Isolation -/

/-- The condition that isolates a target is there (R102): a request delivered and not answered, or a packet that waits at its router for
credit. -/
def State.targetLate (s : State) (t : RaceTarget) (credit : Bool) : Bool :=
  if credit then
    s.race.bufs.any (fun b => b.router == t.mill.val && b.output == endPort b.pkt.hdr && htarget b.pkt.hdr == tkey t && !hdrResponse b.pkt.hdr)
  else s.race.reqs.any (fun r => htarget r.hdr == tkey t && r.delivered && !r.answered)

/-- DEAD_TARGET_TIMEOUT (R102): no response, or credit withheld, for RACE_DEADTO. -/
def execDeadTargetTimeout (t : RaceTarget) (credit : Bool) (s : State) : Out :=
  if s.on F.RACE_CTRL_dead_en && s.get F.RACE_DEADTO_timeout != 0 && s.targetLate t credit then
    .next ((s.isolateNow t (if credit then 2 else 1)).edgeOrder s)
  else .next s

/-- ISOLATE (R102, R107). -/
def execIsolate (t : RaceTarget) (s : State) : Out := .next ((s.isolateNow t 3).edgeOrder s)

/-- READMIT (R103, R107): without effect on a target that is not isolated. -/
def execReadmit (t : RaceTarget) (s : State) : Out :=
  if s.isolated (tkey t) && !s.race.readmitting.contains (tkey t) then
    .next ({ s with race := { s.race with readmitting := (tkey t) :: s.race.readmitting } }.put F.RACE_DEADCTRL_readmit 1)
  else .next s

/-- READMIT_QUIET_END (R103): the target has been quiet for one RACE_DEADTO period. RACE_DEADCTRL.readmit reads 1 while any
readmission is in progress. -/
def execReadmitQuietEnd (t : RaceTarget) (s : State) : Out :=
  if s.race.readmitting.contains (tkey t) then
    let rest := s.race.readmitting.filter (· != (tkey t))
    let s := { s with race := { s.race with readmitting := rest } }.setIsolated (tkey t) false
    let s := s.flag F.RACE_DEADCTRL_readmit (!rest.isEmpty)
    .next (s.raise 0x4002 (s.targetOwner t) [if t.xep then 1 else 0, t.mill]).settleMis
  else .next s

/-- RACE_DEADCNT_CLEAR (R107). -/
def execRaceDeadcntClear (s : State) : Out := .next ((s.setReg R.RACE_DEADCNT 0).setReg R.RACE_DROP 0)

/-- RACE_ECC_CE_CLEAR (R107). -/
def execRaceEccCeClear (s : State) : Out := .next (s.put F.RACE_ECC_ce_count 0)

/-- MILL_ECC_CE_CLEAR (R58). -/
def execMillEccCeClear (m : Mill) (s : State) : Out := .next (s.put (F.MILL_ECC_ce_count m) 0)

/-! ## Statistics -/

/-- STAT_WINDOW_END (R106): the counts of every slot enter the STAT registers; a slot that was off, was rewritten in the
window, or names an ID not produced shows 0. Counts saturate at their fields. -/
def execStatWindowEnd (s : State) : Out :=
  if s.get F.RACE_STCTRL_window = 0 then .next s
  else
    let s := s.each (List.range 64) (fun s k =>
      let a := mget (fun _ => {}) s.race.stats k
      let ok := s.on (F.RACE_STSEL_en k) && !a.changed && decide (s.get (F.RACE_STSEL_init k) < 0x227)
      let a := if ok then a else {}
      let s := s.put (F.STAT_UNITS_units k) (min a.units 0xFFFFFFFF)
      let s := s.put (F.STAT_LAT_max k) (min a.maxLat 65535)
      s.put (F.STAT_LAT_mean k) (min (if a.reqs = 0 then 0 else a.sumLat / a.reqs) 65535))
    .next { s with race := { s.race with stats := [] } }

/-- RACE_STCTRL_CLEAR (R107). -/
def execRaceStctrlClear (s : State) : Out :=
  let s := s.each (List.range 64) (fun s k => (s.setReg (R.STAT_UNITS k) 0).setReg (R.STAT_LAT k) 0)
  let s := ((s.setReg R.RACE_UNITS_LO 0).setReg R.RACE_UNITS_HI 0).setReg R.RACE_PEAKWAIT 0
  .next { s with race := { s.race with stats := [] } }

end Sys2Proof.Machine
end

