-- ==== Sys2Proof/Machine/Pins.lean ====
section
/-!
DEFINITION. Machine/Pins.lean: writes of GPIO and target I/O pins, their owners, the sequence of a function change, edges, banks,
probe channels and the outputs stage of a release (R131, R254, R420 to R431).
-/
namespace Sys2Proof.Machine

open Sys2Proof

/-! ## Writers (R421, R426) -/

/-- Context of the item a core runs, if any. -/
def State.coreCtx (s : State) (k : Nat) : Option Nat := (s.runItem k).map WItem.ctx

/-- A shell writer: machine-mode code running no item or an item of ctx 4, or a FULL session with the shell in scope. -/
def State.shellWriter (s : State) (who : Requester) : Bool :=
  match who with
  | .shell k => s.coreCtx k == none || s.coreCtx k == some 4
  | _ => match sessOf who with
    | some port => s.sessLevel port == 2 && s.inScope port none
    | none => false

/-- A writer of a pin with this owner (0 shell, 1 to 4 partitions, 5 a miller). `hostEn`: the host may write shell-owned pins. -/
def State.ownerWriter (s : State) (who : Requester) (owner core : Nat) (hostEn : Bool) : Bool :=
  s.shellWriter who ||
  (if owner = 0 then who == .host && hostEn
   else match who with
    | .shell k => if owner = 5 then k.val == core else s.coreCtx k == some (owner - 1)
    | _ => match sessOf who with
      | some port => decide (owner ≤ 4) && s.sessLevel port == 2 && s.inScope port (some (owner - 1))
      | none => false)

def State.gpioWriter (s : State) (who : Requester) (n : Nat) : Bool :=
  s.ownerWriter who (s.get (F.GPIO_PIN_owner n)) (s.get (F.GPIO_PIN_core n)) (s.on F.GPIO_CTRL_host_en)
def State.tioWriter (s : State) (who : Requester) (p : Nat) : Bool :=
  s.ownerWriter who (s.tioOwner p) 32 (s.on F.TIO_CTRL_host_en)

/-! ## Writes that take effect -/

/-- A function that pin n has (R420). -/
def funcOk (n f : Nat) : Bool :=
  match f with
  | 4 => n < 2
  | 5 => n == 2 || n == 3
  | 9 => n == 47
  | f => f < 9

/-- The bits of a register that a write replaces. -/
def State.writeMasked (s : State) (a : Nat) (mask v : Word) : State := s.setReg a ((s.reg a &&& ~~~mask) ||| (v &&& mask))

/-- A write of GPIO_PINn (R420, R421, R423). -/
def State.gpioWrite (s : State) (who : Requester) (n : Nat) (v : Word) : State :=
  let owner := (v.toNat / 2 ^ 24) % 8
  let f := v.toNat % 16
  if 6 ≤ owner then s
  else if !s.shellWriter who && v.toNat / 2 ^ 24 != (s.reg (R.GPIO_PIN n)).toNat / 2 ^ 24 then s.bump F.GPIO_DENY_owner 1
  else if !s.gpioWriter who n || !funcOk n f then s.bump F.GPIO_DENY_pin 1
  else
    let s := if f = s.get (F.GPIO_PIN_func n) then s else s.startSeq n (s.gpioDrive n)
    s.writeMasked (R.GPIO_PIN n) 0xFF3FF00F v

/-- A write of one bit of GPIO_OUT or GPIO_OE (R422). -/
def State.gpioBit (s : State) (who : Requester) (oe : Bool) (n : Nat) (b : Bool) : State :=
  if s.gpioWriter who n then s.setBit (if oe then F.GPIO_OE_value (n / 16) else F.GPIO_OUT_value (n / 16)) (n % 16) b
  else s.bump F.GPIO_DENY_pin 1

/-- A write of TIO_PINCFG of pin p (R426): owner, mode and rst_level are frozen while the owning partition is not EMPTY. -/
def State.tioWrite (s : State) (who : Requester) (p : Nat) (v : Word) : State :=
  let a := selAddr R.TIO_PINCFG p
  let owner := (v.toNat / 2 ^ 28) % 8
  let o := s.tioOwner p
  let mode := v.toNat / 2 ^ 26 % 4
  if 5 ≤ owner then s
  else if o ≠ 0 ∧ s.pstate (o - 1) ≠ stEmpty ∧ (v.toNat / 2 ^ 24) % 128 ≠ ((s.reg a).toNat / 2 ^ 24) % 128 then s.bump F.TIO_DENY_frozen 1
  else if !s.tioWriter who p || (!s.shellWriter who && owner != o) then s.bump F.TIO_DENY_other 1
  else
    let old := s.tioMode p
    let s := if mode ≠ old ∧ (old = 1 ∨ old = 2) then s.startSeq (64 + p) (s.tioDrive p) else s
    s.writeMasked a 0x7FFC0000 v

/-- A write of one bit of TIO_OUT (R426). -/
def State.tioBit (s : State) (who : Requester) (p : Nat) (b : Bool) : State :=
  if s.tioWriter who p then s.setBit (F.TIO_OUT_value (p / 16)) (p % 16) b else s.bump F.TIO_DENY_other 1

/-! ## Writes that arrive (R423) -/

/-- Key of the pin a write concerns. -/
def PinWrite.key (w : PinWrite) : Nat := if w.kind < 3 then w.pin else 64 + w.pin

def State.applyPin (s : State) (w : PinWrite) : State :=
  match w.kind with
  | 0 => s.gpioWrite w.who w.pin w.value
  | 1 => s.gpioBit w.who false w.pin (w.value.getLsbD 0)
  | 2 => s.gpioBit w.who true w.pin (w.value.getLsbD 0)
  | 3 => s.tioWrite w.who w.pin w.value
  | _ => s.tioBit w.who w.pin (w.value.getLsbD 0)

/-- A write of a pin takes effect, or waits until the pin's sequence ends. -/
def State.pinWrite (s : State) (w : PinWrite) : State :=
  if s.pinSeq w.key = 0 then s.applyPin w else { s with pins := { s.pins with later := s.pins.later ++ [w] } }

/-- One control cycle of the sequences; the writes that waited for one that ends take effect in order. -/
def State.pinTick (s : State) : State :=
  if s.pins.seq.isEmpty then s
  else
    let keys := s.pins.seq.map (·.1)
    let s := s.each keys (fun s k => { s with pins := { s.pins with seq := mset (fun _ => 0) s.pins.seq k (s.pinSeq k - 1) } })
    let s := s.each keys (fun s k => if s.pinSeq k = 0 then { s with pins := { s.pins with keep := mset (fun _ => none) s.pins.keep k none } } else s)
    let ws := s.pins.later
    ({ s with pins := { s.pins with later := [] } }).each ws State.pinWrite

/-- PIN_FUNCTION_CHANGE (R420, R421, R423): a write of GPIO_PINn. -/
def execPinFunctionChange (who : Requester) (pin : Fin 48) (value : Word) (s : State) : Out := .next (s.pinWrite ⟨who, 0, pin, value⟩)

/-- GPIO_OUT_WRITE (R422): a masked write of GPIO_OUTg, or of GPIO_OEg. -/
def execGpioOutWrite (who : Requester) (oe : Bool) (g : Fin 3) (mask value : BitVec 16) (s : State) : Out :=
  .next (s.each ((List.range 16).filter mask.getLsbD) (fun s j =>
    s.pinWrite ⟨who, if oe then 2 else 1, 16 * g.val + j, if value.getLsbD j then 1 else 0⟩))

/-- A masked write of TIO_OUTi (R422, R426). -/
def State.tioOutWrite (s : State) (who : Requester) (i : Nat) (mask value : BitVec 16) : State :=
  s.each ((List.range 16).filter mask.getLsbD) (fun s j => s.pinWrite ⟨who, 4, 16 * i + j, if value.getLsbD j then 1 else 0⟩)

/-- TIO_MODE_CHANGE (R426): a write of TIO_PINCFG. -/
def execTioModeChange (who : Requester) (pin : Fin 160) (value : Word) (s : State) : Out := .next (s.pinWrite ⟨who, 3, pin, value⟩)

/-- The edge detector of GPIO pin n (R430): a pad level other than the one seen last is an edge, flagged as the pin's edge field selects. -/
def State.noticeEdge (s : State) (n : Nat) : State :=
  let v := s.gpioLevel n
  if v = mget padDefault s.pins.seen n then s
  else
    let s := { s with pins := { s.pins with seen := mset padDefault s.pins.seen n v } }
    if (s.get (F.GPIO_PIN_edge n)).testBit (if v then 0 else 1) then
      s.setBit (if n < 32 then F.GPIO_EDGE0_flag else F.GPIO_EDGE1_flag) (n % 32) true
    else s

/-- One control cycle of the edge detectors: what the device itself drives makes edges too. -/
def State.edgeTick (s : State) : State := s.each (List.range 48) State.noticeEdge

/-- GPIO_EDGE (R430): the board drives a pad to a new level. -/
def execGpioEdge (pin : Fin 48) (rising : Bool) (s : State) : Out :=
  .next ({ s with pins := { s.pins with pad := mset padDefault s.pins.pad pin.val rising } }.noticeEdge pin)

/-! ## Banks (R425) -/

/-- TIO_BANK_ENABLE (R425): a write of TIO_BANKb. -/
def execTioBankEnable (bank : Fin 5) (value : Word) (s : State) : Out :=
  let b := bank.val
  let volt := value.toNat / 2 ^ 28 % 4
  let en := value.getLsbD 31
  if volt = 3 then .next s
  else if s.on (F.TIO_BANK_en b) then
    let owned := (List.range 32).any (fun j => let o := s.tioOwner (32 * b + j); o != 0 && s.pstate (o - 1) != stEmpty)
    if en then .next s
    else if owned then .next (s.bump F.TIO_DENY_other 1)
    else .next (s.put (F.TIO_BANK_en b) 0)
  else
    let s := s.put (F.TIO_BANK_volt b) volt
    if !en then .next s
    else if s.vioOk b then .next (s.put (F.TIO_BANK_en b) 1)
    else .next (if s.on F.TIO_ERR_flag then s else ((s.put F.TIO_ERR_flag 1).put F.TIO_ERR_kind 1).put F.TIO_ERR_unit b)

/-- GPIO_CNT_CLEAR (R430). -/
def execGpioCntClear (s : State) : Out := .next ((s.setReg R.GPIO_DENY 0).put F.GPIO_SYSSTAT_rejected 0)

/-- TIO_CNT_CLEAR (R431). -/
def execTioCntClear (s : State) : Out := .next (s.setReg R.TIO_DENY 0)

/-! ## Probe channels and the outputs stage -/

/-- FLM_PROBE_ENABLE (R131, R135): a write of FLM_PROBEc. One that names no pin is refused even where it enables nothing, and then without
an event (log entry 58). -/
def execFlmProbeEnable (by_ : Requester) (c : Fin 64) (value : Word) (s : State) : Out :=
  let a := R.FLM_PROBE c.val
  let pin := value.toNat / 2 ^ 21 % 256
  if !value.getLsbD 31 then .next (if pin < (if value.getLsbD 29 then 160 else 48) then s.setReg a value else s)
  else
    let pinOk := if value.getLsbD 29 then decide (pin < 160) && s.tioMode pin == 2 else decide (pin < 48) && s.get (F.GPIO_PIN_func pin) == 3
    let inSc := match sessOf by_, s.quadOwner (value.toNat / 2 ^ 19 % 4) with
      | some port, some p => port == 0 || s.inScope port (some p)
      | _, _ => true
    if !pinOk then .next (s.raise 0x5006 0xFF [c, 1])
    else if !inSc then .next (s.raise 0x5006 0xFF [c, 2])
    else .next (s.setReg a value)

/-- RELEASE_OUTPUTS (R128, R254, R255, R257, R428). -/
def execReleaseOutputs (p : Part) (s : State) : Out :=
  if s.releaseStage p = some 0 then
    let fresh := (List.range 4).all (fun q => s.releaseStage q == none || s.releaseStage q == some 0)
    let s := if fresh then s.put F.CFG_RELEASE_parts 0 else s
    let carried : Option (List Nat) := match s.loader.active with
      | some j => if j.part = p.val ∧ j.cmd = 3 then some j.regions else none
      | none => none
    let s := s.releaseTo p 1
    .next (s.pinsRelease p (fun x => match carried with | some rs => rs.contains x.region | none => true))
  else .next s

end Sys2Proof.Machine
end

