-- ==== Sys2Proof/Machine/Rings.lean ====
section
/-!
DEFINITION. Machine/Rings.lean: the host's rings, polls, copies and link (R265 to R283).
-/
namespace Sys2Proof.Machine

open Sys2Proof

/-- Sluices whose host ring is enabled, in order (R271). -/
def State.hostSluices (s : State) : List Nat := (List.range 256).filter (fun k => s.on (F.SLC_RINGCFG_en.sel k))

/-- The host consumes sluice k, or produces into it. -/
def State.hostConsumes (s : State) (k : Nat) : Bool := s.get (F.SLC_CFG_consumer.sel k) == 5
def State.hostProduces (s : State) (k : Nat) : Bool := s.get (F.SLC_CFG_producer.sel k) == 5

/-- Record the first PCIe error (R293). -/
def State.pcieErr (s : State) (e : PcieErr) : State :=
  if s.on F.PCIE_ERR_flag then s
  else (((s.put F.PCIE_ERR_flag 1).put F.PCIE_ERR_kind e.kind).setReg R.PCIE_ERRHDR0 e.hdr0).setReg R.PCIE_ERRHDR1 e.hdr1

/-- The kind PCIE_ERR shows, as an event names it. -/
def State.fetchFault (s : State) (n : Nat) (e : PcieErr) : State :=
  let s := s.pcieErr e
  s.ringFault n 2 (s.get F.PCIE_ERR_kind)

/-! ## Polls (R271, R280, R281) -/

/-- DOORBELL_POLL (R271): the device issues a read of the doorbell block. What it has posted so far is what the poll covers. -/
def execDoorbellPoll (s : State) : Out :=
  if s.on F.RING_CTRL_en && s.on F.PCIE_STATUS_up && s.host.poll.isNone then
    let s := ((List.range 4).foldl (fun s i => s.postHeld 64 (4 + i)) s).drainEvents 513
    .next { s with host := { s.host with poll := some (s.outRings.map (fun n => (n, (s.ring n).dev))) } }
  else .next s

/-- A host count is taken over (R269, R282): it moves forward, and no further than `limit`, both modulo the count's width. -/
def countOk (m old limit new : Nat) : Bool := decide ((new + m - old % m) % m ≤ (limit + m - old % m) % m)

/-- A command ring's producer count, or the consumer count of a ring the device writes (R269, R270). -/
def State.takeCount (s : State) (n new : Nat) : State :=
  let x := s.ring n
  let limit := if n < 4 then x.dev + 2 ^ s.ringSize n else x.dev
  if !s.ringRuns n then s
  else if countOk (2 ^ 32) x.host (limit % 2 ^ 32) new then s.setRing n { x with host := new }
  else s.ringFault n 1 new

/-- A sluice's doorbell word (R270, R292): the producer count of the host's descriptors, and the consumer count of buffers it has
read. -/
def State.takeSluice (s : State) (k : Nat) (w : Word) : State :=
  let n := 16 + k
  let x := s.ring n
  let prod := w.toNat % 65536
  let cons := w.toNat / 65536
  let size := 2 ^ s.ringSize n
  if !s.ringRuns n then s
  else if s.hostConsumes k then
    if !countOk 65536 x.host x.dev cons then s.ringFault n 1 cons
    else if !countOk 65536 x.posts ((cons + size) % 65536) prod then s.ringFault n 1 prod
    else s.setRing n { x with host := cons, posts := prod }
  else if countOk 65536 x.host ((x.dev + size) % 65536) prod then s.setRing n { x with host := prod }
  else s.ringFault n 1 prod

/-- A ring has caught up, or has become unacknowledged since its last message (R281). -/
def State.tellRing (s : State) (snap : List (Nat × Nat)) (n : Nat) : State :=
  let x := s.ring n
  if x.dev = x.host then s.setRing n { x with told := false }
  else if !x.told && snap.any (fun e => e.1 == n && e.2 != x.host) then (s.setRing n { x with told := true }).ringMsg n
  else s

/-- HRDY and the messages after a poll (R280, R281): a posting made while the poll was in flight is left to the next. -/
def State.settleHrdy (s : State) (snap : List (Nat × Nat)) : State :=
  let rings := s.outRings
  let s := rings.foldl (fun s n => s.tellRing snap n) s
  if snap.any (fun e => rings.contains e.1 && e.2 != (s.ring e.1).host) then s.put F.RING_HRDY_level 1
  else if rings.all (fun n => (s.ring n).dev == (s.ring n).host) then s.put F.RING_HRDY_level 0
  else s

/-- Words of the doorbell block at offsets 4 × i: the ring whose count each holds (R270). -/
def doorbellRings : List (Nat × Nat) := [(0, 0), (1, 1), (2, 2), (3, 3), (4, 4), (5, 5), (6, 6), (7, 7), (8, 8), (12, 9), (13, 10), (14, 11), (15, 12)]

/-- POLL_RETURN (R280, R282): `words`: offsets 0x000 to 0x03C; `sluices`: the words of the sluices with a host ring, in order. A
poll that fails stops every enabled ring. -/
def execPollReturn (words : List Word) (sluices : List Word) (err : Option PcieErr) (s : State) : Out :=
  match s.host.poll with
  | none => .next s
  | some snap =>
    let s := { s with host := { s.host with poll := none } }
    match err with
    | some e =>
      .next (((List.range 13) ++ s.hostSluices.map (16 + ·)).foldl (fun s n => if s.ringRuns n then s.fetchFault n e else s) s)
    | none =>
      let s := doorbellRings.foldl (fun s e => match words[e.1]? with | some w => s.takeCount e.2 w.toNat | none => s) s
      let s := (s.hostSluices.zip sluices).foldl (fun s e => s.takeSluice e.1 e.2) s
      let s := ((List.range 4).foldl (fun s i => s.postHeld 64 (4 + i)) s).drainEvents 513
      .next (s.settleHrdy snap)

/-! ## Commands -/

/-- DESCRIPTOR_FETCH_COMPLETE (R276, R282): descriptors up to the host's count arrive. -/
def execDescriptorFetchComplete (ring : Fin 4) (descs : List (BitVec 512)) (err : Option PcieErr) (s : State) : Out :=
  let n := ring.val
  let x := s.ring n
  if !s.ringRuns n then .next s
  else match err with
    | some e => .next (s.fetchFault n e)
    | none =>
      let have_ := x.fetched.length + (if x.running.isSome then 1 else 0)
      let want := (x.host + 2 ^ 32 - x.dev) % 2 ^ 32 - have_
      .next (s.setRing n { x with fetched := x.fetched ++ descs.take want })

/-- NOP_COMMAND (R274). -/
def execNopCommand (ring : Fin 4) (s : State) : Out := .next (s.onCmd ring [0] (fun s serial _ => s.finish ring serial 0 0))

/-- RING_BAD_OPCODE (R274, R276): the op is checked first. -/
def execRingBadOpcode (ring : Fin 4) (s : State) : Out :=
  match (s.ring ring).fetched with
  | [] => .next s
  | d :: _ =>
    if ringOps.contains (dOp d) then .next s
    else match s.beginCmd ring [dOp d] with
      | none => .next s
      | some (s, serial, d) => .next (s.cmdFault ring serial d 0x6002 [] 0)

/-- A COPY's alignment, size and placement (R275): one channel, slices owned by the shell. -/
def State.copyOk (s : State) (d : BitVec 512) : Bool :=
  let c := dDaddr d / 2 ^ 40
  let a := dDaddr d % 2 ^ 38
  dHaddr d % 64 == 0 && dLen d % 64 == 0 && dDaddr d % 64 == 0 && decide (dLen d ≤ 2 ^ 36) && s.rangeOk c a (dLen d)

/-- A COPY begins (R275, R276): an empty one completes at once; one that is accepted runs until its data has moved. -/
def State.copyStart (s : State) (ring op : Nat) : State :=
  s.onCmd ring [op] (fun s serial d =>
    if dLen d = 0 then s.finish ring serial 0x6001 0
    else if s.copyOk d then s
    else s.cmdFault ring serial d 0x6003 [] 0)

def execCopyIn (ring : Fin 4) (s : State) : Out := .next (s.copyStart ring 1)
def execCopyOut (ring : Fin 4) (s : State) : Out := .next (s.copyStart ring 2)

/-- A copy ends: with everything moved, or at an access answered with a status. -/
def State.copyEnd (s : State) (ring serial : Nat) (d : BitVec 512) (moved status : Nat) : State :=
  if moved = dLen d then s.finish ring serial 0 moved else s.cmdFault ring serial d 0x6004 [moved, status] moved

/-- COPY_COMPLETE (R275, R282): the data of the copy in progress moves line by line. `data`: for a COPY_IN the host bytes that
arrived before the read ended or failed; `ecc`: what the channel's decoders see on the lines of a COPY_OUT. -/
def execCopyComplete (ring : Fin 4) (data : List Byte) (err : Option PcieErr) (ecc : RowEcc) (s : State) : Out :=
  let n := ring.val
  match (s.ring n).running with
  | none => .next s
  | some (serial, d) =>
    let c := dDaddr d / 2 ^ 40
    let a := dDaddr d % 2 ^ 38
    let lines := dLen d / 64
    if dOp d = 1 then
      let s := match err with | some e => s.pcieErr e | none => s
      let got := min lines (data.length / 64)
      if err.isNone && decide (got < lines) then .next s
      else
        let (k, st, s) := State.busWriteLines 0x221 5 c got a data s
        .next (s.copyEnd n serial d (64 * k) (if st = 0 then 6 else st))
    else if dOp d = 2 then
      let (bs, st, s) := State.busReadLines 0x221 5 c lines a ecc s
      let s := if bs.isEmpty then s else s.hostWrite (dHaddr d) bs
      .next (s.copyEnd n serial d bs.length st)
    else .next s

/-! ## Enables and the link -/

/-- RING_ENABLE (R269, R282, R294): a write of RING_Rn_CFG. Setting en starts the counts at 0 and ends a stop. -/
def execRingEnable (n : Fin 13) (value : Word) (s : State) : Out :=
  let n := n.val
  let cfg := R.RING_R_CFG n
  let v := value &&& 0x9F3F8000
  let size := v.toNat / 2 ^ 24 % 32
  if v.getLsbD 31 then
    if size < 4 ∨ 16 < size then .next s
    else if s.on (F.RING_R_CFG_en n) then .next (s.setReg cfg v)
    else
      let s := (s.setReg cfg v).setBit F.RING_STATUS_stopped n false
      let s := s.setRing n { held := (s.ring n).held }
      let s := if n = 8 then s.put F.RING_EVSEQ_seq 0 else s
      .next (s.postHeld 64 n)
  else .next (s.setReg cfg v)

/-- RING_ENGINE_ENABLE (R271, R272, R280): a write of RING_CTRL. `wins`: the host window table as the device reads it. -/
def execRingEngineEnable (en : Bool) (wins : List HostWin) (s : State) : Out :=
  if en then
    if s.on F.RING_CTRL_en then .next s else .next ((s.put F.RING_CTRL_en 1).takeWins wins)
  else .next ({ s with host := { s.host with poll := none } }.setReg R.RING_CTRL 0 |>.put F.RING_HRDY_level 0)

/-- What the link's loss takes from the rings: commands in progress, what was fetched, completions that wait (R283). -/
def State.dropRings (s : State) : State :=
  let s := { s with host := { s.host with poll := none, barReqs := [] } }
  s.each (s.host.rings.map (·.1)) (fun s n => s.setRing n { s.ring n with fetched := [], running := none, held := [] })

/-- HOST_LINK_DOWN (R283, R280, R330). -/
def State.linkDown (s : State) : State :=
  if s.on F.PCIE_STATUS_up then
    let s := ((s.setReg R.PCIE_STATUS 0).put F.PCIE_CTRL_retrain 0).bump F.PCIE_LINKCNT_high 1
    let s := s.each (List.range 16) (fun s j => s.put (F.PCIE_LANE_active j) 0)
    let s := (s.setReg R.RING_CTRL 0).put F.RING_HRDY_level 0
    let s := s.dropRings
    let s := s.raise 0x6008 0xFF [(s.reg R.PCIE_LINKCNT).toNat]
    s.closeSession 3 4
  else s

def execHostLinkDown (s : State) : Out := .next s.linkDown

/-- PCIE_LINK_UP (R265, R283, R293): the link reaches L0 at a width and at the speed offered, or max_speed when that is lower, and the
host's configuration space stands as given; it is down, or PCIE_CTRL.retrain has asked for a recovery, which ends here and is counted
(log entry 29). -/
def execPcieLinkUp (speed : Fin 3) (width : Fin 17) (inverted : BitVec 16) (reversed msix fmask : Bool) (s : State) : Out :=
  if [1, 4, 8, 16].contains width.val && (!s.on F.PCIE_STATUS_up || s.on F.PCIE_CTRL_retrain) then
    let s := (if s.on F.PCIE_STATUS_up then s.bump F.PCIE_LINKCNT_low 1 else s).put F.PCIE_CTRL_retrain 0
    let speed := min speed.val (s.get F.PCIE_CTRL_max_speed)
    let s := ((((s.put F.RST_STATUS_perst_n 1).put F.PCIE_STATUS_up 1).put F.PCIE_STATUS_speed speed).put F.PCIE_STATUS_width width).flag F.PCIE_STATUS_reversed reversed
    let s := s.each (List.range 16) (fun s j =>
      (s.flag (F.PCIE_LANE_active j) (decide (j < width.val))).flag (F.PCIE_LANE_inverted j) (decide (j < width.val) && inverted.getLsbD j))
    .next { s with host := { s.host with msix := msix, fmask := fmask } }
  else .next s

/-! ## Apertures (R266, R267) -/

/-- A BAR4 access not answered OK (R267, R458): counted; raised once after PCIE_BARDENY was cleared; a read returns 0xFF. -/
def State.bar4Fail (s : State) (off c a len status : Nat) (read : Bool) : State :=
  let owner := s.sliceOwner c (a / 2 ^ 34)
  let s := s.bump F.PCIE_BARDENY_high 1
  let s := if s.host.barRaised then s
    else { s with host := { s.host with barRaised := true } }.raise 0x6009 (if 1 ≤ owner ∧ owner ≤ 4 then owner - 1 else 0xFF) [status, off % 2 ^ 32, off / 2 ^ 32]
  if read then { s with host := { s.host with readBytes := List.replicate len 0xFF } } else s

/-- Channel and channel address an aperture offset reaches (R293). -/
def State.bar4Target (s : State) (off : Nat) : Nat × Nat :=
  let a := s.get F.PCIE_BAR4BASE_LO_base * 2 ^ 34 + off
  let t := s.get F.PCIE_BAR4CTL_target
  if s.on F.PCIE_BAR4CTL_interleaved then groupMap t (groupLog (s.get F.PCIE_BAR4CTL_group)) a else (t, a)

/-- The slice is owned by the shell, or by a partition in the scope of the session that enabled the aperture (R267). -/
def State.bar4Owner (s : State) (c a : Nat) : Bool :=
  let o := s.sliceOwner c (a / 2 ^ 34)
  o == 0 || (decide (o ≤ 4) && s.host.bar4Scope.testBit (o - 1))

/-- BAR4_ACCESS (R261, R266, R267): a host access within one 64-byte line. `data`: the bytes of a write. In recovery the endpoint presents
no BAR4, and the access reaches nothing. -/
def execBar4Access (off : BitVec 36) (len : Fin 65) (data : Option (List Byte)) (s : State) : Out :=
  let o := off.toNat
  let n := len.val
  let (c, a) := s.bar4Target o
  let read := data.isNone
  if n = 0 ∨ 64 < o % 64 + n ∨ s.get F.CFG_BOOT_state = 2 then .next s
  else if !s.on F.PCIE_BAR4CTL_en || (!read && !s.on F.PCIE_BAR4CTL_write_en) || !s.bar4Owner (c % 16) a then
    .next (s.bar4Fail o (c % 16) a n 3 read)
  else
    let r := chanRouter c a
    let base := a / 16 * 16
    let units := (a % 16 + n + 15) / 16
    let tag := s.host.barTag % 1024
    let hdr (cmd tail : Nat) := mkHdr cmd units 0 0 0x220 tag (quadOfMill r) (rowOfMill r) (colOfMill r) 8 5 0 0 tail (if read then base else a)
    let s := { s with host := { s.host with barTag := s.host.barTag + 1, barReqs := s.host.barReqs ++ [(tag, o, c, a, n)] } }
    match data with
    | none => .next (s.send { hdr := hdr 1 0 } false)
    | some bs =>
      let us := bytesUnits units (List.replicate (a % 16) 0 ++ (bs ++ List.replicate n 0).take n)
      .next (s.send { hdr := hdr 3 (16 * units - a % 16 - n), data := us, poison := us.map (fun _ => false) } false)

/-- The answer to a BAR4 access (R267). -/
def State.bar4Answer (s : State) (tag status : Nat) (data : List Byte) (read : Bool) : State :=
  match s.host.barReqs.find? (fun r => r.1 == tag) with
  | none => s
  | some (_, o, c, a, n) =>
    let s := { s with host := { s.host with barReqs := s.host.barReqs.filter (fun r => r.1 != tag) } }
    if status ≠ 0 then s.bar4Fail o c a n status read
    else if read then { s with host := { s.host with readBytes := (data.drop (a % 16)).take n } }
    else s

end Sys2Proof.Machine
end

