-- ==== Sys2Proof/Machine/Sluice.lean ====
section
/-!
DEFINITION. Machine/Sluice.lean: the sluices' own commands, and what the sluice engine does with packets of far ports (R284 to
R292).
-/
namespace Sys2Proof.Machine

open Sys2Proof

/-- KiB of the pool that enabled sluices take (R284, R295). -/
def State.poolUsed (s : State) : Nat :=
  ((List.range 256).map (fun k => if s.slEn k then 2 * s.slBank k / 1024 else 0)).sum

/-- An enable is refused (R284): a reserved side, the host on both, a reserved bank size, or an overrun of the pool. -/
def State.slRefuses (s : State) (k : Nat) (v : Word) : Bool :=
  let prod := v.toNat / 16 % 8
  let cons := v.toNat % 8
  decide (6 ≤ prod) || decide (6 ≤ cons) || (prod == 5 && cons == 5) || decide (8 ≤ s.get (F.SLC_SIZE_bank.sel k)) ||
  decide (16384 < s.poolUsed + 2 * s.slBank k / 1024)

/-- SLUICE_ENABLE (R284): a write of SLC_CFG with en = 1. It empties both banks and the counters; writable only while disabled. -/
def execSluiceEnable (k : Sluice) (value : Word) (s : State) : Out :=
  let k := k.val
  if s.slEn k || !value.getLsbD 31 then .next s
  else if s.slRefuses k value then .next (s.put F.SLC_STATUS_refused 1)
  else
    let s := s.setReg (selAddr R.SLC_CFG k) (value &&& 0x80000077)
    let s := s.setSluice k { waits := (s.sluice k).waits, arrive := (s.sluice k).arrive }
    .next (s.each [selAddr R.SLC_DROPS k, selAddr R.SLC_ITEMS k] (fun s a => s.setReg a 0))

/-- SLUICE_DISABLE (R284): every item is discarded. Reads and writes of far ports that wait there meet a disabled sluice. -/
def execSluiceDisable (k : Sluice) (s : State) : Out :=
  let k := k.val
  let x := s.sluice k
  .next ((s.put (F.SLC_CFG_en.sel k) 0).setSluice k { waits := x.waits, arrive := x.arrive })

/-! ## Design sides (R290, R291) -/

/-- The sluice a far port's window names. -/
def State.fpSluice (s : State) (id : Nat) : Nat := s.fpBase id % 256

/-- A design read that the sluice refuses (R290, R291): its status. -/
def State.slReadStatus (s : State) (k : Nat) (h : Unit128) : Option Nat :=
  if !s.slEn k then some 5 else if s.slConsumer k ≠ hctx h then some 3 else none

/-- A far port's read reaches the sluice engine: refused at once, or it waits there until SLUICE_READ serves it. -/
def State.sluiceRd (s : State) (h : Unit128) : State :=
  let k := s.fpSluice (hinit h)
  match s.slReadStatus k h with
  | some st => (s.slErr k (hctx h)).answer h st []
  | none => s.setSluice k { s.sluice k with waits := (s.sluice k).waits ++ [h] }

/-- A far port's write reaches the sluice engine (R290, R291): it waits for SLUICE_ITEM_ADMIT; at a sluice that is not enabled, or whose
producer is another, it produces nothing, and the turn is invalid. -/
def State.sluiceWr (s : State) (pk : Pkt) : State :=
  let p := hctx pk.hdr
  let k := s.fpSluice (hinit pk.hdr)
  if !s.slEn k || s.slProducer k != p then (s.slErr k p).faultTurn p false
  else s.setSluice k { s.sluice k with arrive := (s.sluice k).arrive ++ [pk] }

/-- The units of an item as they stand in the bank. Nothing is written for a poisoned unit (R104): its place keeps what the bank held,
which no rule states, a free value (log entry 61). -/
def State.freeUnits (s : State) (pk : Pkt) : List Unit128 × State :=
  ((List.range pk.data.length).zip pk.data).foldl (fun (acc : List Unit128 × State) e =>
    if pk.poison.getD e.1 false then
      let (lo, s) := acc.2.fresh 6
      let (hi, s) := s.fresh 6
      (acc.1 ++ [BitVec.ofNat 128 (lo.toNat + 2 ^ 64 * hi.toNat)], s)
    else (acc.1 ++ [e.2], acc.2)) ([], s)

/-- SLUICE_ITEM_ADMIT (R285 to R287, R290): the oldest write that has arrived becomes an item, or is dropped. -/
def execSluiceItemAdmit (k : Sluice) (s : State) : Out :=
  let k := k.val
  match (s.sluice k).arrive with
  | [] => .next s
  | pk :: rest =>
    let id := hinit pk.hdr
    let s := s.setSluice k { s.sluice k with arrive := rest }
    if !s.slEn k then .next ((s.slErr k (hctx pk.hdr)).faultTurn (hctx pk.hdr) false)
    else
      let n := s.fpWidth id / 8
      let (us, s) := (s.countPoison pk).freeUnits pk
      .next (s.slAdmit k (haddr pk.hdr / 16 % 8) n ((unitBytes us).take n)).2

/-- A design read takes its piece (R288, R290, R291): its response, or none while it must wait. -/
def State.sluiceServe (s : State) (k : Nat) (h : Unit128) : Option State :=
  let id := hinit h
  let p := hctx h
  let i := haddr h / 16
  let n := s.fpWidth id / 8 - 8
  let reply (s : State) (hd : Nat) (bs : List Byte) : State :=
    s.answer h 0 (unitsOf 0 (s.fpStride id) (BitVec.ofNat 512 (hd + 2 ^ 64 * leNat bs)))
  match s.slReadStatus k h with
  | some st => some ((s.slErr k p).answer h st [])
  | none =>
    let s := if i / 2 % 2 = 1 then s.slDrop k else s
    match s.slPiece k n with
    | some (hd, bs, s) => some (reply s hd bs)
    | none => if i % 2 = 1 then some (reply s slEmptyHeader []) else none

/-- The oldest waiting read drops the current item first when it asks for that (R290): once, its bit then being clear. -/
def State.slHeadDrops (s : State) (k : Nat) : State :=
  match (s.sluice k).waits with
  | h :: t =>
    if haddr h / 32 % 2 = 1 ∧ s.slReadStatus k h = none then
      let s := s.slDrop k
      s.setSluice k { s.sluice k with waits := (h &&& ~~~(BitVec.ofNat 128 32)) :: t }
    else s
  | [] => s

/-- SLUICE_READ (R290): the first waiting read that can be served takes its piece. -/
def execSluiceRead (k : Sluice) (s : State) : Out :=
  let k := k.val
  let s := s.slHeadDrops k
  match (s.sluice k).waits.findSome? (fun h => (s.sluiceServe k h).map (fun s' => (h, s'))) with
  | none => .next s
  | some (h, s) => .next (s.setSluice k { s.sluice k with waits := (s.sluice k).waits.erase h })

/-! ## Host sides (R292) -/

/-- The device writes a sluice descriptor back: its body, if any, then the status word with the phase; its count advances. -/
def State.slWriteBack (s : State) (k : Nat) (body : List Byte) (status : Nat) : State :=
  let n := 16 + k
  let x := s.ring n
  let a := s.ringAddr n x.dev
  let s := if body.isEmpty then s else s.hostWrite (a + 8) body
  let s := s.hostWrite (a + 60) (natLe 4 (phaseOf (s.ringSize n) x.dev * 2 ^ 31 + status))
  s.setRing n { x with dev := (x.dev + 1) % 65536 }

/-- A bad sluice descriptor (R292, R458). -/
def State.slBadDesc (s : State) (k : Nat) : State :=
  (s.raise 0x6003 0xFF [16 + k, (s.ring (16 + k)).dev]).slWriteBack k [] 0x6003

/-- SLUICE_HOST_PRODUCE (R285, R287, R292): bytes of the payload of the host's next descriptor arrive. The first bytes let in its item;
with the last the status word is written back. A payload read that fails stops the ring. -/
def execSluiceHostProduce (k : Sluice) (desc : BitVec 512) (piece : List Byte) (err : Option PcieErr) (s : State) : Out :=
  let k := k.val
  let n := 16 + k
  let x := s.ring n
  if !s.ringRuns n || !s.hostProduces k || x.host == x.dev then .next s
  else match err, (s.sluice k).hostIn with
    | some e, _ => .next ((s.setSluice k { s.sluice k with hostIn := none }).fetchFault n e)
    | none, none =>
      let len := dField desc 8 2
      if !s.slEn k then .next (s.slBadDesc k)
      else if len = 0 then .next (s.slWriteBack k [] 0x6001)
      else if 4096 < len ∨ dHaddr2 desc % 64 ≠ 0 then .next (s.slBadDesc k)
      else
        let bs := piece.take len
        let (o, s) := s.slAdmit k (dField desc 10 1 % 8) len bs
        if bs.length = len then .next (s.slWriteBack k [] (if o.isSome then 0 else 0x600A))
        else .next (s.setSluice k { s.sluice k with hostIn := some ⟨o, len - bs.length⟩ })
    | none, some h =>
      let bs := piece.take h.left
      let s := match h.order with
        | some o => s.slMore k o bs
        | none => s
      if bs.length = h.left then
        .next ((s.setSluice k { s.sluice k with hostIn := none }).slWriteBack k [] (if h.order.isSome then 0 else 0x600A))
      else .next (s.setSluice k { s.sluice k with hostIn := some { h with left := h.left - bs.length } })
where
  /-- Bytes 0 to 7 of a sluice descriptor: its host address. -/
  dHaddr2 (d : BitVec 512) : Nat := dField d 0 8

/-- The part of a delivered descriptor the device writes, bytes 8 to 59 (R292). -/
def slDescBytes (i : SlItem) (last : Bool) : List Byte :=
  natLe 2 i.len ++ natLe 1 i.prio ++ natLe 1 ((if i.gap then 1 else 0) + (if last then 2 else 0)) ++ natLe 2 i.drops ++ natLe 2 0 ++
  natLe 8 i.tb0 ++ natLe 36 0

/-- SLUICE_HOST_DELIVER (R288, R292): what has arrived of the current item goes into the host's posted buffer; with the last byte the
descriptor is written back. -/
def execSluiceHostDeliver (k : Sluice) (desc : BitVec 512) (err : Option PcieErr) (s : State) : Out :=
  let k := k.val
  let n := 16 + k
  let x := s.ring n
  if !s.ringRuns n || !s.hostConsumes k || !s.slEn k || x.posts == x.dev then .next s
  else match err with
    | some e => .next (s.fetchFault n e)
    | none =>
      if dField desc 0 8 % 4096 ≠ 0 then .next (s.slBadDesc k)
      else
        let s := s.slBegin k
        match (s.sluice k).cur with
        | none => .next s
        | some (i, off) =>
          let bs := i.data.drop off
          let s := if bs.isEmpty then s else s.hostWrite (dField desc 0 8 + off) bs
          if i.gap || i.data.length == i.len then
            .next (((s.setSluice k { s.sluice k with cur := none }).slSwap k).slWriteBack k (slDescBytes i true) 0)
          else .next (s.setSluice k { s.sluice k with cur := some (i, i.data.length) })

/-- A host consumer drops its current item (R289, R292): a buffer it has begun to fill is written back without the last flag. -/
def State.hostDrop (s : State) (k : Nat) : State :=
  match (s.sluice k).cur with
  | none => s
  | some (i, off) =>
    let s := s.slDrop k
    if 0 < off then s.slWriteBack k (slDescBytes i false) 0 else s

/-- SLUICE_DROP (R274, R289): a command of a host consumer. -/
def execSluiceDrop (ring : Fin 4) (s : State) : Out :=
  .next (s.onCmd ring [0x30] (fun s serial d =>
    let k := dParam d % 65536
    let s := if k < 256 ∧ s.slEn k = true ∧ s.hostConsumes k = true then s.hostDrop k else s
    s.finish ring serial 0 0))

/-- SLC_CMD_DROP (R289, R295): shell firmware drops the rest of the current item. -/
def execSlcCmdDrop (k : Sluice) (s : State) : Out :=
  if s.slEn k && s.slConsumer k == 5 then .next (s.hostDrop k) else .next (s.slDrop k)

/-- NOTIFY_RETRY (R314): a refused notify is tried again at a tick. -/
def execNotifyRetry (k : Sluice) (s : State) : Out :=
  if (s.sluice k).notify then .next (s.notifyTry k) else .next s

/-- SLC_CNT_CLEAR (R295). -/
def execSlcCntClear (s : State) : Out :=
  .next (s.each (List.range 256) (fun s k => (s.setReg (selAddr R.SLC_DROPS k) 0).setReg (selAddr R.SLC_ITEMS k) 0))

/-- HOST_WINDOW_COMPLETION (R272): the completion of the i-th read of a host window returns to its far port. One that ends with an
error, or finds the link down or the engine off, is answered ADDR. -/
def execHostWindowCompletion (i : Nat) (data : List Byte) (err : Option PcieErr) (s : State) : Out :=
  match s.host.reads[i]? with
  | none => .next s
  | some r =>
    let s := { s with host := { s.host with reads := s.host.reads.eraseIdx i } }
    match err with
    | some e => .next ((s.pcieErr e).answer r.hdr 5 [])
    | none =>
      if s.on F.PCIE_STATUS_up && s.on F.RING_CTRL_en then .next (s.answer r.hdr 0 (bytesUnits (hlen r.hdr) data))
      else .next (s.answer r.hdr 5 [])

/-- BAR2_ACCESS (R266, R315): a word of a hopper bank, which only a host-owned bank serves. `data`: the word of a write. -/
def execBar2Access (off : BitVec 24) (data : Option Word) (s : State) : Out :=
  let o := (s.get F.PCIE_BAR2SEL_group * 2 ^ 24 + off.toNat / 4 * 4) % 2 ^ 26
  if s.hopOwner (hopBank o) ≠ 5 then
    let s := (s.bump F.PCIE_BARDENY_low 1).bump F.HOP_DENY_race 1
    .next (match data with
      | some _ => s
      | none => { s with host := { s.host with readBytes := natLe 4 0 } })
  else match data with
    | some w => .next (s.hopWrite o (natLe 4 w.toNat))
    | none =>
      let s := if s.hopBad o 4 then s.hopUe o 0x220 else s
      .next { s with host := { s.host with readBytes := s.hopRead o 4 } }

end Sys2Proof.Machine
end

