-- ==== Sys2Proof/Machine/RegRead.lean ====
section
/-!
DEFINITION. Machine/RegRead.lean: what a register shows when it is read (R10, R445 and the register chapters). A register no rule
computes shows what is stored. `x`: the value of a register that shows a measurement of the device's surroundings.
-/
namespace Sys2Proof.Machine

open Sys2Proof

/-- A register word with fields replaced by what the state shows. -/
def State.shows (s : State) (a : Nat) (l : List (Fld × Nat)) : Word := l.foldl (fun w e => e.1.into w e.2) (s.reg a)

def bit01 (b : Bool) : Nat := if b then 1 else 0

/-- The number whose bit i is f i, for i below n. -/
def bitsOf (n : Nat) (f : Nat → Bool) : Nat := (List.range n).foldl (fun acc i => acc + (if f i then 2 ^ i else 0)) 0

def wordOf (n : Nat) : Word := BitVec.ofNat 32 n

/-- Instance of a block, and the address of its first register. -/
def instOf (base stride a : Nat) : Nat := (a - base) / stride

/-! ## Registers of absent units (R2, R445) -/

/-- The register belongs only to a disabled quadrant, or to P3 on an MZL-3Q. -/
def State.regAbsent (s : State) (a : Nat) : Bool :=
  let q (n : Nat) : Bool := !s.quadEnabled (n % 4)
  let p3 := !s.partExists 3
  if 0xA3000 ≤ a ∧ a < 0xA4000 then p3
  else if 0xB3000 ≤ a ∧ a < 0xB4000 then p3
  else if R.CFG_P_STATE 3 ≤ a ∧ a < R.CFG_P_STATE 4 then p3
  else if R.ACQ_P_CTRL 3 ≤ a ∧ a < R.ACQ_P_CTRL 4 then p3
  else if R.TB1_TURNS_LO 3 ≤ a ∧ a ≤ R.TB1_STATUS 3 then p3
  else if [R.DBG_BREAKREC 3, R.DBG_HALTCAUSE 3, R.DBG_RUNLEFT_LO 3, R.DBG_RUNLEFT_HI 3, R.DBG_WHIT 3, R.DBG_WOWNER 3, R.TIO_PART 3].contains a then p3
  else if 0x1000000 ≤ a ∧ a < 0x1100000 then q (instOf 0x1000000 0x1000 a / 64)
  else if 0x2200000 ≤ a ∧ a < 0x2210000 then q (instOf 0x2200000 0x1000 a / 4)
  else if 0x2210000 ≤ a ∧ a < 0x2218000 then q (instOf 0x2210000 0x100 a / 32)
  else if R.GOV_VFLUME 0 ≤ a ∧ a < R.GOV_VFLUME 4 then q ((a - R.GOV_VFLUME 0) / 4)
  else if R.ACQ_MILLEN 0 ≤ a ∧ a < R.ACQ_MILLEN 8 then q ((a - R.ACQ_MILLEN 0) / 8)
  else if R.PWR_DOM 0 ≤ a ∧ a < R.PWR_DOM 44 then !s.unitExists ((a - R.PWR_DOM 0) / 4)
  else if R.PWR_DSTAT 0 ≤ a ∧ a < R.PWR_DSTAT 44 then !s.unitExists ((a - R.PWR_DSTAT 0) / 4)
  else false

/-! ## Block by block -/

def State.showGlb (s : State) (a : Nat) : Word :=
  let st (v : Nat) : Nat := bitsOf 4 (fun p => s.pstate p == v)
  let boot := s.get F.CFG_BOOT_state
  if a = R.GLB_STATUS then
    wordOf (bit01 (boot == 1) * 2 ^ 31 + bit01 (boot == 2) * 2 ^ 30 + st stRunning * 2 ^ 24 + st stHalted * 2 ^ 20 + st stLoaded * 2 ^ 16)
  else s.reg a

def State.showClk (s : State) (a : Nat) : Word :=
  if a = R.CLK_STATUS then s.shows a [(F.CLK_STATUS_spread_on, s.get F.CLK_SPREAD_ctl_en)]
  else s.reg a

/-- PWR (R413). PWR_NEXT and PWR_NEXTSRC: the cores' known events; whether a doorbell poll or a refresh is due before them the sample x says. -/
def State.showPwr (s : State) (a : Nat) (x : Word) : Word :=
  if a = R.PWR_STATUS then
    let waking := ((List.range 48).filter (fun u => s.on (F.PWR_DSTAT_waking u))).length
    s.shows a [(F.PWR_STATUS_busy, bit01 (waking != 0)), (F.PWR_STATUS_in_run, ((List.range 48).filter (fun u => s.dstate u == 0)).length),
      (F.PWR_STATUS_waking, waking)]
  else if a = R.PWR_NEXT then wordOf (min x.toNat (match s.nextEvent with | some (ns, _) => ns / 1000 | none => 2 ^ 32 - 1))
  else if a = R.PWR_NEXTSRC then
    wordOf (match F.PWR_NEXTSRC_source.of x with
      | 4 => 4 * 2 ^ 28 + 44
      | 5 => 5 * 2 ^ 28 + 36 + F.PWR_NEXTSRC_domain.of x % 4
      | _ => match s.nextEvent with
        | some (_, src) => src * 2 ^ 28 + 45
        | none => 0)
  else if R.PWR_DSTAT 0 ≤ a ∧ a < R.PWR_DSTAT 48 then wordOf (s.dstat ((a - R.PWR_DSTAT 0) / 4))
  else s.reg a

/-- SENS (R415): each monitor shows its commanded level. -/
def State.showSens (s : State) (a : Nat) : Word :=
  if R.SENS_VMON 0 ≤ a ∧ a < R.SENS_VMON 16 then s.shows a [(F.SENS_VMON_target ((a - R.SENS_VMON 0) / 4), s.vmonTarget ((a - R.SENS_VMON 0) / 4))]
  else s.reg a

def State.showRst (s : State) (a : Nat) : Word :=
  if a = R.RST_UPTIME_LO then wordOf (s.uptime / 800000)
  else if a = R.RST_UPTIME_HI then wordOf (s.uptime / 800000 / 2 ^ 32)
  else s.reg a

def State.showGov (s : State) (a : Nat) : Word :=
  let units (f : Nat → Bool) : Nat := bitsOf 44 (fun u => s.unitExists u && f u)
  if a = R.GOV_SMCMD_LO then wordOf (units s.unitOn)
  else if a = R.GOV_SMCMD_HI then wordOf (units s.unitOn / 2 ^ 32)
  else if a = R.GOV_SMOBS_LO then wordOf (units s.unitSeen)
  else if a = R.GOV_SMOBS_HI then wordOf (units s.unitSeen / 2 ^ 32)
  else if a = R.GOV_SMMIS_LO then wordOf (units (fun u => s.misBit u && s.unitMismatch u))
  else if a = R.GOV_SMMIS_HI then wordOf (units (fun u => s.misBit u && s.unitMismatch u) / 2 ^ 32)
  else if a = R.GOV_LOGDATA then
    let seq := s.get F.GOV_LOGSEL_seq
    match s.gov.log.find? (fun r => r.1 % 2 ^ 16 == seq) with
    | some (w0, b, c, t) => wordOf (match s.get F.GOV_LOGSEL_word with | 0 => w0 | 1 => b | 2 => c | _ => t)
    | none => 0
  else s.reg a

def State.showEvt (s : State) (a : Nat) : Word :=
  if a = R.EVT_STATUS then s.shows a [(F.EVT_STATUS_queued, s.evt.queue.length)]
  else if a = R.EVT_HDATA then
    match s.evt.hist[s.get F.EVT_HSEL_entry]? with
    | some r => wordOf (leNat (((evBytes r r.num).drop (4 * s.get F.EVT_HSEL_word)).take 4))
    | none => 0
  else if a = R.EVT_CDATA then wordOf (mget (fun _ => 0) s.evt.codeCnt (s.get F.EVT_CSEL_code))
  else s.reg a

def State.showKey (s : State) (a : Nat) (x : Word) : Word :=
  if a = R.KEY_STATUS then s.shows a [(F.KEY_STATUS_vbat_ok, F.KEY_STATUS_vbat_ok.of x)]
  else if a = R.KEY_VBAT then x &&& 0xFFFF
  else if a = R.KEY_FKCV then (if s.on F.KEY_FUSE_programmed then Config.keyCheck Config.fuseKey else 0)
  else s.reg a

def State.showCfg (s : State) (a : Nat) : Word :=
  if a = R.CFG_STATUS then
    s.shows a [(F.CFG_STATUS_line, bit01 (s.lines.levels.testBit 4 || s.bit F.GPIO_SYSCTRL_ignore 4)), (F.CFG_STATUS_holding, bit01 s.holdsDone),
      (F.CFG_STATUS_loading, bitsOf 4 (fun p => s.pstate p == stLoading)), (F.CFG_STATUS_released, bitsOf 4 (fun p => (s.part p).released)),
      (F.CFG_STATUS_fault_hold, bitsOf 4 (fun p => s.on (F.CFG_P_STATE_fault_hold p)))]
  else if a = R.CFG_BOOT then s.shows a [(F.CFG_BOOT_role, s.get F.GLB_STRAPS_xspi_role)]
  else s.reg a

/-- Entries of the selected slot table, or route bytes (R107). -/
def State.slotWord (s : State) : Nat :=
  let m := s.get F.RACE_SLOTBASE_router
  let port := s.get F.RACE_SLOTBASE_port
  let e := s.get F.RACE_SLOTBASE_entry
  let four (f : Nat → Nat) : Nat := f 0 + 2 ^ 8 * f 1 + 2 ^ 16 * f 2 + 2 ^ 24 * f 3
  if port < 6 then four (fun j => (mget (fun _ => 0xFF) s.race.slots ((m * 6 + port) * 2048 + e / 4 * 4 + j) : Byte).toNat)
  else if port = 6 ∧ e % 8 < 6 then four (fun j => (mget (fun _ => 0) s.race.routes ((m * 6 + e % 8) * 4 + j) : Byte).toNat)
  else 0

def State.showRace (s : State) (a : Nat) : Word :=
  if a = R.RACE_STATUS then s.shows a [(F.RACE_STATUS_isolated, ((List.range 512).filter s.isolated).length)]
  else if a = R.RACE_DEADCTRL then s.shows a [(F.RACE_DEADCTRL_readmit, bit01 (!s.race.readmitting.isEmpty))]
  else if a = R.RACE_SLOTDATA then wordOf s.slotWord
  else if R.STAT_UNITS 0 ≤ a ∧ a < R.STAT_UNITS 64 then (if s.on (F.RACE_STSEL_en ((a - R.STAT_UNITS 0) / 4)) then s.reg a else 0)
  else if R.STAT_LAT 0 ≤ a ∧ a < R.STAT_LAT 64 then (if s.on (F.RACE_STSEL_en ((a - R.STAT_LAT 0) / 4)) then s.reg a else 0)
  else s.reg a

/-- Some landing port of mill m has its overrun flag set, or is in drain. -/
def State.millOver (s : State) (m : Nat) : Bool := (List.range 8).any (fun j => s.on (F.FLM_PORTSTAT_overrun.sel (portIdx m 1 j)))
def State.millDrains (s : State) (m : Nat) : Bool := (List.range 8).any (fun j => (s.landPort m j).drain)

/-- The port FLM_PORTSEL names. -/
def State.selPort (s : State) : Nat × Nat × Nat := (s.get F.FLM_PORTSEL_mill, s.get F.FLM_PORTSEL_dir, s.get F.FLM_PORTSEL_port)

def State.showFlm (s : State) (a : Nat) : Word :=
  let any64 (f : Nat → Bool) (q : Nat) : Bool := (List.range 64).any (fun i => f (64 * q + i))
  if a = R.FLM_STATUS then
    s.shows a [(F.FLM_STATUS_stalled, bitsOf 4 (any64 s.millDrains)), (F.FLM_STATUS_overrun, bitsOf 4 (any64 s.millOver)),
      (F.FLM_STATUS_fault, if s.on F.FLM_ERR_fault_flag then 2 ^ s.get F.FLM_ERR_quadrant else 0),
      (F.FLM_STATUS_powered, bitsOf 4 (fun q => s.dstate (32 + q) == 0))]
  else if a = R.FLM_RBDATA then
    (if s.bit F.FLM_STATUS_quiesced (s.get F.FLM_RBADDR_quadrant) then
      wordOf (s.readBack (s.get F.FLM_RBADDR_quadrant) (s.get F.FLM_RBADDR_space) (s.get F.FLM_RBADDR_index)) else 0)
  else if a = R.FLM_PORTSTAT then let (m, d, j) := s.selPort; s.portStatWord m d j
  else if a = R.FLM_SLACKDATA then
    let r := s.get F.FLM_SLACKSEL_region
    if (s.region r).used && (s.region r).launched then wordOf (mget (fun _ => 0) s.flume.hist (r * 16 + s.get F.FLM_SLACKSEL_bin)) else 0
  else if a = R.FLM_MEMSTAT then
    let b := s.block (s.get F.FLM_MEMSEL_block / 512) (s.get F.FLM_MEMSEL_block % 512)
    s.shows a [(F.FLM_MEMSTAT_mode, b.mode), (F.FLM_MEMSTAT_full, bit01 (b.mode == 1 && b.occ == b.entries)),
      (F.FLM_MEMSTAT_empty, bit01 (b.mode == 1 && b.occ == 0)), (F.FLM_MEMSTAT_occupancy, b.occ)]
  else if R.FLM_OVR 0 ≤ a ∧ a < R.FLM_OVR 8 then wordOf (bitsOf 32 (fun b => s.millOver (32 * ((a - R.FLM_OVR 0) / 4) + b)))
  else if R.FLM_STL 0 ≤ a ∧ a < R.FLM_STL 8 then wordOf (bitsOf 32 (fun b => s.millDrains (32 * ((a - R.FLM_STL 0) / 4) + b)))
  else s.reg a

def State.showMport (s : State) (a : Nat) : Word :=
  let id := s.get F.MPORT_SEL_port
  let bound (id : Nat) : Bool := s.fpKind id != 0
  if a = R.MPORT_STATUS then s.shows a [(F.MPORT_STATUS_bound, ((List.range 512).filter bound).length)]
  else if [R.MPORT_BIND, R.MPORT_BASE, R.MPORT_SIZE, R.MPORT_TARGET].contains a then s.reg (selAddr a id)
  else if a = R.MPORT_PSTAT then
    let n (f : RSlot → Bool) : Nat := ((List.range 32).filter (fun j => f (s.slot id j))).length
    s.shows (selAddr a id) [(F.MPORT_PSTAT_req_occ, (s.farPort id).reqs.length), (F.MPORT_PSTAT_outstanding, n (·.busy)),
      (F.MPORT_PSTAT_owed, n (fun x => x.busy && x.owed))]
  else if a = R.MPORT_MMDESC then
    let d := s.desc (s.get F.MPORT_MMSEL_mill) (s.get F.MPORT_MMSEL_desc)
    if !d.valid then 0
    else if s.on F.MPORT_MMSEL_word then wordOf (d.base / 512 % 32 * 512 + (d.width - 1))
    else wordOf (2 ^ 31 + d.rows % 2 ^ 15 * 2 ^ 15 + d.base % 512)
  else if R.MPORT_BOUND 0 ≤ a ∧ a < R.MPORT_BOUND 16 then wordOf (bitsOf 32 (fun b => bound (32 * ((a - R.MPORT_BOUND 0) / 4) + b)))
  else s.reg a

/-- A channel's registers. While it trains, DDRC_TRAIN.step shows the step in progress, 1 to 8, as the read samples it (R206; log entry 83). -/
def State.showDdrc (s : State) (a : Nat) (x : Word) : Word :=
  let c := instOf 0x2000000 0x10000 a
  let ch := s.chan c
  if a = R.DDRC_CTRL c then s.shows a [(F.DDRC_CTRL_train c, bit01 (s.get (F.DDRC_STATUS_state c) == 3))]
  else if a = R.DDRC_STATUS c then
    let w := ch.waiting.filter (fun r => hcmd r.pk.hdr != 1)
    s.shows a [(F.DDRC_STATUS_read_occ c, min 256 (ch.reads.length + (ch.waiting.length - w.length))),
      (F.DDRC_STATUS_write_occ c, min 128 (ch.writes.length + w.length)), (F.DDRC_STATUS_rae_occ c, ch.ahead.length)]
  else if a = R.DDRC_TRAIN c then
    (if s.cstate c = 3 then s.shows a [(F.DDRC_TRAIN_step c, (F.DDRC_TRAIN_step c).of x % 8 + 1)] else s.reg a)
  else if a = R.DDRC_UTIL c then x
  else if a = R.DDRC_REF c then s.shows a [(F.DDRC_REF_limit c, if s.on (F.DDRC_CTRL_fgr c) then 8 else 4)]
  else s.reg a

def State.showDphy (s : State) (a : Nat) : Word :=
  let c := instOf 0x2100000 0x10000 a
  let n := s.get (F.DPHY_SEL_rank c) * 32 + s.get (F.DPHY_SEL_lane c)
  if [R.DPHY_RDEYE c, R.DPHY_WRDLY c, R.DPHY_VREF c, R.DPHY_DRIFT c].contains a then
    (if s.get (F.DPHY_SEL_lane c) < 20 then s.reg (selAddr a n) else 0)
  else s.reg a

def State.showSpk (s : State) (a : Nat) : Word :=
  let sp := instOf 0x2200000 0x1000 a
  if a = R.SPK_STATUS sp then
    match s.spokeOwner sp with
    | some p => s.shows a [(F.SPK_STATUS_assigned sp, 1), (F.SPK_STATUS_partition sp, p)]
    | none => s.shows a [(F.SPK_STATUS_assigned sp, 0), (F.SPK_STATUS_partition sp, 0)]
  else s.reg a

/-- A lane's taps (R201): while eq_freeze is set a DFE tap holds one value, which the model leaves open (R179; log entry 3, kind 13). -/
def State.showLane (s : State) (a : Nat) (x : Word) : Word :=
  let l := instOf 0x2210000 0x100 a
  if a = R.LANE_STAT l then
    let sel := s.get (F.LANE_STAT_tap_sel l)
    let held := (Config.freeBits 13 ((s.spoke (l / 8)).freezes * 2 ^ 16 + l * 16 + sel)).toNat % 256
    let tap := if s.on (F.SPK_CTRL_eq_freeze (l / 8)) then held else (F.LANE_STAT_tap_val l).of x
    let v := if sel = 0 then mget (fun _ => 0) s.gov.eqCode l else if sel ≤ 12 then tap else 0
    s.shows a [(F.LANE_STAT_tap_val l, v)]
  else s.reg a

def State.showPcie (s : State) (a : Nat) (x : Word) : Word :=
  if a = R.PCIE_STATUS then s.shows a [(F.PCIE_STATUS_l1, bit01 (s.on F.PCIE_STATUS_up && s.dstate 44 == 1))]
  else if a = R.PCIE_RXERR ∨ a = R.PCIE_RATE then x
  else if R.PCIE_EQ 0 ≤ a ∧ a < R.PCIE_EQ 16 then wordOf (x.toNat / 16 % 256 * 16 + x.toNat % 4)
  else if a = R.PCIE_TAGS then x &&& 0x7FF
  else if R.PCIE_LANE 0 ≤ a ∧ a < R.PCIE_LANE 16 then
    let j := (a - R.PCIE_LANE 0) / 4
    s.shows a [(F.PCIE_LANE_errors j, (F.PCIE_LANE_errors j).of x)]
  else s.reg a

def State.showRing (s : State) (a : Nat) : Word :=
  if a = R.RING_HRDY then s.shows a [(F.RING_HRDY_unack, bitsOf 13 s.unacked)] else s.reg a

/-- Registers of the SLC block that show the sluice of SLC_SEL. -/
def slcSelected (a : Nat) : Bool :=
  [R.SLC_CFG, R.SLC_SIZE, R.SLC_CUT, R.SLC_ITEMS, R.SLC_DROPS, R.SLC_RING_LO, R.SLC_RING_HI, R.SLC_RINGCFG].contains a

def State.showSlc (s : State) (a : Nat) : Word :=
  let k := s.get F.SLC_SEL_sluice
  if slcSelected a then s.reg (selAddr a k)
  else if a = R.SLC_STATUS then
    s.shows a [(F.SLC_STATUS_unack, ((List.range 256).filter (fun k => s.hostConsumes k && s.slEn k && s.unacked (16 + k))).length)]
  else if a = R.SLC_POOL then wordOf s.poolUsed
  else if a = R.SLC_OCC then
    let y := s.sluice k
    let cur := match y.cur with | some (i, _) => itemSpace i.len | none => 0
    wordOf (bankUse y.fill / 64 % 2 ^ 16 * 2 ^ 16 + (bankUse y.drain + cur) / 64 % 2 ^ 16)
  else if a = R.SLC_GAP then wordOf (((s.sluice k).fill.find? (·.gap)).map (·.drops) |>.getD 0)
  else if R.SLC_EN 0 ≤ a ∧ a < R.SLC_EN 8 then wordOf (bitsOf 32 (fun b => s.slEn (32 * ((a - R.SLC_EN 0) / 4) + b)))
  else if R.SLC_NONEMPTY 0 ≤ a ∧ a < R.SLC_NONEMPTY 8 then
    wordOf (bitsOf 32 (fun b => !s.slEmpty (32 * ((a - R.SLC_NONEMPTY 0) / 4) + b)))
  else s.reg a

/-- SCHED_COREk (R322). -/
def State.schedCoreWord (s : State) (k : Nat) : Nat :=
  let c := s.schedCore k
  let st := if s.on (F.MLR_CTRL_hold k) || (s.miller k).halted then 3 else if c.waiting.isSome then 2 else if c.stack.isEmpty then 0 else 1
  let slot := s.slotItem k
  let run := c.stack.head?
  st * 2 ^ 30 + bit01 slot.isSome * 2 ^ 29 + ((slot.map WItem.prio).getD 0) * 2 ^ 26 + ((run.map WItem.prio).getD 0) * 2 ^ 23 +
    (c.stack.length - 1) % 8 * 2 ^ 20 + ((run.map (·.seq)).getD 0) % 2 ^ 20

/-- HOP_CMD.go reads 1 while the handover of the bank it names waits or scrubs (R10, R316). -/
def State.showHop (s : State) (a : Nat) : Word :=
  let b := s.get F.HOP_CMD_bank
  if a = R.HOP_CMD then s.shows a [(F.HOP_CMD_go, bit01 (s.bit F.HOP_STATUS_handover b || s.bit F.HOP_STATUS_scrubbing b))]
  else s.reg a

def State.showSched (s : State) (a : Nat) : Word :=
  if a = R.SCHED_STATUS then s.shows a [(F.SCHED_STATUS_delayed, s.sched.delayed.length)]
  else if R.SCHED_RDY 0 ≤ a ∧ a < R.SCHED_RDY 8 then
    let l := s.sched.ready.filter (fun r => r.item.prio == (a - R.SCHED_RDY 0) / 4)
    wordOf ((l.filter (fun r => r.held.isSome)).length * 2 ^ 16 + l.length)
  else if R.SCHED_DLY 0 ≤ a ∧ a < R.SCHED_DLY 4 then wordOf (s.sched.delayed.filter (fun d => d.list == (a - R.SCHED_DLY 0) / 4)).length
  else if R.SCHED_DLYHEAD 0 ≤ a ∧ a < R.SCHED_DLYHEAD 4 then
    match s.sched.delayed.find? (fun d => d.list == (a - R.SCHED_DLYHEAD 0) / 4) with
    | some d => wordOf (s.tb0 / 1000 + d.due - s.sched.ticks)
    | none => 0
  else if R.SCHED_CORE 0 ≤ a ∧ a < R.SCHED_CORE 32 then wordOf (s.schedCoreWord ((a - R.SCHED_CORE 0) / 4))
  else s.reg a

def State.showMlr (s : State) (a : Nat) : Word :=
  let k := instOf 0x2500000 0x1000 a
  if a = R.MLR_STATUS k then
    let m := s.miller k
    let mode := if s.on (F.MLR_CTRL_hold k) then 0 else if m.halted then 4 else if s.napping k then 5 else if m.wfi then 1 else if m.machine then 3 else 2
    s.shows a [(F.MLR_STATUS_mode k, mode)]
  else s.reg a

def State.showTrc (s : State) (a : Nat) (x : Word) : Word :=
  if a = R.TRC_RATE then x &&& 0xFFFF
  else if R.TRC_CORE 0 ≤ a ∧ a < R.TRC_CORE 32 then
    let k := (a - R.TRC_CORE 0) / 4
    s.shows a [(F.TRC_CORE_napping k, bit01 (s.napping k)), (F.TRC_CORE_fill k, (s.trc k).buf.length)]
  else s.reg a

def State.showAcq (s : State) (a : Nat) (x : Word) : Word :=
  if a = R.ACQ_STATUS then
    s.shows a [(F.ACQ_STATUS_capturing, bitsOf 4 (fun p => s.on (F.ACQ_P_CTRL_en p))), (F.ACQ_STATUS_armed, bitsOf 4 (fun p => (s.cap p).post.getD 0 != 0 && s.get (F.ACQ_P_CTRL_post_action p) != 0)),
      (F.ACQ_STATUS_x_pending, bit01 s.lines.trigXPending)]
  else if a = R.ACQ_CNTDATA then s.reg (selAddr a (s.get F.ACQ_CNTSEL_partition * 8 + s.get F.ACQ_CNTSEL_counter))
  else if a = R.ACQ_GDEF then s.reg (selAddr a (s.get F.ACQ_GSEL_group))
  else if a = R.ACQ_RATE then x
  else
    match [0, 1, 2, 3].find? (fun p => a == R.ACQ_P_FILL p) with
    | some p => wordOf (min 65535 (s.capUsed p * 65536 / s.capSize p) * 2 ^ 16 + min 65535 (s.capHeld p * 65536 / s.capArea p))
    | none => s.reg a

def State.showTb (s : State) (a : Nat) : Word :=
  let g := s.get F.TB_PGSEL_gen
  if a = R.TB_STATUS then
    s.shows a [(F.TB_STATUS_anchored, s.get (F.TBK_STATUS_anchored 0) * 4 + s.get (F.TBK_STATUS_anchored 1) * 2 + s.get (F.TBK_STATUS_anchored 2)),
      (F.TB_STATUS_tb1_anchored, bitsOf 4 (fun p => s.on (F.TB1_STATUS_anchored p)))]
  else if a = R.TB_EVSTAT then s.shows a [(F.TB_EVSTAT_pg_running, bitsOf 8 (fun g => s.on (F.TB_PGCFG_en.sel g)))]
  else if [R.TB_PGCFG, R.TB_PGSTART_LO, R.TB_PGSTART_HI, R.TB_PGPERIOD_LO, R.TB_PGPERIOD_HI, R.TB_PGCOUNT].contains a then s.reg (selAddr a g)
  else
    match [0, 1, 2].find? (fun k => decide (R.TBK_CFG k ≤ a) && decide (a ≤ R.TBK_STEP_HI k)) with
    | some k =>
      if a = R.TBK_STATUS k then
        let v := s.slewOf k
        s.shows a [(F.TBK_STATUS_slewing k, bit01 (v != 0)), (F.TBK_STATUS_slew_neg k, bit01 (decide (v < 0))),
          (F.TBK_STATUS_slew_left k, (v.natAbs + 1000 * 2 ^ 32 - 1) / (1000 * 2 ^ 32))]
      else if a = R.TBK_NS_LO k then wordOf (s.baseNs k)
      else if a = R.TBK_NS_HI k then wordOf (s.baseNs k / 2 ^ 32)
      else if a = R.TBK_FRAC k then wordOf (mget (fun _ => 0) s.time.frac k)
      else s.reg a
    | none =>
      match [0, 1, 2, 3].find? (fun p => decide (R.TB1_TURNS_LO p ≤ a) && decide (a ≤ R.TB1_STATUS p)) with
      | some p =>
        let y := s.part p
        if a = R.TB1_TURNS_LO p then wordOf (s.turns p)
        else if a = R.TB1_TURNS_HI p then wordOf (s.turns p / 2 ^ 32)
        else if a = R.TB1_STATUS p then
          s.shows a [(F.TB1_STATUS_sticky_invalid p, bit01 (y.invalidToTurn0 || y.invalidFromNext || y.invalidToLoad || (y.pendInvalid && y.pendSticky))), (F.TB1_STATUS_step p, y.step)]
        else s.reg a
      | none => s.reg a

def State.showPtp (s : State) (a : Nat) : Word :=
  if a = R.PTP_STATUS then s.shows a [(F.PTP_STATUS_rx_queue, s.time.rx.length), (F.PTP_STATUS_tx_queue, s.time.tx.length)] else s.reg a

def State.showGpio (s : State) (a : Nat) : Word :=
  if a = R.GPIO_STATUS then
    wordOf (bit01 ((List.range 48).any (fun n => s.pinSeq n != 0)) * 2 ^ 31 + bitsOf 8 (fun i =>
      decide (1 < ((List.range 48).filter (fun n => n % 8 == i && s.get (F.GPIO_PIN_func n) == 2)).length)))
  else if a = R.GPIO_SYSSTAT then
    let ign (i : Nat) : Bool := s.bit F.GPIO_SYSCTRL_ignore i
    let drives (i : Nat) : Bool := match i with
      | 4 => s.holdsDone
      | 3 => s.lines.syncPulse
      | 2 => s.lines.haltPulse || s.lines.haltHeld
      | 1 => s.lines.trigXPulse
      | _ => false
    s.shows a [(F.GPIO_SYSSTAT_level, bitsOf 5 (fun i => s.lines.levels.testBit i || ign i)),
      (F.GPIO_SYSSTAT_driving, bitsOf 5 (fun i => drives i && !ign i))]
  else if a = R.GPIO_IN0 then wordOf (bitsOf 32 s.gpioLevel)
  else if a = R.GPIO_IN1 then wordOf (bitsOf 16 (fun j => s.gpioLevel (32 + j)))
  else if R.GPIO_PIN 0 ≤ a ∧ a < R.GPIO_PIN 48 then
    let n := (a - R.GPIO_PIN 0) / 4
    s.shows a [(F.GPIO_PIN_switching n, bit01 (s.pinSeq n != 0))]
  else s.reg a

def State.showTio (s : State) (a : Nat) : Word :=
  if a = R.TIO_STATUS then
    wordOf (bit01 ((List.range 160).any (fun p => s.pinSeq (64 + p) != 0)) * 2 ^ 31 + bitsOf 5 (fun b => s.on (F.TIO_BANK_en b)) * 2 ^ 8 +
      bitsOf 5 s.vioOk)
  else if a = R.TIO_PINCFG then
    let p := s.get F.TIO_SEL_pin
    if p < 160 then
      s.shows (selAddr a p) [(F.TIO_PINCFG_switching, bit01 (s.pinSeq (64 + p) != 0)),
        (F.TIO_PINCFG_unserved, bit01 (s.bit (F.TIO_UNSERVED_pins (p / 32)) (p % 32)))]
    else 0
  else if R.TIO_BANK 0 ≤ a ∧ a < R.TIO_BANK 5 then
    let b := (a - R.TIO_BANK 0) / 4
    s.shows a [(F.TIO_BANK_ok b, bit01 (s.vioOk b)), (F.TIO_BANK_mv b, s.get (F.SENS_VMON_mv (10 + b)))]
  else if R.TIO_IN 0 ≤ a ∧ a < R.TIO_IN 5 then wordOf (bitsOf 32 (fun j => s.tioLevel (32 * ((a - R.TIO_IN 0) / 4) + j)))
  else if R.TIO_ACTIVE 0 ≤ a ∧ a < R.TIO_ACTIVE 5 then
    wordOf (bitsOf 32 (fun j => (s.tioDrive (32 * ((a - R.TIO_ACTIVE 0) / 4) + j)).isSome))
  else
    match [0, 1, 2, 3].find? (fun p => a == R.TIO_PART p) with
    | some p => s.shows a [(F.TIO_PART_owned p, ((List.range 160).filter (fun n => s.tioOwner n == p + 1)).length)]
    | none => s.reg a

/-! ## The AUTH and DBG blocks -/

/-- A register of the AUTH block as port `port` reads it (R325, R349). -/
def State.showAuth (s : State) (port a : Nat) (x : Word) : Word :=
  if a = R.AUTH_CTRL then s.shows a [(F.AUTH_CTRL_port, port)]
  else if a = R.AUTH_LOCKOUT then s.shows a [(F.AUTH_LOCKOUT_left, min (F.AUTH_LOCKOUT_left.of x) (s.get F.AUTH_LOCKOUT_left))]
  else if R.AUTH_CHAL 0 ≤ a ∧ a < R.AUTH_CHAL 8 then
    match (s.authPort port).chal with
    | some c => BitVec.ofNat 32 (c.toNat / 2 ^ (8 * (a - R.AUTH_CHAL 0)))
    | none => 0
  else s.reg a

/-- Where a register that shows a selected unit of the DBG block stands; none when the selection names nothing. -/
def State.dbgWhere (s : State) (a : Nat) : Option Nat :=
  if [R.DBG_WCFG, R.DBG_WLOW_LO, R.DBG_WLOW_HI, R.DBG_WHIGH_LO, R.DBG_WHIGH_HI, R.DBG_WDATA_LO, R.DBG_WDATA_HI, R.DBG_WMASK_LO, R.DBG_WMASK_HI,
      R.DBG_WCOUNT, R.DBG_WHITREC].contains a then some (selAddr a s.selUnit.2.2)
  else if [R.DBG_MSTATUS, R.DBG_MHIT, R.DBG_MHITADDR_LO, R.DBG_MHITADDR_HI].contains a then some (selAddr a (s.get F.DBG_MSEL_core))
  else if [R.DBG_MRCFG, R.DBG_MRLOW_LO, R.DBG_MRLOW_HI, R.DBG_MRHIGH_LO, R.DBG_MRHIGH_HI, R.DBG_MRQUAL].contains a then s.selRange.map (selAddr a)
  else some a

/-- pc, selected register or CSR of a halted core; 0 while it runs (R345). -/
def State.coreWord (s : State) (a k : Nat) : Nat :=
  let m := s.miller k
  if !m.halted then 0
  else if a = R.DBG_MPC_LO ∨ a = R.DBG_MPC_HI then m.pc.toNat
  else if a = R.DBG_MGPR_LO ∨ a = R.DBG_MGPR_HI then
    (let n := s.get F.DBG_MGPRSEL_sel; if n = 0 then 0 else (mget (fun _ => 0) m.x n : BitVec 64).toNat)
  else ((s.csrPeek k (s.get F.DBG_MCSRSEL_sel)).getD 0).toNat

/-- The sampled pc of core k for port `port` (R348). -/
def State.pcSample (s : State) (port k : Nat) : Nat :=
  let m := s.miller k
  match s.runItem k with
  | none => 0
  | some i => if m.wfi || s.napping k || (i.ctx == 4 && !(s.sessScope port).testBit 4) then 0 else m.lastPc.toNat

/-- A register of the DBG block as port `port` reads it (R350). -/
def State.showDbg (s : State) (port a : Nat) : Word :=
  let k := s.get F.DBG_MSEL_core
  let half (hi : Bool) (v : Nat) : Word := wordOf (if hi then v / 2 ^ 32 else v)
  let halts (p : Nat) : Bool := s.running p && (if s.multi p then (s.part p).haltActed else (s.part p).causes != 0)
  if a = R.DBG_CTRL then (if port = 1 then s.shows a [(F.DBG_CTRL_port, 1)] else s.reg a)
  else if a = R.DBG_STATUS then
    s.shows a [(F.DBG_STATUS_pulse_pending, bitsOf 4 (fun p => s.running p && s.multi p && (s.part p).causes != 0 && !(s.part p).haltActed)),
      (F.DBG_STATUS_halting, bitsOf 4 halts)]
  else if a = R.DBG_HALTREQ then 
    let asked (req : Nat) : Nat := bitsOf 4 (fun p => (s.part p).startPend && (s.part p).dbgReq == req)
    s.shows a [(F.DBG_HALTREQ_halt, bitsOf 4 (fun p => s.running p && (s.part p).causes.testBit 1)), (F.DBG_HALTREQ_run, asked reqRun),
      (F.DBG_HALTREQ_step, asked reqStep)]
  else if [R.DBG_MPC_LO, R.DBG_MGPR_LO, R.DBG_MCSR_LO].contains a then half false (s.coreWord a k)
  else if [R.DBG_MPC_HI, R.DBG_MGPR_HI, R.DBG_MCSR_HI].contains a then half true (s.coreWord a k)
  else if a = R.DBG_MPCSAMP_LO then half false (s.pcSample port k)
  else if a = R.DBG_MPCSAMP_HI then half true (s.pcSample port k)
  else
    match s.dbgWhere a with
    | some b => s.reg b
    | none => 0

/-! ## The whole map -/

/-- The word a register outside the AUTH and DBG blocks shows. -/
def State.showReg (s : State) (a : Nat) (x : Word) : Word :=
  let b := a / 0x10000
  if b = 0 then s.showGlb a
  else if b = 1 then s.showClk a
  else if b = 2 then s.showPwr a x
  else if b = 3 then s.showRst a
  else if b = 4 then s.showGov a
  else if b = 5 then s.showSens a
  else if b = 6 then s.showEvt a
  else if b = 8 then s.showKey a x
  else if b = 9 then s.showCfg a
  else if b = 0xC ∨ b = 0xD then s.showRace a
  else if b = 0xE then s.showFlm a
  else if b = 0xF then s.showMport a
  else if 0x200 ≤ b ∧ b < 0x210 then s.showDdrc a x
  else if 0x210 ≤ b ∧ b < 0x220 then s.showDphy a
  else if b = 0x220 then s.showSpk a
  else if b = 0x221 then s.showLane a x
  else if b = 0x230 then s.showPcie a x
  else if b = 0x231 then s.showRing a
  else if b = 0x232 then s.showSlc a
  else if b = 0x240 then s.showHop a
  else if b = 0x241 then s.showSched a
  else if b = 0x250 ∨ b = 0x251 then s.showMlr a
  else if b = 0x261 then s.showTrc a x
  else if b = 0x262 then s.showAcq a x
  else if b = 0x270 then s.showTb a
  else if b = 0x271 then s.showPtp a
  else if b = 0x280 then s.showGpio a
  else if b = 0x281 then s.showTio a
  else s.reg a

/-- The MSI-X table and pending bits (R266). -/
def State.msixRead (s : State) (a : Nat) : Option Word :=
  if 0x3000000 ≤ a ∧ a < 0x3000400 then some (s.msixWord ((a - 0x3000000) / 16) (a / 4 % 4))
  else if 0x3001000 ≤ a ∧ a < 0x3001008 then some (mget (fun _ => 0) s.host.pba ((a - 0x3001000) / 4))
  else none

/-- A register of the AUTH block, or of the DBG block. -/
def inAuth (a : Nat) : Bool := a / 0x10000 == 7
def inDbg (a : Nat) : Bool := a / 0x10000 == 0x260

/-- What a read of BAR0 offset a shows to port `port` (for AUTH and DBG), without a side effect: 0 where no register stands, and in write-only
bits (R10, R445). -/
def State.peekReg (s : State) (port a : Nat) (x : Word) : Word :=
  match s.msixRead a with
  | some w => w
  | none =>
    match locateReg a with
    | none => 0
    | some (r, _, _) =>
      if s.regAbsent a then 0
      else (if inAuth a then s.showAuth port a x else if inDbg a then s.showDbg port a else s.showReg a x) &&& ~~~(BitVec.ofNat 32 r.wo)

end Sys2Proof.Machine
end

