-- ==== Sys2Proof/Machine/Reset.lean ====
section
/-!
DEFINITION. Machine/Reset.lean: the kinds of reset, and the bring-up sequence (R399, R408, R410, R411, R414).
-/
namespace Sys2Proof.Machine

open Sys2Proof

/-! ## Records of a reset (R414) -/

/-- The reset is recorded: cause, writer, counts and history, with the uptime in seconds. -/
def State.noteReset (s : State) (cause writer : Nat) : State :=
  let s := (s.put F.RST_CAUSE_last cause).put F.RST_CAUSE_writer writer
  let s := s.bump (if cause = 8 then F.RST_COUNT_warm else F.RST_COUNT_cold) 1
  let s := s.each ((List.range 7).reverse) (fun s i => s.setReg (R.RST_HIST (i + 1)) (s.reg (R.RST_HIST i)))
  (s.put (F.RST_HIST_cause 0) cause).put (F.RST_HIST_seconds 0) (min (s.uptime / 800000000) 0xFFFFFFF)

/-- Registers of a state whose address satisfies f, and the others as they are at reset. -/
def keepRegs (old : SMap Word) (f : Nat → Bool) : SMap Word :=
  (mdrop (fun a => !f a) old).foldr (fun e m => mset resetWord m e.1 e.2) (mdrop f State.reset.regs)

/-- The address lies in a block of 64 KiB. -/
def inBlock (a base : Nat) : Bool := a / 0x10000 == base / 0x10000

/-- Sessions that were open close by the reset (R330). -/
def State.noteSessions (s old : State) : State :=
  s.each ([1, 2, 3].filter (fun port => old.sessLevel port != 0)) (fun s port => s.raise 0x7004 0xFF [port, 5])

/-- What a cold reset keeps (R410): key RAM, the always-on records, and what the board and the fuses give: the identity, the straps,
the levels of the reset pins. -/
def coldKeeps (a : Nat) : Bool :=
  inBlock a 0x80000 || inBlock a 0x30000 || a == R.CLK_UNLOCKCNT || a == R.SENS_TRIPREC || (decide (a < 0x28)) || a == R.GLB_STRAPS || a == R.GLB_SUBSYS

/-- A cold reset (R410). `stage`: 0 while the board holds the module, 1 when it locks its clock by itself. -/
def State.coldReset (s : State) (cause writer stage : Nat) : State :=
  let r : State := { State.reset with
    regs := keepRegs s.regs coldKeeps
    keys := s.keys
    power := { thermtrip := s.power.thermtrip }
    pins := { pad := s.pins.pad, seen := s.pins.pad }
    host := { writes := s.host.writes, msgs := s.host.msgs }
    uptime := s.uptime
    free := s.free
    pending := s.pending }
  let r := ((r.setReg R.RST_CTRL 0).setReg R.RST_PCIECNT 0).setReg R.RST_SEQ 0
  ((r.put F.RST_SEQ_stage stage).noteReset cause writer).noteSessions s

/-- Stage a cold reset leaves: the sequence goes on by itself while the board holds nothing. -/
def State.stageNow (s : State) : Nat := if s.on F.RST_STATUS_reset_n && s.on F.RST_STATUS_pwr_ok then 1 else 0

/-- What a warm reset keeps beside it (R410, R414): clocks, power states, sensors, DRAM controllers, time bases, the PCIe link, scratch
registers. -/
def warmKeeps (a : Nat) : Bool :=
  coldKeeps a || inBlock a 0 || inBlock a 0x10000 || inBlock a 0x20000 || inBlock a 0x50000 || (decide (0x2000000 ≤ a) && decide (a < 0x2200000)) ||
    inBlock a 0x2300000 || inBlock (a % 0x10000000) 0x2700000

/-- A warm reset (R410): partitions are EMPTY, slice owners the shell, the hopper zero, and the boot runs again. -/
def State.warmReset (s : State) (writer : Nat) : State :=
  let r : State := { State.reset with
    regs := keepRegs s.regs warmKeeps
    keys := s.keys
    power := s.power
    pins := { pad := s.pins.pad, seen := s.pins.pad }
    host := { writes := s.host.writes, msgs := s.host.msgs, msix := s.host.msix, fmask := s.host.fmask, table := s.host.table, pba := s.host.pba }
    dram := { s.dram with chans := (List.range 16).foldl (fun m c =>
      mset (fun _ => {}) m c { s.chan c with waiting := [], reads := [], ahead := [] }) [] }
    time := { s.time with rx := [], tx := [] }
    clk := s.clk
    gov := { vcore := s.gov.vcore, vcoreRamp := s.gov.vcoreRamp }
    uptime := s.uptime
    free := s.free
    pending := s.pending }
  let r := r.each (List.range 16) (fun r c => (r.setReg (R.DDRC_OWN_LO c) 0).setReg (R.DDRC_OWN_HI c) 0)
  let r := r.each (List.range 4) (fun r p => r.setReg (R.TB1_STATUS p) 0)
  let r := (r.setReg R.GLB_SHELLVER 0).setReg R.GLB_HEARTBEAT 0
  ((r.put F.RST_SEQ_stage 3).noteReset 8 writer).noteSessions s

/-- A PCIe reset (R410, R283): PERST_N and a hot reset take the link down first; a Function Level Reset leaves the controller as it is. -/
def State.pcieReset (s : State) (flr : Bool) : State :=
  let s := if flr then s.dropRings.closeSession 3 4 else s.linkDown.closeSession 3 4
  let gone (a : Nat) : Bool :=
    inBlock a 0x2310000 || (if flr then a == R.PCIE_BAR2SEL || a == R.PCIE_BAR4CTL else inBlock a 0x2300000)
  let s := { s with regs := mdrop gone s.regs }
  let s := { s with host := { s.host with
    rings := mdrop (fun n => n < 16) s.host.rings, poll := none, msix := false, fmask := false, table := [], pba := [], barReqs := [],
    barRaised := false, bar4Scope := 0 } }
  s.put F.RING_HRDY_level 0

/-! ## Sources of a cold reset -/

/-- VAON_RISE (R410, R414): power-on. Key RAM is on VBAT. -/
def execVaonRise (s : State) : Out :=
  let r : State := { State.reset with
    regs := keepRegs s.regs (fun a => inBlock a 0x80000)
    keys := s.keys, pins := { pad := s.pins.pad, seen := s.pins.pad }, host := { writes := s.host.writes, msgs := s.host.msgs }, free := s.free, pending := s.pending }
  .next (r.put F.RST_STATUS_pwr_ok 0)

/-- RESET_N_ASSERT. -/
def execResetNAssert (s : State) : Out := .next ((s.put F.RST_STATUS_reset_n 0).coldReset 2 0 0)

/-- PWR_OK_FALL: THERMTRIP_N is let go (R408). -/
def execPwrOkFall (s : State) : Out :=
  let s := { s.put F.RST_STATUS_pwr_ok 0 with power := { s.power with thermtrip := false } }
  .next (s.coldReset 3 0 0)

/-- REFCLK_LOST (R399). -/
def execRefclkLost (s : State) : Out := .next ((s.bump F.CLK_UNLOCKCNT_ref_lost 1).coldReset 5 0 s.stageNow)

/-- MAIN_SHAFT_UNLOCK (R399). -/
def execMainShaftUnlock (s : State) : Out := .next ((s.bump F.CLK_UNLOCKCNT_unlocks 1).coldReset 6 0 s.stageNow)

/-- SENSOR_SAMPLE (R408, R415, R221): `temp` in 1/16 °C. Sensors 0 to 23 are the device's: a reading at the trip limit is recorded and
resets the module. 24 + c is the hottest module sensor of DRAM channel c. -/
def execSensorSample (sensor : Fin 40) (temp : BitVec 16) (s : State) : Out :=
  if 24 ≤ sensor.val then .next (s.dimmTemp (sensor.val - 24) (temp.toInt / 16).toNat)
  else if (16 * s.get F.SENS_LIMITS_trip : Int) ≤ temp.toInt then
    let s := ((s.put ⟨R.SENS_TRIPREC, 31, 1⟩ 1).put F.SENS_TRIPREC_sensor sensor).put F.SENS_TRIPREC_temp temp.toNat
    .next ({ s with power := { s.power with thermtrip := true } }.coldReset 4 0 s.stageNow)
  else .next (s.takeTemp sensor temp.toNat)

/-- A write of RST_CTRL counts (R410): from shell firmware, the host, or a FULL session with the shell bit. -/
def State.mayReset (s : State) (who : Requester) : Bool :=
  match sessOf who with
  | some port => s.sessLevel port == 2 && (s.sessScope port).testBit 4
  | none => who == .host

def State.resetBy (s : State) (who : Requester) (f : State → State) : State :=
  if s.mayReset who then f s
  else match sessOf who with
    | some port => s.denied port none R.RST_CTRL (if s.sessLevel port < 2 then 1 else 2)
    | none => s

/-- RST_CTRL_COLD, RST_CTRL_WARM. -/
def execRstCtrlCold (who : Requester) (s : State) : Out := .next (s.resetBy who (fun s => s.coldReset 7 (writerCode who) s.stageNow))
def execRstCtrlWarm (who : Requester) (s : State) : Out := .next (s.resetBy who (fun s => s.warmReset (writerCode who)))

/-! ## PCIe resets -/

/-- PERST_N_ASSERT. -/
def execPerstNAssert (s : State) : Out := .next (((s.put F.RST_STATUS_perst_n 0).bump F.RST_PCIECNT_perst 1).pcieReset false)

/-- HOT_RESET. -/
def execHotReset (s : State) : Out := .next ((s.bump F.RST_PCIECNT_hot_flr 1).pcieReset false)

/-- FUNCTION_LEVEL_RESET. -/
def execFunctionLevelReset (s : State) : Out := .next ((s.bump F.RST_PCIECNT_hot_flr 1).pcieReset true)

/-! ## Bring-up (R411) -/

/-- PWR_OK_RISE: the straps are sampled; the main shaft begins to lock. -/
def execPwrOkRise (slot : BitVec 6) (role : Bool) (s : State) : Out :=
  let s := ((s.put F.RST_STATUS_pwr_ok 1).put F.GLB_STRAPS_slot slot.toNat).flag F.GLB_STRAPS_xspi_role role
  .next (if s.get F.RST_SEQ_stage = 0 then s.put F.RST_SEQ_stage 1 else s)

/-- RESET_N_RELEASE: the main shaft has locked, and the fuses are read. -/
def execResetNRelease (s : State) : Out :=
  let s := s.put F.RST_STATUS_reset_n 1
  if s.on F.RST_STATUS_pwr_ok && decide (s.get F.RST_SEQ_stage ≤ 1) then .next ((s.put F.RST_SEQ_stage 2).put F.CLK_STATUS_shaft_lock 1) else .next s

/-- FUSE_READ_COMPLETE (R263, R411, R434, R453): the identity and the key the fuses give; VCORE goes to its Thrift target, and miller 0
starts in the boot ROM. -/
def execFuseReadComplete (f : Fuses) (s : State) : Out :=
  let st := s.get F.RST_SEQ_stage
  if s.on F.RST_STATUS_reset_n && s.on F.RST_STATUS_pwr_ok && (st == 1 || st == 2) then
    let s := ((s.setReg R.GLB_PART (f.part &&& 0xFFFFFF0F)).setReg R.GLB_ROMVER f.romver).setReg R.GLB_VTARGET (f.vtarget &&& 0x00FFFFFF)
    let s := (s.setReg R.GLB_CAPS (f.caps &&& 0xF003FFFF)).setReg R.GLB_SUBSYS f.subsys
    let s := (s.flag F.KEY_FUSE_programmed f.fuseKey.isSome).put F.KEY_FUSE_generation (match f.fuseKey with | some g => g.toNat | none => 0)
    let s := s.each (List.range 4) (fun s j => s.setReg (R.GLB_UID j) (BitVec.ofNat 32 (f.uid.toNat / 2 ^ (32 * j))))
    .next ((((s.put F.CLK_STATUS_shaft_lock 1).put F.RST_SEQ_stage 3).setVcore (s.vcoreOf 0)).resetCore 0)
  else .next s

end Sys2Proof.Machine
end

