-- ==== Sys2Proof/Machine/Run.lean ====
section
/-!
DEFINITION. Machine/Run.lean: turn ends, run control by ring commands, and the system lines (R22, R193 to R198, R333 to R337, R359,
R418).
-/
namespace Sys2Proof.Machine

open Sys2Proof

/-- TURN_END (R22). -/
def execTurnEnd (p : Part) (s : State) : Out := if s.running p then .next ((s.turnEnd p).edgeOrder s) else .next s

/-! ## Ring commands (R333 to R337) -/

/-- A run command of a ring: refused by its completion, or accepted. -/
def State.ringRun (s : State) (ring serial op : Nat) (d : BitVec 512) (n : Nat) : State :=
  match s.runRefusal (dPart d) with
  | some _ => s.finish ring serial 0x2005 0
  | none => s.runRequest (dPart d) n (some ⟨ring, serial, op⟩)

/-- RUN. -/
def execRun (ring : Fin 4) (s : State) : Out :=
  .next (s.onCmd ring.val [0x20] (fun s serial d => s.ringRun ring.val serial 0x20 d (dParam d % 2 ^ 64)))

/-- HALT. -/
def execHalt (ring : Fin 4) (s : State) : Out :=
  .next (s.onCmd ring.val [0x21] (fun s serial d =>
    if s.running (dPart d) then s.haltRequest (dPart d) (some ⟨ring.val, serial, 0x21⟩)
    else s.finish ring.val serial (if s.pstate (dPart d) = stHalted then 0 else 0x2005) 0))

/-- STEP. -/
def execStep (ring : Fin 4) (s : State) : Out :=
  .next (s.onCmd ring.val [0x22] (fun s serial d => s.ringRun ring.val serial 0x22 d 1))

/-- A far-port slot of partition p is owed (R158). -/
def State.anyOwed (s : State) (p : Nat) : Bool :=
  ((List.range 4).filter (fun q => s.ownsQuad p q)).any (fun q => (List.range 128).any (fun j => (List.range 32).any (fun k =>
    let x := s.slot (128 * q + j) k
    x.busy && x.owed)))

/-- No pace change is under way: from its acceptance until the step clocks run again no partition starts (R63; log entry 66). -/
def State.paceSettled (s : State) : Bool := s.clk.paceWait.isNone && s.stepClock

/-- PARTITION_START (R63, R334, R406, R158): a single-module start that is pending takes place at REFCLK edge `edge` once no pace change is
under way, no far-port slot is owed, its domains are in Run and its rails have returned. -/
def execPartitionStart (p : Part) (edge : Nat) (s : State) : Out :=
  if (s.part p).startPend && !s.multi p && s.paceSettled && !s.anyOwed p && s.startReady p && s.railsReady p then
    .next ((s.modPart p (fun x => { x with startEdge := edge, startCycle := x.turnBase })).startRun p)
  else .next s

/-! ## Lines (R193, R417 to R419) -/

/-- Lines in the order of GPIO_SYSCTRL: 0 TRIG_IN, 1 TRIG_X, 2 HALT_N, 3 SYNC_N, 4 CFG_DONE. -/
abbrev lnTrigIn : Nat := 0
abbrev lnTrigX : Nat := 1
abbrev lnHalt : Nat := 2
abbrev lnSync : Nat := 3

/-- Partitions that a SYNC_N edge starts (R195). -/
def State.syncParts (s : State) : List Nat :=
  (List.range 4).filter (fun p => s.multi p && (s.pstate p == stHalted || (s.pstate p == stLoaded && (s.part p).released)))

/-- A filtered edge is captured: what it makes pending. -/
def State.lineEdge (s : State) (line : Nat) (level : Bool) : State :=
  let x := s.lines
  match line, level with
  | 4, true => { s with lines := { x with cfgPending := true } }
  | 3, false =>
    let s := { s with lines := { x with syncPending := true, haltSinceSync := false } }
    s.each s.syncParts (fun s p => s.modPart p (fun y => { y with syncStart := true, measure := y.turn0 || y.remeasure }))
  | 2, false => { s with lines := { x with haltPending := true } }
  | 1, false => { s with lines := { x with trigXPending := true } }
  | 0, l => if l == s.on F.ACQ_XCFG_in_rising then { s with lines := { x with trigInPending := true } } else s
  | _, _ => s

/-- Filter setting of a line in ns (R418). -/
def State.lineFilter (s : State) (line : Nat) : Nat :=
  match line with
  | 0 => s.get F.GPIO_SYSFILT_trig_in
  | 1 | 2 => s.get F.GPIO_SYSFILT_halt_n
  | _ => s.get F.GPIO_SYSFILT_sync_n

/-- SYSTEM_LINE_EDGE (R418, R419): the new level of a line has held for a number of control cycles of 1.25 ns. -/
def execSystemLineEdge (line : Fin 5) (level : Bool) (cycles : Nat) (s : State) : Out :=
  if s.bit F.GPIO_SYSCTRL_ignore line then .next s
  else if cycles < (s.lineFilter line * 4 + 4) / 5 then .next (s.bump F.GPIO_SYSSTAT_rejected 1)
  else
    let v := if level then s.lines.levels ||| 2 ^ line.val else s.lines.levels &&& (31 - 2 ^ line.val)
    .next ({ s with lines := { s.lines with levels := v } }.lineEdge line level)

/-! ## Starting together (R195) -/

/-- SYNC_N_ACTED: measurement begins for the partitions that need it. -/
def execSyncNActed (s : State) : Out :=
  if s.lines.syncPending then
    let s := { s with lines := { s.lines with syncPending := false, syncPulse := false } }
    .next (s.each (List.range 4) (fun s p =>
      if (s.part p).syncStart && (s.part p).measure then
        (s.each (s.spokesOf p) (fun s sp => s.setSpoke sp { s.spoke sp with measuring := none })).framesFrom p 0
      else s))
  else .next s

/-- A start check fails (R195, R200): kind 7, and HALT_N is held. -/
def State.noGo (s : State) (p sp code : Nat) (data : List Nat) : State :=
  let s := (s.spokeErr sp 7 0).raise code p (sp :: data)
  { s with lines := s.lines.hold p }

/-- The start checks of a spoke (R184, R190), on what its module and its peer are now. A spoke that has received no measure frame has no
latency to compare (log entry 28). -/
def State.checkSpoke (s : State) (p sp : Nat) : State :=
  let s := s.agree sp
  let ok (f : Fld) : Bool := s.on f
  let others := ok (F.SPK_PEER_build_ok sp) && ok (F.SPK_PEER_budget_ok sp) && ok (F.SPK_PEER_role_ok sp)
  let s := if others && ok (F.SPK_PEER_pace_ok sp) then s
    else if others then s.noGo p sp 0x2003 [s.pace, s.get (F.SPK_PEER_peer_pace sp)]
    else s.noGo p sp 0x4007 [(s.reg (R.SPK_PEER sp)).toNat]
  if !(s.part p).measure then s
  else match (s.spoke sp).measuring with
    | none => s
    | some m =>
      let s := s.put (F.SPK_LAT_measured sp) (min m 4095)
      if s.hopBudget p < m then s.noGo p sp 0x4005 [m, s.hopBudget p]
      else if s.get (F.SPK_STATUS_state sp) = 3 then s.put (F.SPK_STATUS_state sp) 4 else s

/-- MEASUREMENT_END (R195): the start checks are made. A partition that cannot start, its far ports owing responses or a pace change being
under way (R158, R63), is a no-go as well (log entry 28). -/
def execMeasurementEnd (s : State) : Out :=
  .next ((s.each ((List.range 4).filter (fun p => (s.part p).syncStart)) (fun s p =>
    let s := s.each (s.spokesOf p) (fun s sp => s.checkSpoke p sp)
    let s := if (s.part p).measure then (s.modPart p (fun x => { x with measure := false })).framesFrom p (s.part p).turnBase else s
    if s.anyOwed p || !s.paceSettled then { s with lines := s.lines.hold p } else s)).edgeOrder s)

/-- HALT_N is released for a partition once no SPK_ERR.flag of its spokes is set (R197). -/
def State.settleHalt (s : State) : State :=
  let left := s.lines.holders.filter (fun p => (s.spokesOf p).any (fun sp => s.on (F.SPK_ERR_flag sp)))
  if left == s.lines.holders then s
  else { s with lines := { s.lines with holders := left, haltOwn := s.lines.haltOwn && (s.lines.haltPending || !left.isEmpty) } }

/-- SYNC_START (R195, R336): `high`: no other module pulls HALT_N low; `edge`: the REFCLK edge E + 4,096 (R194). No module starts when the
line is low or a HALT_N edge has been acted on since the capture; armed counts then stay armed, and the lead's command completes with
RUN_STATE. -/
def execSyncStart (high : Bool) (edge : Nat) (s : State) : Out :=
  let go := high && !s.lines.haltHeld && !s.lines.haltPulse && !s.lines.haltSinceSync
  .next ((s.each ((List.range 4).filter (fun p => (s.part p).syncStart)) (fun s p =>
    if go && s.syncParts.contains p then
      let s := s.each (s.spokesOf p) (fun s sp =>
        let s := if s.get (F.SPK_STATUS_state sp) = 4 then s.put (F.SPK_STATUS_state sp) 5 else s
        s.put (F.SPK_LAT_min_slack sp) 4095)
      ((s.framesFrom p (s.part p).turnBase).modPart p (fun x => { x with startEdge := edge, startCycle := x.turnBase })).startRun p
    else
      let s := s.modPart p (fun x => { x with syncStart := false, measure := false, startPend := false })
      s.endWaiters p (fun w => w.op == 0x20 || w.op == 0x22) 0x2005 0)).settleHalt)

/-! ## HALT_N (R197, R198, R337) -/

/-- A partition halts at the end of the turn in progress at the partition cycle of a REFCLK edge (R194, R197, R337); its turn is invalid in
a fault, and so is every one until the next turn 0. -/
def State.haltAt (s : State) (p edge : Nat) (fault own : Bool) : State :=
  let later := decide (s.cycleOf p (s.depth p) ≤ s.cycleOfEdge p edge)
  let t := s.turns p + (if later then 1 else 0)
  let s := if own then s else s.modPart p (fun x => { x with causes := x.causes ||| 2 ^ 5, causeTurn := if x.causes = 0 then t else x.causeTurn })
  s.modPart p (fun x =>
    if later then { x with haltNext := true, invalidFromNext := x.invalidFromNext || fault }
    else { x with haltActed := true, invalid := x.invalid || fault, invalidToTurn0 := x.invalidToTurn0 || fault })

/-- HALT_N_ACTED: `low`: another module still pulls the line low, which makes the edge a fault; `edge`: the REFCLK edge it is acted on. -/
def execHaltNActed (low : Bool) (edge : Nat) (s : State) : Out :=
  if s.lines.haltPending then
    let fault := low || s.lines.haltHeld || s.lines.haltPulse
    let own := s.lines.haltOwn
    let s := { s with lines := { s.lines with haltPending := false, haltOwn := s.lines.haltHeld, haltSinceSync := true } }
    .next (s.each ((List.range 4).filter (fun p => s.multi p && s.running p)) (fun s p => s.haltAt p edge fault own))
  else .next s

/-- HALT_PULSE_END (R198). -/
def execHaltPulseEnd (s : State) : Out := .next { s with lines := { s.lines with haltPulse := false } }

/-! ## Triggers (R358, R359, R376) -/

/-- A trigger edge acted on at REFCLK edge `edge` marks the turn in progress at its partition cycle (R194, R358): the next turn, when
that cycle lies beyond the one whose end is still to come. -/
def State.capMarkAt (s : State) (p sources edge : Nat) : State :=
  if s.running p && s.on (F.ACQ_P_CTRL_en p) && decide (s.cycleOf p (s.depth p) ≤ s.cycleOfEdge p edge) then
    s.setCap p { s.cap p with nextMarks := (s.cap p).nextMarks ||| sources }
  else s.capMark p sources 0 0

/-- TRIG_IN_ACTED. -/
def execTrigInActed (edge : Nat) (s : State) : Out :=
  if s.lines.trigInPending then
    let s := { s with lines := { s.lines with trigInPending := false } }
    let s := s.each ((List.range 4).filter (fun p => s.on (F.ACQ_P_CTRL_src_in p))) (fun s p =>
      (if s.on (F.ACQ_P_CTRL_drive_x p) then s.capTrigger p 0 0 0 else s.capMarkAt p 1 edge).capFlow p)
    .next (if s.on F.TRC_TRIG_src_in then s.trcTrigger 2 0 else s)
  else .next s

/-- TRIG_X_ACTED: marked by every partition with src_x = 1; bit 5 when this module launched the edge. -/
def execTrigXActed (edge : Nat) (s : State) : Out :=
  if s.lines.trigXPending then
    let own := s.lines.trigXOwn
    let s := { s with lines := { s.lines with trigXPending := false, trigXOwn := false } }
    let s := s.each ((List.range 4).filter (fun p => s.on (F.ACQ_P_CTRL_src_x p))) (fun s p => (s.capMarkAt p (if own then 34 else 2) edge).capFlow p)
    .next (if s.on F.TRC_TRIG_src_x then s.trcTrigger 1 0 else s)
  else .next s

/-- TRIG_X_PULSE_END. -/
def execTrigXPulseEnd (s : State) : Out := .next { s with lines := { s.lines with trigXPulse := false } }

end Sys2Proof.Machine
end

