-- ==== Sys2Proof/Machine/Trace.lean ====
section
/-!
DEFINITION. Machine/Trace.lean: commands of the trace engine (R370, R375, R376, R378).
-/
namespace Sys2Proof.Machine

open Sys2Proof

/-- A session's port that may set full_auth: FULL, with the shell bit in scope (R370). -/
def State.mayTraceAll (s : State) (who : Requester) : Option Nat :=
  match sessOf who with
  | some port => if port != 0 && s.sessLevel port == 2 && (s.sessScope port).testBit 4 then some port else none
  | none => none

/-- A new trace begins at position 0 (R376). -/
def State.trcBegin (s : State) : State :=
  let s := (((s.put F.TRC_WPOS_blocks 0).put F.TRC_STATUS_triggered 0).put F.TRC_STATUS_stopped 0).put F.TRC_STATUS_wrapped 0
  let s := s.each cores (fun s k => (s.put (F.TRC_CORE_excluded k) 0).setTrc k { since := s.uptime })
  s.put F.TRC_CTRL_en 1

/-- A write of TRC_CTRL: en and full_auth by their own rules; ctx_mask as written (R370, R376). The trace ring is checked as a capture
ring is (R375). A write of en = 0 ends tracing as it stands. -/
def State.trcCtrl (s : State) (who : Requester) (value : Word) : State :=
  let s := s.put F.TRC_CTRL_ctx_mask (F.TRC_CTRL_ctx_mask.of value)
  let s := if F.TRC_CTRL_full_auth.of value = 0 then { s.put F.TRC_CTRL_full_auth 0 with trace := { s.trace with auth := 0 } }
    else match s.mayTraceAll who with
      | some port => { s.put F.TRC_CTRL_full_auth 1 with trace := { s.trace with auth := port } }
      | none => s
  if F.TRC_CTRL_en.of value = 0 then s.put F.TRC_CTRL_en 0
  else if s.on F.TRC_CTRL_en then s
  else
    let ring := s.reg R.TRC_RING
    if s.capRingOk ring && s.capRingFree 4 ring then s.trcBegin else s.put F.TRC_STATUS_refused 1

/-- TRACE_ENABLE. -/
def execTraceEnable (who : Requester) (value : Word) (s : State) : Out := .next (s.trcCtrl who (F.TRC_CTRL_en.into value 1))

/-- TRACE_SW_TRIGGER. -/
def execTraceSwTrigger (s : State) : Out := .next (s.trcTrigger 3 0)

/-- TRACE_FLUSH (R375): every block, the partial ones too. -/
def execTraceFlush (s : State) : Out := .next (s.each s.tracedCores (fun s k => State.trcFlushCore k 33 s))

/-- TRACE_FLUSH_TIMEOUT (R375): the partial block of a core is old enough. -/
def execTraceFlushTimeout (k : Core) (s : State) : Out :=
  if s.traced k then .next (State.trcFlushCore k 33 s) else .next s

/-- TRACE_SYNC_PERIOD (R375): TIME and SYNC of each traced core that runs an item and is neither in Nap nor halted. -/
def execTraceSyncPeriod (s : State) : Out :=
  if s.get F.TRC_SYNC_period = 0 then .next s
  else .next (s.each (s.tracedCores.filter (fun k => (s.trc k).stopped.isNone)) (fun s k =>
    s.trcRun k (s.miller k).machine (fun s => (s.trcPacket k 12 s.tb0).trcPacket k 0 (s.trcPc k))))

/-- TRACE_STOPPED (R376): TRC_STOPDLY has passed since the trigger. -/
def execTraceStopped (s : State) : Out :=
  if s.on F.TRC_CTRL_en && s.on F.TRC_STATUS_triggered then .next s.trcStop else .next s

/-- TRC_CNT_CLEAR (R378). -/
def execTrcCntClear (s : State) : Out :=
  .next ((s.each [R.TRC_LOST, R.TRC_PKTCNT, R.TRC_EXCL] (fun s a => s.setReg a 0)).each cores (fun s k => s.put (F.TRC_CORE_dropped k) 0))

end Sys2Proof.Machine
end

