-- ==== Sys2Proof/Machine/RegWrite.lean ====
section
/-!
DEFINITION. Machine/RegWrite.lean: writes of registers (R10, R445 and the register chapters). A bit whose write is an operation of its
own does what that operation's command does; the others take the value by their access type. The last steps of a write are its SC bits,
from the highest down.
-/
namespace Sys2Proof.Machine

open Sys2Proof

/-- The state after an outcome; unchanged when there is none. -/
def State.after (s : State) (o : Out) : State :=
  match o with
  | .next t => t
  | _ => s

/-- Take a register's writable bits from v, clear what W1C bits name, set what W1S bits name (R10); b is where it is stored. -/
def State.storeBits (s : State) (r : RegRow) (b : Nat) (v : Word) : State :=
  let w (n : Nat) : Word := BitVec.ofNat 32 n
  s.setReg b ((((s.reg b &&& ~~~(w r.rw ||| w r.wo)) ||| (v &&& (w r.rw ||| w r.wo))) &&& ~~~(v &&& w r.w1c)) ||| (v &&& w r.w1s))

/-- A field of the value written. -/
def wrote (v : Word) (f : Fld) : Nat := f.of v
def wrote1 (v : Word) (f : Fld) : Bool := f.of v != 0

/-- Zero registers when the write clears a recording flag. -/
def State.clearOn (s : State) (v : Word) (f : Fld) (regs : List Nat) : State :=
  if wrote1 v f then s.each regs (fun s a => s.setReg a 0) else s

/-- Write a 32-bit register of a block; `r` is its row, `d` the plain write. -/
def State.writeRace (s : State) (r : RegRow) (a : Nat) (v : Word) : State :=
  let d := s.storeBits r a v
  if a = R.RACE_DEADCTRL then
    let t : RaceTarget := ⟨wrote1 v F.RACE_DEADCTRL_kind, Fin.ofNat 256 (wrote v F.RACE_DEADCTRL_index)⟩
    let d := if wrote1 v F.RACE_DEADCTRL_readmit then d.after (execReadmit t d) else d
    let d := if wrote1 v F.RACE_DEADCTRL_isolate then d.after (execIsolate t d) else d
    if wrote1 v F.RACE_DEADCTRL_cnt_clear then d.after (execRaceDeadcntClear d) else d
  else if a = R.RACE_ECC then
    let d := if wrote1 v F.RACE_ECC_ue_flag then (d.put F.RACE_ECC_ue_sched 0).setReg R.RACE_ECCLOC 0 else d
    if wrote1 v F.RACE_ECC_ce_clear then d.after (execRaceEccCeClear d) else d
  else if a = R.RACE_STCTRL then (if wrote1 v F.RACE_STCTRL_clear then d.after (execRaceStctrlClear d) else d)
  else if R.RACE_STSEL 0 ≤ a ∧ a < R.RACE_STSEL 64 then
    let n := (a - R.RACE_STSEL 0) / 4
    if d.reg a = s.reg a then d
    else { d with race := { d.race with stats := mset (fun _ => {}) d.race.stats n { mget (fun _ => {}) d.race.stats n with changed := true } } }
  else d

def State.writeFlm (s : State) (who : Requester) (r : RegRow) (a : Nat) (v : Word) : State :=
  let d := s.storeBits r a v
  if a = R.FLM_CTRL then (if wrote1 v F.FLM_CTRL_cnt_clear then d.after (execFlmCntClear d) else d)
  else if a = R.FLM_QUIESCE then s.after (execFlmQuiesceWrite (BitVec.ofNat 4 (wrote v F.FLM_QUIESCE_request)) s)
  else if a = R.FLM_RBADDR then d.put F.FLM_RBADDR_refused 0
  else if a = R.FLM_PORTSTAT then
    let (m, dir, j) := s.selPort
    if wrote1 v F.FLM_PORTSTAT_overrun then s.put (F.FLM_PORTSTAT_overrun.sel (portIdx m dir j)) 0 else s
  else if a = R.FLM_SLACKSEL then
    (if wrote1 v F.FLM_SLACKSEL_clear then d.after (execFlmSlackClear (Fin.ofNat 2048 (wrote v F.FLM_SLACKSEL_region)) d) else d)
  else if a = R.FLM_ERR then s.clearOn v F.FLM_ERR_fault_flag [a]
  else if a = R.FLM_ECC then (if wrote1 v F.FLM_ECC_ce_clear then d.after (execFlmEccCeClear d) else d)
  else if R.FLM_PROBE 0 ≤ a ∧ a < R.FLM_PROBE 64 then s.after (execFlmProbeEnable who (Fin.ofNat 64 ((a - R.FLM_PROBE 0) / 4)) v s)
  else d

def State.writeMport (s : State) (r : RegRow) (a : Nat) (v : Word) : State :=
  let d := s.storeBits r a v
  if a = R.MPORT_CTRL then (if wrote1 v F.MPORT_CTRL_cnt_clear then d.after (execMportCntClear d) else d)
  else if a = R.MPORT_ERR then s.clearOn v F.MPORT_ERR_flag [a]
  else d

/-- PART and TURN. -/
def State.writePart (s : State) (r : RegRow) (a : Nat) (v : Word) (env : RegEnv) : State :=
  let p : Part := Fin.ofNat 4 (a / 0x1000)
  let d := s.storeBits r a v
  if a = R.PART_QMASK p then s.after (execPartQmaskWrite p (BitVec.ofNat 4 (wrote v (F.PART_QMASK_qmask p))) s)
  else if a = R.PART_MODE p then
    (if s.running p then d else d.modPart p (fun x => { x with lossless := wrote1 v (F.PART_MODE_capture_lossless p) }))
  else if a = R.PART_VOTE p then s.after (execPartVote p (BitVec.ofNat 8 (wrote v (F.PART_VOTE_quanta p))) env.step s)
  else if a = R.TURN_CTRL p then (if wrote1 v (F.TURN_CTRL_clear p) then d.after (execTurnCtrlClear p d) else d)
  else d

def State.writeMill (s : State) (r : RegRow) (a : Nat) (v : Word) : State :=
  let m := instOf 0x1000000 0x1000 a
  let d := s.storeBits r a v
  if a = R.MILL_ECC m then
    let d := if wrote1 v (F.MILL_ECC_ue_flag m) then (d.put (F.MILL_ECC_ue_where m) 0).put (F.MILL_ECC_ue_stone m) 0 else d
    if wrote1 v (F.MILL_ECC_ce_clear m) then d.after (execMillEccCeClear (Fin.ofNat 256 m) d) else d
  else d

def State.writeDdrc (s : State) (r : RegRow) (a : Nat) (v : Word) : State :=
  let c := instOf 0x2000000 0x10000 a
  let ch : Chan := Fin.ofNat 16 c
  let d := s.storeBits r a v
  if a = R.DDRC_CTRL c then
    let d := if s.chanBusy c then d.put (F.DDRC_CTRL_en c) (s.get (F.DDRC_CTRL_en c)) else d
    let d := if s.on (F.DDRC_CTRL_en c) then d.put (F.DDRC_CTRL_fgr c) (s.get (F.DDRC_CTRL_fgr c)) else d
    if wrote1 v (F.DDRC_CTRL_train c) && s.get (F.DDRC_STATUS_state c) != 3 then d.after (execDdrcTrain ch d) else d
  else if a = R.DDRC_OWN_LO c then s.after (execDdrcOwnWrite ch false v s)
  else if a = R.DDRC_OWN_HI c then s.after (execDdrcOwnWrite ch true v s)
  else if a = R.DDRC_CE c then (if wrote1 v (F.DDRC_CE_clear c) then d.after (execDdrcCeClear ch d) else d)
  else if a = R.DDRC_UE c then s.clearOn v (F.DDRC_UE_ue_flag c) [a, R.DDRC_ERRADDR_LO c, R.DDRC_ERRADDR_HI c]
  else d

def State.writeSpk (s : State) (r : RegRow) (a : Nat) (v : Word) : State :=
  let sp := instOf 0x2200000 0x1000 a
  let k : Spoke := Fin.ofNat 16 sp
  let d := s.storeBits r a v
  if a = R.SPK_CTRL sp then s.after (execSpokeCtrlWrite k v s)
  else if a = R.SPK_LAT sp then (if wrote1 v (F.SPK_LAT_clear sp) then d.after (execSpkLatClear k d) else d)
  else if a = R.SPK_ERR sp then
    (if wrote1 v (F.SPK_ERR_flag sp) then ((d.put (F.SPK_ERR_kind sp) 0).put (F.SPK_ERR_lane sp) 0).settleHalt else d)
  else if a = R.SPK_EQ sp then
    (if 63 < wrote v (F.SPK_EQ_tx_post sp) + wrote v (F.SPK_EQ_tx_main sp) + wrote v (F.SPK_EQ_tx_pre sp) then s else d)
  else d

def State.writeLaneReg (s : State) (r : RegRow) (a : Nat) (v : Word) : State :=
  let l := instOf 0x2210000 0x100 a
  let d := s.storeBits r a v
  if a = R.LANE_STAT l ∧ wrote1 v (F.LANE_STAT_slip l) then d.after (execLaneSlip (Fin.ofNat 16 (l / 8)) (Fin.ofNat 8 l) d) else d

def State.writeGov (s : State) (r : RegRow) (a : Nat) (v : Word) (env : RegEnv) : State :=
  let d := s.storeBits r a v
  if a = R.GOV_CTRL then
    let d := d.capOff env.cycles
    (if wrote1 v F.GOV_CTRL_freeze = s.on F.GOV_CTRL_freeze then d else d.after (execGovFreeze (wrote1 v F.GOV_CTRL_freeze) d))
  else if a = R.GOV_CAP then (if 1600 < wrote v F.GOV_CAP_watts then s else d.capOff env.cycles)
  else if a = R.GOV_FLMCFG then d.railsInRange
  else if a = R.GOV_FLMLIM then
    let d := if wrote v F.GOV_FLMLIM_up_step = 0 then d.put F.GOV_FLMLIM_up_step (s.get F.GOV_FLMLIM_up_step) else d
    let d := if wrote v F.GOV_FLMLIM_late_step = 0 then d.put F.GOV_FLMLIM_late_step (s.get F.GOV_FLMLIM_late_step) else d
    d.railsInRange
  else if R.GOV_VFLUME 0 ≤ a ∧ a < R.GOV_VFLUME 4 then s.after (execGovVflumeWrite (Fin.ofNat 4 ((a - R.GOV_VFLUME 0) / 4)) v s)
  else d

/-- Shell firmware, in machine mode or acting through a FULL session of its own port. -/
def isShell : Requester → Bool
  | .shell _ => true
  | _ => false

def State.writeCfg (s : State) (who : Requester) (r : RegRow) (a : Nat) (v : Word) (env : RegEnv) : State :=
  let d := s.storeBits r a v
  if a = R.CFG_CTRL then
    let d := s.after (execHoldDoneWrite (wrote1 v F.CFG_CTRL_hold_done) s)
    if wrote1 v F.CFG_CTRL_boot_hopper then d.after (execBootHopper (BitVec.ofNat 16 (s.uptime / 800000)) d) else d
  else
    match [0, 1, 2, 3].find? (fun p => a == R.CFG_P_STATE p), [0, 1, 2, 3].find? (fun p => a == R.CFG_P_FAULT p) with
    | some p, _ =>
      if !isShell who then d
      else
        let src : LoadSrc := .shell (Fin.ofNat 4 p)
        match wrote v (F.CFG_P_STATE_cmd p) with
        | 1 => d.after (execLoad src env.wins d)
        | 2 => d.after (execStage src d)
        | 3 => d.after (execCommit src env.wins d)
        | 4 => d.after (execDiscard src d)
        | 5 => d.after (execUnload src d)
        | _ => d
    | none, some p => s.clearOn v (F.CFG_P_FAULT_flag p) [a, R.CFG_P_FADDR p]
    | none, none => d

def State.writeKey (s : State) (who : Requester) (r : RegRow) (a : Nat) (v : Word) : State :=
  let d := s.storeBits r a v
  if a = R.KEY_CTRL then
    let sel : Fin 8 := Fin.ofNat 8 (wrote v F.KEY_CTRL_sel)
    if !s.fullRights who then s.bump F.KEY_FAILCNT_denied 1
    else
      let d := if wrote1 v F.KEY_CTRL_write then d.after (execKeyWrite who sel d) else d
      let d := if wrote1 v F.KEY_CTRL_zeroise then d.after (execKeyZeroise who sel d) else d
      if wrote1 v F.KEY_CTRL_zeroise_all then d.after (execKeyZeroiseAll who d) else d
  else if R.KEY_WDATA 0 ≤ a ∧ a < R.KEY_WDATA 8 then s.keyAllowed who (fun _ => d)
  else if R.KEY_SLOT 0 ≤ a ∧ a < R.KEY_SLOT 8 then
    let n := (a - R.KEY_SLOT 0) / 4
    s.keyAllowed who (fun s => if wrote1 v (F.KEY_SLOT_lock n) then d.setBit F.KEY_STATUS_locked n true else s)
  else d

/-- PCIE_BAR4CTL (R267): en and write_en are set only with the rights they need; the scope of the session that sets en goes with it. -/
def State.writeBar4Ctl (s : State) (who : Requester) (r : RegRow) (v : Word) : State :=
  let level := match sessOf who with | some port => s.sessLevel port | none => 0
  let d := s.storeBits r R.PCIE_BAR4CTL v
  let en := wrote1 v F.PCIE_BAR4CTL_en && (s.on F.PCIE_BAR4CTL_en || decide (1 ≤ level))
  let wen := wrote1 v F.PCIE_BAR4CTL_write_en && (s.on F.PCIE_BAR4CTL_write_en || decide (2 ≤ level))
  let d := (d.flag F.PCIE_BAR4CTL_en en).flag F.PCIE_BAR4CTL_write_en wen
  match sessOf who with
  | some port => if en && decide (1 ≤ level) then { d with host := { d.host with bar4Scope := s.sessScope port } } else d
  | none => d

def State.writePcie (s : State) (who : Requester) (r : RegRow) (a : Nat) (v : Word) : State :=
  let d := s.storeBits r a v
  if a = R.PCIE_CTRL then (if wrote1 v F.PCIE_CTRL_retrain && s.on F.PCIE_STATUS_up then d.put F.PCIE_CTRL_retrain 1 else d)
  else if a = R.PCIE_ERR then s.clearOn v F.PCIE_ERR_flag [a, R.PCIE_ERRHDR0, R.PCIE_ERRHDR1]
  else if a = R.PCIE_BAR4CTL then s.writeBar4Ctl who r v
  else if a = R.PCIE_BARDENY then { s.setReg a 0 with host := { s.host with barRaised := false } }
  else d

def State.writeRing (s : State) (r : RegRow) (a : Nat) (v : Word) (env : RegEnv) : State :=
  let d := s.storeBits r a v
  if a = R.RING_CTRL then s.after (execRingEngineEnable (wrote1 v F.RING_CTRL_en) env.wins s)
  else if a = R.RING_DBBASE_LO ∨ a = R.RING_DBBASE_HI then (if s.on F.RING_CTRL_en then s else d)
  else if R.RING_R_BASE_LO 0 ≤ a ∧ a < R.RING_R_BASE_LO 13 then
    let n := (a - R.RING_R_BASE_LO 0) / 0x10
    if a = R.RING_R_CFG n then s.after (execRingEnable (Fin.ofNat 13 n) v s) else if s.on (F.RING_R_CFG_en n) then s else d
  else d

/-- SLC_RINGCFG of the selected sluice (R292, R295). Enabling starts the counts at 0. -/
def State.writeSlcRing (s : State) (r : RegRow) (k : Nat) (v : Word) : State :=
  let b := selAddr R.SLC_RINGCFG k
  let size := wrote v F.SLC_RINGCFG_size
  if wrote1 v F.SLC_RINGCFG_en then
    if size < 4 ∨ 12 < size ∨ !(s.hostConsumes k || s.hostProduces k) then s
    else
      let was := s.on (F.SLC_RINGCFG_en.sel k)
      let s := s.storeBits r b v
      if was then s else s.setRing (16 + k) {}
  else s.storeBits r b v

def State.writeSlc (s : State) (who : Requester) (r : RegRow) (a : Nat) (v : Word) : State :=
  let k := s.get F.SLC_SEL_sluice
  let sl : Sluice := Fin.ofNat 256 k
  let d := s.storeBits r a v
  if a = R.SLC_CTRL then (if wrote1 v F.SLC_CTRL_cnt_clear then d.after (execSlcCntClear d) else d)
  else if a = R.SLC_CFG then
    (if wrote1 v F.SLC_CFG_en then s.after (execSluiceEnable sl v s)
     else if s.slEn k then s.after (execSluiceDisable sl s) else s.storeBits r (selAddr a k) v)
  else if a = R.SLC_SIZE then (if s.slEn k then s else s.storeBits r (selAddr a k) v)
  else if a = R.SLC_RINGCFG then s.writeSlcRing r k v
  else if slcSelected a then s.storeBits r (selAddr a k) v
  else if a = R.SLC_CMD then
    (if wrote1 v F.SLC_CMD_drop && s.fullRights who then d.after (execSlcCmdDrop (Fin.ofNat 256 (wrote v F.SLC_CMD_sluice)) d) else d)
  else d

def State.writeHop (s : State) (who : Requester) (r : RegRow) (a : Nat) (v : Word) : State :=
  let d := s.storeBits r a v
  if a = R.HOP_CTRL then (if wrote1 v F.HOP_CTRL_cnt_clear then d.after (execHopCntClear d) else d)
  else if a = R.HOP_CMD then
    (if (F.HOP_CMD_go.of (s.showHop a)) = 1 then s
     else if wrote1 v F.HOP_CMD_go then
      d.handover who (wrote v F.HOP_CMD_bank) (wrote v F.HOP_CMD_owner) (wrote1 v F.HOP_CMD_scrub) else d)
  else if a = R.HOP_ECC then (if wrote1 v F.HOP_ECC_ue_flag then d.setReg R.HOP_ECCADDR 0 else d)
  else d

def State.writeSched (s : State) (r : RegRow) (a : Nat) (v : Word) : State :=
  let d := s.storeBits r a v
  if a = R.SCHED_CTRL ∧ wrote1 v F.SCHED_CTRL_cnt_clear then d.after (execSchedCntClear d) else d

/-- MLR (R312, R323). A core put into reset forgets the items it ran. -/
def State.writeMlr (s : State) (who : Requester) (r : RegRow) (a : Nat) (v : Word) : State :=
  let k := instOf 0x2500000 0x1000 a
  let core : Core := Fin.ofNat 32 k
  let d := s.storeBits r a v
  if a = R.MLR_CTRL k then
    match s.on (F.MLR_CTRL_hold k), wrote1 v (F.MLR_CTRL_hold k) with
    | true, false => let t := d.put (F.MLR_CTRL_hold k) 1; t.after (execMillerRelease core t)
    | false, true => (d.resetCore k).setSchedCore k { d.schedCore k with stack := [], expired := false }
    | _, _ => d
  else if a = R.MLR_WDOG k then
    (if wrote1 v (F.MLR_WDOG_kick k) && who == .shell core then d.after (execWatchdogKick core d) else d)
  else d

/-- A group may change while capture of its old and its new partition is disabled (R356). -/
def State.writeGdef (s : State) (r : RegRow) (v : Word) : State :=
  let b := selAddr R.ACQ_GDEF (s.get F.ACQ_GSEL_group)
  let capOn (w : Word) : Bool := s.on (F.ACQ_P_CTRL_en (F.ACQ_GDEF_partition.of w))
  if 64 < wrote v F.ACQ_GDEF_lsb + wrote v F.ACQ_GDEF_width + 1 ∨ capOn (s.reg b) ∨ capOn v then s else s.storeBits r b v

/-- Bits of a capture mask that may change: the capture of the mill's owner is disabled (R352). -/
def State.writeMillen (s : State) (a : Nat) (v : Word) : State :=
  let i := (a - R.ACQ_MILLEN 0) / 4
  let mask := bitsOf 32 (fun b => match s.millOwner (32 * i + b) with
    | some p => !s.on (F.ACQ_P_CTRL_en p)
    | none => true)
  s.writeMasked a (wordOf mask) v

def State.writeAcq (s : State) (r : RegRow) (a : Nat) (v : Word) : State :=
  let d := s.storeBits r a v
  if a = R.ACQ_CTRL then (if wrote1 v F.ACQ_CTRL_cnt_clear then d.after (execAcqCntClear d) else d)
  else if a = R.ACQ_ERR then s.clearOn v F.ACQ_ERR_flag [a]
  else if a = R.ACQ_SWTRIG then s.after (execAcqSwtrig (BitVec.ofNat 4 (wrote v F.ACQ_SWTRIG_trig)) s)
  else if a = R.ACQ_GDEF then s.writeGdef r v
  else if R.ACQ_MILLEN 0 ≤ a ∧ a < R.ACQ_MILLEN 8 then s.writeMillen a v
  else
    match [0, 1, 2, 3].find? (fun p => a / 0x20 == R.ACQ_P_CTRL p / 0x20) with
    | some p =>
      let on := s.on (F.ACQ_P_CTRL_en p)
      if a ≠ R.ACQ_P_CTRL p then (if on then s else d)
      else match on, wrote1 v (F.ACQ_P_CTRL_en p) with
        | true, true => s
        | true, false => s.after (execCaptureDisable (Fin.ofNat 4 p) s)
        | false, true => s.after (execCaptureEnable (Fin.ofNat 4 p) v s)
        | false, false => d
    | none => d

def State.writeTrc (s : State) (who : Requester) (r : RegRow) (a : Nat) (v : Word) : State :=
  let d := s.storeBits r a v
  if a = R.TRC_CTRL then
    let d := s.trcCtrl who v
    let d := if wrote1 v F.TRC_CTRL_flush then d.after (execTraceFlush d) else d
    if wrote1 v F.TRC_CTRL_cnt_clear then d.after (execTrcCntClear d) else d
  else if a = R.TRC_TRIG then (if wrote1 v F.TRC_TRIG_sw then d.after (execTraceSwTrigger d) else d)
  else if R.TRC_CORE 0 ≤ a ∧ a < R.TRC_CORE 32 then
    let k := (a - R.TRC_CORE 0) / 4
    if wrote1 v (F.TRC_CORE_en k) && !s.on (F.TRC_CORE_en k) then d.setTrc k { since := s.uptime } else d
  else d

/-- The registers of a pulse generator (R389): those of a running one keep their values; en = 1 starts it, en = 0 ends it, and with it a
pulse as wide as the period. -/
def State.writePg (s : State) (r : RegRow) (a : Nat) (v : Word) : State :=
  let g := s.get F.TB_PGSEL_gen
  let b := selAddr a g
  let on := s.on (F.TB_PGCFG_en.sel g)
  if a = R.TB_PGCFG then
    let en := wrote1 v F.TB_PGCFG_en
    let d := s.storeBits r b v
    if on && en then s
    else if en then d.setPgNext g (s.pgStart g)
    else if on then
      let d := s.put (F.TB_PGCFG_en.sel g) 0
      if s.pgPeriod g ≠ 0 ∧ s.pgPeriod g ≤ max 1 (s.get (F.TB_PGCFG_width.sel g)) * 100 then d.setPulse g false else d
    else d
  else if on then s else s.storeBits r b v

def State.writeTb (s : State) (who : Requester) (r : RegRow) (a : Nat) (v : Word) : State :=
  let d := s.storeBits r a v
  if [R.TB_PGCFG, R.TB_PGSTART_LO, R.TB_PGSTART_HI, R.TB_PGPERIOD_LO, R.TB_PGPERIOD_HI, R.TB_PGCOUNT].contains a then s.writePg r a v
  else
    match [0, 1, 2].find? (fun k => decide (R.TBK_CFG k ≤ a) && decide (a ≤ R.TBK_STEP_HI k)) with
    | some k =>
      let kf : Fin 3 := Fin.ofNat 3 k
      if a = R.TBK_CFG k then
        let d := if k = 0 then d.put (F.TBK_CFG_follow 0) 0 else d.put (F.TBK_CFG_source k) 0
        if wrote1 v (F.TBK_CFG_unanchor k) then d.after (execTbUnanchor who kf d) else d
      else if a = R.TBK_RATE k then s.after (execTbRateWrite who kf v s)
      else if a = R.TBK_STEP_LO k then (if s.tbAllowed who k then d else s)
      else if a = R.TBK_STEP_HI k then s.after (execTbStepSubmit who kf v s)
      else d
    | none => d

def State.writePtp (s : State) (r : RegRow) (a : Nat) (v : Word) : State :=
  let d := s.storeBits r a v
  if a = R.PTP_CTRL then (if wrote1 v F.PTP_CTRL_cnt_clear then d.after (execPtpCntClear d) else d)
  else if a = R.PTP_TSPOP then (if wrote1 v F.PTP_TSPOP_pop then d.after (execPtpTspop (wrote1 v F.PTP_TSPOP_dir) d) else d)
  else d

def State.writeClk (s : State) (r : RegRow) (a : Nat) (v : Word) : State :=
  let d := s.storeBits r a v
  if a = R.CLK_PACE then (if wrote v F.CLK_PACE_pace = 3 then s else s.after (execPaceChange (BitVec.ofNat 2 (wrote v F.CLK_PACE_pace)) s))
  else if a = R.CLK_DDR then s.after (execClkDdrWrite (wrote1 v F.CLK_DDR_speed) s)
  else if a = R.CLK_SPREAD then (if (List.range 31).all (fun j => s.on (F.MLR_CTRL_hold (j + 1))) then d else s)
  else if R.CLK_MON 0 ≤ a ∧ a < R.CLK_MON 24 then
    let m := (a - R.CLK_MON 0) / 4
    if wrote1 v (F.CLK_MON_fault m) then d.setBit F.CLK_STATUS_mon_fault m false else d
  else d

def State.writePwr (s : State) (r : RegRow) (a : Nat) (v : Word) : State :=
  let d := s.storeBits r a v
  if a = R.PWR_CTRL then (if wrote1 v F.PWR_CTRL_cnt_clear then d.after (execPwrCntClear d) else d)
  else if a = R.PWR_FAULT then s.clearOn v F.PWR_FAULT_flag [a]
  else if R.PWR_DOM 0 ≤ a ∧ a < R.PWR_DOM 48 then s.after (execPwrForceWrite (Fin.ofNat 48 ((a - R.PWR_DOM 0) / 4)) v s)
  else d

def State.writeRst (s : State) (who : Requester) (r : RegRow) (a : Nat) (v : Word) : State :=
  if a = R.RST_CTRL then
    (if wrote1 v F.RST_CTRL_cold then s.after (execRstCtrlCold who s)
     else if wrote1 v F.RST_CTRL_warm then s.after (execRstCtrlWarm who s) else s)
  else s.storeBits r a v

def State.writeSens (s : State) (r : RegRow) (a : Nat) (v : Word) : State :=
  let d := s.storeBits r a v
  if a = R.SENS_CTRL ∧ wrote1 v F.SENS_CTRL_peak_clear then d.after (execSensPeakClear d)
  else if a = R.SENS_LIMITS then d.showTemps else d

/-- host_en is a shell writer's (R421, R426); a write of another is counted in `deny` and leaves it. -/
def State.writeHostEn (s : State) (who : Requester) (f deny : Fld) (v : Word) : State :=
  if s.shellWriter who then s.put f (f.of v) else if f.of v = s.get f then s else s.bump deny 1

def State.writeGpio (s : State) (who : Requester) (r : RegRow) (a : Nat) (v : Word) : State :=
  let d := s.storeBits r a v
  let mask := BitVec.ofNat 16 (v.toNat / 2 ^ 16)
  let value := BitVec.ofNat 16 v.toNat
  if a = R.GPIO_CTRL then
    let d := s.writeHostEn who F.GPIO_CTRL_host_en F.GPIO_DENY_owner v
    if wrote1 v F.GPIO_CTRL_cnt_clear then d.after (execGpioCntClear d) else d
  else if a = R.GPIO_SYSCTRL then (if [0, 1, 2, 3].all (fun p => s.pstate p == stEmpty) then d else s)
  else if R.GPIO_OUT 0 ≤ a ∧ a < R.GPIO_OUT 3 then s.after (execGpioOutWrite who false (Fin.ofNat 3 ((a - R.GPIO_OUT 0) / 4)) mask value s)
  else if R.GPIO_OE 0 ≤ a ∧ a < R.GPIO_OE 3 then s.after (execGpioOutWrite who true (Fin.ofNat 3 ((a - R.GPIO_OE 0) / 4)) mask value s)
  else if R.GPIO_PIN 0 ≤ a ∧ a < R.GPIO_PIN 48 then s.after (execPinFunctionChange who (Fin.ofNat 48 ((a - R.GPIO_PIN 0) / 4)) v s)
  else d

def State.writeTio (s : State) (who : Requester) (r : RegRow) (a : Nat) (v : Word) : State :=
  let d := s.storeBits r a v
  if a = R.TIO_CTRL then
    let d := s.writeHostEn who F.TIO_CTRL_host_en F.TIO_DENY_other v
    if wrote1 v F.TIO_CTRL_cnt_clear then d.after (execTioCntClear d) else d
  else if a = R.TIO_PINCFG then
    (if s.get F.TIO_SEL_pin < 160 then s.after (execTioModeChange who (Fin.ofNat 160 (s.get F.TIO_SEL_pin)) v s) else s)
  else if a = R.TIO_ERR then s.clearOn v F.TIO_ERR_flag [a]
  else if R.TIO_BANK 0 ≤ a ∧ a < R.TIO_BANK 5 then s.after (execTioBankEnable (Fin.ofNat 5 ((a - R.TIO_BANK 0) / 4)) v s)
  else if R.TIO_OUT 0 ≤ a ∧ a < R.TIO_OUT 10 then
    s.tioOutWrite who ((a - R.TIO_OUT 0) / 4) (BitVec.ofNat 16 (v.toNat / 2 ^ 16)) (BitVec.ofNat 16 v.toNat)
  else d

/-! ## GLB and EVT (chapter 20) -/

/-- EVT_RAISE (R452): a code of the table that is not status only, raised by machine-mode code with EVT_RDATA0 to EVT_RDATA5. -/
def execEvtRaise (who : Requester) (value : Word) (s : State) : Out :=
  let code := F.EVT_RAISE_code.of value
  if isShell who && eventCodes.contains code && !statusOnly.contains code then
    .next (s.raise code (F.EVT_RAISE_part.of value) ((List.range 6).map (fun j => s.get (F.EVT_RDATA_data j))))
  else .next (s.bump F.EVT_RAISEDENY_count 1)

/-- EVT_CNT_CLEAR (R455): every count of the block. -/
def execEvtCntClear (s : State) : Out :=
  let s := s.each ([R.EVT_RAISED, R.EVT_MASKED, R.EVT_MLRCNT, R.EVT_RAISEDENY, R.EVT_DEVCNT] ++ (List.range 12).map R.EVT_CLASSCNT ++
    (List.range 4).map R.EVT_PARTCNT) (fun s a => s.setReg a 0)
  .next { s with evt := { s.evt with codeCnt := [] } }

def State.writeEvt (s : State) (who : Requester) (r : RegRow) (a : Nat) (v : Word) : State :=
  let d := s.storeBits r a v
  if a = R.EVT_CTRL then (if wrote1 v F.EVT_CTRL_cnt_clear then d.after (execEvtCntClear d) else d)
  else if a = R.EVT_FIRST then s.clearOn v F.EVT_FIRST_flag [a, R.EVT_FIRSTTB_LO, R.EVT_FIRSTTB_HI]
  else if a = R.EVT_RAISE then s.after (execEvtRaise who v s)
  else d

/-- GLB (R453): shell version and heartbeat are machine-mode code's. -/
def State.writeGlb (s : State) (who : Requester) (r : RegRow) (a : Nat) (v : Word) : State :=
  if (a = R.GLB_SHELLVER ∨ a = R.GLB_HEARTBEAT) ∧ isShell who = false then s else s.storeBits r a v

/-! ## The AUTH and DBG blocks (R325, R326, R331, R349, R350) -/

/-- A write of the AUTH block for port `port`. -/
def State.writeAuth (s : State) (who : Requester) (port : Nat) (r : RegRow) (a : Nat) (v : Word) : State :=
  if a = R.AUTH_CTRL then
    let s := s.put F.AUTH_CTRL_level (F.AUTH_CTRL_level.of v)
    let s := if wrote1 v F.AUTH_CTRL_close then s.after (execAuthClose who false s) else s
    if wrote1 v F.AUTH_CTRL_open then s.after (execAuthOpen who v s) else s
  else if a = R.AUTH_RESP 7 then s.after (execAuthResponseSubmit who v s)
  else if R.AUTH_RESP 0 ≤ a ∧ a < R.AUTH_RESP 7 then (if port = 0 then s else s.writeResp port ((a - R.AUTH_RESP 0) / 4) v)
  else s.storeBits r a v

/-- A write of pc, the selected register or CSR of a halted core (R345, R350). -/
def State.writeCore (s : State) (a k : Nat) (v : Word) : State :=
  let m := s.miller k
  let mix (hi : Bool) (old : BitVec 64) : BitVec 64 :=
    if hi then BitVec.ofNat 64 (old.toNat % 2 ^ 32 + v.toNat * 2 ^ 32) else BitVec.ofNat 64 (old.toNat / 2 ^ 32 * 2 ^ 32 + v.toNat)
  if !m.halted then s
  else if a = R.DBG_MPC_LO ∨ a = R.DBG_MPC_HI then s.setMiller k { m with pc := mix (a == R.DBG_MPC_HI) m.pc &&& ~~~1#64 }
  else if a = R.DBG_MGPR_LO ∨ a = R.DBG_MGPR_HI then
    let n := s.get F.DBG_MGPRSEL_sel
    if n = 0 then s else s.setMiller k { m with x := mset (fun _ => 0) m.x n (mix (a == R.DBG_MGPR_HI) (mget (fun _ => 0) m.x n)) }
  else
    let n := s.get F.DBG_MCSRSEL_sel
    match s.csrPeek k n with
    | some old => if n / 1024 = 3 then s else s.csrWrite k n (mix (a == R.DBG_MCSR_HI) old) 0 0
    | none => s

/-- Run a change for every partition whose bit of a four-bit value is 1, P0 first. -/
def State.eachBit (s : State) (v : Nat) (g : State → Fin 4 → State) : State :=
  s.each ((List.range 4).filter (fun p => v.testBit p)) (fun s p => g s (Fin.ofNat 4 p))

/-- Writes of the records, the run counts and the registers that a selector shows. -/
def State.writeDbgRest (s : State) (port : Nat) (r : RegRow) (a : Nat) (v : Word) : State :=
  let k := s.get F.DBG_MSEL_core
  let d := s.storeBits r a v
  match [0, 1, 2, 3].find? (fun p => a == R.DBG_BREAKREC p), [0, 1, 2, 3].find? (fun p => a == R.DBG_RUNLEFT_LO p || a == R.DBG_RUNLEFT_HI p) with
  | some p, _ => s.clearOn v (F.DBG_BREAKREC_valid p) [a]
  | none, some p => if s.pstate p = stHalted ∨ s.pstate p = stLoaded then d else s
  | none, none =>
    match s.dbgWhere a with
    | none => s
    | some b =>
      if b = a then d
      else
        let own := if (a = R.DBG_MRLOW_LO ∨ R.DBG_MRLOW_LO < a) then s.coreOwner k else s.watchOwner s.selUnit.1 s.selUnit.2.1
        s.ownerOk port own a (if R.DBG_MRLOW_LO ≤ a then none else some s.selUnit.1) (fun s => s.storeBits r b v)

/-- A write of the DBG block for port `port`, whose level is not NONE. -/
def State.writeDbg (s : State) (who : Requester) (port : Nat) (r : RegRow) (a : Nat) (v : Word) (env : RegEnv) : State :=
  let k := s.get F.DBG_MSEL_core
  let d := s.storeBits r a v
  if a = R.DBG_CTRL then
    let d := if isShell who then s.put F.DBG_CTRL_port (F.DBG_CTRL_port.of v) else s
    if wrote1 v F.DBG_CTRL_rearm then d.after (execRearm who d) else d
  else if a = R.DBG_SRSEL then d.put F.DBG_SRSEL_refused 0
  else if a = R.DBG_HALTREQ then
    ((s.eachBit (F.DBG_HALTREQ_step.of v) (fun s p => s.after (execDbgHaltreqStep who p s))).eachBit (F.DBG_HALTREQ_run.of v)
      (fun s p => s.after (execDbgHaltreqRun who p s))).eachBit (F.DBG_HALTREQ_halt.of v)
      (fun s p => if s.running p && (s.part p).causes.testBit 1 then s else s.after (execDbgHaltreqHalt who p s))
  else if a = R.DBG_BREAKEN then s.after (execDbgBreakenWrite who (BitVec.ofNat 4 v.toNat) s)
  else if a = R.DBG_MCTRL then
    let d := if wrote1 v F.DBG_MCTRL_halt then s.after (execMillerHalt who s) else s
    let d := if wrote1 v F.DBG_MCTRL_resume then d.after (execMillerResume who d) else d
    if wrote1 v F.DBG_MCTRL_step then d.after (execMillerStep who d) else d
  else if a = R.DBG_BDCTRL then
    (if wrote1 v F.DBG_BDCTRL_go then s.after (execBackdoorAccess who v env.ecc s) else d)
  else if a = R.DBG_WCFG then s.writeWcfg port v
  else if a = R.DBG_MRCFG then s.writeMrcfg who v
  else if [R.DBG_MPC_LO, R.DBG_MPC_HI, R.DBG_MGPR_LO, R.DBG_MGPR_HI, R.DBG_MCSR_LO, R.DBG_MCSR_HI].contains a then
    s.onCore who a (fun s _ k => s.writeCore a k v)
  else if a = R.DBG_MHIT then
    (if wrote1 v F.DBG_MHIT_valid then s.each [R.DBG_MHIT, R.DBG_MHITADDR_LO, R.DBG_MHITADDR_HI] (fun s a => s.setReg (selAddr a k) 0) else s)
  else s.writeDbgRest port r a v

/-! ## The whole map -/

/-- A write of a register outside the AUTH and DBG blocks. -/
def State.writeReg (s : State) (who : Requester) (r : RegRow) (a : Nat) (v : Word) (env : RegEnv) : State :=
  let b := a / 0x10000
  if b = 0 then s.writeGlb who r a v
  else if b = 1 then s.writeClk r a v
  else if b = 2 then s.writePwr r a v
  else if b = 3 then s.writeRst who r a v
  else if b = 4 then s.writeGov r a v env
  else if b = 5 then s.writeSens r a v
  else if b = 6 then s.writeEvt who r a v
  else if b = 8 then s.writeKey who r a v
  else if b = 9 then s.writeCfg who r a v env
  else if b = 0xA ∨ b = 0xB then s.writePart r a v env
  else if b = 0xC then s.writeRace r a v
  else if b = 0xE then s.writeFlm who r a v
  else if b = 0xF then s.writeMport r a v
  else if 0x100 ≤ b ∧ b < 0x110 then s.writeMill r a v
  else if 0x200 ≤ b ∧ b < 0x210 then s.writeDdrc r a v
  else if b = 0x220 then s.writeSpk r a v
  else if b = 0x221 then s.writeLaneReg r a v
  else if b = 0x230 then s.writePcie who r a v
  else if b = 0x231 then s.writeRing r a v env
  else if b = 0x232 then s.writeSlc who r a v
  else if b = 0x240 then s.writeHop who r a v
  else if b = 0x241 then s.writeSched r a v
  else if b = 0x250 ∨ b = 0x251 then s.writeMlr who r a v
  else if b = 0x261 then s.writeTrc who r a v
  else if b = 0x262 then s.writeAcq r a v
  else if b = 0x270 then s.writeTb who r a v
  else if b = 0x271 then s.writePtp r a v
  else if b = 0x280 then s.writeGpio who r a v
  else if b = 0x281 then s.writeTio who r a v
  else s.storeBits r a v

/-- A write of the MSI-X table (R266, R281): a vector that is unmasked while its message is pending sends it. The pending bits are read
only. -/
def State.writeMsix (s : State) (a : Nat) (v : Word) : State :=
  if 0x3000000 ≤ a ∧ a < 0x3000400 then
    let i := (a - 0x3000000) / 4
    let n := i / 4
    let s := { s with host := { s.host with table := mset (fun k => if k % 4 = 3 then 1 else 0) s.host.table i (if i % 4 = 3 then v &&& 1 else v) } }
    let p := mget (fun _ => 0) s.host.pba (n / 32)
    if i % 4 = 3 && !v.getLsbD 0 && p.getLsbD (n % 32) && s.host.msix && !s.host.fmask then
      { s with host := { s.host with pba := mset (fun _ => 0) s.host.pba (n / 32) (p &&& ~~~(BitVec.ofNat 32 (2 ^ (n % 32)))) } }.msixSend n
    else s
  else s

/-- A write that has reached BAR0 offset a, acting for port `port` in the AUTH and DBG blocks. -/
def State.writeAny (s : State) (who : Requester) (port a : Nat) (v : Word) (env : RegEnv) : State :=
  match locateReg a with
  | none => s.writeMsix a v
  | some (r, _, _) =>
    if s.regAbsent a then s
    else if inAuth a then s.writeAuth who port r a v
    else if inDbg a then (if s.sessLevel port = 0 then s.denied port none a 1 else if a = R.DBG_RDATA then s else s.writeDbg who port r a v env)
    else s.writeReg who r a v env

end Sys2Proof.Machine
end

