-- ==== Sys2Proof/Machine/RegAccess.lean ====
section
/-!
DEFINITION. Machine/RegAccess.lean: reads and writes of registers by the paths that reach them (R81, R305, R325, R326, R332, R386).
-/
namespace Sys2Proof.Machine

open Sys2Proof

/-! ## Holding registers (R81) -/

/-- The _LO registers of the map; each has its _HI 4 above it. -/
def loRegs : List Nat :=
  [R.RACE_UNITS_LO, R.GOV_SMCMD_LO, R.GOV_SMOBS_LO, R.GOV_SMMIS_LO, R.PCIE_BAR4BASE_LO, R.RING_DBBASE_LO, R.SLC_RING_LO, R.DBG_SRDATA_LO,
   R.DBG_MPC_LO, R.DBG_MGPR_LO, R.DBG_WLOW_LO, R.DBG_WHIGH_LO, R.DBG_MCSR_LO, R.DBG_WDATA_LO, R.DBG_MPCSAMP_LO, R.DBG_WMASK_LO] ++
  [R.DBG_MRLOW_LO, R.DBG_MRHIGH_LO, R.DBG_MHITADDR_LO, R.DBG_BDADDR_LO, R.DBG_MOWNER_LO, R.TRC_TRIGREC_LO, R.TB_PGSTART_LO,
   R.TB_PGPERIOD_LO, R.PTP_MAC_LO, R.PTP_TS_NS_LO, R.PTP_LASTSYNC_LO, R.RST_UPTIME_LO, R.EVT_FIRSTTB_LO] ++
  (List.range 4).flatMap (fun p => [R.TURN_COUNT_LO p, R.TURN_QUANTA_LO p, R.CFG_P_SRC_LO p, R.CFG_P_LEN_LO p, R.DBG_RUNLEFT_LO p,
    R.ACQ_P_HBUF_LO p, R.TB1_TURNS_LO p]) ++
  (List.range 3).flatMap (fun k => [R.TBK_NS_LO k, R.TBK_STEP_LO k]) ++ (List.range 16).flatMap (fun c => [R.DDRC_OWN_LO c, R.DDRC_ERRADDR_LO c]) ++
  (List.range 13).map R.RING_R_BASE_LO ++ (List.range 8).map R.TB_CAP_LO

/-- Key of the holding register of the register at a: the driver's, or the debugger's. -/
def holdKey (dbg : Bool) (a : Nat) : Nat := a + (if dbg then 2 ^ 28 else 0)

def State.held (s : State) (dbg : Bool) (a : Nat) : Option Word := mget (fun _ => none) s.dbg.hold (holdKey dbg a)
def State.setHeld (s : State) (dbg : Bool) (a : Nat) (w : Option Word) : State :=
  { s with dbg := { s.dbg with hold := mset (fun _ => none) s.dbg.hold (holdKey dbg a) w } }

/-- What a read of a _LO register copies: its _HI register, and for a time base TBk_FRAC too (R386). -/
def heldBy (a : Nat) : List Nat :=
  if loRegs.contains a then
    [a + 4] ++ (if [0, 1, 2].any (fun k => a == R.TBK_NS_LO k) then [a + 8] else [])
  else []

/-! ## Reads -/

/-- SCHED_ENQSTAT (R305): its read enqueues the item of SCHED_ENQ0 to SCHED_ENQ7, low half first. -/
def State.regEnqueue (s : State) (env : RegEnv) : Word × State :=
  let w (j : Nat) : BitVec 64 := s.reg (R.SCHED_ENQ (2 * j + 1)) ++ s.reg (R.SCHED_ENQ (2 * j))
  let (st, seq, s) := s.enqueue { w0 := w 0, w1 := w 1, w2 := w 2, w3 := w 3 } none env.full
  (wordOf (st * 2 ^ 30 + seq % 2 ^ 30), s)

/-- Registers of a core that need FULL and the shell bit (R326). -/
def coreRegs : List Nat := [R.DBG_MPC_LO, R.DBG_MPC_HI, R.DBG_MGPR_LO, R.DBG_MGPR_HI, R.DBG_MCSR_LO, R.DBG_MCSR_HI]

/-- A read that has reached BAR0 offset a. `dbg`: it is a debugger's, and has no side effect (R332). The DBG block reads 0 at level
NONE (R326). DBG_RDATA is none of this operation's. -/
def State.readAny (s : State) (who : Requester) (dbg : Bool) (port a : Nat) (env : RegEnv) : Word × State :=
  if inDbg a && s.sessLevel port == 0 then (0, s.denied port none a 1)
  else if a = R.DBG_RDATA then (0, s)
  else if coreRegs.contains a && s.sessLevel port != 2 then (0, s.denied port none a 1)
  else if coreRegs.contains a && !s.inScope port none then (0, s.denied port none a 2)
  else
    let peek := dbg || coreRegs.contains a
    match s.held peek a with
    | some w => (w, s.setHeld peek a none)
    | none =>
      let (w, s) :=
        if a = R.DBG_SRDATA_LO then let t := s.after (execSrdataRead who s); (t.readData, t)
        else if a = R.FLM_RBDATA then let t := s.after (execFlmRbdataRead dbg s); (t.readData, t)
        else if a = R.SCHED_ENQSTAT then (if isShell who && !dbg then s.regEnqueue env else (0, s))
        else if a = R.RING_EVLOST ∧ dbg = false then (s.peekReg port a env.sampled, s.setReg a 0)
        else (s.peekReg port a env.sampled, s)
      (w, s.each (heldBy a) (fun s h => s.setHeld peek h (some (s.peekReg port h env.sampled))))

/-! ## The register port of the DBG block (R326, R332) -/

/-- The partition the register at a concerns; none: the shell's. -/
def State.regScope (s : State) (a : Nat) : Option Nat :=
  let b := a / 0x10000
  let find (f : Nat → Nat) (n : Nat) : Option Nat := (List.range 4).find? (fun p => decide (f p ≤ a) && decide (a < f p + n))
  if b = 0xA ∨ b = 0xB then some (a / 0x1000 % 4)
  else if b = 8 then
    (if R.KEY_LNONCE 0 ≤ a ∧ a < R.KEY_LNONCE 0 + 64 then some ((a - R.KEY_LNONCE 0) / 16) else none)
  else if b = 9 then find R.CFG_P_STATE 0x40
  else if 0x100 ≤ b ∧ b < 0x110 then s.millOwner (instOf 0x1000000 0x1000 a)
  else if b = 0x220 then s.spokeOwner (instOf 0x2200000 0x1000 a)
  else if b = 0x221 then s.spokeOwner (instOf 0x2210000 0x100 a / 8)
  else if b = 0x262 then find R.ACQ_P_CTRL 0x20
  else if b = 0x270 then find R.TB1_TURNS_LO 0x10
  else none

/-- The requester a port stands for. -/
def asPort (who : Requester) (port : Nat) : Requester := if port = 1 then .jtag else if port = 2 then .mgmt else if port = 3 then .mbox else who

/-- GLB identity registers, which need no session (R326). -/
def glbIdentity (a : Nat) : Bool := decide (a < 0x28)

/-- The register at a clears what a read returns. -/
def readClears (a : Nat) : Bool :=
  match locateReg a with
  | some (r, _, _) => r.rc != 0
  | none => false

/-- Address in DBG_RADDR. -/
def State.raddr (s : State) : Nat := s.get F.DBG_RADDR_offset * 4

/-- A read of DBG_RDATA for port `port`. -/
def State.rdataRead (s : State) (who : Requester) (port : Nat) (env : RegEnv) : Word × State :=
  let a := s.raddr
  let p := s.regScope a
  if s.sessLevel port = 0 then (0, s.denied port p a 1)
  else if !glbIdentity a && !s.inScope port p then (0, s.denied port p a 2)
  else if readClears a then (0, (s.bump F.DBG_DENYCNT_side_effect 1).raise 0x9001 (ownerField p) [port, a])
  else s.readAny (asPort who port) true port a env

/-- A write of DBG_RDATA for port `port`: an ordinary write of the register (R332). BAR4 may be opened for reads, and closed, at OBSERVE
(R326). -/
def State.rdataWrite (s : State) (who : Requester) (port : Nat) (v : Word) (env : RegEnv) : State :=
  let a := s.raddr
  let p := s.regScope a
  let bar4 := a == R.PCIE_BAR4CTL && !(F.PCIE_BAR4CTL_en.of v == 1 && F.PCIE_BAR4CTL_write_en.of v == 1)
  let need := if bar4 then 1 else 2
  if s.sessLevel port < need then s.denied port p a 1
  else if !(a == R.PCIE_BAR4CTL) && !s.inScope port p then s.denied port p a 2
  else s.writeAny (asPort who port) port a v env

/-! ## The paths -/

/-- A read by a path (R325, R326): the host does not reach the AUTH and DBG blocks; a debug port reaches these and the GLB identity
registers; a handler reaches none. -/
def State.regRead (s : State) (who : Requester) (a : Nat) (env : RegEnv) : Word × State :=
  match s.dbgPort who with
  | none => if who == .host && !inAuth a && !inDbg a then s.readAny who false 0 a env else (0, s)
  | some port =>
    if !isShell who && !inAuth a && !inDbg a && !glbIdentity a then (0, s)
    else if a = R.DBG_RDATA then s.rdataRead who port env
    else s.readAny who false port a env

/-- A write by a path. -/
def State.regWrite (s : State) (who : Requester) (a : Nat) (v : Word) (env : RegEnv) : State :=
  match s.dbgPort who with
  | none => if who == .host && !inAuth a && !inDbg a then s.writeAny who 0 a v env else s
  | some port =>
    if !isShell who && !inAuth a && !inDbg a then s
    else if a = R.DBG_RDATA then s.rdataWrite who port v env
    else s.writeAny who port a v env

/-- REGISTER_READ: what it shows is in readData. -/
def execRegisterRead (who : Requester) (addr : BitVec 26) (env : RegEnv) (s : State) : Out :=
  let (w, s) := s.regRead who addr.toNat env
  .next { s with readData := w }

/-- REGISTER_WRITE. -/
def execRegisterWrite (who : Requester) (addr : BitVec 26) (value : Word) (env : RegEnv) (s : State) : Out :=
  .next (s.regWrite who addr.toNat value env)

/-- DBG_RDATA_READ: `sampled` is what the register shows when it measures something. -/
def execDbgRdataRead (who : Requester) (sampled : Word) (s : State) : Out :=
  match s.dbgPort who with
  | none => .next { s with readData := 0 }
  | some port =>
    let (w, s) := s.rdataRead who port { sampled := sampled }
    .next { s with readData := w }

/-- DBG_RDATA_WRITE. -/
def execDbgRdataWrite (who : Requester) (value : Word) (env : RegEnv) (s : State) : Out :=
  match s.dbgPort who with
  | none => .next s
  | some port => .next (s.rdataWrite who port value env)

end Sys2Proof.Machine
end

