-- ==== Sys2Proof/Machine/MilMem.lean ====
section
/-!
DEFINITION. Machine/MilMem.lean: memory as a miller reaches it: the physical address map, the caches, the views of the hopper, the
enqueue and sluice ports, the register space and DRAM (R297 to R300, R305, R313, R315, R317, R319).
-/
namespace Sys2Proof.Machine

open Sys2Proof

/-- What an access of a core comes to: a value, an exception with its mtval, or a wait (true: for a piece of a sluice). -/
inductive MRes (α : Type) where
  | ok (v : α) (s : State)
  | fault (cause : Nat) (tval : Nat) (s : State)
  | wait (get : Bool)

/-- Kinds of access: 0 fetch, 1 load, 2 store; the exception one raises. -/
def accessFault (kind : Nat) : Nat := if kind = 0 then 1 else if kind = 1 then 5 else 7

/-- PMP permission bit of a kind. -/
def kindBit (kind : Nat) : Nat := if kind = 0 then 2 else if kind = 1 then 0 else 1

/-! ## The hopper -/

/-- Code of the core may reach the bank (R315): machine mode any, user mode those of the running item's partition. -/
def State.hopMay (s : State) (k : Nat) (mach : Bool) (off : Nat) : Bool :=
  mach || (match s.runItem k with
    | some i => ctxOwner i.ctx == some (s.hopOwner (hopBank off))
    | none => false)

/-- The bank is being zeroed (R316). -/
def State.hopBusy (s : State) (off : Nat) : Bool := s.bit F.HOP_STATUS_scrubbing (hopBank off)

/-- An uncorrectable word in a core's access (R319): recorded, raised, and HOPPER on the core. -/
def State.hopFail (s : State) (k off : Nat) : State := (s.hopUe off (0x200 + k)).raiseIrq k 4

/-- Run an access to hopper bytes off to off + n: refused ones are counted (R315). -/
def State.onHopper {α : Type} (s : State) (k : Nat) (mach : Bool) (cause a off : Nat) (f : State → MRes α) : MRes α :=
  if !s.hopMay k mach off then .fault cause a (s.bump F.HOP_DENY_miller 1)
  else if s.hopBusy off then .wait false
  else f s

/-- A read of the hopper. -/
def State.milHopRead (s : State) (k : Nat) (mach : Bool) (kind a off n : Nat) : MRes (List Byte) :=
  s.onHopper k mach (accessFault kind) a off (fun s =>
    if s.hopBad off n then .fault (accessFault kind) a (s.hopFail k off) else .ok (s.hopRead off n) s)

/-- A write through an alias (R317), within one 64-bit granule: bits set or cleared. What is uncorrectable stays so. -/
def State.aliasWrite (s : State) (k : Nat) (clear : Bool) (off : Nat) (bs : List Byte) : State :=
  let old := s.hopRead off bs.length
  let new := (old.zip bs).map (fun (m, d) => if clear then m &&& ~~~d else m ||| d)
  let bad := s.hopBad off bs.length
  let ue := s.hop.ue
  let s := s.hopWrite off new
  if bad then { s with hop := { s.hop with ue := ue } }.hopFail k off else s

/-! ## Device pages (R298, R301, R305, R313) -/

/-- A doubleword of the core-local controller: msip of core c at 4 c, mtimecmp at 0x800, local interrupts pending at 0x808 (DESIGN CHOICE,
log entry 51: the spec gives no offsets). -/
def State.clcRead (s : State) (k d : Nat) : BitVec 64 :=
  let sip (c : Nat) : Nat := if (s.miller c).msip then 1 else 0
  if d < 16 then BitVec.ofNat 64 (sip (2 * d) + sip (2 * d + 1) * 2 ^ 32)
  else if d = 0x100 then (s.miller k).mtimecmp
  else if d = 0x101 then BitVec.ofNat 64 (mget (fun _ => 0) s.mlipend k)
  else 0

def State.setMsip (s : State) (c : Nat) (b : Bool) : State := (s.setMiller c { s.miller c with msip := b }).wakeCore c

def State.clcWrite (s : State) (k d : Nat) (v : BitVec 64) (from_ upto : Nat) : State :=
  let covers (b : Nat) : Bool := decide (from_ ≤ b) && decide (b < upto)
  if d < 16 then
    let s := if covers 0 then s.setMsip (2 * d) (v.getLsbD 0) else s
    if covers 4 then s.setMsip (2 * d + 1) (v.getLsbD 32) else s
  else if d = 0x100 then (s.setMiller k { s.miller k with mtimecmp := v }).wakeCore k
  else if d = 0x101 then
    { s with mlipend := mset (fun _ => 0) s.mlipend k (mget (fun _ => 0) s.mlipend k &&& ~~~(v &&& 0x1E#64)).toNat }
  else s

/-- A doubleword of a device page (0 core-local controller, 1 enqueue port, 2 sluice port); none while a GET waits. -/
def State.pageRead (s : State) (k page d : Nat) (full : Bool) : Option (BitVec 64 × State) :=
  match page with
  | 0 => some (s.clcRead k d, s)
  | 1 => if d < 4 then some (s.portWord k d, s) else if d = 4 then some (s.portEnqueue k full) else some (0, s)
  | _ =>
    if d < 2 then some (s.portWord k (4 + d), s)
    else if d = 2 then some (s.portPut k)
    else if d = 3 then s.portGet k false
    else if d = 4 then s.portGet k true
    else some (0, s)

/-- A write of a doubleword of a device page; bytes from `lo` up are written, of the doubleword's eight. -/
def State.pageWrite (s : State) (k page d lo : Nat) (bs : List Byte) : State :=
  let put (old : BitVec 64) : BitVec 64 :=
    let o := natLe 8 old.toNat
    BitVec.ofNat 64 (leNat (o.take lo ++ bs ++ o.drop (lo + bs.length)))
  match page with
  | 0 => s.clcWrite k d (put (if d = 0x101 then 0 else s.clcRead k d)) lo (lo + bs.length)
  | 1 => if d < 4 then s.setPort k d (put (s.portWord k d)) else s
  | _ => if d < 2 then s.setPort k (4 + d) (put (s.portWord k (4 + d))) else s

/-! ## The boot ROM -/

/-- A byte of the boot ROM: the exit stub writes wiend (R298, R304). -/
def bootByte (a : Nat) : Byte := if 0x100 ≤ a ∧ a < 0x104 then BitVec.ofNat 8 (0x8C001073 / 256 ^ (a - 0x100)) else Config.bootRom a

/-- The exit stub: the 64 bytes, one PMP granule, from 0x100 (log entry 51). -/
def inStub (a n : Nat) : Bool := decide (0x100 ≤ a) && decide (a + n ≤ 0x140)

/-! ## DRAM and the caches (R297, R300) -/

/-- Channel and channel address of a DRAM address. -/
def dramAt (a : Nat) : Nat × Nat := ((a - 2 ^ 40) / 2 ^ 38, a % 2 ^ 38)

def inDram (a : Nat) : Bool := decide (2 ^ 40 ≤ a) && decide (a < 5 * 2 ^ 40)

/-- Context of a core's packets (R300); none in user mode without an item. -/
def State.milCtx (s : State) (k : Nat) (mach : Bool) : Option Nat := if mach then some 4 else (s.runItem k).map WItem.ctx

def State.line (s : State) (k : Nat) (icache : Bool) (n : Nat) : Option (BitVec 512) :=
  mget (fun _ => none) (if icache then (s.miller k).icache else (s.miller k).dcache) n
def State.setLine (s : State) (k : Nat) (icache : Bool) (n : Nat) (v : Option (BitVec 512)) : State :=
  let m := s.miller k
  s.setMiller k (if icache then { m with icache := mset (fun _ => none) m.icache n v } else { m with dcache := mset (fun _ => none) m.dcache n v })

/-- The 64 bytes of a line, from memory. -/
def State.lineFill (s : State) (k : Nat) (mach : Bool) (kind a : Nat) (ecc : RowEcc) : MRes (List Byte) :=
  let base := a / 64 * 64
  if inDram a then
    match s.milCtx k mach with
    | none => .fault (accessFault kind) a s
    | some ctx =>
      let r := s.busRead (0x200 + k) ctx (dramAt base).1 (dramAt base).2 64 ecc
      if r.1 = 0 then .ok r.2.1 r.2.2 else .fault (accessFault kind) a r.2.2
  else s.milHopRead k mach kind a (base % 2 ^ 26) 64

/-- A cached read within a line: the line stays in the cache until it is evicted, flushed or fails parity. A resident line is read
where the access is allowed. -/
def State.cachedRead (s : State) (k : Nat) (mach : Bool) (kind a n : Nat) (ecc : RowEcc) : MRes (List Byte) :=
  let cut (w : BitVec 512) : List Byte := (natLe 64 w.toNat).drop (a % 64) |>.take n
  match s.line k (kind == 0) (a / 64) with
  | some w =>
    if inDram a then
      match s.milCtx k mach with
      | none => .fault (accessFault kind) a s
      | some ctx => if s.dramDenies (dramAt a).1 (dramAt a).2 ctx = some 3 then .fault (accessFault kind) a s else .ok (cut w) s
    else s.onHopper k mach (accessFault kind) a (a % 2 ^ 26) (fun s => .ok (cut w) s)
  | none =>
    match s.lineFill k mach kind a ecc with
    | .ok bs s => let w := BitVec.ofNat 512 (leNat bs); .ok (cut w) (s.setLine k (kind == 0) (a / 64) (some w))
    | r => r

/-- Bytes stored go into a resident line of the D-cache too. -/
def State.cacheStore (s : State) (k a : Nat) (bs : List Byte) : State :=
  match s.line k false (a / 64) with
  | some w =>
    let o := natLe 64 w.toNat
    s.setLine k false (a / 64) (some (BitVec.ofNat 512 (leNat (o.take (a % 64) ++ bs ++ o.drop (a % 64 + bs.length)))))
  | none => s

/-! ## The map (R298) -/

/-- A read of n bytes that lie within one line, and on the device pages and aliases within one doubleword. -/
def State.milRead1 (s : State) (k : Nat) (mach : Bool) (kind a n : Nat) (env : RegEnv) : MRes (List Byte) :=
  let deny : MRes (List Byte) := .fault (accessFault kind) a s
  if !s.pmpOk k mach a n (kindBit kind) then deny
  else if a < 0x10000 then (if kind = 0 && (mach || inStub a n) then .ok ((List.range n).map (fun i => bootByte (a + i))) s else deny)
  else if 0x1000000 ≤ a ∧ a < 0x1003000 then
    let page := (a - 0x1000000) / 0x1000
    if kind = 0 || (page == 0 && !mach) then deny
    else match s.pageRead k page (a % 0x1000 / 8) env.full with
      | some (v, s) => .ok ((natLe 8 v.toNat).drop (a % 8) |>.take n) s
      | none => .wait true
  else if 0x4000000 ≤ a ∧ a < 0x8000000 then
    if mach && kind == 1 && n == 4 && a % 4 == 0 then
      let r := s.regRead (.shell (Fin.ofNat 32 k)) (a - 0x4000000) env
      .ok (natLe 4 r.1.toNat) r.2
    else deny
  else if 0x10000000 ≤ a ∧ a < 0x1C000000 then s.milHopRead k mach kind a (a % 2 ^ 26) n
  else if (0x20000000 ≤ a ∧ a < 0x24000000) ∨ inDram a then s.cachedRead k mach kind a n env.dram
  else deny

/-- A write of bytes, likewise. -/
def State.milWrite1 (s : State) (k : Nat) (mach : Bool) (a : Nat) (bs : List Byte) (env : RegEnv) : MRes Unit :=
  let n := bs.length
  let deny : MRes Unit := .fault 7 a s
  if !s.pmpOk k mach a n 1 then deny
  else if 0x1000000 ≤ a ∧ a < 0x1003000 then
    let page := (a - 0x1000000) / 0x1000
    if page == 0 && !mach then deny else .ok () (s.pageWrite k page (a % 0x1000 / 8) (a % 8) bs)
  else if 0x4000000 ≤ a ∧ a < 0x8000000 then
    if mach && n == 4 && a % 4 == 0 then
      .ok () (s.regWrite (.shell (Fin.ofNat 32 k)) (a - 0x4000000) (BitVec.ofNat 32 (leNat bs)) env)
    else deny
  else if (0x10000000 ≤ a ∧ a < 0x14000000) ∨ (0x20000000 ≤ a ∧ a < 0x24000000) then
    s.onHopper k mach 7 a (a % 2 ^ 26) (fun s => .ok () ((s.hopWrite (a % 2 ^ 26) bs).cacheStore k a bs))
  else if 0x14000000 ≤ a ∧ a < 0x1C000000 then
    s.onHopper k mach 7 a (a % 2 ^ 26) (fun s => .ok () (s.aliasWrite k (decide (0x18000000 ≤ a)) (a % 2 ^ 26) bs))
  else if inDram a then
    match s.milCtx k mach with
    | none => deny
    | some ctx =>
      let r := s.busWrite (0x200 + k) ctx (dramAt a).1 (dramAt a).2 bs env.dram
      if r.1 = 0 then .ok () (r.2.cacheStore k a bs) else .fault 7 a r.2
  else deny

/-- Bytes up to the next place where a misaligned access is cut: a doubleword's end on the device pages and the aliases, else a
line's. -/
def untilCut (a : Nat) : Nat := if a < 0x2000000 ∨ (0x14000000 ≤ a ∧ a < 0x1C000000) then 8 - a % 8 else 64 - a % 64

/-- A read of up to 8 bytes at any address (R296): a misaligned one is two. -/
def State.milRead (s : State) (k : Nat) (mach : Bool) (kind a n : Nat) (env : RegEnv) : MRes (List Byte) :=
  if n ≤ untilCut a then s.milRead1 k mach kind a n env
  else
    let c := untilCut a
    match s.milRead1 k mach kind a c env with
    | .ok bs s => (match s.milRead1 k mach kind ((a + c) % 2 ^ 64) (n - c) env with
      | .ok bs' s => .ok (bs ++ bs') s
      | r => r)
    | r => r

/-- A write of up to 8 bytes at any address. -/
def State.milWrite (s : State) (k : Nat) (mach : Bool) (a : Nat) (bs : List Byte) (env : RegEnv) : MRes Unit :=
  let c := untilCut a
  if bs.length ≤ c then s.milWrite1 k mach a bs env
  else
    match s.milWrite1 k mach a (bs.take c) env with
    | .ok _ s => s.milWrite1 k mach ((a + c) % 2 ^ 64) (bs.drop c) env
    | r => r

/-! ## LR, SC and AMOs (R299) -/

/-- What an AMO stores, of n-bit operands: by its funct5. -/
def amoResult (f5 : Nat) {n : Nat} (old src : BitVec n) : BitVec n :=
  match f5 with
  | 0 => old + src
  | 1 => src
  | 4 => old ^^^ src
  | 8 => old ||| src
  | 12 => old &&& src
  | 16 => if old.slt src then old else src
  | 20 => if old.slt src then src else old
  | 24 => if old.ult src then old else src
  | _ => if old.ult src then src else old

/-- funct5 of LR, SC and the nine AMOs. -/
def amoCodes : List Nat := [0, 1, 2, 3, 4, 8, 12, 16, 20, 24, 28]

/-- The access of LR (2), SC (3) or an AMO: what its rd gets. Nothing is between its read and its write. -/
def State.amoAccess (s : State) (k : Nat) (mach : Bool) (f5 : Nat) (wide : Bool) (a : Nat) (src : BitVec 64) : MRes (BitVec 64) :=
  let n := if wide then 8 else 4
  let off := a % 2 ^ 26
  let lr := f5 == 2
  let sext (v : BitVec 64) : BitVec 64 := if wide then v else (v.truncate 32).signExtend 64
  let cause := if lr then 5 else 7
  if a % n ≠ 0 then .fault (if lr then 4 else 6) a s
  else if a < 0x10000000 ∨ 0x14000000 ≤ a then .fault 7 a s
  else if (f5 != 3 && !s.pmpOk k mach a n 0) || (!lr && !s.pmpOk k mach a n 1) then .fault cause a s
  else s.onHopper k mach cause a off (fun s =>
    let old := BitVec.ofNat 64 (leNat (s.hopRead off n))
    if f5 = 3 then
      let held := (s.miller k).resv == some (off / 64)
      let s := if held then s.hopWrite off (natLe n src.toNat) else s
      .ok (if held then 0 else 1) (s.setMiller k { s.miller k with resv := none })
    else if s.hopBad off n then .fault cause a (s.hopFail k off)
    else if lr then .ok (sext old) (s.setMiller k { s.miller k with resv := some (off / 64) })
    else
      let new : Nat := if wide then (amoResult f5 old src).toNat else (amoResult f5 (old.truncate 32) (src.truncate 32)).toNat
      .ok (sext old) (s.hopWrite off (natLe n new)))

end Sys2Proof.Machine
end

