-- ==== Sys2Proof/Machine/Miller.lean ====
section
/-!
DEFINITION. Machine/Miller.lean: what one command of a miller does: an instruction with its fetch, accesses, traps, debug ranges and
trace packets (R296 to R302, R345 to R348, R370 to R376). The instructions are those of the RISC-V specifications for RV64IMAC with
Zicsr and Zifencei.
-/
namespace Sys2Proof.Machine

open Sys2Proof

/-- An integer register; x0 reads 0 and takes nothing. -/
def State.x (s : State) (k n : Nat) : BitVec 64 := if n = 0 then 0 else mget (fun _ => 0) (s.miller k).x n
def State.setX (s : State) (k n : Nat) (v : BitVec 64) : State :=
  if n = 0 then s else s.setMiller k { s.miller k with x := mset (fun _ => 0) (s.miller k).x n v }

/-- What an instruction comes to: the next pc, and the data address it accessed with its direction (1 load, 2 store, 3 both). -/
abbrev Done := BitVec 64 × Option (Nat × Nat)

/-- mcycle counts. -/
def State.cycled (s : State) (k n : Nat) : State :=
  if (s.csrRaw k 0x320).getLsbD 0 then s else s.setCsrRaw k 0xB00 (s.csrRaw k 0xB00 + BitVec.ofNat 64 n)

/-- Mode of loads and stores: MPRV gives that of MPP (privileged specification). -/
def State.dataMode (s : State) (k : Nat) : Bool :=
  let st := (s.csrRaw k 0x300).toNat
  if (s.miller k).machine && st.testBit 17 then st / 2 ^ 11 % 4 == 3 else (s.miller k).machine

/-- A traced TARGET (R372). -/
def State.trcTarget (s : State) (k : Nat) (pc : BitVec 64) : State :=
  s.trcRun k (s.miller k).machine (fun s => s.trcPacket k 3 (pc.toNat / 2 % 2 ^ 42))

/-- SYSTEM: ECALL, EBREAK, MRET, WFI and the CSR instructions. -/
def State.milSystem (s : State) (k i : Nat) (next : BitVec 64) (illegal : MRes Done) (cycles : Nat) : MRes Done :=
  let m := s.miller k
  let f3 := fld i 12 3
  let rd := fld i 7 5
  let rs := fld i 15 5
  let n := fld i 20 12
  if f3 = 0 then
    if i = 0x00000073 then .fault (if m.machine then 11 else 8) 0 s
    else if i = 0x00100073 then .fault 3 m.pc.toNat s
    else if i = 0x30200073 ∧ m.machine = true then
      let t := (s.trcTarget k (s.csrRaw k 0x341)).mretMiller k
      .ok ((t.miller k).pc, none) t
    else if i = 0x10500073 ∧ (m.machine || !(s.csrRaw k 0x300).getLsbD 21) = true then
      (if s.wakes k || m.stepping then .ok (next, none) s else .ok (m.pc, none) (s.setMiller k { m with wfi := true }))
    else illegal
  else if f3 = 4 ∨ !s.csrMay k n then illegal
  else
    let imm := 4 < f3
    let src : BitVec 64 := if imm then BitVec.ofNat 64 rs else s.x k rs
    let op := f3 % 4
    let writes := op = 1 ∨ rs ≠ 0
    if writes ∧ n / 1024 = 3 then illegal
    else match s.csrPeek k n with
      | none => illegal
      | some old =>
        let s := if op = 1 ∧ rd = 0 then s else match s.csrRead k n with
          | some (_, t) => t
          | none => s
        let s := if writes then s.csrWrite k n (if op = 1 then src else if op = 2 then old ||| src else old &&& ~~~src) cycles 1 else s
        .ok (next, none) (s.setX k rd old)

/-- A load, by funct3. -/
def State.milLoad (s : State) (k i : Nat) (next : BitVec 64) (illegal : MRes Done) (env : RegEnv) : MRes Done :=
  let f3 := fld i 12 3
  let n := 2 ^ (f3 % 4)
  let a := (s.x k (fld i 15 5) + immI i).toNat
  if f3 = 7 then illegal
  else match s.milRead k (s.dataMode k) 1 a n env with
    | .ok bs s =>
      let v := leNat bs
      .ok (next, some (a, 1)) (s.setX k (fld i 7 5) (if f3 < 3 then sxt (8 * n) v else BitVec.ofNat 64 v))
    | .fault c t s => .fault c t s
    | .wait g => .wait g

/-- A store, by funct3. -/
def State.milStore (s : State) (k i : Nat) (next : BitVec 64) (illegal : MRes Done) (env : RegEnv) : MRes Done :=
  let f3 := fld i 12 3
  let a := (s.x k (fld i 15 5) + immS i).toNat
  if 3 < f3 then illegal
  else match s.milWrite k (s.dataMode k) a (natLe (2 ^ f3) (s.x k (fld i 20 5)).toNat) env with
    | .ok _ s => .ok (next, some (a, 2)) s
    | .fault c t s => .fault c t s
    | .wait g => .wait g

/-- LR, SC and the AMOs. -/
def State.milAmo (s : State) (k i : Nat) (next : BitVec 64) (illegal : MRes Done) : MRes Done :=
  let f3 := fld i 12 3
  let f5 := fld i 27 5
  let a := (s.x k (fld i 15 5)).toNat
  if (f3 ≠ 2 ∧ f3 ≠ 3) ∨ !amoCodes.contains f5 ∨ (f5 = 2 ∧ fld i 20 5 ≠ 0) then illegal
  else match s.amoAccess k (s.dataMode k) f5 (f3 == 3) a (s.x k (fld i 20 5)) with
    | .ok v s => .ok (next, some (a, if f5 = 2 then 1 else if f5 = 3 then 2 else 3)) (s.setX k (fld i 7 5) v)
    | .fault c t s => .fault c t s
    | .wait g => .wait g

/-- One instruction: its 32-bit word i (of a compressed one, its equal), the bits fetched, and its length. -/
def State.runInstr (s : State) (k i raw len : Nat) (obs : MilObs) : MRes Done :=
  let m := s.miller k
  let pc := m.pc
  let next := pc + BitVec.ofNat 64 len
  let f3 := fld i 12 3
  let rd := fld i 7 5
  let a := s.x k (fld i 15 5)
  let b := s.x k (fld i 20 5)
  let illegal : MRes Done := .fault 2 raw s
  let res (r : Option (BitVec 64)) : MRes Done := match r with
    | some v => .ok (next, none) (s.setX k rd v)
    | none => illegal
  match i % 128 with
  | 0x37 => res (some (immU i))
  | 0x17 => res (some (pc + immU i))
  | 0x6F => .ok (pc + immJ i, none) (s.setX k rd next)
  | 0x67 =>
    if f3 = 0 then
      let t := (a + immI i) &&& ~~~1#64
      .ok (t, none) ((s.trcTarget k t).setX k rd next)
    else illegal
  | 0x63 => match branchOp f3 a b with
    | some taken => .ok (if taken then pc + immB i else next, none) (s.trcRun k m.machine (fun s => s.trcBranch k taken))
    | none => illegal
  | 0x03 => s.milLoad k i next illegal obs.env
  | 0x23 => s.milStore k i next illegal obs.env
  | 0x13 => res (immResult false i a)
  | 0x1B => res (immResult true i a)
  | 0x33 => res (opResult false (fld i 25 7) f3 a b)
  | 0x3B => res (opResult true (fld i 25 7) f3 a b)
  | 0x0F => if f3 = 0 then .ok (next, none) s else if f3 = 1 then .ok (next, none) (s.setMiller k { m with icache := [] }) else illegal
  | 0x2F => s.milAmo k i next illegal
  | 0x73 => s.milSystem k i next illegal obs.cycles
  | _ => illegal

/-- Fetch and run the instruction at pc. -/
def State.fetchRun (s : State) (k : Nat) (obs : MilObs) : MRes Done :=
  let pc := (s.miller k).pc.toNat
  let mach := (s.miller k).machine
  match s.milRead k mach 0 pc 2 obs.env with
  | .fault c t s => .fault c t s
  | .wait g => .wait g
  | .ok lo s =>
    let lo := leNat lo
    if lo % 4 ≠ 3 then
      match expand lo with
      | some i => s.runInstr k i lo 2 obs
      | none => .fault 2 lo s
    else match s.milRead k mach 0 ((pc + 2) % 2 ^ 64) 2 obs.env with
      | .fault c t s => .fault c t s
      | .wait g => .wait g
      | .ok hi s => let i := lo + 2 ^ 16 * leNat hi; s.runInstr k i i 4 obs

/-! ## Debug ranges (R347) -/

/-- The bounds of range instance n hold address a. -/
def State.rangeHolds (s : State) (n a : Nat) : Bool :=
  decide (s.get64 (selAddr R.DBG_MRLOW_LO n) (selAddr R.DBG_MRLOW_HI n) ≤ a) &&
  decide (a ≤ s.get64 (selAddr R.DBG_MRHIGH_LO n) (selAddr R.DBG_MRHIGH_HI n))

/-- Range n of core k is enabled, and its qualifier and its owner's scope let in the running item. -/
def State.rangeOn (s : State) (k n : Nat) : Bool :=
  s.on (F.DBG_MRCFG_en.sel n) &&
  (match s.runItem k with
   | none => false
   | some i =>
     (s.sessScope (s.coreOwner k)).testBit (min i.ctx 4) &&
     (match s.get (F.DBG_MRQUAL_kind.sel n) with
      | 1 => i.ctx == s.get (F.DBG_MRQUAL_value.sel n) % 8
      | 2 => i.seq % 65536 == s.get (F.DBG_MRQUAL_value.sel n)
      | _ => true))

/-- Instruction range i hits at address a. -/
def State.instrHit (s : State) (k a i : Nat) : Bool :=
  let n := rangeIdx k false i
  s.rangeOn k n && s.rangeHolds n a &&
  (!(i % 2 == 1 && s.on (F.DBG_MRCFG_link.sel n)) || mget (fun _ => false) s.dbg.rangeHit n)

/-- Data range j hits on an access of address a in direction dir, made at pc. -/
def State.dataHit (s : State) (k pc a dir j : Nat) : Bool :=
  let n := rangeIdx k true j
  s.rangeOn k n && s.rangeHolds n a && (s.get (F.DBG_MRCFG_dir.sel n) &&& dir != 0) &&
  (!s.on (F.DBG_MRCFG_link.sel n) || s.rangeHolds (rangeIdx k false (s.get (F.DBG_MRCFG_lrange.sel n))) pc)

/-- Ranges hit: the lowest is recorded; one with action 1 pulses the trace trigger (R347, R376), one with action 0 halts the core. -/
def State.rangesHit (s : State) (k : Nat) (data : Bool) (addr : Nat) (hits : List Nat) : State :=
  match hits with
  | [] => s
  | i :: _ =>
    let r := selAddr R.DBG_MHIT k
    let s := s.setReg r (BitVec.ofNat 32 (2 ^ 31 + (if data then 2 ^ 8 else 0) + i))
    let s := if data then s.put64 (selAddr R.DBG_MHITADDR_LO k) (selAddr R.DBG_MHITADDR_HI k) addr else s
    let trig (j : Nat) : Bool := s.on (F.DBG_MRCFG_action.sel (rangeIdx k data j))
    let s := if hits.any trig && s.on F.TRC_TRIG_src_range then s.trcTrigger 0 k else s
    if hits.all trig then s else s.haltCore k (if data then 4 else 3)

/-- The instruction ranges of core k before the instruction at pc: an even one that hits arms the odd one above it. -/
def State.instrRanges (s : State) (k : Nat) : State :=
  let a := (s.miller k).pc.toNat
  let hits := (List.range 8).filter (s.instrHit k a)
  let s := s.each (hits.filter (fun i => i % 2 == 0)) (fun s i =>
    { s with dbg := { s.dbg with rangeHit := mset (fun _ => false) s.dbg.rangeHit (rangeIdx k false (i + 1)) true } })
  s.rangesHit k false a hits

/-! ## The command -/

/-- Core k executes instructions (R323, R345, R403, R411): the boot ROM runs from bring-up stage 3. -/
def State.coreRuns (s : State) (k : Nat) : Bool :=
  decide (3 ≤ s.get F.RST_SEQ_stage) && !s.on (F.MLR_CTRL_hold k) && !s.napping k && (!(s.miller k).halted || (s.miller k).stepping)

/-- Lines leave the caches of core k (R297): `parity`: each that failed is counted in MLR_STATUS. -/
def State.cacheLose (s : State) (k : Nat) (parity : Bool) (l : List (Bool × Nat)) : State :=
  s.each l (fun s e =>
    if (s.line k e.1 e.2).isSome then
      let s := s.setLine k e.1 e.2 none
      if parity then s.bump (F.MLR_STATUS_parity k) 1 else s
    else s)

/-- A step of a halted core ends (R346). -/
def State.stepEnds (s : State) (k : Nat) : State :=
  let m := s.miller k
  if m.stepping && !m.wfi && !m.getWait then s.haltCore k 2 else s

/-- An instruction retires, or traps, or waits. A reset in its course leaves nothing more to do. -/
def State.milRetire (s0 : State) (k : Nat) (obs : MilObs) (r : MRes Done) : State :=
  let pc := (s0.miller k).pc
  match r with
  | .wait g => s0.setMiller k { s0.miller k with getWait := g, busy := false }
  | .fault c t s =>
    ((s.setMiller k { s.miller k with busy := false, getWait := false }).trapMiller k c false (BitVec.ofNat 64 t)).cycled k obs.cycles |>.stepEnds k
  | .ok (next, acc) s =>
    let m := s.miller k
    if !m.busy then s
    else if m.wfi then (s.setMiller k { m with busy := false }).cycled k obs.cycles
    else
      let s := s.setMiller k { m with pc := next, lastPc := pc, busy := false, getWait := false }
      let s := (s.cycled k obs.cycles).retired k 1
      let s := match acc with
        | some (a, dir) => s.rangesHit k true a ((List.range 4).filter (s.dataHit k pc.toNat a dir))
        | none => s
      s.stepEnds k

/-- The instruction at pc, past its ranges. -/
def State.milExec (s : State) (k : Nat) (obs : MilObs) : State :=
  let s := s.trcRun k (s.miller k).machine (fun s => s)
  let s := s.setMiller k { s.miller k with busy := true }
  s.milRetire k obs (s.fetchRun k obs)

/-- MILLER_INSTRUCTION: core k takes an interrupt, or executes one instruction, or waits. A command for a core that does not execute has
no effect. -/
def execMillerInstruction (k : Core) (obs : MilObs) (s : State) : Out :=
  let c := k.val
  if !s.coreRuns c then .next s
  else if (s.miller c).wfi then .next (s.wakeCore c)
  else
    let s := (((s.cacheLose c false obs.evict).cacheLose c true obs.parity).hopEcc obs.hop).hopStall obs.stall
    let m := s.miller c
    if m.getWait then .next (s.milExec c obs)
    else if m.stepping then .next (s.milExec c obs)
    else match s.interruptOf c with
      | some i => .next ((s.trapMiller c i true 0).cycled c obs.cycles)
      | none =>
        let s := s.instrRanges c
        if (s.miller c).halted then .next s else .next (s.milExec c obs)

/-- AMO (R299): LR (2), SC (3) or an AMO of core k by its funct5; rd gets what it returns. A refused one traps; with another funct5
there is no such operation. -/
def execAmo (k : Core) (f5 : Fin 32) (wide : Bool) (rd : Fin 32) (addr src : BitVec 64) (s : State) : Out :=
  if !s.coreRuns k || !amoCodes.contains f5.val then .next s
  else match s.amoAccess k (s.dataMode k) f5 wide addr.toNat src with
    | .ok v s => .next (s.setX k rd v)
    | .fault c t s => .next (s.trapMiller k c false (BitVec.ofNat 64 t))
    | .wait _ => .next s

/-- HOPPER_ALIAS_WRITE (R317): core k writes the low 2^size bytes of data through the bit-set or the bit-clear alias, at hopper offset off,
within one granule. -/
def execHopperAliasWrite (k : Core) (clear : Bool) (off : BitVec 26) (size : Fin 4) (data : BitVec 64) (s : State) : Out :=
  let a := (if clear then 0x18000000 else 0x14000000) + off.toNat
  let n := 2 ^ size.val
  if !s.coreRuns k || 8 - a % 8 < n then .next s
  else match s.milWrite1 k (s.dataMode k) a (natLe n data.toNat) {} with
    | .ok _ s => .next s
    | .fault c t s => .next (s.trapMiller k c false (BitVec.ofNat 64 t))
    | .wait _ => .next s

end Sys2Proof.Machine
end

