-- ==== Sys2Proof/Machine/Packets.lean ====
section
/-!
DEFINITION. Machine/Packets.lean: packets at their targets and at their initiators (R92 to R95, R102 to R106, R142, R157, R158, R267,
R272, R290, R315, R319, R406).
-/
namespace Sys2Proof.Machine

open Sys2Proof

/-- Poisoned units of a write are not written and are counted (R104); what is left of it, as byte runs. -/
def State.takeRuns (s : State) (pk : Pkt) : List (Nat × List Byte) × State := (joinRuns (writeRuns pk), s.countPoison pk)

/-- Bytes a packet covers from its address on (R94). -/
def hspan (h : Unit128) : Nat := haddr h / 16 * 16 + 16 * hlen h - htail h - haddr h

/-- Answer a request that has an answer: RD and WRA. -/
def State.reply (s : State) (h : Unit128) (status : Nat) (units : List Unit128) : State :=
  if hdrRequest h then s.answer h status units else s

/-! ## Mills (R142, R406) -/

/-- The mill-memory back door, dport 3. -/
def State.serveDoor (s : State) (pk : Pkt) (e : RowEcc) : State :=
  let h := pk.hdr
  let m := hmill h
  if hcmd h = 1 then
    let n := 16 * hlen h
    let (st, bs, s) := s.doorRead m (haddr h) n (hctx h) e
    s.answer h st (if st = 5 then [] else bytesUnits (hlen h) bs)
  else
    let (runs, s) := s.takeRuns pk
    let (st, s) := runs.zipIdx.foldl (fun (acc : Nat × State) r =>
      let (st, s) := acc.2.doorWrite m r.1.1 r.1.2 (hctx h) (if r.2 = 0 then e else {})
      (max acc.1 st, s)) (0, s)
    s.reply h st []

/-- A packet for a mill (R406): one in Sleep or in Off has no target. The configuration port serves the loader only, and a far port takes
only responses: neither has an address of its own (log entry 13). -/
def State.serveMill (s : State) (pk : Pkt) (e : RowEcc) : State :=
  let h := pk.hdr
  let m := hmill h
  if decide (4 ≤ s.dstate (m / 8)) || hdport h != 3 then s.reply h 5 []
  else s.serveDoor pk e

/-! ## X endpoints -/

/-- A request for a DRAM channel; a write into a locked staging area is denied (R248). `e`: what the reads of a partial write's
read-modify-write show (R457). -/
def State.serveDram (s : State) (c : Nat) (pk : Pkt) (cycle : Nat) (e : RowEcc) : State :=
  let h := pk.hdr
  if hcmd h ≠ 1 then
    (if s.stageLocked c (haddr h) (hspan h) then s.reply h 3 []
    else (s.dramCes c (haddr h) e.ce).dramRequest c pk cycle e.ue)
  else s.dramRequest c pk cycle []

/-- A request for the hopper (R315, R319): beyond it there is no target; a bank of another owner denies. -/
def State.serveHopper (s : State) (pk : Pkt) : State :=
  let h := pk.hdr
  let n := hspan h
  let a := haddr h
  let mine (off : Nat) : Bool := ctxOwner (hctx h) == some (s.hopOwner (hopBank off))
  let spans (off n : Nat) : Bool := mine off && (n == 0 || mine (off + n - 1))
  if 2 ^ 26 < a + n then s.reply h 5 []
  else if !spans a n then (s.bump F.HOP_DENY_race 1).reply h 3 []
  else if hcmd h = 1 then
    let us := bytesUnits (hlen h) (s.hopRead a n)
    if s.hopBad a n then (s.hopUe a (hinit h)).answer h 2 us else s.answer h 0 us
  else
    let (runs, s) := s.takeRuns pk
    (s.each runs (fun s r => s.hopWrite r.1 r.2)).reply h 0 []

/-- A far port's access to a host window (R272): with the link down, the engine off, or the window undefined it has no target; a write
that is refused is lost to the design. -/
def State.serveHost (s : State) (pk : Pkt) : State :=
  let h := pk.hdr
  let w := s.fpBase (hinit h)
  let win := s.hostWin w
  let live := s.on F.PCIE_STATUS_up && s.on F.RING_CTRL_en && win.size != 0
  let addr := win.haddr / 2 ^ 48 * 2 ^ 48 + haddr h
  if hcmd h = 1 then
    (if live then { s with host := { s.host with reads := s.host.reads ++ [⟨h, addr⟩] } } else s.answer h 5 [])
  else if live && win.write then
    let (runs, s) := s.takeRuns pk
    s.each runs (fun s r => s.hostWrite (win.haddr / 2 ^ 48 * 2 ^ 48 + r.1) r.2)
  else (s.bump F.PCIE_BARDENY_high 1).faultTurn (hctx h) false

/-- A request for an X endpoint (R84). -/
def State.serveX (s : State) (pk : Pkt) (cycle : Nat) (e : RowEcc) : State :=
  let h := pk.hdr
  let kind := if hinit h < 0x200 then s.fpKind (hinit h) else 0
  match xEnd (hmill h) with
  | .dram c => s.serveDram c pk cycle e
  | .millers half =>
    if half = 1 ∧ kind = 2 then (if hcmd h = 1 then s.sluiceRd h else s.sluiceWr pk) else s.serveHopper pk
  | .pcie => if kind = 3 then s.serveHost pk else s.reply h 5 []
  | _ => s.reply h 5 []

/-! ## Requests -/

/-- A read that is answered BAD_REQUEST (R93, R94). -/
def badRead (h : Unit128) : Bool := hlen h == 0 || haddr h % 16 != 0 || htail h != 0

/-- The mill of the disabled quadrant that a packet names has no target: its initiator is answered at once (R96). -/
def State.noMill (s : State) (h : Unit128) : Bool := hdport h != 8 && !s.quadEnabled (hdq h)

/-- A target takes a packet: a mill is in Run, or has no target to wake; a channel has room in its queue (R97, R212, R406). -/
def State.targetReady (s : State) (h : Unit128) : Bool :=
  if hdport h = 8 then
    match xEnd (hmill h) with
    | .dram c => (s.chan c).room h
    | _ => true
  else s.dstate (hmill h / 8) == 0 || decide (4 ≤ s.dstate (hmill h / 8))

/-- What the last router passes on: what an isolated target would get goes to the router itself (R102). -/
def State.passes (s : State) (pk : Pkt) : Bool := s.isolated (htarget pk.hdr) || s.targetReady pk.hdr

/-- A request with command code `cmd` has crossed the race and reaches its target (R96, R98, R100, R102, R104), `waited` cycles after it came
to the last router. One that cannot leave the race yet stays where it is; a mill it waits for wakes. -/
def State.arrive (s : State) (cmd : Nat) (pk : Pkt) (waited : Nat) (f : Pkt → State → State) : State :=
  let h := pk.hdr
  if hcmd h ≠ cmd then s
  else if hdrMalformed h then (s.malformed (hmill h) 5 h).losePacket h
  else if s.noMill h then (s.landed h).reply h 5 []
  else if !s.mayLand h s.passes then
    (if hdport h ≠ 8 ∧ s.inOrder h = true ∧ s.targetReady h = false ∧ s.isolated (htarget h) = false then s.wakeFor (hmill h / 8) else s)
  else
    let pk := s.asLanded pk
    if s.isolated (htarget h) then s.absorb pk waited
    else if !s.targetReady h then (if hdport h = 8 then s else s.wakeFor (hmill h / 8))
    else f pk ((s.leaveRace h waited).reqDelivered h)

/-- A target serves a request. `cycle`: the partition cycle of its arrival, for its channel's order; `e`: what the decoders of its memory
see. -/
def State.serve (s : State) (pk : Pkt) (cycle : Nat) (e : RowEcc) : State :=
  if hdport pk.hdr = 8 then s.serveX pk cycle e else s.serveMill pk e

/-- RD. -/
def execRd (pk : Pkt) (cycle : Nat) (ecc : RowEcc) (waited : Nat) (s : State) : Out :=
  .next (s.arrive 1 pk waited (fun pk s => if badRead pk.hdr then s.answer pk.hdr 4 [] else s.serve pk cycle ecc))

/-- WR: one with no data units writes nothing. -/
def execWr (pk : Pkt) (cycle : Nat) (ecc : RowEcc) (waited : Nat) (s : State) : Out :=
  .next (s.arrive 2 pk waited (fun pk s => if hlen pk.hdr = 0 then s else s.serve pk cycle ecc))

/-- WRA: acknowledged when it has been served, which follows every earlier write of its initiator. -/
def execWra (pk : Pkt) (cycle : Nat) (ecc : RowEcc) (waited : Nat) (s : State) : Out :=
  .next (s.arrive 3 pk waited (fun pk s => s.serve pk cycle ecc))

/-- MSG: no target gives a message a meaning. -/
def execMsg (pk : Pkt) (waited : Nat) (s : State) : Out := .next (s.arrive 6 pk waited (fun _ s => s))

/-! ## Responses -/

/-- Bytes of the window a read that waits for a response asked for, from its slot's offset (R144). -/
def State.farData (s : State) (id j : Nat) (us : List Unit128) : BitVec 512 := getBits (valueOf (s.slot id j).offset us) 0 (s.fpWidth id)

/-- A response for a far port (R150, R157, R158): its stamp must be the slot's; one that is owed only frees the slot. -/
def State.farResponse (s : State) (h : Unit128) (status cycle : Nat) (us : List Unit128) : State :=
  let id := hinit h
  let j := htag h % 32
  let x := s.slot id j
  if !x.busy || htag h / 32 != x.stamp then s
  else if x.owed then (s.slotTimed id j cycle).freeRSlot id j
  else if x.done then s
  else if status = 0 then s.slotData id j (s.farData id j us) true cycle
  else (s.slotTimed id j cycle).slotError id j 2 status (if us.isEmpty then 0 else s.farData id j us)

/-- A response reaches its initiator, which takes it without waiting (R97): the units it brings and the latency of the request are
counted (R106). One that nothing waits for is discarded (R105). A poisoned unit makes its status ECC (R104). -/
def State.response (s : State) (cmd : Nat) (pk : Pkt) (cycle lat waited : Nat) : State :=
  let h := pk.hdr
  let (init, tag) := (hinit h, htag h)
  if hcmd h ≠ cmd then s
  else if hdrMalformed h then (s.malformed (hmill h) 5 h).losePacket h
  else if !s.mayLand h (fun _ => true) then s
  else
    let pk := s.asLanded pk
    let s := s.leaveRace h waited
    if !s.awaits init tag then s
    else
      let s := ((s.statUnits init pk.data.length).statLat init lat).reqDone init tag
      let status := if pk.poison.any id then 2 else hstatus h
      if init < 0x200 then s.farResponse h status cycle pk.data
      else if init = 0x220 then s.bar4Answer tag status (unitBytes pk.data) (cmd == 4)
      else s

/-- RDR: `lat`: the request's latency in step-clock cycles. -/
def execRdr (pk : Pkt) (cycle : Nat) (lat waited : Nat) (s : State) : Out := .next (s.response 4 pk cycle lat waited)

/-- ACK. -/
def execAck (pk : Pkt) (lat waited : Nat) (s : State) : Out := .next (s.response 5 pk 0 lat waited)

/-- REQUEST_TIMEOUT (R105): the interface of an initiator other than a far port completes a request. A BAR4 access is answered TIMEOUT; an
engine's next access ends with it. -/
def execRequestTimeout (init : BitVec 10) (tag : BitVec 12) (s : State) : Out :=
  match s.race.reqs.find? (fun r => r.is init.toNat tag.toNat) with
  | none => .next s
  | some r =>
    if init.toNat < 0x200 then .next s
    else
      let s := s.reqDone init.toNat tag.toNat
      .next (if init.toNat = 0x220 then s.bar4Answer tag.toNat 6 [] (hcmd r.hdr == 1)
        else { s with race := { s.race with lost := init.toNat :: s.race.lost } })

end Sys2Proof.Machine
end

