-- ==== Sys2Proof/Machine/Dispatch.lean ====
section
/-!
DEFINITION. Machine/Dispatch.lean: one arm per command, each one direct call of its meaning.
-/
namespace Sys2Proof.Machine

open Sys2Proof

def exec (i : Instr) (s : State) : Host.Outcome State Fault Refusal :=
  match i with
  | .nop m st b n e lk => Sys2Proof.Machine.execNop m st b n e lk s
  | .eval m st b n e => Sys2Proof.Machine.execEval m st b n e s
  | .eval3St m st b n e => Sys2Proof.Machine.execEval3St m st b n e s
  | .fuse2 m st k n e => Sys2Proof.Machine.execFuse2 m st k n e s
  | .fuse4 m st k n e => Sys2Proof.Machine.execFuse4 m st k n e s
  | .mrd m st b n e mm => Sys2Proof.Machine.execMrd m st b n e mm s
  | .mwr m st b n e mm => Sys2Proof.Machine.execMwr m st b n e mm s
  | .wait m st b n e => Sys2Proof.Machine.execWait m st b n e s
  | .launch m st b n e pads => Sys2Proof.Machine.execLaunch m st b n e pads s
  | .land m st b n e => Sys2Proof.Machine.execLand m st b n e s
  | .break_ m st b n e => Sys2Proof.Machine.execBreak_ m st b n e s
  | .turnEnd p => Sys2Proof.Machine.execTurnEnd p s
  | .brakeCheck m st b n next => Sys2Proof.Machine.execBrakeCheck m st b n next s
  | .brakeRecheck m st b n => Sys2Proof.Machine.execBrakeRecheck m st b n s
  | .voteTakesEffect p hold round => Sys2Proof.Machine.execVoteTakesEffect p hold round s
  | .brakeQuantumEnd p => Sys2Proof.Machine.execBrakeQuantumEnd p s
  | .partVote p quanta n => Sys2Proof.Machine.execPartVote p quanta n s
  | .powerVote p n => Sys2Proof.Machine.execPowerVote p n s
  | .captureCheck p n => Sys2Proof.Machine.execCaptureCheck p n s
  | .partQmaskWrite p value => Sys2Proof.Machine.execPartQmaskWrite p value s
  | .turnCtrlClear p => Sys2Proof.Machine.execTurnCtrlClear p s
  | .paceChange pace => Sys2Proof.Machine.execPaceChange pace s
  | .paceSwitchDone us => Sys2Proof.Machine.execPaceSwitchDone us s
  | .packetHeaderArrival router input pk ecc waited => Sys2Proof.Machine.execPacketHeaderArrival router input pk ecc waited s
  | .rd pk cycle ecc waited => Sys2Proof.Machine.execRd pk cycle ecc waited s
  | .wr pk cycle ecc waited => Sys2Proof.Machine.execWr pk cycle ecc waited s
  | .wra pk cycle ecc waited => Sys2Proof.Machine.execWra pk cycle ecc waited s
  | .rdr pk cycle lat waited => Sys2Proof.Machine.execRdr pk cycle lat waited s
  | .ack pk lat waited => Sys2Proof.Machine.execAck pk lat waited s
  | .msg pk waited => Sys2Proof.Machine.execMsg pk waited s
  | .urgencyAgeing idx => Sys2Proof.Machine.execUrgencyAgeing idx s
  | .deadTargetTimeout t credit => Sys2Proof.Machine.execDeadTargetTimeout t credit s
  | .isolate t => Sys2Proof.Machine.execIsolate t s
  | .readmit t => Sys2Proof.Machine.execReadmit t s
  | .readmitQuietEnd t => Sys2Proof.Machine.execReadmitQuietEnd t s
  | .raceDeadcntClear => Sys2Proof.Machine.execRaceDeadcntClear s
  | .raceEccCeClear => Sys2Proof.Machine.execRaceEccCeClear s
  | .requestTimeout init tag => Sys2Proof.Machine.execRequestTimeout init tag s
  | .statWindowEnd => Sys2Proof.Machine.execStatWindowEnd s
  | .raceStctrlClear => Sys2Proof.Machine.execRaceStctrlClear s
  | .millEccCeClear m => Sys2Proof.Machine.execMillEccCeClear m s
  | .flumeHeldWordSend m port => Sys2Proof.Machine.execFlumeHeldWordSend m port s
  | .levelPortSend m port => Sys2Proof.Machine.execLevelPortSend m port s
  | .landingWordAccept m port illegal cycle => Sys2Proof.Machine.execLandingWordAccept m port illegal cycle s
  | .flumeStallDrain m port => Sys2Proof.Machine.execFlumeStallDrain m port s
  | .drainExit m port => Sys2Proof.Machine.execDrainExit m port s
  | .flumeCellWave q cell illegal => Sys2Proof.Machine.execFlumeCellWave q cell illegal s
  | .fifoWrite q block illegal => Sys2Proof.Machine.execFifoWrite q block illegal s
  | .fifoRead q block ecc => Sys2Proof.Machine.execFifoRead q block ecc s
  | .ramRequest q block illegal ecc => Sys2Proof.Machine.execRamRequest q block illegal ecc s
  | .delayLineInput q block illegal ecc => Sys2Proof.Machine.execDelayLineInput q block illegal ecc s
  | .pinInputWave q pin level => Sys2Proof.Machine.execPinInputWave q pin level s
  | .pinOutputWave q pin illegal cycle => Sys2Proof.Machine.execPinOutputWave q pin illegal cycle s
  | .parityScan q column good => Sys2Proof.Machine.execParityScan q column good s
  | .flmQuiesceWrite value => Sys2Proof.Machine.execFlmQuiesceWrite value s
  | .quiesceComplete q => Sys2Proof.Machine.execQuiesceComplete q s
  | .flmRbdataRead peek => Sys2Proof.Machine.execFlmRbdataRead peek s
  | .flmProbeEnable by_ c value => Sys2Proof.Machine.execFlmProbeEnable by_ c value s
  | .flmCntClear => Sys2Proof.Machine.execFlmCntClear s
  | .flmSlackClear region => Sys2Proof.Machine.execFlmSlackClear region s
  | .flmEccCeClear => Sys2Proof.Machine.execFlmEccCeClear s
  | .releaseOutputs p => Sys2Proof.Machine.execReleaseOutputs p s
  | .releaseWriteEnables p => Sys2Proof.Machine.execReleaseWriteEnables p s
  | .releaseDesignResets p us => Sys2Proof.Machine.execReleaseDesignResets p us s
  | .farportRequestSend m f => Sys2Proof.Machine.execFarportRequestSend m f s
  | .prefetchSend m f => Sys2Proof.Machine.execPrefetchSend m f s
  | .runaheadExpire ch m f line => Sys2Proof.Machine.execRunaheadExpire ch m f line s
  | .interleavedAdmission ch => Sys2Proof.Machine.execInterleavedAdmission ch s
  | .haltDrainEnd p => Sys2Proof.Machine.execHaltDrainEnd p s
  | .farTimeout m f slot => Sys2Proof.Machine.execFarTimeout m f slot s
  | .mportCntClear => Sys2Proof.Machine.execMportCntClear s
  | .spdReadComplete ch modules => Sys2Proof.Machine.execSpdReadComplete ch modules s
  | .ddrcTrain ch => Sys2Proof.Machine.execDdrcTrain ch s
  | .trainingComplete ch fail found ms => Sys2Proof.Machine.execTrainingComplete ch fail found ms s
  | .ddrcOwnWrite ch hi value => Sys2Proof.Machine.execDdrcOwnWrite ch hi value s
  | .refreshDue ch rank now => Sys2Proof.Machine.execRefreshDue ch rank now s
  | .refreshMakeup ch rank n now => Sys2Proof.Machine.execRefreshMakeup ch rank n now s
  | .powerDownEntry ch rank => Sys2Proof.Machine.execPowerDownEntry ch rank s
  | .dramReadComplete ch sub line ecc now closed => Sys2Proof.Machine.execDramReadComplete ch sub line ecc now closed s
  | .patrolScrub ch line ecc => Sys2Proof.Machine.execPatrolScrub ch line ecc s
  | .alertN ch replayed failed => Sys2Proof.Machine.execAlertN ch replayed failed s
  | .ddrcCeClear ch => Sys2Proof.Machine.execDdrcCeClear ch s
  | .spokeCtrlWrite sp value => Sys2Proof.Machine.execSpokeCtrlWrite sp value s
  | .trainingBlockReceive sp lane sync block skew => Sys2Proof.Machine.execTrainingBlockReceive sp lane sync block skew s
  | .laneSlip sp lane => Sys2Proof.Machine.execLaneSlip sp lane s
  | .fomRefresh sp lane fom => Sys2Proof.Machine.execFomRefresh sp lane fom s
  | .spokeLaneDown sp lane => Sys2Proof.Machine.execSpokeLaneDown sp lane s
  | .spokeFrameSend sp => Sys2Proof.Machine.execSpokeFrameSend sp s
  | .spokeFrameReceive sp frame ready => Sys2Proof.Machine.execSpokeFrameReceive sp frame ready s
  | .spokeLateFrame sp => Sys2Proof.Machine.execSpokeLateFrame sp s
  | .spkLatClear sp => Sys2Proof.Machine.execSpkLatClear sp s
  | .systemLineEdge line level cycles => Sys2Proof.Machine.execSystemLineEdge line level cycles s
  | .syncNActed => Sys2Proof.Machine.execSyncNActed s
  | .measurementEnd => Sys2Proof.Machine.execMeasurementEnd s
  | .syncStart high edge => Sys2Proof.Machine.execSyncStart high edge s
  | .haltNActed low edge => Sys2Proof.Machine.execHaltNActed low edge s
  | .haltPulseEnd => Sys2Proof.Machine.execHaltPulseEnd s
  | .cfgDoneRiseActed => Sys2Proof.Machine.execCfgDoneRiseActed s
  | .trigInActed edge => Sys2Proof.Machine.execTrigInActed edge s
  | .trigXActed edge => Sys2Proof.Machine.execTrigXActed edge s
  | .trigXPulseEnd => Sys2Proof.Machine.execTrigXPulseEnd s
  | .govDramInterval ch rank lane m => Sys2Proof.Machine.execGovDramInterval ch rank lane m s
  | .govLaneInterval sp lane tapEnd code => Sys2Proof.Machine.execGovLaneInterval sp lane tapEnd code s
  | .govLaneTrialEnd sp lane => Sys2Proof.Machine.execGovLaneTrialEnd sp lane s
  | .govFlumeWindow q => Sys2Proof.Machine.execGovFlumeWindow q s
  | .govPowerSample rails cycles => Sys2Proof.Machine.execGovPowerSample rails cycles s
  | .govFreeze on => Sys2Proof.Machine.execGovFreeze on s
  | .govVflumeWrite q value => Sys2Proof.Machine.execGovVflumeWrite q value s
  | .regulatorTargetReached rail => Sys2Proof.Machine.execRegulatorTargetReached rail s
  | .stateMismatch unit => Sys2Proof.Machine.execStateMismatch unit s
  | .load src wins => Sys2Proof.Machine.execLoad src wins s
  | .stage src => Sys2Proof.Machine.execStage src s
  | .commit src wins => Sys2Proof.Machine.execCommit src wins s
  | .discard src => Sys2Proof.Machine.execDiscard src s
  | .unload src => Sys2Proof.Machine.execUnload src s
  | .loaderCommandStart ecc us => Sys2Proof.Machine.execLoaderCommandStart ecc us s
  | .loadVerifyPassEnd us => Sys2Proof.Machine.execLoadVerifyPassEnd us s
  | .loadWritePassEnd us => Sys2Proof.Machine.execLoadWritePassEnd us s
  | .emptyReturnComplete p => Sys2Proof.Machine.execEmptyReturnComplete p s
  | .holdDoneWrite hold => Sys2Proof.Machine.execHoldDoneWrite hold s
  | .xspiStreamEnd stream image ms => Sys2Proof.Machine.execXspiStreamEnd stream image ms s
  | .bootHopper ms => Sys2Proof.Machine.execBootHopper ms s
  | .keyWrite who sel => Sys2Proof.Machine.execKeyWrite who sel s
  | .keyZeroise who sel => Sys2Proof.Machine.execKeyZeroise who sel s
  | .keyZeroiseAll who => Sys2Proof.Machine.execKeyZeroiseAll who s
  | .keyRamLoss => Sys2Proof.Machine.execKeyRamLoss s
  | .doorbellPoll => Sys2Proof.Machine.execDoorbellPoll s
  | .pollReturn words sluices err => Sys2Proof.Machine.execPollReturn words sluices err s
  | .descriptorFetchComplete ring descs err => Sys2Proof.Machine.execDescriptorFetchComplete ring descs err s
  | .nopCommand ring => Sys2Proof.Machine.execNopCommand ring s
  | .ringBadOpcode ring => Sys2Proof.Machine.execRingBadOpcode ring s
  | .copyIn ring => Sys2Proof.Machine.execCopyIn ring s
  | .copyOut ring => Sys2Proof.Machine.execCopyOut ring s
  | .copyComplete ring data err ecc => Sys2Proof.Machine.execCopyComplete ring data err ecc s
  | .run ring => Sys2Proof.Machine.execRun ring s
  | .halt ring => Sys2Proof.Machine.execHalt ring s
  | .step ring => Sys2Proof.Machine.execStep ring s
  | .partitionStart p edge => Sys2Proof.Machine.execPartitionStart p edge s
  | .sluiceDrop ring => Sys2Proof.Machine.execSluiceDrop ring s
  | .hostLinkDown => Sys2Proof.Machine.execHostLinkDown s
  | .bar4Access off len data => Sys2Proof.Machine.execBar4Access off len data s
  | .bar2Access off data => Sys2Proof.Machine.execBar2Access off data s
  | .hostWindowCompletion idx data err => Sys2Proof.Machine.execHostWindowCompletion idx data err s
  | .ringEnable n value => Sys2Proof.Machine.execRingEnable n value s
  | .ringEngineEnable en wins => Sys2Proof.Machine.execRingEngineEnable en wins s
  | .sluiceEnable k value => Sys2Proof.Machine.execSluiceEnable k value s
  | .sluiceDisable k => Sys2Proof.Machine.execSluiceDisable k s
  | .sluiceItemAdmit k => Sys2Proof.Machine.execSluiceItemAdmit k s
  | .sluiceRead k => Sys2Proof.Machine.execSluiceRead k s
  | .sluiceHostProduce k desc piece err => Sys2Proof.Machine.execSluiceHostProduce k desc piece err s
  | .sluiceHostDeliver k desc err => Sys2Proof.Machine.execSluiceHostDeliver k desc err s
  | .slcCmdDrop k => Sys2Proof.Machine.execSlcCmdDrop k s
  | .notifyRetry k => Sys2Proof.Machine.execNotifyRetry k s
  | .slcCntClear => Sys2Proof.Machine.execSlcCntClear s
  | .millerInstruction k obs => Sys2Proof.Machine.execMillerInstruction k obs s
  | .amo k f5 wide rd addr src => Sys2Proof.Machine.execAmo k f5 wide rd addr src s
  | .hopperAliasWrite k clear off size data => Sys2Proof.Machine.execHopperAliasWrite k clear off size data s
  | .enqueue k full => Sys2Proof.Machine.execEnqueue k full s
  | .delayTick => Sys2Proof.Machine.execDelayTick s
  | .dispatch pre => Sys2Proof.Machine.execDispatch pre s
  | .itemEnd k => Sys2Proof.Machine.execItemEnd k s
  | .watchdogFirstExpiry k => Sys2Proof.Machine.execWatchdogFirstExpiry k s
  | .millerWatchdog k => Sys2Proof.Machine.execMillerWatchdog k s
  | .watchdogKick k => Sys2Proof.Machine.execWatchdogKick k s
  | .mtimecmpExpiry k => Sys2Proof.Machine.execMtimecmpExpiry k s
  | .msipWrite k value => Sys2Proof.Machine.execMsipWrite k value s
  | .mdflush k addr => Sys2Proof.Machine.execMdflush k addr s
  | .millerRelease k => Sys2Proof.Machine.execMillerRelease k s
  | .bankHandover who bank owner scrub => Sys2Proof.Machine.execBankHandover who bank owner scrub s
  | .handoverComplete bank => Sys2Proof.Machine.execHandoverComplete bank s
  | .hopperTestRegion fail => Sys2Proof.Machine.execHopperTestRegion fail s
  | .put k => Sys2Proof.Machine.execPut k s
  | .get k => Sys2Proof.Machine.execGet k s
  | .poll k => Sys2Proof.Machine.execPoll k s
  | .hopCntClear => Sys2Proof.Machine.execHopCntClear s
  | .schedCntClear => Sys2Proof.Machine.execSchedCntClear s
  | .authOpen who value => Sys2Proof.Machine.execAuthOpen who value s
  | .authResponseSubmit who value => Sys2Proof.Machine.execAuthResponseSubmit who value s
  | .authLockoutEnd port => Sys2Proof.Machine.execAuthLockoutEnd port s
  | .challengeExpiry port => Sys2Proof.Machine.execChallengeExpiry port s
  | .authClose who ended => Sys2Proof.Machine.execAuthClose who ended s
  | .sessionIdleTimeout port => Sys2Proof.Machine.execSessionIdleTimeout port s
  | .tapReset => Sys2Proof.Machine.execTapReset s
  | .dbgHaltreqHalt who p => Sys2Proof.Machine.execDbgHaltreqHalt who p s
  | .dbgHaltreqRun who p => Sys2Proof.Machine.execDbgHaltreqRun who p s
  | .dbgHaltreqStep who p => Sys2Proof.Machine.execDbgHaltreqStep who p s
  | .dbgBreakenWrite who value => Sys2Proof.Machine.execDbgBreakenWrite who value s
  | .dbgRdataRead who sampled => Sys2Proof.Machine.execDbgRdataRead who sampled s
  | .dbgRdataWrite who value env => Sys2Proof.Machine.execDbgRdataWrite who value env s
  | .backdoorAccess who value e => Sys2Proof.Machine.execBackdoorAccess who value e s
  | .srdataRead who => Sys2Proof.Machine.execSrdataRead who s
  | .millerHalt who => Sys2Proof.Machine.execMillerHalt who s
  | .millerResume who => Sys2Proof.Machine.execMillerResume who s
  | .millerStep who => Sys2Proof.Machine.execMillerStep who s
  | .watchUnitEnable who value => Sys2Proof.Machine.execWatchUnitEnable who value s
  | .rearm who => Sys2Proof.Machine.execRearm who s
  | .millerRangeEnable who value => Sys2Proof.Machine.execMillerRangeEnable who value s
  | .captureWordsArrival m => Sys2Proof.Machine.execCaptureWordsArrival m s
  | .captureEnable p value => Sys2Proof.Machine.execCaptureEnable p value s
  | .captureDisable p => Sys2Proof.Machine.execCaptureDisable p s
  | .acqSwtrig parts => Sys2Proof.Machine.execAcqSwtrig parts s
  | .captureChunkPost p ecc => Sys2Proof.Machine.execCaptureChunkPost p ecc s
  | .acqCntClear => Sys2Proof.Machine.execAcqCntClear s
  | .traceEnable who value => Sys2Proof.Machine.execTraceEnable who value s
  | .traceSwTrigger => Sys2Proof.Machine.execTraceSwTrigger s
  | .traceFlush => Sys2Proof.Machine.execTraceFlush s
  | .traceFlushTimeout k => Sys2Proof.Machine.execTraceFlushTimeout k s
  | .traceSyncPeriod => Sys2Proof.Machine.execTraceSyncPeriod s
  | .traceStopped => Sys2Proof.Machine.execTraceStopped s
  | .trcCntClear => Sys2Proof.Machine.execTrcCntClear s
  | .tbStepSubmit who k hi => Sys2Proof.Machine.execTbStepSubmit who k hi s
  | .tbUnanchor who k => Sys2Proof.Machine.execTbUnanchor who k s
  | .tbRateWrite who k value => Sys2Proof.Machine.execTbRateWrite who k value s
  | .pgFire gen => Sys2Proof.Machine.execPgFire gen s
  | .pulseWidthEnd gen => Sys2Proof.Machine.execPulseWidthEnd gen s
  | .tcapEdge idx rising => Sys2Proof.Machine.execTcapEdge idx rising s
  | .ptpRxEventMessage msg => Sys2Proof.Machine.execPtpRxEventMessage msg s
  | .ptpTxEventMessage msg => Sys2Proof.Machine.execPtpTxEventMessage msg s
  | .ptpTspop dir => Sys2Proof.Machine.execPtpTspop dir s
  | .ptpCntClear => Sys2Proof.Machine.execPtpCntClear s
  | .refclkLost => Sys2Proof.Machine.execRefclkLost s
  | .mainShaftUnlock => Sys2Proof.Machine.execMainShaftUnlock s
  | .clockMonitorSample mon freq => Sys2Proof.Machine.execClockMonitorSample mon freq s
  | .clkDdrWrite speed => Sys2Proof.Machine.execClkDdrWrite speed s
  | .powerStateEntry u st => Sys2Proof.Machine.execPowerStateEntry u st s
  | .wakeStart u => Sys2Proof.Machine.execWakeStart u s
  | .accessWake u => Sys2Proof.Machine.execAccessWake u s
  | .wakeComplete u => Sys2Proof.Machine.execWakeComplete u s
  | .pwrForceWrite d value => Sys2Proof.Machine.execPwrForceWrite d value s
  | .pwrWakeTimeout d => Sys2Proof.Machine.execPwrWakeTimeout d s
  | .pwrCntClear => Sys2Proof.Machine.execPwrCntClear s
  | .sensorSample sensor temp => Sys2Proof.Machine.execSensorSample sensor temp s
  | .voltageFault mon mv => Sys2Proof.Machine.execVoltageFault mon mv s
  | .sensPeakClear => Sys2Proof.Machine.execSensPeakClear s
  | .vaonRise => Sys2Proof.Machine.execVaonRise s
  | .resetNAssert => Sys2Proof.Machine.execResetNAssert s
  | .resetNRelease => Sys2Proof.Machine.execResetNRelease s
  | .fuseReadComplete f => Sys2Proof.Machine.execFuseReadComplete f s
  | .pwrOkFall => Sys2Proof.Machine.execPwrOkFall s
  | .rstCtrlCold who => Sys2Proof.Machine.execRstCtrlCold who s
  | .rstCtrlWarm who => Sys2Proof.Machine.execRstCtrlWarm who s
  | .perstNAssert => Sys2Proof.Machine.execPerstNAssert s
  | .hotReset => Sys2Proof.Machine.execHotReset s
  | .functionLevelReset => Sys2Proof.Machine.execFunctionLevelReset s
  | .pinFunctionChange who pin value => Sys2Proof.Machine.execPinFunctionChange who pin value s
  | .gpioOutWrite who oe g mask value => Sys2Proof.Machine.execGpioOutWrite who oe g mask value s
  | .gpioEdge pin rising => Sys2Proof.Machine.execGpioEdge pin rising s
  | .tioBankEnable bank value => Sys2Proof.Machine.execTioBankEnable bank value s
  | .tioModeChange who pin value => Sys2Proof.Machine.execTioModeChange who pin value s
  | .gpioCntClear => Sys2Proof.Machine.execGpioCntClear s
  | .tioCntClear => Sys2Proof.Machine.execTioCntClear s
  | .evtRaise who value => Sys2Proof.Machine.execEvtRaise who value s
  | .evtCntClear => Sys2Proof.Machine.execEvtCntClear s
  | .registerWrite who addr value env => Sys2Proof.Machine.execRegisterWrite who addr value env s
  | .pcieLinkUp speed width inverted reversed msix fmask => Sys2Proof.Machine.execPcieLinkUp speed width inverted reversed msix fmask s
  | .mgmtLinkChange up anDone partner => Sys2Proof.Machine.execMgmtLinkChange up anDone partner s
  | .regulatorTimeout mv => Sys2Proof.Machine.execRegulatorTimeout mv s
  | .slewComplete k => Sys2Proof.Machine.execSlewComplete k s
  | .pwrOkRise slot role => Sys2Proof.Machine.execPwrOkRise slot role s
  | .ddrPhyRelock => Sys2Proof.Machine.execDdrPhyRelock s
  | .registerRead who addr env => Sys2Proof.Machine.execRegisterRead who addr env s
  | .jtagExtest drive => Sys2Proof.Machine.execJtagExtest drive s
  | .loaderSegmentEnd ecc us => Sys2Proof.Machine.execLoaderSegmentEnd ecc us s
  | .mr4RateReport ch rank doubled => Sys2Proof.Machine.execMr4RateReport ch rank doubled s

end Sys2Proof.Machine
end

