-- ==== Sys2Proof/Machine/Step.lean ====
section
/-!
DEFINITION. Machine/Step.lean: one step of the block: the command at the front of its queue, or one control cycle when none waits
(DESIGN CHOICE, log entry 6).
-/
namespace Sys2Proof.Machine

open Sys2Proof

/-- One control cycle with no command: the time bases count (R380), pin sequences advance and edges are flagged (R423, R430), the trace
engine writes (R375), events that wait go onto their ring while it has room (R278, R279), and the uptime counts. -/
def State.idle (s : State) : State :=
  let s := s.tick.pinTick.edgeTick.trcTick.drainEvents 513
  { s with uptime := s.uptime + 1 }

/-- A step. -/
def step (s : State) : Host.Outcome State Fault Refusal :=
  match s.pending with
  | c :: rest => exec c { s with pending := rest }
  | [] => .next s.idle

/-- s with the command a table word spells at the front of its queue: s itself, since no word spells one. -/
def State.withFetchWord (s : State) (nbits w : Nat) : State :=
  match decodeTableWord nbits w with
  | some c => { s with pending := c :: s.pending }
  | none => s

end Sys2Proof.Machine
end

