-- ==== Sys2Proof/Safety.lean ====
section
/-!
DEFINITION. Safety.lean: what the statements call a sound state (the stores the device's memories and registers are kept in have their
canonical form, so that equal contents are equal data), and the words in which they say what a command leaves as it was.
-/
namespace Sys2Proof.Machine

open Sys2Proof

/-- The register store is canonical: addresses rising, no register listed at its value at reset. -/
def State.regsOk (s : State) : Bool := mwf resetWord s.regs

/-- The hopper's bytes and the DRAM's bytes are canonical. -/
def State.memOk (s : State) : Bool := mwf (fun _ => (0 : Byte)) s.hop.mem && mwf dramByte s.dram.mem

/-- A sound state. -/
def State.Sound (s : State) : Prop := s.regsOk = true ∧ s.memOk = true

/-! ## Frames -/

/-- Every register but those listed reads in t as it reads in s. -/
def RegsBut (l : List Nat) (s t : State) : Prop := ∀ a, a ∉ l → t.reg a = s.reg a

/-- t and s differ in nothing but registers: no memory, no queue, no record of the device is another. -/
def OnlyRegs (s t : State) : Prop := { t with regs := s.regs } = s

/-- Every register reads as before. -/
def RegsSame (s t : State) : Prop := ∀ a, t.reg a = s.reg a

/-- The registers in which an event is counted and shown, of the part it names (R454, R455, R450, R279). -/
def evtRegs (code part : Nat) : List Nat :=
  [R.EVT_RAISED, R.EVT_LAST, R.EVT_FIRST, R.EVT_FIRSTTB_LO, R.EVT_FIRSTTB_HI, R.EVT_CLASSCNT (code / 0x1000),
   if part < 4 then R.EVT_PARTCNT part else R.EVT_DEVCNT, R.EVT_MLRCNT, R.EVT_MASKED, R.RING_EVLOST]

/-- t and s differ in nothing but registers, event records and pending causes of the millers. -/
def OnlyEvents (s t : State) : Prop := { t with regs := s.regs, evt := s.evt, mlipend := s.mlipend } = s

/-- From s to t one event was raised (R450): its record is counted, shown, and stands first in the history unless that is frozen. -/
def RaisedOne (s t : State) (code part : Nat) (data : List Nat) : Prop :=
  t.get F.EVT_RAISED_count = (s.get F.EVT_RAISED_count + 1) % 2 ^ 32 ∧ (t.reg R.EVT_LAST).toNat = part * 0x10000 + code ∧
  (s.on F.EVT_CTRL_hist_freeze = false → ∃ r : EvRec, t.evt.hist = (r :: s.evt.hist).take 64 ∧ r.code = code ∧ r.part = part ∧
    r.data = (data ++ [0, 0, 0, 0, 0, 0]).take 6 ∧ r.num = (s.get F.EVT_RAISED_count + 1) % 2 ^ 32)

/-- Of the partitions' records only that of p differs. -/
def OnlyPart (p : Nat) (s t : State) : Prop := ∀ q, q ≠ p → t.part q = s.part q

/-! ## Ring commands -/

/-- The next command of a command ring is d, and it begins: the ring runs, no command of it is in progress, no completion waits for
room, and its fields are those of its op (R276, R279). -/
def State.Begins (s : State) (ring : Nat) (d : BitVec 512) : Prop :=
  s.ringRuns ring = true ∧ (s.ring ring).running = none ∧ (s.ring ring).fetched.head? = some d ∧ (s.ring (ring + 4)).held = [] ∧
    s.cmdFieldsOk d = true

/-- From s to t the command d of a ring, next or in progress, has completed with a status and result (R276, R277, R279): the ring's
count is up by one, and the completion stands in the host's memory, or is held when its ring has no room. -/
def Completed (s t : State) (ring : Nat) (d : BitVec 512) (status result : Nat) : Prop :=
  let count := ((s.ring ring).dev + 1) % 2 ^ 32
  let cpl := ring + 4
  let body := cplBytes (dOp d) (dPart d) s.anchorFlag (dTag d) status count s.tb0 (if dPart d < 4 then s.turns (dPart d) else 0) result
  let a := s.ringAddr cpl (s.ring cpl).dev
  (t.ring ring).running = none ∧ (t.ring ring).dev = count ∧
  (s.ringRoom cpl = true → (t.ring cpl).held = [] ∧ (t.ring cpl).dev = ((s.ring cpl).dev + 1) % 2 ^ 32 ∧
    t.host.writes = ⟨a + 60, natLe 4 (phaseOf (s.ringSize cpl) (s.ring cpl).dev * 2 ^ 31)⟩ :: ⟨a, body⟩ :: s.host.writes) ∧
  (s.ringRoom cpl = false → (t.ring cpl).held = [body] ∧ t.host.writes = s.host.writes)

/-! ## The governor's log -/

/-- Registers in which an adjustment is logged and raised (R236). -/
def govLogRegs : List Nat := [R.GOV_LOGSTAT, R.GOV_ADJCNT] ++ evtRegs 0x0001 0xFF

/-- From s to t one adjustment was logged and GOV_ADJUST raised (R236): its loop, unit and values, under the next sequence number. -/
def LoggedOne (s t : State) (loop unit before after : Nat) : Prop :=
  let q := s.get F.GOV_LOGSTAT_newest
  let seq := if q = 65535 then 1 else q + 1
  let w0 := loop * 2 ^ 28 + unit * 2 ^ 16 + seq
  t.get F.GOV_LOGSTAT_newest = seq ∧ t.get F.GOV_ADJCNT_count = (s.get F.GOV_ADJCNT_count + 1) % 2 ^ F.GOV_ADJCNT_count.width ∧
    t.gov.log = ((w0, before, after, s.tb0 % 2 ^ 32) :: s.gov.log).take 512 ∧ RaisedOne s t 0x0001 0xFF [w0, before, after]

/-! ## Resets -/

/-- Registers that record a reset: the cause, the counts, the history and the bring-up stage (R414). -/
def resetRegs : List Nat := [R.RST_CAUSE, R.RST_COUNT, R.RST_SEQ, R.RST_CTRL, R.RST_PCIECNT] ++ (List.range 8).map R.RST_HIST

/-- From s to t a reset was recorded (R414): its cause and writer, one count up, and the history moved on by one. -/
def NotedReset (s t : State) (cause writer : Nat) : Prop :=
  t.get F.RST_CAUSE_last = cause ∧ t.get F.RST_CAUSE_writer = writer ∧ t.get (F.RST_HIST_cause 0) = cause ∧
    (∀ i, i < 7 → t.reg (R.RST_HIST (i + 1)) = s.reg (R.RST_HIST i)) ∧
    (if cause = 8 then t.get F.RST_COUNT_warm = min (s.get F.RST_COUNT_warm + 1) (2 ^ F.RST_COUNT_warm.width - 1)
     else t.get F.RST_COUNT_cold = min (s.get F.RST_COUNT_cold + 1) (2 ^ F.RST_COUNT_cold.width - 1))

/-- t is s after a cold reset (R410): the KEY block, the RST block and what the board and the fuses give stay, every other register is at its value
at reset; key RAM, pads and what the host has received stay, and everything else is as after reset. No session was open. -/
def ColdReset (s t : State) (cause writer : Nat) : Prop :=
  NotedReset s t cause writer ∧ (∀ a, a ∉ resetRegs → t.reg a = if coldKeeps a then s.reg a else State.reset.reg a) ∧
    { t with regs := [], power := {}, keys := {}, pins := {}, host := {}, uptime := 0, free := 0, pending := [] } = { State.reset with regs := [] } ∧
    t.keys = s.keys ∧ t.pins = { pad := s.pins.pad } ∧ t.host = { writes := s.host.writes, msgs := s.host.msgs } ∧ t.uptime = s.uptime ∧
    t.free = s.free ∧ t.pending = s.pending

/-! ## BPs -/

/-- Nothing of an earlier step of partition p is left to be done at step n: no store error of it waits to be raised (R57), and no vote that
software wrote during a hold waits for the first step after it (R68). -/
def State.Caught (s : State) (p n : Nat) : Prop :=
  ((s.part p).step = n ∨ (s.part p).storeErr = none) ∧ (s.part p).votePend = []

/-- The BPs of mill m execute step n of partition p: the mill is p's, p runs, has its step clock, is in no brake hold, and the step lies
in its turn (R11, R16, R31, R39, R63). -/
def State.Executes (s : State) (m : Mill) (n : Step) (p : Nat) : Prop :=
  s.millOwner m = some p ∧ s.running p = true ∧ s.stepClock = true ∧ s.on (F.TURN_STATUS_holding p) = false ∧ n.val < s.depth p ∧ s.Caught p n

/-- The word of a BP at a step, and the rows it reads, hold no uncorrectable code word (R57, R456). -/
def State.Readable (s : State) (p : Nat) (m : Mill) (st : Stone) (b n : Nat) (rows : List Nat) : Prop :=
  s.wordBad (siteOf m st) b n = false ∧
    ∀ r ∈ rows, (rowStored r && s.rowBad (siteOf m st) (s.part p).bank r n) = false

/-- What an operand field of a BP reads at step n, as a number (R29, R32). -/
def State.bitAt (s : State) (p : Nat) (m : Mill) (st : Stone) (n : Nat) (x : BitVec 18) : Nat :=
  (s.readLane (siteOf m st) (s.part p).bank (rowOf x) (laneOf x) n).toNat

/-- No watch unit of partition p is enabled (R340). -/
def State.Unwatched (s : State) (p : Nat) : Prop := ∀ u, u < 16 → s.on (F.DBG_WCFG_en.sel (watchIdx p u)) = false

/-- A BP op of partition p leaves everything alone but the stones: registers read as before, no other partition changes, and of p
only the step it has reached and the bits tapped for capture; in the stones, instruction words and their errors stay. -/
def BpStill (p : Nat) (s t : State) : Prop :=
  RegsSame s t ∧ { t with regs := s.regs, parts := s.parts, stones := s.stones } = s ∧ (∀ q, q ≠ p → t.part q = s.part q) ∧
    { t.part p with step := (s.part p).step, taps := (s.part p).taps } = s.part p ∧
    t.stones.words = s.stones.words ∧ t.stones.ueWords = s.stones.ueWords ∧ t.stones.tapBit = s.stones.tapBit

/-! ## Millers -/

/-- Core k, in machine mode, untraced, with no debug range, interrupt or wait before it, has the 32-bit instruction i at its pc in the
uncached view of the hopper, and may fetch it there (R296, R298, R315, R347). -/
def State.Fetches (s : State) (k i : Nat) : Prop :=
  let m := s.miller k
  let pc := m.pc.toNat
  s.coreRuns k = true ∧ m.machine = true ∧ m.wfi = false ∧ m.getWait = false ∧ m.stepping = false ∧ s.interruptOf k = none ∧
    s.traced k = false ∧ (∀ n, n < 16 → s.on (F.DBG_MRCFG_en.sel (k * 16 + n)) = false) ∧
    0x10000000 ≤ pc ∧ pc < 0x14000000 ∧ pc % 64 ≤ 60 ∧ s.pmpOk k true pc 2 2 = true ∧ s.pmpOk k true (pc + 2) 2 2 = true ∧
    s.hopBusy (pc % 2 ^ 26) = false ∧ s.hopBad (pc % 2 ^ 26) 4 = false ∧ i = leNat (s.hopRead (pc % 2 ^ 26) 4) ∧ i % 4 = 3

/-- From s to t core k has retired one instruction and goes on at next (R296): instret and cycle count, but where mcountinhibit stops
them, no other CSR changes, and of the core nothing else but its integer registers; no other core changes. -/
def Retired (s t : State) (k cycles : Nat) (next : BitVec 64) : Prop :=
  let stops := s.csrRaw k 0x320
  (t.miller k).pc = next ∧ t.csrRaw k 0xB02 = (if stops.getLsbD 2 then s.csrRaw k 0xB02 else s.csrRaw k 0xB02 + 1) ∧
    t.csrRaw k 0xB00 = (if stops.getLsbD 0 then s.csrRaw k 0xB00 else s.csrRaw k 0xB00 + BitVec.ofNat 64 cycles) ∧
    (∀ c, c ≠ 0xB00 → c ≠ 0xB02 → t.csrRaw k c = s.csrRaw k c) ∧ (t.miller k).lastPc = (s.miller k).pc ∧ (t.miller k).busy = false ∧
    { t.miller k with pc := (s.miller k).pc, x := (s.miller k).x, csr := (s.miller k).csr, lastPc := (s.miller k).lastPc, busy := (s.miller k).busy } = s.miller k ∧
    ∀ j, j ≠ k → t.miller j = s.miller j

/-- Integer register n of core k is v in t (x0 reads 0), and every other one is as in s. -/
def XIs (s t : State) (k n : Nat) (v : BitVec 64) : Prop :=
  t.x k n = (if n = 0 then 0 else v) ∧ ∀ j, j ≠ n → t.x k j = s.x k j

/-- Every byte of the hopper outside off to off + n reads as before. -/
def HopBut (off n : Nat) (s t : State) : Prop :=
  ∀ a, a < off ∨ off + n ≤ a → mget (fun _ => (0 : Byte)) t.hop.mem a = mget (fun _ => 0) s.hop.mem a

/-! ## The loader -/

/-- Every read by which the loader takes n staged bytes at address a of channel c is answered OK: none is lost, the channel serves it at
once, and no line of it holds an uncorrectable error (R95, R105, R219, R248). -/
def State.Answers (s : State) (c a n : Nat) : Prop :=
  s.race.lost = [] ∧ s.cstate c ≠ 7 ∧ ∀ l ∈ linesOf a n, s.busBlocked c (64 * l) 4 = false ∧ s.lineBad c l = false

/-! ## Spokes -/

/-- From s to t spoke sp of a running partition p has had a fault (R196, R197): the spoke is in state 6 and has forgotten its peer, the fault is
counted, recorded and raised, HALT_N is held low, and the partition halts at the end of its turn, with that turn invalid, or only those from the
next on when `later`. -/
def SpokeFaulted (s t : State) (sp p kind lane stamp code : Nat) (later : Bool) : Prop :=
  t.get (F.SPK_STATUS_state sp) = 6 ∧ t.get (F.SPK_ERR_kind sp) = kind ∧ t.get (F.SPK_ERR_lane sp) = lane ∧ (t.spoke sp).peerInfo = [] ∧
    t.get (F.SPK_ERR_count sp) = min (s.get (F.SPK_ERR_count sp) + 1) (2 ^ (F.SPK_ERR_count sp).width - 1) ∧
    t.lines.haltHeld = true ∧ (t.part p).spokeFault = true ∧ (t.part p).causes = (s.part p).causes ||| 2 ^ 6 ∧
    (later = false → (t.part p).invalid = true ∧ (t.part p).invalidToTurn0 = true) ∧
    (later = true → (t.part p).invalid = (s.part p).invalid ∧ (t.part p).invalidFromNext = true) ∧
    RaisedOne s t code p [sp, kind, lane, stamp] ∧ t.spokeRx = s.spokeRx ∧ OnlyPart p s t

/-! ## Debug ports -/

/-- Port `port` may do what needs a level, with what concerns a partition, or none, in its scope (R326). -/
def State.mayDebug (s : State) (who : Requester) (port need : Nat) (part : Option Nat) : Prop :=
  s.dbgPort who = some port ∧ need ≤ s.sessLevel port ∧ s.inScope port part = true

/-- From s to t an operation was refused with a reason (R326): it is counted and raised, and nothing else changes. -/
def DeniedOne (s t : State) (port : Nat) (part : Option Nat) (off reason : Nat) : Prop :=
  t.get F.DBG_DENYCNT_denied = min (s.get F.DBG_DENYCNT_denied + 1) (2 ^ F.DBG_DENYCNT_denied.width - 1) ∧
    RaisedOne s t 0x7005 (part.getD 0xFF) [port, off, reason] ∧
    RegsBut (R.DBG_DENYCNT :: evtRegs 0x7005 (part.getD 0xFF)) s t ∧ OnlyEvents s t

/-- From s to t the session of a port closed for a reason (R330, R331): it is at level NONE, SESSION_CLOSED is raised, its watch units are
disabled and free, and the cores it held are free, run, and have no range enabled; the others' units and cores are as before. -/
def SessionClosed (s t : State) (port reason : Nat) : Prop :=
  t.reg (sessReg port) = 0 ∧ RaisedOne s t 0x7004 0xFF [port, reason] ∧
    (∀ p u, p < 4 → u < 16 → if s.watchOwner p u = port then t.watchOwner p u = 0 ∧ t.get (F.DBG_WCFG_en.sel (watchIdx p u)) = 0
      else t.watchOwner p u = s.watchOwner p u ∧ t.reg (selAddr R.DBG_WCFG (watchIdx p u)) = s.reg (selAddr R.DBG_WCFG (watchIdx p u))) ∧
    (∀ k, k < 32 → if s.coreOwner k = port then t.coreOwner k = 0 ∧ (t.miller k).halted = false ∧
        ∀ n, n ∈ rangesOf k → t.get (F.DBG_MRCFG_en.sel n) = 0
      else t.coreOwner k = s.coreOwner k ∧ t.miller k = s.miller k) ∧
    (∀ p, t.part p = s.part p)

end Sys2Proof.Machine
end

