-- ==== Sys2Proof/WellFormed.lean ====
section
/-!
DEFINITION. WellFormed.lean: which commands the surroundings of the device can give it. The types of the operands bound unit numbers and
widths already; what is left are relations between operands. exec has a meaning for the other commands too.
-/
namespace Sys2Proof

open Sys2Proof.Machine

/-- A packet's header has the command code and its data units are as many as its len says; a request brings data only with a write
(R92, R93). -/
def packetWf (cmd : Nat) (pk : Pkt) : Bool :=
  hcmd pk.hdr == cmd && !hdrMalformed pk.hdr && pk.poison.length == pk.data.length &&
  (if cmd = 1 then pk.data.isEmpty else hlen pk.hdr == pk.data.length)

/-- A requester that is a debug port or machine-mode code (R324, R325). -/
def sessionWf (who : Requester) : Bool :=
  match who with
  | .host => false
  | .handler _ => false
  | _ => true

/-- A register access of one aligned doubleword of the map (R266, R298). -/
def offsetWf (addr : BitVec 26) : Bool := addr.toNat % 4 == 0

def Instr.wf : Instr → Bool
  | .rd pk _ _ _ => packetWf 1 pk
  | .wr pk _ _ _ => packetWf 2 pk
  | .wra pk _ _ _ => packetWf 3 pk
  | .rdr pk _ _ _ => packetWf 4 pk
  | .ack pk _ _ => packetWf 5 pk
  | .msg pk _ => packetWf 6 pk
  | .bar4Access off len _ => decide (1 ≤ len.val) && decide (off.toNat % 64 + len.val ≤ 64)
  | .pcieLinkUp _ width _ _ _ _ => [1, 4, 8, 16].contains width.val
  | .pollReturn words _ err => err.isSome || words.length == 16
  | .amo _ f5 wide _ addr _ => amoCodes.contains f5.val && addr.toNat % (if wide then 8 else 4) == 0
  | .hopperAliasWrite _ _ off size _ => decide (off.toNat % 8 + 2 ^ size.val ≤ 8)
  | .registerWrite _ addr _ _ => offsetWf addr
  | .registerRead _ addr _ => offsetWf addr
  | .authOpen who _ => sessionWf who
  | .authResponseSubmit who _ => sessionWf who
  | .authClose who _ => sessionWf who
  | .jtagExtest drive => drive.all (fun e => decide (e.1 < 384))
  | .spdReadComplete _ modules => decide (modules.length ≤ 2)
  | _ => true

end Sys2Proof
end

