-- ==== Sys2Proof/Certificates/Slice0/Obligations.lean ====
section
/-!
DEFINITION. Certificates/Slice0/Obligations.lean: the statements for the provers.
-/
section

open Sys2Proof Sys2Proof.Machine

/-! ## Stones and BPs -/

/-- R33, R29, R32: EVAL writes the entry of its table that its four operands select into its own lane of step row n, and nothing else. -/
def Obligations.EvalResult : Prop :=
  ∀ (s : State) (p : Nat) (m : Mill) (st : Stone) (b : Bp) (n : Step),
    s.Executes m n p → opOf (s.word (siteOf m st) b n) = 1 → s.Readable p m st b n (rowsOf (s.word (siteOf m st) b n)) →
    let w := s.word (siteOf m st) b n
    let i := 8 * s.bitAt p m st n (opdOf w) + 4 * s.bitAt p m st n (opcOf w) + 2 * s.bitAt p m st n (opbOf w) + s.bitAt p m st n (opaOf w)
    ∃ t, exec (.eval m st b n {}) s = .next t ∧ t.stones.writes = ⟨siteOf m st, n, b, n, (ttOf w).getLsbD i⟩ :: s.stones.writes ∧
      t.stones.rows = s.stones.rows ∧ BpStill p s t

/-- R40, R14, R29: EVAL3_ST writes the entry that three operands select into the lane of the shadow bank that opd names, and nothing else. A NOP without import
writes nothing; a NOP that imports from the crossbar writes lane l of step row n − 4 of the source stone, as it stood after step n − 4 (R36). R42,
R44, R45, R46: FUSE2 and FUSE4 write one result into the lanes of all their members: a FUSE2 pair the entry of the even or the odd half-table as the
fifth input says, a FUSE4 group in six-input mode the entry of the quarter-table that its inputs e and f choose, and in multiplexer mode the operand
field that the select names. R57, R58: a BP whose instruction word is uncorrectable writes nothing, and an operand whose row is uncorrectable reads
0. Either is recorded in MILL_ECC while that shows no error, marks the turn invalid and asks for a halt (reason 6); when the step has ended
STORE_ECC_UNCORRECTABLE is raised with the first error of the turn (which of one BP's operands counts first: log entry 16). -/
def Obligations.ImportStateAndFuse : Prop :=
  (∀ (s : State) (p : Nat) (m : Mill) (st : Stone) (b : Bp) (n : Step),
    let w := s.word (siteOf m st) b n
    let i := 4 * s.bitAt p m st n (opcOf w) + 2 * s.bitAt p m st n (opbOf w) + s.bitAt p m st n (opaOf w)
    let r := physRow (!(s.part p).bank) (rowOf (opdOf w))
    s.Executes m n p → opOf w = 2 → s.Readable p m st b n [rowOf (opaOf w), rowOf (opbOf w), rowOf (opcOf w)] →
    ∃ t, exec (.eval3St m st b n {}) s = .next t ∧
      t.baseRow (siteOf m st) r = setLane (s.baseRow (siteOf m st) r) (laneOf (opdOf w)) ((ttOf w).getLsbD i) ∧
      (∀ k, k ≠ rowKey (siteOf m st) r → mget (fun _ => 0) t.stones.rows k = mget (fun _ => 0) s.stones.rows k) ∧
      t.stones.writes = s.stones.writes ∧ BpStill p s t) ∧
  (∀ (s : State) (p : Nat) (m : Mill) (st : Stone) (b : Bp) (n : Step),
    let w := s.word (siteOf m st) b n
    s.Executes m n p → opOf w = 0 → s.Readable p m st b n [] → (opaOf w).toNat / 2 ^ 16 = 0 →
    ∃ t, exec (.nop m st b n {} {}) s = .next t ∧ t.stones = s.stones ∧ BpStill p s t) ∧
  (∀ (s : State) (p : Nat) (m : Mill) (st : Stone) (b : Bp) (n : Step),
    let w := s.word (siteOf m st) b n
    let src := m.val * 16 + (opaOf w).toNat / 64 % 16
    let l := (opaOf w).toNat % 64
    let v := match s.turnWrite src (n - 4) l (n - 4) with
      | some v => v
      | none => laneBit (s.baseRow src (n - 4)) l
    s.Executes m n p → 4 ≤ n.val → opOf w = 0 → s.Readable p m st b n [] → (opaOf w).toNat / 2 ^ 16 = 1 →
    ∃ t, exec (.nop m st b n {} {}) s = .next t ∧ t.stones.writes = ⟨siteOf m st, n, b, n, v⟩ :: s.stones.writes ∧
      t.stones.rows = s.stones.rows ∧ BpStill p s t) ∧
  (∀ (s : State) (p : Nat) (m : Mill) (st : Stone) (k : Fin 32) (n : Step),
    let site := siteOf m st
    let w0 := s.word site (2 * k) n
    let w1 := s.word site (2 * k + 1) n
    let i := 8 * s.bitAt p m st n (opdOf w0) + 4 * s.bitAt p m st n (opcOf w0) + 2 * s.bitAt p m st n (opbOf w0) + s.bitAt p m st n (opaOf w0)
    let v := if s.bitAt p m st n (opaOf w1) = 1 then (ttOf w1).getLsbD i else (ttOf w0).getLsbD i
    s.Executes m n p → opOf w0 = 3 → opOf w1 = 3 → s.Readable p m st (2 * k) n (rowsOf w0) →
    s.Readable p m st (2 * k + 1) n [rowOf (opaOf w1)] →
    ∃ t, exec (.fuse2 m st k n {}) s = .next t ∧
      t.stones.writes = ⟨site, n, 2 * k + 1, n, v⟩ :: ⟨site, n, 2 * k, n, v⟩ :: s.stones.writes ∧
      t.stones.rows = s.stones.rows ∧ BpStill p s t) ∧
  (∀ (s : State) (p : Nat) (m : Mill) (st : Stone) (k : Fin 16) (n : Step),
    let site := siteOf m st
    let w (j : Nat) := s.word site (4 * k + j) n
    let i := 8 * s.bitAt p m st n (opdOf (w 0)) + 4 * s.bitAt p m st n (opcOf (w 0)) + 2 * s.bitAt p m st n (opbOf (w 0)) +
      s.bitAt p m st n (opaOf (w 0))
    let q := 2 * s.bitAt p m st n (opbOf (w 1)) + s.bitAt p m st n (opaOf (w 1))
    let v := (ttOf (w q)).getLsbD i
    s.Executes m n p → (∀ j, j < 4 → opOf (w j) = 4) → opdOf (w 1) = 0x3803F →
    s.Readable p m st (4 * k) n (rowsOf (w 0)) → s.Readable p m st (4 * k + 1) n [rowOf (opaOf (w 1)), rowOf (opbOf (w 1))] →
    s.Readable p m st (4 * k + 2) n [] → s.Readable p m st (4 * k + 3) n [] →
    ∃ t, exec (.fuse4 m st k n {}) s = .next t ∧
      t.stones.writes = ⟨site, n, 4 * k + 3, n, v⟩ :: ⟨site, n, 4 * k + 2, n, v⟩ :: ⟨site, n, 4 * k + 1, n, v⟩ :: ⟨site, n, 4 * k, n, v⟩ ::
        s.stones.writes ∧
      t.stones.rows = s.stones.rows ∧ BpStill p s t) ∧
  (∀ (s : State) (p : Nat) (m : Mill) (st : Stone) (k : Fin 16) (n : Step),
    let site := siteOf m st
    let w (j : Nat) := s.word site (4 * k + j) n
    let row := (ttOf (w 0)).toNat / 16
    let g := (ttOf (w 0)).toNat % 16
    let lane (j : Nat) : Nat := (s.readLane site (s.part p).bank row (4 * g + j) n).toNat
    let sel := lane 0 + 2 * lane 1 + 4 * lane 2 + 8 * lane 3
    let x := w (sel / 4)
    let f := match sel % 4 with | 0 => opaOf x | 1 => opbOf x | 2 => opcOf x | _ => opdOf x
    let v := s.bitAt p m st n f == 1
    s.Executes m n p → (∀ j, j < 4 → opOf (w j) = 4) → opdOf (w 1) ≠ 0x3803F → s.Readable p m st (4 * k) n (row :: rowsOf (w 0)) →
    (∀ j, j < 4 → s.Readable p m st (4 * k + j) n (rowsOf (w j))) →
    ∃ t, exec (.fuse4 m st k n {}) s = .next t ∧
      t.stones.writes = ⟨site, n, 4 * k + 3, n, v⟩ :: ⟨site, n, 4 * k + 2, n, v⟩ :: ⟨site, n, 4 * k + 1, n, v⟩ :: ⟨site, n, 4 * k, n, v⟩ ::
        s.stones.writes ∧
      t.stones.rows = s.stones.rows ∧ BpStill p s t) ∧
  (∀ (s : State) (p : Nat) (m : Mill) (st : Stone) (b : Bp) (n : Step),
    s.Executes m n p → opOf (s.word (siteOf m st) b n) = 1 → s.wordBad (siteOf m st) b n = true →
    (s.part p).storeErr = none → (s.part p).storeUe = false →
    ∃ t, exec (.eval m st b n {}) s = .next t ∧ t.stones = s.stones ∧ t.get (F.MILL_ECC_ue_flag m) = 1 ∧
      (s.get (F.MILL_ECC_ue_flag m) = 0 → t.get (F.MILL_ECC_ue_where m) = 1 ∧ t.get (F.MILL_ECC_ue_stone m) = st) ∧
      ((t.part p).storeErr.map Prod.snd) = some [m.val, st.val, 1, n.val, b.val, 0] ∧ (t.part p).invalid = true ∧
      (t.part p).causes = (s.part p).causes ||| 2 ^ 6 ∧ RegsBut [R.MILL_ECC m] s t ∧ OnlyPart p s t) ∧
  (∀ (s : State) (p : Nat) (m : Mill) (st : Stone) (b : Bp) (n : Step),
    let site := siteOf m st
    let w := s.word site b n
    let bad (x : BitVec 18) : Bool := rowStored (rowOf x) && s.rowBad site (s.part p).bank (rowOf x) n
    let v (x : BitVec 18) : Nat := if bad x then 0 else s.bitAt p m st n x
    let i := 8 * v (opdOf w) + 4 * v (opcOf w) + 2 * v (opbOf w) + v (opaOf w)
    s.Executes m n p → opOf w = 1 → s.wordBad site b n = false → (bad (opaOf w) || bad (opbOf w) || bad (opcOf w) || bad (opdOf w)) = true →
    ∃ t, exec (.eval m st b n {}) s = .next t ∧ t.stones.writes = ⟨site, n, b, n, (ttOf w).getLsbD i⟩ :: s.stones.writes ∧
      t.stones.rows = s.stones.rows ∧ t.get (F.MILL_ECC_ue_flag m) = 1 ∧ (t.part p).invalid = true ∧
      (t.part p).causes = (s.part p).causes ||| 2 ^ 6 ∧ RegsBut [R.MILL_ECC m] s t ∧ OnlyPart p s t) ∧
  (∀ (s : State) (p : Nat) (m : Mill) (st : Stone) (b : Bp) (n : Step) (e : Nat × List Nat),
    s.millOwner m = some p → s.running p = true → s.stepClock = true → s.on (F.TURN_STATUS_holding p) = false → n.val < s.depth p →
    (s.part p).storeErr = some e → (s.part p).step ≠ n.val → (s.part p).votePend = [] → s.word (siteOf m st) b n = 0 →
    s.wordBad (siteOf m st) b n = false →
    ∃ t, exec (.nop m st b n {} {}) s = .next t ∧ RaisedOne s t 0x3001 p e.2 ∧ (t.part p).storeErr = none ∧ (t.part p).storeUe = true ∧
      t.stones = s.stones ∧ OnlyPart p s t)

/-- R53, R337: a BREAK whose table selects 1, in a partition whose BREAK ops are enabled, writes no lane: it asks for a halt (reason 3), and while the
record register is clear it records its mill, stone, lane and step. A BREAK in a partition whose BREAK ops are disabled has no effect. -/
def Obligations.BreakFires : Prop :=
  (∀ (s : State) (p : Nat) (m : Mill) (st : Stone) (b : Bp) (n : Step),
    let w := s.word (siteOf m st) b n
    let i := 8 * s.bitAt p m st n (opdOf w) + 4 * s.bitAt p m st n (opcOf w) + 2 * s.bitAt p m st n (opbOf w) + s.bitAt p m st n (opaOf w)
    p < 4 → s.Executes m n p → opOf w = 10 → s.Readable p m st b n (rowsOf w) → (s.part p).breakEn = true → (ttOf w).getLsbD i = true →
    s.get (F.DBG_BREAKREC_valid p) = 0 →
    ∃ t, exec (.break_ m st b n {}) s = .next t ∧ t.get (F.DBG_BREAKREC_valid p) = 1 ∧ t.get (F.DBG_BREAKREC_mill p) = m ∧
      t.get (F.DBG_BREAKREC_stone p) = st ∧ t.get (F.DBG_BREAKREC_lane p) = b ∧ t.get (F.DBG_BREAKREC_step p) = n ∧
      (t.part p).causes = (s.part p).causes ||| 2 ^ 3 ∧ RegsBut [R.DBG_BREAKREC p] s t ∧ t.stones = s.stones ∧
      { t with regs := s.regs, parts := s.parts, lines := s.lines } = s) ∧
  (∀ (s : State) (p : Nat) (m : Mill) (st : Stone) (b : Bp) (n : Step),
    let w := s.word (siteOf m st) b n
    s.Executes m n p → opOf w = 10 → s.Readable p m st b n (rowsOf w) → (s.part p).breakEn = false →
    ∃ t, exec (.break_ m st b n {}) s = .next t ∧ t.stones = s.stones ∧ BpStill p s t)

/-! ## Design memory -/

/-- R137, R139, R136, R47: an MRD of mill memory appends to the result buffer of its mill the entry its address word names, as it stands after the MWRs
of earlier steps; an MWR of mill memory records its data, cut to the entry's width, as a write that reads from the next step on find; no byte of any
memory changes before the write enters at the turn's end, and no register does. A WAIT writes the data it waited for into its port rows from bit 0
up, and its status into its own lane of step row n (R48). R144 to R148, R138, R159: an MRD at a far port whose index is in range takes the lowest
free slot, with the stamp of its cycle, and its request, as long as the stride, enters the request queue; an MWR enters its entry, cut to the port's
width, with 0 up to the stride; an index out of range is counted, and reads 0 at once. A WAIT whose slot holds the response writes the entry into
its port rows and its status into its own lane, and frees the slot. A read at a target that is isolated marks the turn invalid and asks for a halt
(reason 6). -/
def Obligations.MillMemoryOps : Prop :=
  (∀ (s : State) (p : Nat) (m : Mill) (st : Stone) (b : Bp) (n : Step) (row lsb : Nat),
    let w := s.word (siteOf m st) b n
    let a := (s.readRow (siteOf m st) (s.part p).bank (rowOf (opaOf w)) n).toNat
    let d := s.desc m (a / 2 ^ 60 % 16)
    s.Executes m n p → opOf w = 5 → s.Readable p m st b n [rowOf (opaOf w)] → (opbOf w).toNat % 4 = 0 →
    d.place (a % 2 ^ 23) = some (row, lsb) →
    ∃ t, exec (.mrd m st b n {} {}) s = .next t ∧
      t.dm.results = s.dm.results ++
        [⟨a % 2 ^ 23, m, st, b, n, d.width, getBits (s.mmRow m row n) lsb d.width, s.mmBadBits m row lsb d.width n, row⟩] ∧
      { t.dm with results := s.dm.results } = s.dm ∧ RegsSame s t ∧ (∀ q, q ≠ p → t.part q = s.part q) ∧
      { t with regs := s.regs, parts := s.parts, dm := s.dm } = s) ∧
  (∀ (s : State) (p : Nat) (m : Mill) (st : Stone) (b : Bp) (n : Step) (row lsb : Nat),
    let w := s.word (siteOf m st) b n
    let a := (s.readRow (siteOf m st) (s.part p).bank (rowOf (opaOf w)) n).toNat
    let d := s.desc m (a / 2 ^ 60 % 16)
    let r := rowOf (opbOf w)
    let count := (opcOf w).toNat % 8 + 1
    let data := (List.range count).foldr (fun i acc => (s.readRow (siteOf m st) (s.part p).bank (r + i) n).toNat + 2 ^ 64 * acc) 0
    s.Executes m n p → opOf w = 6 → s.Readable p m st b n (rowOf (opaOf w) :: (List.range count).map (r + ·)) → (opdOf w).toNat % 4 = 0 →
    d.place (a % 2 ^ 23) = some (row, lsb) → s.Unwatched p →
    ∃ t, exec (.mwr m st b n {} {}) s = .next t ∧
      t.dm.writes = ⟨m, row, lsb, d.width, n + 1, getBits (BitVec.ofNat 512 data) 0 d.width⟩ :: s.dm.writes ∧
      { t.dm with writes := s.dm.writes } = s.dm ∧ RegsSame s t ∧ (∀ q, q ≠ p → t.part q = s.part q) ∧
      { t with regs := s.regs, parts := s.parts, dm := s.dm } = s) ∧
  (∀ (s : State) (p : Nat) (m : Mill) (st : Stone) (b : Bp) (n : Step) (x : MmResult),
    let w := s.word (siteOf m st) b n
    let site := siteOf m st
    let count := (opbOf w).toNat % 8 + 1
    let row := rowOf (opdOf w)
    s.Executes m n p → opOf w = 7 → s.Readable p m st b n [] → (opbOf (s.word site (laneOf (opaOf w)) (rowOf (opaOf w)))).toNat % 4 = 0 →
    s.dm.results.find? (fun x => x.mill == m.val && x.stone == st.val && x.bp == laneOf (opaOf w) && x.step == rowOf (opaOf w)) = some x →
    x.ue = false → 0xF00 ≤ row → s.Unwatched p →
    ∃ t, exec (.wait m st b n {}) s = .next t ∧
      (∀ i l, i < count → l < 64 → t.turnWrite site (row + i) l n = some (x.data.toNat.testBit (64 * i + l))) ∧
      t.turnWrite site n b n = some true ∧ t.dm.results = s.dm.results.erase x ∧ { t.dm with results := s.dm.results } = s.dm ∧
      t.stones.rows = s.stones.rows ∧ t.stones.words = s.stones.words ∧ RegsSame s t ∧ (∀ q, q ≠ p → t.part q = s.part q) ∧
      { t with regs := s.regs, parts := s.parts, stones := s.stones, dm := s.dm } = s) ∧
  (∀ (s : State) (p : Nat) (m : Mill) (st : Stone) (b : Bp) (n : Step) (x : MmResult),
    let w := s.word (siteOf m st) b n
    let site := siteOf m st
    let count := (opbOf w).toNat % 8 + 1
    let row := rowOf (opdOf w)
    s.Executes m n p → opOf w = 7 → s.Readable p m st b n [] → (opbOf (s.word site (laneOf (opaOf w)) (rowOf (opaOf w)))).toNat % 4 = 0 →
    s.dm.results.find? (fun x => x.mill == m.val && x.stone == st.val && x.bp == laneOf (opaOf w) && x.step == rowOf (opaOf w)) = some x →
    x.ue = true → 0xF00 ≤ row → s.Unwatched p →
    ∃ t, exec (.wait m st b n {}) s = .next t ∧
      (∀ i l, i < count → l < 64 → t.turnWrite site (row + i) l n = some (x.data.toNat.testBit (64 * i + l))) ∧
      t.turnWrite site n b n = some false ∧ t.get F.MPORT_ERR_flag = 1 ∧ (s.get F.MPORT_ERR_flag = 0 → t.get F.MPORT_ERR_kind = 5) ∧
      RaisedOne s t 0x3002 p [x.mill, x.row, x.step] ∧ (t.part p).invalid = true ∧ (t.part p).causes = (s.part p).causes ||| 2 ^ 6 ∧
      RegsBut (R.MPORT_ERR :: evtRegs 0x3002 p) s t ∧ OnlyPart p s t) ∧
  (∀ (s : State) (p : Nat) (m : Mill) (st : Stone) (b : Bp) (n : Step) (f : Fin 2) (j : Nat),
    let w := s.word (siteOf m st) b n
    let id := 2 * m.val + f.val
    let i := (s.readRow (siteOf m st) (s.part p).bank (rowOf (opaOf w)) n).toNat % 2 ^ 40
    let cyc := s.cycleOf p n
    let r := (s.dest id i).1
    let a := (s.dest id i).2
    let dead := s.isolated (targetKey true r)
    s.Executes m n p → opOf w = 5 → s.Readable p m st b n [rowOf (opaOf w)] → (opbOf w).toNat % 4 = f.val + 1 → s.fpKind id ≠ 0 →
    s.freeSlot id = some j → s.fpOut id i s.hostSize = false → (s.farPort id).reqs.length < 32 → s.on (F.MPORT_BIND_stream.sel id) = false →
    ∃ t, exec (.mrd m st b n {} {}) s = .next t ∧
      t.slot id j = ⟨true, false, false, false, st, b, n, stampOf cyc, cyc, a % 16, i, targetKey true r, 0⟩ ∧
      (t.farPort id).reqs = (s.farPort id).reqs ++ [⟨false, a / 16 * 16, (s.fpStride id + 15) / 16, 0, 2, stampOf cyc, j, i, [], dead⟩] ∧
      (∀ k, k ≠ id → t.farPort k = s.farPort k) ∧ RegsSame s t ∧ OnlyPart p s t ∧ t.dm.mem = s.dm.mem ∧ t.stones = s.stones ∧
      (dead = true → (t.part p).invalid = true ∧ (t.part p).causes = (s.part p).causes ||| 2 ^ 6) ∧
      (dead = false → (t.part p).invalid = (s.part p).invalid ∧ (t.part p).causes = (s.part p).causes)) ∧
  (∀ (s : State) (p : Nat) (m : Mill) (st : Stone) (b : Bp) (n : Step) (f : Fin 2) (j : Nat),
    let w := s.word (siteOf m st) b n
    let id := 2 * m.val + f.val
    let i := (s.readRow (siteOf m st) (s.part p).bank (rowOf (opaOf w)) n).toNat % 2 ^ 40
    s.Executes m n p → opOf w = 5 → s.Readable p m st b n [rowOf (opaOf w)] → (opbOf w).toNat % 4 = f.val + 1 → s.fpKind id ≠ 0 →
    s.freeSlot id = some j → s.fpOut id i s.hostSize = true →
    ∃ t, exec (.mrd m st b n {} {}) s = .next t ∧ (t.slot id j).done = true ∧ (t.slot id j).ok = true ∧ (t.slot id j).data = 0 ∧
      (t.farPort id).reqs = (s.farPort id).reqs ∧
      t.get F.MPORT_RANGE_count = min (s.get F.MPORT_RANGE_count + 1) (2 ^ F.MPORT_RANGE_count.width - 1) ∧
      RegsBut [R.MPORT_RANGE] s t ∧ OnlyPart p s t ∧ (t.part p).causes = (s.part p).causes) ∧
  (∀ (s : State) (p : Nat) (m : Mill) (st : Stone) (b : Bp) (n : Step) (f : Fin 2),
    let w := s.word (siteOf m st) b n
    let id := 2 * m.val + f.val
    let i := (s.readRow (siteOf m st) (s.part p).bank (rowOf (opaOf w)) n).toNat % 2 ^ 40
    let r := rowOf (opbOf w)
    let count := (opcOf w).toNat % 8 + 1
    let v := (List.range count).foldr (fun k acc => (s.readRow (siteOf m st) (s.part p).bank (r + k) n).toNat + 2 ^ 64 * acc) 0
    let a := (s.dest id i).2
    let dead := s.isolated (targetKey true (s.dest id i).1)
    s.Executes m n p → opOf w = 6 → s.Readable p m st b n (rowOf (opaOf w) :: (List.range count).map (r + ·)) →
    (opdOf w).toNat % 4 = f.val + 1 → s.fpKind id ≠ 0 → s.fpOut id i s.hostSize = false → (s.farPort id).reqs.length < 32 → s.Unwatched p →
    let len := (s.fpStride id + 15) / 16
    let data := unitBytes (unitsOf (a % 16) (s.fpStride id) (getBits (BitVec.ofNat 512 v) 0 (s.fpWidth id)))
    ∃ t, exec (.mwr m st b n {} {}) s = .next t ∧
      (t.farPort id).reqs = (s.farPort id).reqs ++
        [⟨true, a, len, 16 * len - a % 16 - s.fpStride id, 1, stampOf (s.cycleOf p n), 0, i, data, dead⟩] ∧
      (t.farPort id).slots = (s.farPort id).slots ∧
      (∀ k, k ≠ id → t.farPort k = s.farPort k) ∧ RegsSame s t ∧ OnlyPart p s t ∧ t.dm.mem = s.dm.mem ∧ t.dm.writes = s.dm.writes ∧
      (dead = true → (t.part p).invalid = true ∧ (t.part p).causes = (s.part p).causes ||| 2 ^ 6)) ∧
  (∀ (s : State) (p : Nat) (m : Mill) (st : Stone) (b : Bp) (n : Step) (f : Fin 2) (j : Nat),
    let w := s.word (siteOf m st) b n
    let site := siteOf m st
    let id := 2 * m.val + f.val
    let count := (opbOf w).toNat % 8 + 1
    let row := rowOf (opdOf w)
    let v := getBits (s.slot id j).data 0 (s.fpWidth id)
    s.Executes m n p → opOf w = 7 → s.Readable p m st b n [] → (opbOf (s.word site (laneOf (opaOf w)) (rowOf (opaOf w)))).toNat % 4 = f.val + 1 →
    s.slotOf id st (laneOf (opaOf w)) (rowOf (opaOf w)) = some j → (s.slot id j).done = true → s.atLimit p n = false → 0xF00 ≤ row →
    s.Unwatched p →
    ∃ t, exec (.wait m st b n {}) s = .next t ∧
      (∀ i l, i < count → l < 64 → t.turnWrite site (row + i) l n = some (v.toNat.testBit (64 * i + l))) ∧
      t.turnWrite site n b n = some (s.slot id j).ok ∧ t.slot id j = {} ∧ (∀ k, k ≠ j → t.slot id k = s.slot id k) ∧
      (∀ k, k ≠ id → t.farPort k = s.farPort k) ∧ t.stones.rows = s.stones.rows ∧ RegsSame s t ∧ OnlyPart p s t)

/-! ## Launch and landing ports -/

/-- R50, R51: LAUNCH drives its launch bit with operand A; a bit that no fire-mode port claims changes nothing else. LAND copies the landing bit as it
stands into a lane of its landing row and into its own lane of step row n; a bit that no landing port claims changes nothing else. -/
def Obligations.LaunchAndLand : Prop :=
  (∀ (s : State) (p : Nat) (m : Mill) (st : Stone) (b : Bp) (n : Step) (pads : List Nat),
    let w := s.word (siteOf m st) b n
    let l := laneOf (opdOf w)
    s.Executes m n p → opOf w = 8 → s.Readable p m st b n [rowOf (opaOf w)] →
    (∀ j, j < 8 → ¬(s.portMode m 0 j = 1 ∧ (s.launchPort m j).bits.getLsbD l = true)) →
    ∃ t, exec (.launch m st b n {} pads) s = .next t ∧ t.launchRow m = setLane (s.launchRow m) l (s.bitAt p m st n (opaOf w) == 1) ∧
      (∀ k, k ≠ m.val → t.launchRow k = s.launchRow k) ∧ { t.flume with launchBits := s.flume.launchBits } = s.flume ∧ RegsSame s t ∧
      (∀ q, q ≠ p → t.part q = s.part q) ∧ { t with regs := s.regs, parts := s.parts, flume := s.flume } = s) ∧
  (∀ (s : State) (p : Nat) (m : Mill) (st : Stone) (b : Bp) (n : Step),
    let w := s.word (siteOf m st) b n
    let v := (s.landRow m).getLsbD (laneOf (opaOf w))
    s.Executes m n p → opOf w = 9 → s.Readable p m st b n [] → s.landOwner m (laneOf (opaOf w)) = none →
    ∃ t, exec (.land m st b n {}) s = .next t ∧
      t.stones.writes = ⟨siteOf m st, n, b, n, v⟩ :: ⟨siteOf m st, rowOf (opdOf w), laneOf (opdOf w), n, v⟩ :: s.stones.writes ∧
      t.stones.rows = s.stones.rows ∧ BpStill p s t)

/-- R114, R115, R124: a fire-mode port that holds a word sends it as soon as its region is idle, and so do, when their bits differ from the last word
they sent, the level-mode ports of a region: the word is the last the port sent, it holds none, and its word count is up by one. A port that leaves
drain is in drain no more. R116, R119, R122, R124: the word on a landing port's nets, complete while its fabric runs, enters the port's bits of the
landing register and is accepted, in held mode (1) as in stream mode (2, 3); the other bits of the register stay. A port that owes an
acknowledgement discards it. A port whose step clock has stopped for longer than the time-out enters drain and discards the word it held back. -/
def Obligations.LaunchAndLandingPorts : Prop :=
  (∀ (s : State) (m : Mill) (j : Fin 8) (w : Row),
    let r := s.portRegion m 0 j
    (s.launchPort m j).held = some w → s.regionIdle r = true →
    ∃ t, exec (.flumeHeldWordSend m j) s = .next t ∧ (t.launchPort m j).held = none ∧ (t.launchPort m j).last = w ∧
      (t.launchPort m j).bits = (s.launchPort m j).bits ∧
      t.get (F.FLM_PORTSTAT_words.sel (portIdx m 0 j)) = (s.get (F.FLM_PORTSTAT_words.sel (portIdx m 0 j)) + 1) % 2 ^ 16 ∧
      RegsBut [selAddr R.FLM_PORTSTAT (portIdx m 0 j)] s t ∧ t.flume.launchBits = s.flume.launchBits ∧ t.flume.landBits = s.flume.landBits ∧
      t.flume.regions = s.flume.regions ∧ t.flume.cells = s.flume.cells ∧ { t with regs := s.regs, flume := s.flume } = s) ∧
  (∀ (s : State) (m : Mill) (j : Fin 8),
    let r := s.portRegion m 0 j
    s.levelDue m j = true → s.rstage (quadOfMill m) r = 3 → s.quiescing (quadOfMill m) = false → s.regionIdle r = true →
    m.val * 8 + j.val ∈ (s.region r).launches →
    ∃ t, exec (.levelPortSend m j) s = .next t ∧
      (∀ k, k ∈ (s.region r).launches → s.levelDue (k / 8) (k % 8) = true →
        (t.launchPort (k / 8) (k % 8)).last = s.launchWord (k / 8) (k % 8) ∧ (t.launchPort (k / 8) (k % 8)).held = none) ∧
      ((s.region r).launches = [m.val * 8 + j.val] →
        t.get (F.FLM_PORTSTAT_words.sel (portIdx m 0 j)) = (s.get (F.FLM_PORTSTAT_words.sel (portIdx m 0 j)) + 1) % 2 ^ 16) ∧
      RegsBut ((s.region r).launches.map (fun k => selAddr R.FLM_PORTSTAT (portIdx (k / 8) 0 (k % 8)))) s t ∧
      t.flume.launchBits = s.flume.launchBits ∧ t.flume.landBits = s.flume.landBits ∧ t.flume.regions = s.flume.regions ∧
      t.flume.cells = s.flume.cells ∧ { t with regs := s.regs, flume := s.flume } = s) ∧
  (∀ (s : State) (m : Mill) (j : Fin 8),
    ∃ t, exec (.drainExit m j) s = .next t ∧ t.landPort m j = { s.landPort m j with drain := false } ∧
      (∀ k i, i < 8 → (k, i) ≠ (m.val, j.val) → t.landPort k i = s.landPort k i) ∧
      { t.flume with land := s.flume.land } = s.flume ∧ { t with flume := s.flume } = s) ∧
  (∀ (s : State) (m : Mill) (j : Fin 8) (c : Nat),
    let r := s.portRegion m 1 j
    let x := s.landPort m j
    let w := s.landWord m j 0
    s.portMode m 1 j ≠ 0 → s.rstage (quadOfMill m) r = 3 → s.wordAt m j 0 = true → x.accepted = false → x.drain = false → x.owes = false →
    ∃ t, exec (.landingWordAccept m j 0 c) s = .next t ∧ t.landRow m = (s.landRow m &&& ~~~x.bits) ||| (w &&& x.bits) ∧
      (t.landPort m j).accepted = true ∧ (t.landPort m j).takenAt = none ∧ (∀ k, k ≠ m.val → t.landRow k = s.landRow k) ∧
      (t.region r).awaiting = (s.region r).awaiting.filter (· != m.val * 8 + j.val) ∧
      t.get (F.FLM_PORTSTAT_words.sel (portIdx m 1 j)) = (s.get (F.FLM_PORTSTAT_words.sel (portIdx m 1 j)) + 1) % 2 ^ 16 ∧
      RegsBut [selAddr R.FLM_PORTSTAT (portIdx m 1 j)] s t ∧ { t with regs := s.regs, flume := s.flume } = s) ∧
  (∀ (s : State) (m : Mill) (j : Fin 8) (c : Nat),
    let r := s.portRegion m 1 j
    let x := s.landPort m j
    s.portMode m 1 j = 1 → s.rstage (quadOfMill m) r = 3 → s.wordAt m j 0 = true → x.accepted = false → x.drain = false → x.owes = true →
    ∃ t, exec (.landingWordAccept m j 0 c) s = .next t ∧ t.flume.landBits = s.flume.landBits ∧ (t.landPort m j).owes = false ∧
      (t.landPort m j).accepted = false ∧ RegsBut [selAddr R.FLM_PORTSTAT (portIdx m 1 j)] s t ∧ { t with regs := s.regs, flume := s.flume } = s) ∧
  (∀ (s : State) (m : Mill) (j : Fin 8),
    s.get F.FLM_STALLTO_timeout ≠ 0 → (s.landPort m j).drain = false → s.portMode m 1 j ≠ 0 → s.wordAt m j 0 = true →
    (s.portMode m 1 j = 1 → (s.landPort m j).accepted = false) → s.draining (quadOfMill m) = true →
    ∃ t, exec (.flumeStallDrain m j) s = .next t ∧ (t.landPort m j).drain = true ∧ (t.landPort m j).owes = false ∧
      t.get F.FLM_DROPCNT_stall_drops = min (s.get F.FLM_DROPCNT_stall_drops + 1) (2 ^ F.FLM_DROPCNT_stall_drops.width - 1) ∧
      RegsBut [R.FLM_DROPCNT] s t ∧ t.flume.landBits = s.flume.landBits ∧ { t with regs := s.regs, flume := s.flume } = s)

/-! ## Turns, brakes, partitions -/

/-- R22, R14, R77, R387, R23, R338: the end of a turn of a single-module partition whose turn clear is not written. The shadow bank becomes the
committed one, the turn's writes leave the list of writes that have not entered, TB1 counts the turn, its validity is shown, and its quanta are
counted; a partition that no halt reason stops goes on to its next turn, one with a reason stops there and records the highest. -/
def Obligations.TurnEnds : Prop :=
  (∀ (s : State) (p : Part),
    let x := s.part p
    let valid := !(x.invalid || x.invalidToHalt || x.invalidToTurn0 || x.invalidToLoad)
    s.running p = true → s.multi p = false → x.causes = 0 → x.storeErr = none → x.votePend = [] → s.on (F.ACQ_P_CTRL_en p) = false →
    s.get64 (R.DBG_RUNLEFT_LO p) (R.DBG_RUNLEFT_HI p) = 0 → s.on (F.TURN_CTRL_clear p) = false →
    ∃ t, exec (.turnEnd p) s = .next t ∧ t.turns p = (s.turns p + 1) % 2 ^ 64 ∧ t.running p = true ∧
      t.on (F.TURN_STATUS_last_valid p) = valid ∧ t.on (F.TB1_STATUS_last_valid p) = valid ∧
      t.get64 (R.TURN_QUANTA_LO p) (R.TURN_QUANTA_HI p) = (s.get64 (R.TURN_QUANTA_LO p) (R.TURN_QUANTA_HI p) + x.quanta) % 2 ^ 64 ∧
      (t.part p).bank = !x.bank ∧ (t.part p).turnBase = x.turnBase + s.depth p + 32 * x.quanta ∧ (t.part p).quanta = 0 ∧
      (t.part p).turn0 = false ∧ (t.part p).invalid = false ∧
      t.stones.writes = s.stones.writes.filter (fun w => !s.ownsQuad p (w.site / 16 / 64)) ∧ OnlyPart p s t ∧
      RegsBut ([R.TURN_COUNT_LO p, R.TURN_COUNT_HI p, R.TURN_QUANTA_LO p, R.TURN_QUANTA_HI p, R.TURN_LASTBRAKE p, R.TURN_STATUS p, R.TB1_STATUS p]
        ++ (List.range 7).map (R.TURN_CAUSE p)) s t ∧
      { t with regs := s.regs, parts := s.parts, stones := s.stones, dm := s.dm, spokeRx := s.spokeRx } = s) ∧
  (∀ (s : State) (p : Part) (r : Nat),
    let x := s.part p
    s.running p = true → s.multi p = false → x.storeErr = none → x.votePend = [] → s.on (F.ACQ_P_CTRL_en p) = false → x.waiters = [] →
    s.get64 (R.DBG_RUNLEFT_LO p) (R.DBG_RUNLEFT_HI p) = 0 → s.on (F.TURN_CTRL_clear p) = false →
    r < 16 → x.causes.testBit r = true → (∀ k, k < 16 → r < k → x.causes.testBit k = false) →
    ∃ t, exec (.turnEnd p) s = .next t ∧ t.turns p = (s.turns p + 1) % 2 ^ 64 ∧ t.pstate p = 4 ∧ t.get (F.PART_STATE_halt_reason p) = r ∧
      t.get (F.DBG_HALTCAUSE_turn p) = x.causeTurn % 2 ^ 16 ∧ (t.part p).bank = !x.bank ∧ (t.part p).causes = 0 ∧ OnlyPart p s t ∧
      { t with regs := s.regs, parts := s.parts, stones := s.stones, dm := s.dm, spokeRx := s.spokeRx, gov := s.gov, evt := s.evt, mlipend := s.mlipend } = s ∧
      (s.railsHeld = true → (t.reg R.EVT_LAST).toNat = p * 0x10000 + 0x2004 ∧ t.gov = s.gov)) ∧
  (∀ (s : State) (p : Part), s.running p = false → exec (.turnEnd p) s = .next s)

/-- R17, R68, R71, R72: the check of a WAIT of a far port whose read is not in the response queue votes round 0 for the WAIT's step, with cause FAR or
SLUICE as the port's window says, and is repeated; a repeated check that fails votes the next round, one that passes ends the checking. A SOFTWARE
vote of n quanta is rounds 0 to n − 1 for the step K steps on; one written during a hold votes at the first step after it, and one of a partition
that does not run is ignored. A POWER vote is one round. A vote of a round that takes effect is one quantum: the quanta of the turn count up by one,
and the status shows the causes; the end of the quantum clears it. R74: once brake_limit quanta have been held before a step, a round that takes
effect for it is not held: the round and every later vote for the step are ignored, BRAKE_LIMIT is raised, the turn is invalid, and the partition
owes a halt for an invalid turn (reason 6). -/
def Obligations.BrakesAndLimits : Prop :=
  (∀ (s : State) (m : Mill) (st : Stone) (b : Bp) (n : Step) (p : Nat),
    let next := decide (n.val < s.horizon p)
    let w := s.word (siteOf m st) b n
    let k := (opbOf (s.word (siteOf m st) (laneOf (opaOf w)) (rowOf (opaOf w)))).toNat % 4
    let id := 2 * m.val + (k - 1)
    let c := if s.fpKind id = 2 then 1 else 0
    let o := s.cycleOf p (if next then s.depth p + n.val - s.horizon p else n.val - s.horizon p)
    s.millOwner m = some p → s.running p = true → s.multi p = false → opOf w = 7 → (k = 1 ∨ k = 2) →
    (∀ j, s.slotOf id st (laneOf (opaOf w)) (rowOf (opaOf w)) = some j → (s.slot id j).done = false) →
    (next = true ∨ n.val ∉ (s.part p).limitSteps) →
    ∃ t, exec (.brakeCheck m st b n next) s = .next t ∧
      t.part p = { s.part p with votes := (s.part p).votes ++ [{ hold := n, next := next, round := 0, cause := c }],
                                 rechecks := (s.part p).rechecks ++ [⟨n, next, 0, c, o, (m.val * 16 + st.val) * 64 + b.val⟩] } ∧
      OnlyPart p s t ∧ { t with parts := s.parts } = s) ∧
  (∀ (s : State) (m : Mill) (st : Stone) (b : Bp) (n : Step) (p : Nat) (r : Recheck),
    let w := s.word (siteOf m st) b n
    let k := (opbOf (s.word (siteOf m st) (laneOf (opaOf w)) (rowOf (opaOf w)))).toNat % 4
    let id := 2 * m.val + (k - 1)
    let c := if s.fpKind id = 2 then 1 else 0
    let rest := (s.part p).rechecks.erase r
    s.millOwner m = some p → s.running p = true → s.multi p = false → opOf w = 7 → (k = 1 ∨ k = 2) →
    (s.part p).rechecks.find? (fun r => r.ref == (m.val * 16 + st.val) * 64 + b.val && r.hold == n.val) = some r →
    (r.next = true ∨ r.hold ∉ (s.part p).limitSteps) →
    ∃ t, exec (.brakeRecheck m st b n) s = .next t ∧ OnlyPart p s t ∧ { t with parts := s.parts } = s ∧
      ((∀ j, s.slotOf id st (laneOf (opaOf w)) (rowOf (opaOf w)) = some j → (s.slot id j).done = false) →
        t.part p = { s.part p with votes := (s.part p).votes ++ [{ hold := r.hold, next := r.next, round := r.round + 1, cause := c }],
                                   rechecks := rest ++ [{ r with round := r.round + 1, cause := c }] }) ∧
      (∀ j, s.slotOf id st (laneOf (opaOf w)) (rowOf (opaOf w)) = some j → (s.slot id j).done = true →
        t.part p = { s.part p with rechecks := rest })) ∧
  (∀ (s : State) (p : Part) (quanta : BitVec 8) (n : Step),
    let h := n.val + s.horizon p
    let hold := if h < s.depth p then h else h - s.depth p
    s.running p = true → s.multi p = false → (s.part p).limitSteps = [] → s.on (F.TURN_STATUS_holding p) = false →
    ∃ t, exec (.partVote p quanta n) s = .next t ∧
      t.part p = { s.part p with votes := (s.part p).votes ++
        (List.range quanta.toNat).map (fun i => { hold := hold, next := !decide (h < s.depth p), round := i, cause := 6 }) } ∧
      OnlyPart p s t ∧ { t with parts := s.parts } = s) ∧
  (∀ (s : State) (p : Part) (quanta : BitVec 8) (n : Step),
    s.running p = true → s.on (F.TURN_STATUS_holding p) = true →
    ∃ t, exec (.partVote p quanta n) s = .next t ∧
      t.part p = { s.part p with votePend := (s.part p).votePend ++ [(quanta.toNat, (s.part p).hold)] } ∧
      OnlyPart p s t ∧ { t with parts := s.parts } = s) ∧
  (∀ (s : State) (p : Part) (quanta : BitVec 8) (n : Step), s.running p = false → exec (.partVote p quanta n) s = .next s) ∧
  (∀ (s : State) (p : Part) (n : Step),
    let h := n.val + s.horizon p
    let hold := if h < s.depth p then h else h - s.depth p
    let k := mget (fun _ => 0) s.gov.credit p + s.get F.GOV_CAPSTAT_h * (s.cycleOf p n - mget (fun _ => 0) s.gov.creditAt p)
    s.running p = true → s.multi p = false → (s.part p).limitSteps = [] → 32 * 1024 ≤ k →
    ∃ t, exec (.powerVote p n) s = .next t ∧
      t.part p = { s.part p with votes := (s.part p).votes ++ [{ hold := hold, next := !decide (h < s.depth p), round := 0, cause := 4 }] } ∧
      mget (fun _ => 0) t.gov.credit p = k - 32 * 1024 ∧ OnlyPart p s t ∧ { t with parts := s.parts, gov := s.gov } = s) ∧
  (∀ (s : State) (p : Part) (hold : Step) (round : Nat),
    let x := s.part p
    let vs := x.votes.filter (fun v => !v.next && v.hold == hold.val && v.round == round)
    let limit := s.get (F.TURN_CTRL_brake_limit p)
    s.running p = true → x.votePend = [] → vs ≠ [] → (limit = 0 ∨ (if x.hold = hold.val then x.served else 0) < limit) →
    ∃ t, exec (.voteTakesEffect p hold round) s = .next t ∧ (t.part p).quanta = x.quanta + 1 ∧ (t.part p).hold = hold.val ∧
      (t.part p).served = (if x.served ≠ 0 ∧ x.hold = hold.val then x.served + 1 else 1) ∧
      (t.part p).votes = x.votes.filter (fun v => !(!v.next && v.hold == hold.val && v.round == round)) ∧
      t.get (F.TURN_STATUS_holding p) = 1 ∧ (∀ c, c < 7 → t.bit (F.TURN_STATUS_hold_causes p) c = vs.any (fun v => v.cause == c)) ∧
      t.get (F.TURN_STATUS_invalid_count p) = s.get (F.TURN_STATUS_invalid_count p) ∧
      RegsBut [R.TURN_STATUS p] s t ∧ OnlyPart p s t ∧ { t with regs := s.regs, parts := s.parts } = s) ∧
  (∀ (s : State) (p : Part),
    ∃ t, exec (.brakeQuantumEnd p) s = .next t ∧ t.get (F.TURN_STATUS_holding p) = 0 ∧ t.get (F.TURN_STATUS_hold_causes p) = 0 ∧
      t.get (F.TURN_STATUS_invalid_count p) = s.get (F.TURN_STATUS_invalid_count p) ∧
      t.get (F.TURN_STATUS_last_valid p) = s.get (F.TURN_STATUS_last_valid p) ∧
      RegsBut [R.TURN_STATUS p] s t ∧ { t with regs := s.regs } = s) ∧
  (∀ (s : State) (p : Part) (hold : Step) (round : Nat),
      let x := s.part p
      let limit := s.get (F.TURN_CTRL_brake_limit p)
      s.running p = true → x.votePend = [] → x.votes.any (fun v => !v.next && v.hold == hold.val && v.round == round) = true → limit ≠ 0 → x.hold = hold.val → limit ≤ x.served →
      ∃ t, exec (.voteTakesEffect p hold round) s = .next t ∧
        RaisedOne s t 0x2001 p [hold.val, x.served, causeMask (x.votes.filter (fun v => !v.next && v.hold == hold.val && v.round == round)),
          s.get (F.TURN_COUNT_LO_value p)] ∧
        (t.part p).invalid = true ∧ (t.part p).causes = x.causes ||| 2 ^ 6 ∧ (t.part p).quanta = x.quanta ∧
        (∀ v ∈ (t.part p).votes, v.next = true ∨ v.hold ≠ hold.val) ∧ hold.val ∈ (t.part p).limitSteps ∧
        RegsBut (evtRegs 0x2001 p) s t ∧ OnlyPart p s t ∧ { t with regs := s.regs, parts := s.parts, evt := s.evt, mlipend := s.mlipend } = s)

/-- R79, R82: a write of PART_QMASK is taken over while the partition is EMPTY and the value names no quadrant that is disabled or another partition's;
otherwise it is ignored and PART_QMASK_REFUSED raised with the first reason that holds. A clear of the turn counters takes effect at once in a
partition that is EMPTY or HALTED; in any other, clear reads 1 and the counters stay. R63, R434: a pace that differs from the one in force is taken
over while every partition is EMPTY or HALTED, the loader is idle and every loaded image allows it: a faster one waits until VCORE reaches its
level, a slower one stops the step clocks at once. A write while a partition is neither EMPTY nor HALTED, while the loader is busy or while a loaded
image does not allow the pace is refused with PACE_REFUSED (the first of these reasons that holds: log entry 66). When the switch is done, the pace
is in force and its time is shown. -/
def Obligations.PartitionRegistersAndPace : Prop :=
  (∀ (s : State) (p : Part) (v : BitVec 4),
    let disabled := (List.range 4).any (fun q => v.getLsbD q && !s.quadEnabled q)
    let taken := (List.range 4).any (fun q => v.getLsbD q && (List.range 4).any (fun p' => p' != p.val && s.ownsQuad p' q))
    s.partExists p = true →
    ∃ t, exec (.partQmaskWrite p v) s = .next t ∧
      (s.pstate p = 0 → disabled = false → taken = false →
        t.get (F.PART_QMASK_qmask p) = v.toNat ∧ t.get (F.PART_QMASK_binding p) = s.get (F.PART_QMASK_binding p) ∧
        RegsBut [R.PART_QMASK p] s t ∧ OnlyRegs s t) ∧
      (s.pstate p ≠ 0 → RaisedOne s t 0x100E p [v.toNat, 1] ∧ RegsBut (evtRegs 0x100E p) s t ∧ OnlyEvents s t) ∧
      (s.pstate p = 0 → disabled = true → RaisedOne s t 0x100E p [v.toNat, 2] ∧ RegsBut (evtRegs 0x100E p) s t ∧ OnlyEvents s t) ∧
      (s.pstate p = 0 → disabled = false → taken = true →
        RaisedOne s t 0x100E p [v.toNat, 3] ∧ RegsBut (evtRegs 0x100E p) s t ∧ OnlyEvents s t)) ∧
  (∀ (s : State) (p : Part),
    ∃ t, exec (.turnCtrlClear p) s = .next t ∧ { t with regs := s.regs, watchFirst := s.watchFirst } = s ∧
      (s.pstate p = 0 ∨ s.pstate p = 4 →
        t.turns p = 0 ∧ t.get64 (R.TURN_QUANTA_LO p) (R.TURN_QUANTA_HI p) = 0 ∧ t.reg (R.TURN_LASTBRAKE p) = 0 ∧
        (∀ c, c < 8 → t.reg (R.TURN_CAUSE p c) = 0) ∧ t.get (F.TURN_STATUS_invalid_count p) = 0 ∧ t.get (F.TURN_CTRL_clear p) = 0 ∧
        t.get (F.TURN_CTRL_brake_limit p) = s.get (F.TURN_CTRL_brake_limit p) ∧
        RegsBut ([R.TURN_COUNT_LO p, R.TURN_COUNT_HI p, R.TURN_QUANTA_LO p, R.TURN_QUANTA_HI p, R.TURN_LASTBRAKE p, R.TURN_STATUS p, R.TURN_CTRL p]
          ++ (List.range 8).map (R.TURN_CAUSE p)) s t) ∧
      (s.pstate p ≠ 0 → s.pstate p ≠ 4 → t.get (F.TURN_CTRL_clear p) = 1 ∧ RegsBut [R.TURN_CTRL p] s t ∧ OnlyRegs s t)) ∧
  (∀ (s : State) (v : BitVec 2),
    v ≠ 3 → v.toNat ≠ s.pace → s.clk.paceWait = none → s.clk.paceTo = none → s.loaderBusy = false →
    (∀ p, p < 4 → s.pstate p = 0 ∨ (s.pstate p = 4 ∧ s.bit (F.PART_PROFILE_paces p) v.toNat = true)) →
    ∃ t, exec (.paceChange v) s = .next t ∧ t.get F.CLK_PACE_pace = v.toNat ∧ t.pace = s.pace ∧
      (v.toNat < s.pace → t.get F.CLK_STATUS_switching = 1 ∧ t.clk.paceTo = some v.toNat ∧ RegsBut [R.CLK_PACE, R.CLK_STATUS] s t ∧
        { t with regs := s.regs, clk := s.clk } = s) ∧
      (s.pace < v.toNat → t.clk.paceWait = some v.toNat ∧ t.gov.vcore = s.vcoreOf v.toNat ∧ t.gov.vcoreRamp = true ∧
        RegsBut [R.CLK_PACE] s t ∧ { t with regs := s.regs, clk := s.clk, gov := s.gov } = s)) ∧
  (∀ (s : State) (v : BitVec 2) (p : Part),
    v ≠ 3 → v.toNat ≠ s.pace → s.clk.paceWait = none → s.clk.paceTo = none → s.pstate p ≠ 0 → s.pstate p ≠ 4 →
    let busy := partMask (fun p => s.pstate p != 0 && s.pstate p != 4)
    ∃ t, exec (.paceChange v) s = .next t ∧ busy.testBit p = true ∧ RaisedOne s t 0x2002 0xFF [v.toNat, 1, busy] ∧
      RegsBut (evtRegs 0x2002 0xFF) s t ∧ OnlyEvents s t) ∧
  (∀ (s : State) (v : BitVec 2),
    v ≠ 3 → v.toNat ≠ s.pace → s.clk.paceWait = none → s.clk.paceTo = none → (∀ p, p < 4 → s.pstate p = 0 ∨ s.pstate p = 4) →
    let bad := partMask (fun p => s.pstate p != 0 && !s.bit (F.PART_PROFILE_paces p) v.toNat)
    (s.loaderBusy = true ∨ bad ≠ 0) →
    ∃ t, exec (.paceChange v) s = .next t ∧ RaisedOne s t 0x2002 0xFF (if s.loaderBusy then [v.toNat, 2] else [v.toNat, 3, bad]) ∧
      RegsBut (evtRegs 0x2002 0xFF) s t ∧ OnlyEvents s t) ∧
  (∀ (s : State) (us : BitVec 16) (v : Nat),
    s.clk.paceTo = some v → v < 3 → (∀ p, p < 4 → (s.part p).draining = false) →
    ∃ t, exec (.paceSwitchDone us) s = .next t ∧ t.pace = v ∧ t.get F.CLK_STATUS_switching = 0 ∧ t.get F.CLK_PACETIME_us = us.toNat ∧
      t.clk.paceTo = none ∧ (∀ p, p < 4 → (t.part p).remeasure = true) ∧ t.stones = s.stones ∧ t.dm = s.dm ∧
      { t with regs := s.regs, parts := s.parts, clk := s.clk, gov := s.gov, evt := s.evt, mlipend := s.mlipend } = s)

/-! ## The flume -/

/-- R110, R109, R111: a cell of a running region that stands alone takes, once every input it uses holds data and its receivers are free, the entry of
its truth table that they select, on its two rails, and raises its acknowledge; once every used input is at spacer and its receivers have taken the
data it returns to spacer and lowers it; with one used input at data and another at spacer its output stays. A MUX4 quad gives the data input its
select bits choose, on its last cell, as soon as these have arrived, and acknowledges once every input holds data. -/
def Obligations.FlumeCells : Prop :=
  (∀ (s : State) (q : Quad) (cell : Fin 196608) (a b c : Bool),
    let k := q.val * 196608 + cell.val
    let x := s.cell k
    let bit (i : Nat) (v : Bool) : Nat := if x.used.getLsbD i && v then 2 ^ i else 0
    let o := x.table.getLsbD (bit 0 a + bit 1 b + bit 2 c)
    s.rstage q x.region = 3 → x.mux = 0 → x.used ≠ 0 → x.ack = false → s.netFree q cell = true →
    (x.used.getLsbD 0 = true → s.netRail q x.inA = .data a) → (x.used.getLsbD 1 = true → s.netRail q x.inB = .data b) →
    (x.used.getLsbD 2 = true → s.netRail q x.inC = .data c) →
    ∃ t, exec (.flumeCellWave q cell 0) s = .next t ∧ t.cell k = { x with rail1 := o, rail0 := !o, celem := true, ack := true, level := o } ∧
      (∀ j, j ≠ k → t.cell j = s.cell j) ∧ t.flume.regions = s.flume.regions ∧ t.flume.launchBits = s.flume.launchBits ∧
      t.flume.landBits = s.flume.landBits ∧ { t with flume := s.flume, free := s.free } = s) ∧
  (∀ (s : State) (q : Quad) (cell : Fin 196608),
    let k := q.val * 196608 + cell.val
    let x := s.cell k
    s.rstage q x.region = 3 → x.mux = 0 → x.used ≠ 0 → x.ack = true → s.netTaken q cell = true →
    (x.used.getLsbD 0 = true → s.netRail q x.inA = .spacer) → (x.used.getLsbD 1 = true → s.netRail q x.inB = .spacer) →
    (x.used.getLsbD 2 = true → s.netRail q x.inC = .spacer) →
    ∃ t, exec (.flumeCellWave q cell 0) s = .next t ∧ t.cell k = { x with rail1 := false, rail0 := false, celem := false, ack := false } ∧
      (∀ j, j ≠ k → t.cell j = s.cell j) ∧ t.flume.regions = s.flume.regions ∧ t.flume.launchBits = s.flume.launchBits ∧
      t.flume.landBits = s.flume.landBits ∧ { t with flume := s.flume, free := s.free } = s) ∧
  (∀ (s : State) (q : Quad) (cell : Fin 196608) (b : Bool),
    let x := s.cell (q.val * 196608 + cell.val)
    s.rstage q x.region = 3 → x.mux = 0 → x.used.getLsbD 0 = true → x.used.getLsbD 1 = true → s.netRail q x.inA = .spacer →
    s.netRail q x.inB = .data b →
    ∃ t, exec (.flumeCellWave q cell 0) s = .next t ∧ (∀ j, t.cell j = s.cell j) ∧ { t with flume := s.flume, free := s.free } = s) ∧
  (∀ (s : State) (q : Quad) (cell : Fin 196608) (b c o : Bool),
    let g := cell.val / 4 * 4
    let key (i : Nat) := q.val * 196608 + g + i
    let x := s.cell (q.val * 196608 + cell.val)
    let chosen := b.toNat + 2 * c.toNat
    s.rstage q x.region = 3 → x.used ≠ 0 → x.mux = 1 → s.netRail q (s.cell (key 0)).inB = .data b → s.netRail q (s.cell (key 0)).inC = .data c →
    s.netRail q (s.cell (key chosen)).inA = .data o → (s.cell (key 3)).rail0 = false → (s.cell (key 3)).rail1 = false →
    (s.cell (key 3)).ack = false → s.netFree q (g + 3) = true →
    ∃ t, exec (.flumeCellWave q cell 0) s = .next t ∧ (t.cell (key 3)).rail1 = o ∧ (t.cell (key 3)).rail0 = !o ∧ (t.cell (key 3)).level = o ∧
      (if [0, 1, 2, 3].all (fun i => s.netFull q (s.cell (key i)).inA) then ∀ i, i < 4 → (t.cell (key i)).ack = true
        else ∀ i, i < 4 → (t.cell (key i)).ack = (s.cell (key i)).ack) ∧
      (∀ j, (∀ i, i < 4 → j ≠ key i) → t.cell j = s.cell j) ∧ { t with flume := s.flume, free := s.free } = s) ∧
  (∀ (s : State) (q : Quad) (cell : Fin 196608) (bad : BitVec 3),
    s.rstage q (s.cell (q.val * 196608 + cell.val)).region ≠ 3 → exec (.flumeCellWave q cell bad) s = .next s)

/-- R125: a FIFO that is not full takes the word at its input as its newest entry, a full one makes it wait; a read of a FIFO that holds an entry sends
the oldest and removes it; a RAM write stores the word at its address modulo the entry count and answers with a one-bit done, a RAM read answers
with the entry; a delay line sends out its oldest entry and takes the word in its place. What other blocks hold stays, and so does every register. -/
def Obligations.FlumeMemoryBlocks : Prop :=
  (∀ (s : State) (q : Quad) (k : Fin 512),
    let x := s.block q k
    x.mode = 1 → 2 ≤ s.rstage q x.region → s.blockFull q x [] = true → x.occ < x.entries →
    ∃ t, exec (.fifoWrite q k []) s = .next t ∧ (t.block q k).occ = x.occ + 1 ∧ (t.block q k).wp = (x.wp + 1) % x.entries ∧
      (t.block q k).rp = x.rp ∧ (t.block q k).at x.wp = x.cut (s.blockWord q x []) ∧ (∀ i, i ≠ x.wp → (t.block q k).at i = x.at i) ∧
      (∀ r j, (r, j) ≠ (q.val, k.val) → j < 512 → (t.block r j).data = (s.block r j).data ∧ (t.block r j).occ = (s.block r j).occ) ∧
      t.flume.cells = s.flume.cells ∧ t.flume.landBits = s.flume.landBits ∧ { t with flume := s.flume } = s) ∧
  (∀ (s : State) (q : Quad) (k : Fin 512) (bad : List Nat),
    (s.block q k).mode = 1 → (s.block q k).entries ≤ (s.block q k).occ → exec (.fifoWrite q k bad) s = .next s) ∧
  (∀ (s : State) (q : Quad) (k : Fin 512),
    let x := s.block q k
    x.mode = 1 → x.occ ≠ 0 → x.phase = 0 → s.rstage q x.region = 3 → s.quiescing q = false → mget (fun _ => false) x.ue x.rp = false →
    ∃ t, exec (.fifoRead q k .clean) s = .next t ∧ (t.block q k).last = x.at x.rp ∧ (t.block q k).sent = x.width ∧
      (t.block q k).rp = (x.rp + 1) % x.entries ∧ (t.block q k).occ = x.occ - 1 ∧ (t.block q k).data = x.data ∧
      (∀ r j, (r, j) ≠ (q.val, k.val) → j < 512 → (t.block r j).data = (s.block r j).data ∧ (t.block r j).occ = (s.block r j).occ) ∧
      t.flume.cells = s.flume.cells ∧ t.flume.landBits = s.flume.landBits ∧ { t with flume := s.flume } = s) ∧
  (∀ (s : State) (q : Quad) (k : Fin 512) (ecc : WordEcc),
    let x := s.block q k
    let i := s.netsNat q x.insW.length [] x.insA % x.entries
    x.mode = 2 → 2 ≤ s.rstage q x.region → s.blockFull q x [] = true → x.phase = 0 → s.netsNat q 0 [] x.insW = 1 →
    ∃ t, exec (.ramRequest q k [] ecc) s = .next t ∧ (t.block q k).last = 1 ∧ (t.block q k).sent = 1 ∧
      (t.block q k).at i = x.cut (s.blockWord q x []) ∧ (∀ j, j ≠ i → (t.block q k).at j = x.at j) ∧
      (∀ r j, (r, j) ≠ (q.val, k.val) → j < 512 → (t.block r j).data = (s.block r j).data) ∧
      t.flume.cells = s.flume.cells ∧ t.flume.landBits = s.flume.landBits ∧ { t with flume := s.flume } = s) ∧
  (∀ (s : State) (q : Quad) (k : Fin 512),
    let x := s.block q k
    let i := s.netsNat q x.insW.length [] x.insA % x.entries
    x.mode = 2 → 2 ≤ s.rstage q x.region → s.blockFull q x [] = true → x.phase = 0 → s.netsNat q 0 [] x.insW ≠ 1 →
    mget (fun _ => false) x.ue i = false →
    ∃ t, exec (.ramRequest q k [] .clean) s = .next t ∧ (t.block q k).last = x.at i ∧ (t.block q k).sent = x.width ∧ (t.block q k).data = x.data ∧
      (∀ r j, (r, j) ≠ (q.val, k.val) → j < 512 → (t.block r j).data = (s.block r j).data) ∧
      t.flume.cells = s.flume.cells ∧ t.flume.landBits = s.flume.landBits ∧ { t with flume := s.flume } = s) ∧
  (∀ (s : State) (q : Quad) (k : Fin 512),
    let x := s.block q k
    x.mode = 3 → 2 ≤ s.rstage q x.region → s.quiescing q = false → s.blockFull q x [] = true → x.phase = 0 →
    mget (fun _ => false) x.ue x.wp = false →
    ∃ t, exec (.delayLineInput q k [] .clean) s = .next t ∧ (t.block q k).last = x.at x.wp ∧ (t.block q k).sent = x.width ∧
      (t.block q k).at x.wp = x.cut (s.blockWord q x []) ∧ (∀ j, j ≠ x.wp → (t.block q k).at j = x.at j) ∧
      (t.block q k).wp = (x.wp + 1) % max 1 x.delayN ∧
      (∀ r j, (r, j) ≠ (q.val, k.val) → j < 512 → (t.block r j).data = (s.block r j).data) ∧
      t.flume.cells = s.flume.cells ∧ t.flume.landBits = s.flume.landBits ∧ { t with flume := s.flume } = s)

/-- R127, R427, R428: a level that stands at an unsynchronised pin input port of a running region reaches the region and TIO_IN, unless the pin is
unserved, when the region sees 0; a data wave at a pin output port that is not step-synchronous drives its pin, at one that is it is held until the
region's landing is taken; a wave at an unserved pin drives nothing. R132, R133, R131: a quiesce request of a quadrant is taken over while its
partition is HALTED or it has none, and clearing one releases the quadrant; a quadrant whose regions and cells are idle is then shown quiesced. A
read of FLM_RBDATA is refused while its quadrant is not quiesced, and otherwise advances the index unless it peeks. A frame whose parity is bad is
recorded as fault 3 and raised. A probe channel is switched off, or switched on to a pin in probe mode, by the write of its register, and refused
with FLUME_PROBE_REFUSED where its pin is in another mode. -/
def Obligations.FlumePinsAndObservation : Prop :=
  (∀ (s : State) (q : Quad) (pin : Fin 160) (v : Bool),
    let x := s.pinPort (pinKey q pin)
    x.used = true → x.out = false → x.sync = false → x.phase = 0 → s.rstage q x.region = 3 → s.quiescing q = false →
    ∃ t, exec (.pinInputWave q pin (some v)) s = .next t ∧ t.bit (F.TIO_IN_level (pin / 32)) (pin % 32) = v ∧
      (s.on (F.TIO_BANK_en (pin / 32)) = false ∨ s.vioOk (pin / 32) = true → t.pinLevel pin = v) ∧
      (∀ p, p < 160 → p ≠ pin.val → t.bit (F.TIO_IN_level (p / 32)) (p % 32) = s.bit (F.TIO_IN_level (p / 32)) (p % 32)) ∧
      (t.pinPort (pinKey q pin)).bit = (v && !x.unserved) ∧ RegsBut [R.TIO_IN (pin / 32)] s t ∧
      t.flume.cells = s.flume.cells ∧ t.flume.regions = s.flume.regions ∧ t.flume.landBits = s.flume.landBits ∧
      { t with regs := s.regs, flume := s.flume, free := s.free } = s) ∧
  (∀ (s : State) (q : Quad) (pin : Fin 160) (v : Bool) (c : Nat),
    let x := s.pinPort (pinKey q pin)
    x.used = true → x.out = true → s.rstage q x.region = 3 → x.ack = false → s.netRail q x.net = .data v → (x.sync = true → x.held = none) →
    ∃ t, exec (.pinOutputWave q pin false c) s = .next t ∧ { t with flume := s.flume, free := s.free } = s ∧
      t.flume.cells = s.flume.cells ∧ t.flume.landBits = s.flume.landBits ∧
      (let y := t.pinPort (pinKey q pin)
       if x.unserved then y.drive = x.drive ∧ y.live = x.live ∧ y.held = x.held ∧ t.flume.regions = s.flume.regions
       else if x.sync then y.drive = x.drive ∧ y.held = (if x.owes then none else some v) ∧ y.owes = false ∧
         (t.region x.region).awaiting = (s.region x.region).awaiting.filter (· != 4096 + pin.val)
       else y.drive = v ∧ y.live = true ∧ t.flume.regions = s.flume.regions)) ∧
  (∀ (s : State) (v : BitVec 4) (q : Nat), q < 4 →
    ∃ t, exec (.flmQuiesceWrite v) s = .next t ∧
      (v.getLsbD q = true → (s.quadOwner q = none ∨ ∃ p, s.quadOwner q = some p ∧ s.pstate p = 4) → t.quiescing q = true) ∧
      (∀ p, v.getLsbD q = true → s.quadOwner q = some p → s.pstate p ≠ 4 → t.quiescing q = s.quiescing q) ∧
      (v.getLsbD q = false → t.quiescing q = false ∧ t.bit F.FLM_STATUS_quiesced q = false) ∧
      RegsBut [R.FLM_QUIESCE, R.FLM_STATUS] s t ∧ OnlyRegs s t) ∧
  (∀ (s : State) (q : Quad), s.quiescing q = true → s.quadIdle q = true →
    ∃ t, exec (.quiesceComplete q) s = .next t ∧ t.bit F.FLM_STATUS_quiesced q = true ∧
      (∀ r, r < 4 → r ≠ q.val → t.bit F.FLM_STATUS_quiesced r = s.bit F.FLM_STATUS_quiesced r) ∧ RegsBut [R.FLM_STATUS] s t ∧ OnlyRegs s t) ∧
  (∀ (s : State) (peek : Bool),
    let q := s.get F.FLM_RBADDR_quadrant
    let i := s.get F.FLM_RBADDR_index
    ∃ t, exec (.flmRbdataRead peek) s = .next t ∧ RegsBut [R.FLM_RBADDR] s t ∧ { t with regs := s.regs, readData := s.readData } = s ∧
      (s.bit F.FLM_STATUS_quiesced q = true → t.readData = BitVec.ofNat 32 (s.readBack q (s.get F.FLM_RBADDR_space) i) ∧
        t.get F.FLM_RBADDR_index = (if peek then i else (i + 1) % 2 ^ F.FLM_RBADDR_index.width) ∧ t.get F.FLM_RBADDR_refused = s.get F.FLM_RBADDR_refused) ∧
      (s.bit F.FLM_STATUS_quiesced q = false → t.readData = 0 ∧ t.get F.FLM_RBADDR_refused = 1 ∧ t.get F.FLM_RBADDR_index = i)) ∧
  (∀ (s : State) (q : Quad) (col : Fin 384),
    s.on F.FLM_CTRL_parity_scan = true → s.dstate (32 + q.val) < 3 → s.quadOwner q = none → s.on F.FLM_ERR_fault_flag = false →
    ∃ t, exec (.parityScan q col false) s = .next t ∧ t.get F.FLM_ERR_fault_flag = 1 ∧ t.get F.FLM_ERR_kind = 3 ∧ t.get F.FLM_ERR_quadrant = q ∧
      t.get F.FLM_ERR_unit = col % 2 ^ F.FLM_ERR_unit.width ∧ RaisedOne s t 0x5007 0xFF [(t.reg R.FLM_ERR).toNat] ∧
      RegsBut (R.FLM_ERR :: evtRegs 0x5007 0xFF) s t ∧ OnlyEvents s t) ∧
  (∀ (s : State) (c : Fin 64) (v : Word),
    let pin := v.toNat / 2 ^ 21 % 256
    let named := decide (pin < (if v.getLsbD 29 then 160 else 48))
    let ok := named && (if v.getLsbD 29 then s.tioMode pin == 2 else s.get (F.GPIO_PIN_func pin) == 3)
    ∃ t, exec (.flmProbeEnable .host c v) s = .next t ∧
      (named = true → v.getLsbD 31 = false ∨ ok = true → t.reg (R.FLM_PROBE c) = v ∧ RegsBut [R.FLM_PROBE c] s t ∧ OnlyRegs s t) ∧
      (named = false → v.getLsbD 31 = false → t = s) ∧
      (v.getLsbD 31 = true → ok = false → RaisedOne s t 0x5006 0xFF [c.val, 1] ∧ RegsBut (evtRegs 0x5006 0xFF) s t ∧ OnlyEvents s t))

/-! ## The race -/

/-- R96, R97, R83, R90, R98, R100, R104: a header that enters the race at an interface is routed the column first, then the row, then its port, and
waits there in the virtual channel of its kind; corrected words are counted; one that no initiator produces, or with an uncorrectable error, is
dropped and counted. From router to router goes the packet that the output sends next, and no other: of those at the head of their virtual channel
that find room, one of the highest urgency, and of these a response before a request. -/
def Obligations.HeadersAtRouters : Prop :=
  (∀ (s : State) (r : Mill) (i : Fin 6) (pk : Pkt) (n w : Nat),
    let h := pk.hdr
    let o := routePort r h
    let vc := (if hdrResponse h then 2 else 0) + (if hdq h = r.val / 64 then 1 else 0)
    feeder r i = none → 4 ≤ i.val → (i.val = 4 → xEnd r ≠ .none) → s.enters r i pk = true → hdrMalformed h = false →
    ∃ t, exec (.packetHeaderArrival r i pk (.corrected n) w) s = .next t ∧ t.race.bufs = s.race.bufs ++ [⟨r, i, vc, o, pk⟩] ∧
      (hdq h = r.val / 64 → (r.val % 8 < hdcol h → o = 1) ∧ (hdcol h < r.val % 8 → o = 3) ∧
        (hdcol h = r.val % 8 → r.val % 64 / 8 < hdrow h → o = 2) ∧ (hdcol h = r.val % 8 → hdrow h < r.val % 64 / 8 → o = 0) ∧
        (hdcol h = r.val % 8 → hdrow h = r.val % 64 / 8 → o = if hdport h = 8 then 4 else 5)) ∧
      t.get F.RACE_ECC_ce_count = min (s.get F.RACE_ECC_ce_count + n) (2 ^ F.RACE_ECC_ce_count.width - 1) ∧
      RegsBut [R.RACE_ECC] s t ∧ { t.race with bufs := s.race.bufs } = s.race ∧ { t with regs := s.regs, race := s.race } = s) ∧
  (∀ (s : State) (r : Mill) (i : Fin 6) (pk : Pkt) (w : Nat),
    let h := pk.hdr
    feeder r i = none → 4 ≤ i.val → (i.val = 4 → xEnd r ≠ .none) → s.enters r i pk = true → hdrMalformed h = true →
    ∃ t, exec (.packetHeaderArrival r i pk .clean w) s = .next t ∧ t.race.bufs = s.race.bufs ∧ t.race.sent = s.race.sent ∧
      t.race.reqs = s.race.reqs ∧ t.get F.RACE_DROP_malformed = min (s.get F.RACE_DROP_malformed + 1) (2 ^ F.RACE_DROP_malformed.width - 1) ∧
      RaisedOne s t 0x4004 0xFF [r.val, i.val, h.toNat / 2 ^ 96] ∧ RegsBut (R.RACE_DROP :: evtRegs 0x4004 0xFF) s t ∧
      { t with regs := s.regs, race := s.race, evt := s.evt, mlipend := s.mlipend } = s) ∧
  (∀ (s : State) (r : Mill) (i : Fin 6) (pk : Pkt) (ch w : Nat),
    feeder r i = none → 4 ≤ i.val → (i.val = 4 → xEnd r ≠ .none) → s.enters r i pk = true → s.get F.RACE_ECC_ue_flag = 0 →
    ∃ t, exec (.packetHeaderArrival r i pk (.badHeader ch) w) s = .next t ∧ t.race.bufs = s.race.bufs ∧ t.race.sent = s.race.sent ∧
      t.get F.RACE_ECC_ue_flag = 1 ∧ t.reg R.RACE_ECCLOC = BitVec.ofNat 32 (r * 256 + i * 16 + ch) ∧
      t.get F.RACE_DROP_malformed = min (s.get F.RACE_DROP_malformed + 1) (2 ^ F.RACE_DROP_malformed.width - 1) ∧
      RegsBut ([R.RACE_ECC, R.RACE_ECCLOC, R.RACE_DROP] ++ evtRegs 0x4003 0xFF) s t ∧
      { t with regs := s.regs, race := s.race, evt := s.evt, mlipend := s.mlipend } = s) ∧
  (∀ (s : State) (r : Mill) (i : Fin 6) (pk : Pkt) (w m o : Nat) (b : BufPkt),
    feeder r i = some (m, o) → s.granted m o (s.roomAt r i) = some b → samePacket pk.hdr b.pkt.hdr = true → hdrMalformed pk.hdr = false →
    ∃ t, exec (.packetHeaderArrival r i pk .clean w) s = .next t ∧
      t.race.bufs = s.race.bufs.erase b ++ [⟨r, i, virtualChannel r b.pkt.hdr, routePort r b.pkt.hdr, b.pkt⟩] ∧
      mget (fun _ => 5) t.race.turnOf (b.router * 6 + b.output) = b.input ∧
      t.get F.RACE_PEAKWAIT_cycles = max (s.get F.RACE_PEAKWAIT_cycles) (min 65535 w) ∧
      RegsBut [R.RACE_PEAKWAIT] s t ∧ { t.race with bufs := s.race.bufs, turnOf := s.race.turnOf } = s.race ∧
      { t with regs := s.regs, race := s.race } = s) ∧
  (∀ (s : State) (r : Mill) (i : Fin 6) (pk : Pkt) (e : HdrEcc) (w m o : Nat),
    feeder r i = some (m, o) → s.granted m o (s.roomAt r i) = none → exec (.packetHeaderArrival r i pk e w) s = .next s) ∧
  (∀ (s : State) (m o : Nat) (room : Pkt → Bool) (b : BufPkt),
    s.granted m o room = some b →
    s.outFree m o = true ∧ b ∈ s.race.bufs ∧ b.router = m ∧ b.output = o ∧ s.atHead b = true ∧ room b.pkt = true ∧
      ∀ c, c ∈ s.race.bufs → c.router = m → c.output = o → s.atHead c = true → room c.pkt = true →
        hurg c.pkt.hdr ≤ hurg b.pkt.hdr ∧ (hurg c.pkt.hdr = hurg b.pkt.hdr → hdrResponse c.pkt.hdr = true → hdrResponse b.pkt.hdr = true))

/-- R92 to R95, R98, R102, R142, R159, R315: a request that may leave the race reaches its target. The hopper serves one within it and in banks of its
context's owner: an RD is answered with the bytes asked for and status OK, a WR stores its unit's bytes, a WRA stores them and is acknowledged; the
back door of a mill in Run serves one in the same way; a message has no effect. An RD of an isolated target is answered in its place with error
data, a write dropped, and either counted; a design's marks its turn. A request that must follow another stays where it is. -/
def Obligations.RequestsAtTargets : Prop :=
  (∀ (s : State) (pk : Pkt) (c w : Nat) (e : RowEcc),
    let h := pk.hdr
    let n := 16 * hlen h
    hcmd h = 1 → hdport h = 8 → xEnd (hmill h) = .millers 0 → hdrMalformed h = false → s.isolated (htarget h) = false →
    s.mayLand h s.passes = true → s.asLanded pk = pk → s.answeredFor h = false → 0x200 ≤ hinit h → hlen h ≠ 0 → haddr h % 16 = 0 →
    htail h = 0 → hpf h = false → haddr h + n ≤ 2 ^ 26 → ctxOwner (hctx h) = some (s.hopOwner (hopBank (haddr h))) →
    ctxOwner (hctx h) = some (s.hopOwner (hopBank (haddr h + n - 1))) → s.hopBad (haddr h) n = false →
    ∃ t, exec (.rd pk c e w) s = .next t ∧ t.race.sent = respond h 0 (bytesUnits (hlen h) (s.hopRead (haddr h) n)) :: s.race.sent ∧
      RegsBut [R.RACE_PEAKWAIT] s t ∧ { t with regs := s.regs, race := s.race } = s) ∧
  (∀ (s : State) (pk : Pkt) (c w : Nat) (e : RowEcc) (u : Unit128),
    let h := pk.hdr
    (hcmd h = 2 ∨ hcmd h = 3) → hdport h = 8 → xEnd (hmill h) = .millers 0 → hdrMalformed h = false → s.isolated (htarget h) = false →
    s.mayLand h s.passes = true → s.asLanded pk = pk → s.answeredFor h = false → 0x200 ≤ hinit h → hlen h = 1 → pk.data = [u] → pk.poison = [] →
    haddr h % 16 = 0 → htail h = 0 → hpf h = false → haddr h + 16 ≤ 2 ^ 26 → ctxOwner (hctx h) = some (s.hopOwner (hopBank (haddr h))) →
    ∃ t, exec (if hcmd h = 2 then .wr pk c e w else .wra pk c e w) s = .next t ∧
      t.hopRead (haddr h) 16 = natLe 16 u.toNat ∧
      (∀ a, a < haddr h ∨ haddr h + 16 ≤ a → mget (fun _ => 0) t.hop.mem a = mget (fun _ => 0) s.hop.mem a) ∧
      t.race.sent = (if hcmd h = 2 then s.race.sent else respond h 0 [] :: s.race.sent) ∧ RegsBut [R.RACE_PEAKWAIT] s t ∧
      { t with regs := s.regs, race := s.race, hop := s.hop, millers := s.millers } = s) ∧
  (∀ (s : State) (pk : Pkt) (c w : Nat) (e : RowEcc),
    let h := pk.hdr
    let m := hmill h
    let n := 16 * hlen h
    let at_ := s.doorStep m
    hcmd h = 1 → hdport h = 3 → hdrMalformed h = false → s.quadEnabled (hdq h) = true → s.isolated (htarget h) = false →
    s.mayLand h s.passes = true → s.asLanded pk = pk → s.answeredFor h = false → s.dstate (m / 8) = 0 → hlen h ≠ 0 → haddr h % 16 = 0 → htail h = 0 →
    hpf h = false → haddr h + n ≤ 2 ^ 20 → e = {} → (∀ p, s.millOwner m = some p → s.Unwatched p) →
    (∀ i, i < n → s.mmBad m ((haddr h + i) / 64) ((haddr h + i) % 64 / 8) at_ = false) →
    ∃ t, exec (.rd pk c e w) s = .next t ∧
      t.race.sent = respond h 0 (bytesUnits (hlen h) ((List.range n).map (fun i =>
        (s.mmRow m ((haddr h + i) / 64) at_).extractLsb' ((haddr h + i) % 64 * 8) 8))) :: s.race.sent ∧
      RegsBut [R.RACE_PEAKWAIT] s t ∧ { t with regs := s.regs, race := s.race } = s) ∧
  (∀ (s : State) (pk : Pkt) (c w : Nat) (e : RowEcc),
    let h := pk.hdr
    hcmd h = 2 → hdrMalformed h = false → s.noMill h = false → s.isolated (htarget h) = true → s.mayLand h s.passes = true →
    s.asLanded pk = pk → 0x200 ≤ hinit h →
    ∃ t, exec (.wr pk c e w) s = .next t ∧ t.race.sent = s.race.sent ∧
      t.get F.RACE_DEADCNT_dropped_writes = min (s.get F.RACE_DEADCNT_dropped_writes + 1) (2 ^ F.RACE_DEADCNT_dropped_writes.width - 1) ∧
      RegsBut [R.RACE_DEADCNT, R.RACE_PEAKWAIT] s t ∧ { t with regs := s.regs, race := s.race } = s) ∧
  (∀ (s : State) (pk : Pkt) (c w : Nat) (e : RowEcc),
    let h := pk.hdr
    hcmd h = 1 → hdrMalformed h = false → s.noMill h = false → s.isolated (htarget h) = true → s.mayLand h s.passes = true →
    s.asLanded pk = pk → hpf h = false → 0x200 ≤ hinit h →
    ∃ t, exec (.rd pk c e w) s = .next t ∧ t.race.sent = respond h 1 (List.replicate (hlen h) 0xBAD0BAD0BAD0BAD0BAD0BAD0BAD0BAD0) :: s.race.sent ∧
      t.get F.RACE_DEADCNT_absorbed_reads = min (s.get F.RACE_DEADCNT_absorbed_reads + 1) (2 ^ F.RACE_DEADCNT_absorbed_reads.width - 1) ∧
      RegsBut [R.RACE_DEADCNT, R.RACE_PEAKWAIT] s t ∧ { t with regs := s.regs, race := s.race } = s) ∧
  (∀ (s : State) (pk : Pkt) (c w : Nat) (e : RowEcc) (p : Nat),
    let h := pk.hdr
    hcmd h = 2 → hdrMalformed h = false → s.noMill h = false → s.isolated (htarget h) = true → s.mayLand h s.passes = true →
    s.asLanded pk = pk → hinit h < 0x200 → hpf h = false → s.fpPart (hinit h) = some p → s.running p = true →
    s.race.flight.any (fun f => samePacket f.hdr h && f.marked) = false →
    ∃ t, exec (.wr pk c e w) s = .next t ∧ (t.part p).invalid = true ∧ (t.part p).causes = (s.part p).causes ||| 2 ^ 6 ∧ OnlyPart p s t) ∧
  (∀ (s : State) (pk : Pkt) (w : Nat),
    let h := pk.hdr
    hcmd h = 6 → hdrMalformed h = false → s.noMill h = false → s.isolated (htarget h) = false → s.mayLand h s.passes = true →
    s.asLanded pk = pk → s.targetReady h = true →
    ∃ t, exec (.msg pk w) s = .next t ∧ t.race.sent = s.race.sent ∧ RegsBut [R.RACE_PEAKWAIT] s t ∧ { t with regs := s.regs, race := s.race } = s) ∧
  (∀ (s : State) (pk : Pkt) (c w : Nat) (e : RowEcc),
    let h := pk.hdr
    hdrMalformed h = false → s.noMill h = false → s.inOrder h = false →
    (hcmd h = 1 → exec (.rd pk c e w) s = .next s) ∧ (hcmd h = 2 → exec (.wr pk c e w) s = .next s) ∧
      (hcmd h = 3 → exec (.wra pk c e w) s = .next s))

/-- R105, R106, R149, R157: a response that may leave the race ends the wait of its request; an OK response to a far port's read puts its data into the
slot, which is then done. A response that nothing waits for is discarded. A request of an engine that times out is complete. -/
def Obligations.ResponsesAtInitiators : Prop :=
  (∀ (s : State) (pk : Pkt) (c lat w : Nat),
    let h := pk.hdr
    let id := hinit h
    let j := htag h % 32
    let x := s.slot id j
    hcmd h = 4 → hdrMalformed h = false → s.mayLand h (fun _ => true) = true → s.asLanded pk = pk → s.awaits id (htag h) = true →
    id < 0x200 → hstatus h = 0 → pk.poison = [] → x.busy = true → x.owed = false → x.done = false → htag h / 32 = x.stamp →
    (∀ k, k < 64 → s.on (F.RACE_STSEL_en k) = false) →
    ∃ t, exec (.rdr pk c lat w) s = .next t ∧
      t.slot id j = { x with done := true, ok := true, data := getBits (valueOf x.offset pk.data) 0 (s.fpWidth id) } ∧
      (∀ i k, k < 32 → (i, k) ≠ (id, j) → t.slot i k = s.slot i k) ∧
      t.race.reqs = s.race.reqs.filter (fun r => !r.is id (htag h)) ∧ t.race.sent = s.race.sent ∧ t.race.stats = s.race.stats ∧
      t.get (F.MPORT_PSTAT_maxlat.sel id) = min 4095 (max (c - x.cycle) (s.get (F.MPORT_PSTAT_maxlat.sel id))) ∧
      RegsBut [selAddr R.MPORT_PSTAT id, R.MPORT_SLOW (id / 32), R.RACE_PEAKWAIT] s t ∧ { t with regs := s.regs, race := s.race, dm := s.dm } = s) ∧
  (∀ (s : State) (pk : Pkt) (c lat w : Nat) (p : Nat),
    let h := pk.hdr
    let id := hinit h
    let j := htag h % 32
    let x := s.slot id j
    hcmd h = 4 → hdrMalformed h = false → s.mayLand h (fun _ => true) = true → s.asLanded pk = pk → s.awaits id (htag h) = true →
    id < 0x200 → hstatus h ≠ 0 → pk.poison = [] → x.busy = true → x.owed = false → x.done = false → htag h / 32 = x.stamp →
    (∀ k, k < 64 → s.on (F.RACE_STSEL_en k) = false) → s.fpPart id = some p → s.running p = true → s.get F.MPORT_ERR_flag = 0 →
    ∃ t, exec (.rdr pk c lat w) s = .next t ∧ (t.slot id j).done = true ∧ (t.slot id j).ok = false ∧
      t.get F.MPORT_ERR_kind = 2 ∧ t.get F.MPORT_ERR_status = hstatus h ∧ t.bit (F.MPORT_FAIL_ports (id / 32)) (id % 32) = true ∧
      RaisedOne s t 0x3005 p [id, j, hstatus h, x.step] ∧ (t.part p).invalid = true ∧ OnlyPart p s t) ∧
  (∀ (s : State) (pk : Pkt) (lat w : Nat),
    let h := pk.hdr
    hcmd h = 5 → hdrMalformed h = false → s.mayLand h (fun _ => true) = true → s.asLanded pk = pk → s.awaits (hinit h) (htag h) = true →
    0x200 ≤ hinit h → hinit h ≠ 0x220 → (∀ k, k < 64 → s.on (F.RACE_STSEL_en k) = false) →
    ∃ t, exec (.ack pk lat w) s = .next t ∧ t.race.reqs = s.race.reqs.filter (fun r => !r.is (hinit h) (htag h)) ∧
      t.race.sent = s.race.sent ∧ t.race.stats = s.race.stats ∧ RegsBut [R.RACE_PEAKWAIT] s t ∧ { t with regs := s.regs, race := s.race } = s) ∧
  (∀ (s : State) (pk : Pkt) (c lat w : Nat),
    let h := pk.hdr
    hcmd h = 4 → hdrMalformed h = false → s.mayLand h (fun _ => true) = true → s.awaits (hinit h) (htag h) = false →
    ∃ t, exec (.rdr pk c lat w) s = .next t ∧ t.race.reqs = s.race.reqs ∧ t.race.sent = s.race.sent ∧ RegsBut [R.RACE_PEAKWAIT] s t ∧
      { t with regs := s.regs, race := s.race } = s) ∧
  (∀ (s : State) (i : BitVec 10) (tag : BitVec 12),
    s.awaits i.toNat tag.toNat = true → 0x200 ≤ i.toNat → i.toNat ≠ 0x220 →
    ∃ t, exec (.requestTimeout i tag) s = .next t ∧ t.awaits i.toNat tag.toNat = false ∧
      t.race.reqs = s.race.reqs.filter (fun r => !r.is i.toNat tag.toNat) ∧ t.race.lost = i.toNat :: s.race.lost ∧
      { t.race with reqs := s.race.reqs, lost := s.race.lost } = s.race ∧ { t with race := s.race } = s)

/-- R99, R102, R103, R106: an aged header rises by one level of urgency. A target that leaves a request unanswered or withholds credit for the dead
time, or that software isolates, is isolated and TARGET_ISOLATED raised with its cause (an X port with nothing attached is no target: log entry 67);
a readmission that is asked for ends, once the target has been quiet, with the target readmitted. At the end of a statistics window each slot shows
the counts of the window, saturated. -/
def Obligations.RaceManagement : Prop :=
  (∀ (s : State) (i : Nat) (b : BufPkt),
    s.race.bufs[i]? = some b → s.on F.RACE_CTRL_age_en = true → hurg b.pkt.hdr < 7 → s.ageStep (hurg b.pkt.hdr) ≠ 0 →
    let h := raiseUrg b.pkt.hdr
    ∃ t, exec (.urgencyAgeing i) s = .next t ∧ t.race.bufs = s.race.bufs.set i { b with pkt := { b.pkt with hdr := h } } ∧
      hurg h = hurg b.pkt.hdr + 1 ∧ h.toNat = b.pkt.hdr.toNat + 2 ^ 115 ∧ { t.race with bufs := s.race.bufs } = s.race ∧ { t with race := s.race } = s) ∧
  (∀ (s : State) (m : Mill) (credit : Bool),
    s.isolated m.val = false → s.quadEnabled (m / 64) = true → s.on F.RACE_CTRL_dead_en = true → s.get F.RACE_DEADTO_timeout ≠ 0 →
    s.targetLate ⟨false, m⟩ credit = true →
    ∃ t, exec (.deadTargetTimeout ⟨false, m⟩ credit) s = .next t ∧ t.isolated m.val = true ∧
      (∀ k, k < 512 → k ≠ m.val → t.isolated k = s.isolated k) ∧
      RaisedOne s t 0x4001 (ownerField (s.millOwner m)) [0, m.val, if credit then 2 else 1] ∧
      RegsBut ([R.RACE_DEADM (m / 32), R.RACE_DEADCNT, R.GOV_SMMIS_LO, R.GOV_SMMIS_HI] ++ evtRegs 0x4001 (ownerField (s.millOwner m))) s t ∧
      { t with regs := s.regs, race := s.race, dm := s.dm, parts := s.parts, lines := s.lines, evt := s.evt, mlipend := s.mlipend } = s) ∧
  (∀ (s : State) (m : Mill),
    s.isolated (256 + m.val) = false → s.targetExists ⟨true, m⟩ = true →
    ∃ t, exec (.isolate ⟨true, m⟩) s = .next t ∧ t.isolated (256 + m.val) = true ∧ RaisedOne s t 0x4001 0xFF [1, m.val, 3] ∧
      RegsBut ([R.RACE_DEADX (m / 32), R.RACE_DEADCNT, R.GOV_SMMIS_LO, R.GOV_SMMIS_HI] ++ evtRegs 0x4001 0xFF) s t ∧
      { t with regs := s.regs, race := s.race, dm := s.dm, parts := s.parts, lines := s.lines, evt := s.evt, mlipend := s.mlipend } = s) ∧
  (∀ (s : State) (t : RaceTarget), s.isolated (tkey t) = true ∨ s.targetExists t = false → exec (.isolate t) s = .next s) ∧
  (∀ (s : State) (m : Mill),
    s.isolated m.val = true → m.val ∉ s.race.readmitting →
    ∃ t, exec (.readmit ⟨false, m⟩) s = .next t ∧ t.race.readmitting = m.val :: s.race.readmitting ∧ t.isolated m.val = true ∧
      t.get F.RACE_DEADCTRL_readmit = 1 ∧ RegsBut [R.RACE_DEADCTRL] s t ∧ { t.race with readmitting := s.race.readmitting } = s.race ∧
      { t with regs := s.regs, race := s.race } = s) ∧
  (∀ (s : State) (m : Mill),
    m.val ∈ s.race.readmitting →
    ∃ t, exec (.readmitQuietEnd ⟨false, m⟩) s = .next t ∧ t.isolated m.val = false ∧ m.val ∉ t.race.readmitting ∧
      (∀ k, k < 512 → k ≠ m.val → t.isolated k = s.isolated k) ∧
      RaisedOne s t 0x4002 (ownerField (s.millOwner m)) [0, m.val] ∧ { t.race with readmitting := s.race.readmitting } = s.race ∧
      RegsBut ([R.RACE_DEADM (m / 32), R.RACE_DEADCTRL, R.GOV_SMMIS_LO, R.GOV_SMMIS_HI] ++ evtRegs 0x4002 (ownerField (s.millOwner m))) s t ∧
      { t with regs := s.regs, race := s.race, evt := s.evt, mlipend := s.mlipend } = s) ∧
  (∀ (s : State) (k : Nat),
    let a := mget (fun _ => {}) s.race.stats k
    k < 64 → s.get F.RACE_STCTRL_window ≠ 0 →
    ∃ t, exec .statWindowEnd s = .next t ∧ t.race.stats = [] ∧ { t.race with stats := s.race.stats } = s.race ∧
      (s.on (F.RACE_STSEL_en k) = true → a.changed = false → s.get (F.RACE_STSEL_init k) < 0x227 →
        t.get (F.STAT_UNITS_units k) = min a.units 0xFFFFFFFF ∧ t.get (F.STAT_LAT_max k) = min a.maxLat 65535 ∧
        t.get (F.STAT_LAT_mean k) = min (if a.reqs = 0 then 0 else a.sumLat / a.reqs) 65535) ∧
      (s.on (F.RACE_STSEL_en k) = false → t.get (F.STAT_UNITS_units k) = 0 ∧ t.get (F.STAT_LAT_max k) = 0 ∧ t.get (F.STAT_LAT_mean k) = 0) ∧
      RegsBut ((List.range 64).map R.STAT_UNITS ++ (List.range 64).map R.STAT_LAT) s t ∧ { t with regs := s.regs, race := s.race } = s)

/-! ## Far ports and DRAM -/

/-- R146, R101, R105: the oldest request of a far port leaves its queue as a packet of the port, with its command, address, stamp and slot, and a read
waits for its response. One that finds its target isolated, and did not when it was issued, marks the turn of its port's partition (R159, R459). A
prefetch leaves as a read marked so, for which nothing waits (R154). R157, R158, R162: when the time-out of a slot whose response has not come runs
out, its read is complete with status 0 and no data, the port is shown to have failed, and FAR_TIMEOUT is raised; a slot that owes its response
becomes free. -/
def Obligations.FarPorts : Prop :=
  (∀ (s : State) (m : Mill) (f : Fin 2) (r : FpReq) (rest : List FpReq),
    let id := 2 * m.val + f.val
    let h := s.fpHeader id r false
    let us := if r.write then bytesUnits r.len r.data else []
    (s.farPort id).reqs = r :: rest → r.stamp < 128 → r.slot < 32 → (∀ k, k < 64 → s.on (F.RACE_STSEL_en k) = false) →
    (r.marked = true ∨ s.isolated (htarget h) = false) →
    ∃ t, exec (.farportRequestSend m f) s = .next t ∧ t.farPort id = { s.farPort id with reqs := rest } ∧ (∀ i, i ≠ id → t.farPort i = s.farPort i) ∧
      t.race.sent = ⟨h, us, us.map (fun _ => false)⟩ :: s.race.sent ∧ t.race.flight = s.race.flight ++ [⟨h, 0, r.marked⟩] ∧ hinit h = id ∧ hcmd h = (if r.write then 2 else 1) ∧ hdport h = 8 ∧
      htag h = r.stamp * 32 + (if r.write then 0 else r.slot) ∧ haddr h = r.addr % 2 ^ 48 ∧ hctx h = ((s.fpPart id).getD 0) % 16 ∧
      t.race.reqs = (if r.write then s.race.reqs else s.race.reqs ++ [{ hdr := h }]) ∧
      t.get64 R.RACE_UNITS_LO R.RACE_UNITS_HI = (s.get64 R.RACE_UNITS_LO R.RACE_UNITS_HI + 1 + us.length) % 2 ^ 64 ∧
      RegsBut [R.RACE_UNITS_LO, R.RACE_UNITS_HI] s t ∧ { t.race with sent := s.race.sent, reqs := s.race.reqs, flight := s.race.flight } = s.race ∧
      { t with regs := s.regs, race := s.race, dm := s.dm } = s) ∧
  (∀ (s : State) (m : Mill) (f : Fin 2) (r : FpReq) (rest : List FpReq) (p : Nat),
    let id := 2 * m.val + f.val
    let h := s.fpHeader id r false
    (s.farPort id).reqs = r :: rest → r.marked = false → s.isolated (htarget h) = true → s.fpPart id = some p → s.running p = true →
    ∃ t, exec (.farportRequestSend m f) s = .next t ∧ t.farPort id = { s.farPort id with reqs := rest } ∧ t.race.flight = s.race.flight ++ [⟨h, 0, true⟩] ∧
      (t.part p).invalid = true ∧ (t.part p).causes = (s.part p).causes ||| 2 ^ 6 ∧ OnlyPart p s t) ∧
  (∀ (s : State) (m : Mill) (f : Fin 2) (r : FpReq) (rest : List FpReq),
    let id := 2 * m.val + f.val
    let h := s.fpHeader id r true
    (s.farPort id).prefetch = r :: rest → r.write = false → (∀ k, k < 64 → s.on (F.RACE_STSEL_en k) = false) →
    ∃ t, exec (.prefetchSend m f) s = .next t ∧ t.farPort id = { s.farPort id with prefetch := rest } ∧ (∀ i, i ≠ id → t.farPort i = s.farPort i) ∧
      t.race.sent = { hdr := h } :: s.race.sent ∧ t.race.flight = s.race.flight ++ [⟨h, 0, false⟩] ∧ hpf h = true ∧ hcmd h = 1 ∧ hinit h = id ∧ t.race.reqs = s.race.reqs ∧
      RegsBut [R.RACE_UNITS_LO, R.RACE_UNITS_HI] s t ∧ { t with regs := s.regs, race := s.race, dm := s.dm } = s) ∧
  (∀ (s : State) (m : Mill) (f : Fin 2) (j : Fin 32),
    let id := 2 * m.val + f.val
    let x := s.slot id j
    s.get F.MPORT_CTRL_timeout ≠ 0 → x.busy = true → x.owed = false → x.done = false →
    ∃ t, exec (.farTimeout m f j) s = .next t ∧ t.slot id j = { x with done := true, ok := false, data := 0 } ∧
      (∀ i k, k < 32 → (i, k) ≠ (id, j.val) → t.slot i k = s.slot i k) ∧ t.bit (F.MPORT_FAIL_ports (id / 32)) (id % 32) = true ∧
      RaisedOne s t 0x3006 (ownerField (s.fpPart id)) [id, j, x.step] ∧
      (∀ p, s.fpPart id = some p → s.running p = true → (t.part p).invalid = true ∧ (t.part p).causes = (s.part p).causes ||| 2 ^ 6) ∧
      (s.on F.MPORT_ERR_flag = false → t.get F.MPORT_ERR_kind = 1 ∧ t.get F.MPORT_ERR_slot = j ∧ t.get F.MPORT_ERR_source = id) ∧
      RegsBut ([R.MPORT_ERR, R.MPORT_FAIL (id / 32)] ++ evtRegs 0x3006 (ownerField (s.fpPart id))) s t ∧
      { t with regs := s.regs, dm := s.dm, parts := s.parts, lines := s.lines, evt := s.evt, mlipend := s.mlipend } = s) ∧
  (∀ (s : State) (m : Mill) (f : Fin 2) (j : Fin 32),
    let id := 2 * m.val + f.val
    s.get F.MPORT_CTRL_timeout ≠ 0 → (s.slot id j).busy = true → (s.slot id j).owed = true →
    ∃ t, exec (.farTimeout m f j) s = .next t ∧ t.slot id j = {} ∧ (∀ i k, k < 32 → (i, k) ≠ (id, j.val) → t.slot i k = s.slot i k) ∧
      { t with dm := s.dm } = s) ∧
  (∀ (s : State) (m : Mill) (f : Fin 2) (j : Fin 32), s.get F.MPORT_CTRL_timeout = 0 → exec (.farTimeout m f j) s = .next s)

/-- R152, R151, R154, R212, R214: of two Interleaved requests that wait in a channel the one with the earlier admission cycle, of equal ones a read
before a write, and of those the one of the lower initiator, is admitted first; an admitted read takes the bytes of its address as the writes
admitted before it leave them, an admitted write stores its bytes, and with no read waiting the write queues are drained to 16. The drain of a halt
leaves no request of the partition waiting. A run-ahead entry that expires is discarded and counted, with the read that was to fill it. -/
def Obligations.AdmissionOrder : Prop :=
  (∀ (s : State) (ch : Chan) (r1 r2 : DramReq),
    let h := r2.pk.hdr
    let x := s.chan ch
    (x.waiting = [r1, r2] ∨ x.waiting = [r2, r1]) → r1.held = false → r2.held = false → s.cstate ch ≠ 6 → hcmd h = 1 → hpf h = false → x.ahead = [] →
    (r2.admitAt < r1.admitAt ∨ (r2.admitAt = r1.admitAt ∧ (hcmd r1.pk.hdr ≠ 1 ∨ hinit h < hinit r1.pk.hdr))) →
    ∃ t, exec (.interleavedAdmission ch) s = .next t ∧ (t.chan ch).waiting = [r1] ∧
      (t.chan ch).reads = x.reads ++ [{ r2 with data := s.dramRead ch (haddr h) (16 * hlen h) }] ∧
      (∀ c, c ≠ ch.val → t.chan c = s.chan c) ∧ t.dram.mem = s.dram.mem ∧ { t with dram := s.dram } = s) ∧
  (∀ (s : State) (ch : Chan) (r : DramReq) (u : Unit128),
    let h := r.pk.hdr
    (s.chan ch).waiting = [r] → r.held = false → s.cstate ch ≠ 6 → hcmd h = 2 → hlen h = 1 → htail h = 0 → haddr h % 16 = 0 → haddr h + 16 ≤ 2 ^ 38 →
    r.pk.data = [u] → r.pk.poison = [] →
    ∃ t, exec (.interleavedAdmission ch) s = .next t ∧ (t.chan ch).waiting = [] ∧ t.dramRead ch (haddr h) 16 = natLe 16 u.toNat ∧
      (∀ k, k < dramKey ch (haddr h) ∨ dramKey ch (haddr h) + 16 ≤ k → mget dramByte t.dram.mem k = mget dramByte s.dram.mem k) ∧
      (∀ e ∈ (t.chan ch).ahead, e.line ≠ haddr h / 64) ∧ (∀ q ∈ (s.chan ch).reads, hpf q.pk.hdr = false → q ∈ (t.chan ch).reads) ∧
      (s.cstate ch = 4 → (s.chan ch).reads = [] → ∀ sub, sub < 2 → ((t.chan ch).writes.filter (fun w => w.line % 2 == sub)).length ≤ 16) ∧
      (∀ c, c ≠ ch.val → t.chan c = s.chan c) ∧ RegsBut [R.MPORT_PFDISC] s t ∧ { t with regs := s.regs, dram := s.dram } = s) ∧
  (∀ (s : State) (p : Part),
    ∃ t, exec (.haltDrainEnd p) s = .next t ∧ (t.part p).draining = false ∧ OnlyPart p s t ∧
      (∀ c, c < 16 → s.cstate c ≠ 6 → ∀ r ∈ (t.chan c).waiting, hctx r.pk.hdr = p.val → r.held = true) ∧ t.stones = s.stones ∧ t.hop = s.hop) ∧
  (∀ (s : State) (ch : Chan) (m : Mill) (f : Fin 2) (e : RunAhead),
    (s.chan ch).ahead.find? (fun r => r.port == 2 * m.val + f.val && r.line == e.line) = some e →
    ∃ t, exec (.runaheadExpire ch m f e.line) s = .next t ∧ (t.chan ch).ahead = (s.chan ch).ahead.erase e ∧ (t.chan ch).fetching (2 * m.val + f.val) e.line = false ∧
      (∀ q ∈ (s.chan ch).reads, hpf q.pk.hdr = false → q ∈ (t.chan ch).reads) ∧
      { t.chan ch with ahead := (s.chan ch).ahead, reads := (s.chan ch).reads } = s.chan ch ∧
      (∀ c, c ≠ ch.val → t.chan c = s.chan c) ∧ t.get F.MPORT_PFDISC_count = min (s.get F.MPORT_PFDISC_count + 1) (2 ^ F.MPORT_PFDISC_count.width - 1) ∧
      RegsBut [R.MPORT_PFDISC] s t ∧ t.dram.mem = s.dram.mem ∧ { t with regs := s.regs, dram := s.dram } = s)

/-- R213, R214, R219, R220, R221: the read that a subchannel serves next, when its lines are good, departs with its bytes and status OK, and one that
departs after its deadline is counted with the greatest lateness; one with an uncorrectable line is answered with status ECC, and the first error is
recorded and raised. A scrub of an uncorrectable line records and raises it as the scrubber's, one of a corrected line counts it. Replays are
counted; three that fail put the channel into fault and raise it. R202, R203, R206, R209, R215, R216, R217, R223: a channel without modules is
absent; accepted modules set its population and make it untrained; modules of another kind are refused with reason 1. Training starts on an accepted
channel that no running partition is bound to, and ends ready, or in failure with the step, rank and lane. Slices are given to owners while those
involved are EMPTY. A refresh is postponed while a request for the rank is at the steering level, up to the limit, and made up later; a rank without
traffic powers down; a module reports its refresh rate. -/
def Obligations.DramPorts : Prop :=
  (∀ (s : State) (ch : Chan) (sub : Fin 2) (line : Nat) (now closed : List Nat) (r : DramReq),
    let h := r.pk.hdr
    let x := s.chan ch
    let cyc := now.getD (hctx h) (s.cycleNow (hctx h))
    s.cstate ch = 4 → (s.closeIdle ch closed).nextRead ch sub now = some r → hpf h = false → (∀ l, s.lineBad ch l = false) →
    s.isolated (htarget h) = false → s.answeredFor h = false →
    ∃ t, exec (.dramReadComplete ch sub line .clean now closed) s = .next t ∧ t.race.sent = respond h 0 (bytesUnits (hlen h) r.data) :: s.race.sent ∧
      (t.chan ch).reads = x.reads.erase r ∧ (t.chan ch).waiting = x.waiting ∧ (t.chan ch).ahead = x.ahead ∧ (∀ c, c ≠ ch.val → t.chan c = s.chan c) ∧
      (∀ d, s.deadline r = some d → d < cyc →
        t.get (F.DDRC_LATE_high ch) = min (s.get (F.DDRC_LATE_high ch) + 1) (2 ^ (F.DDRC_LATE_high ch).width - 1) ∧
        t.get (F.DDRC_LATE_low ch) = min 65535 (max (s.get (F.DDRC_LATE_low ch)) (cyc - d))) ∧
      ((∀ d, s.deadline r = some d → cyc ≤ d) → RegsSame s t) ∧ RegsBut [R.DDRC_LATE ch] s t ∧ t.dram.mem = s.dram.mem ∧
      (∀ l, (∀ w ∈ x.writes, w.line ≠ l) → t.lineBad ch l = false) ∧ { t with regs := s.regs, race := s.race, dram := s.dram } = s) ∧
  (∀ (s : State) (ch : Chan) (sub : Fin 2) (now closed : List Nat) (r : DramReq),
    let h := r.pk.hdr
    let part := if hinit h < 0x200 then hctx h else 0xFF
    s.cstate ch = 4 → (s.closeIdle ch closed).nextRead ch sub now = some r → hpf h = false → hlen h = 1 → haddr h % 16 = 0 → haddr h < 2 ^ 38 →
    s.on (F.DDRC_UE_ue_flag ch) = false → s.isolated (htarget h) = false → s.answeredFor h = false →
    ∃ t, exec (.dramReadComplete ch sub 0 .uncorrectable now closed) s = .next t ∧ t.race.sent = respond h 2 (bytesUnits 1 r.data) :: s.race.sent ∧
      t.lineBad ch (haddr h / 64) = true ∧ t.get (F.DDRC_UE_ue_flag ch) = 1 ∧ t.get (F.DDRC_UE_source ch) = (if hinit h < 0x200 then 1 else 2) ∧
      (t.reg (R.DDRC_ERRADDR_LO ch)).toNat = haddr h / 64 * 64 % 2 ^ 32 ∧ (t.reg (R.DDRC_ERRADDR_HI ch)).toNat = haddr h / 64 * 64 / 2 ^ 32 % 64 ∧
      (t.reg R.EVT_LAST).toNat = part * 0x10000 + 0x300A ∧ (t.chan ch).reads = (s.chan ch).reads.erase r ∧
      RegsBut ([R.DDRC_UE ch, R.DDRC_ERRADDR_LO ch, R.DDRC_ERRADDR_HI ch, R.DDRC_LATE ch] ++ evtRegs 0x300A part) s t ∧
      { t with regs := s.regs, race := s.race, dram := s.dram, evt := s.evt, mlipend := s.mlipend } = s) ∧
  (∀ (s : State) (ch : Chan) (sub : Fin 2) (line : Nat) (e : WordEcc) (now closed : List Nat), s.cstate ch ≠ 4 →
    exec (.dramReadComplete ch sub line e now closed) s = .next s) ∧
  (∀ (s : State) (ch : Chan) (line : Nat),
    s.get (F.DDRC_SCRUB_period ch) ≠ 0 → s.get (F.DDRC_STATUS_state ch) = 4 → 64 * line < s.chanSize ch → s.lineBad ch line = false →
    ∃ t, exec (.patrolScrub ch line .corrected) s = .next t ∧
      t.get (F.DDRC_SCRUB_progress ch) = 64 * line * 65536 / s.chanSize ch ∧
      t.get (F.DDRC_CE_ce_count ch) = min (s.get (F.DDRC_CE_ce_count ch) + 1) (2 ^ (F.DDRC_CE_ce_count ch).width - 1) ∧
      RegsBut [R.DDRC_SCRUB ch, R.DDRC_CE ch] s t ∧ OnlyRegs s t) ∧
  (∀ (s : State) (ch : Chan) (line : Nat),
    s.get (F.DDRC_SCRUB_period ch) ≠ 0 → s.get (F.DDRC_STATUS_state ch) = 4 → 64 * line < s.chanSize ch → s.on (F.DDRC_UE_ue_flag ch) = false →
    ∃ t, exec (.patrolScrub ch line .uncorrectable) s = .next t ∧ t.lineBad ch line = true ∧ t.get (F.DDRC_UE_ue_flag ch) = 1 ∧
      t.get (F.DDRC_UE_source ch) = 3 ∧ (t.reg R.EVT_LAST).toNat = 0xFF * 0x10000 + 0x300A ∧ t.dram.mem = s.dram.mem ∧
      RegsBut ([R.DDRC_SCRUB ch, R.DDRC_UE ch, R.DDRC_ERRADDR_LO ch, R.DDRC_ERRADDR_HI ch] ++ evtRegs 0x300A 0xFF) s t) ∧
  (∀ (s : State) (ch : Chan) (n : Nat) (failed : Bool),
    ∃ t, exec (.alertN ch n failed) s = .next t ∧
      t.get (F.DDRC_ALERT_high ch) = min (s.get (F.DDRC_ALERT_high ch) + 1) (2 ^ (F.DDRC_ALERT_high ch).width - 1) ∧
      t.get (F.DDRC_ALERT_low ch) = min (s.get (F.DDRC_ALERT_low ch) + n) (2 ^ (F.DDRC_ALERT_low ch).width - 1) ∧
      (failed = false → RegsBut [R.DDRC_ALERT ch] s t ∧ OnlyRegs s t) ∧
      (failed = true → t.get (F.DDRC_STATUS_state ch) = 6 ∧ RaisedOne s t 0x300B 0xFF [ch, (t.reg (R.DDRC_ALERT ch)).toNat] ∧
        RegsBut ([R.DDRC_ALERT ch, R.DDRC_STATUS ch, R.GOV_SMMIS_LO, R.GOV_SMMIS_HI] ++ evtRegs 0x300B 0xFF) s t ∧ OnlyEvents s t)) ∧
  (∀ (s : State) (ch : Chan), ∃ t, exec (.spdReadComplete ch []) s = .next t ∧ t.reg (R.DDRC_POP ch) = 0 ∧ t.get (F.DDRC_STATUS_state ch) = 0 ∧
    RegsBut [R.DDRC_POP ch, R.DDRC_STATUS ch, R.GOV_SMMIS_LO, R.GOV_SMMIS_HI] s t ∧ OnlyRegs s t) ∧
  (∀ (s : State) (ch : Chan) (x : Spd) (dense : Bool),
    x.registered = true → x.sideEcc = true → x.x4 = true → x.density = some dense → (x.height = 1 ∨ x.height = 2 ∨ x.height = 4) →
    (x.ranks = 1 ∨ x.ranks = 2) → x.ranks * x.height * (if dense then 4 else 2) ≤ 16 → 4800 ≤ x.rated →
    ∃ t, exec (.spdReadComplete ch [x]) s = .next t ∧ t.get (F.DDRC_STATUS_state ch) = 2 ∧ t.get (F.DDRC_POP_dimms ch) = 1 ∧
      t.get (F.DDRC_POP_reason ch) = 0 ∧ t.get (F.DDRC_POP_slices ch) = x.ranks * x.height * (if dense then 4 else 2) ∧
      t.get F.CLK_STATUS_ddr_speed = (if s.on F.CLK_STATUS_ddr_speed = true ∧ 6400 ≤ x.rated then 1 else 0) ∧
      RegsBut [R.DDRC_POP ch, R.DDRC_STATUS ch, R.CLK_STATUS, R.GOV_SMMIS_LO, R.GOV_SMMIS_HI] s t ∧ { t with regs := s.regs, dram := s.dram } = s) ∧
  (∀ (s : State) (ch : Chan) (x : Spd),
    let kind := !x.registered || !x.sideEcc || !([1, 2, 4].contains x.height)
    (kind = true ∨ x.x4 = false ∨ x.density = none) →
    ∃ t, exec (.spdReadComplete ch [x]) s = .next t ∧ t.get (F.DDRC_STATUS_state ch) = 1 ∧
      t.get (F.DDRC_POP_reason ch) = (if kind then 1 else if x.x4 then 3 else 2) ∧
      RaisedOne s t 0x3007 0xFF [ch, (t.reg (R.DDRC_POP ch)).toNat] ∧
      RegsBut ([R.DDRC_POP ch, R.DDRC_STATUS ch, R.CLK_STATUS, R.GOV_SMMIS_LO, R.GOV_SMMIS_HI] ++ evtRegs 0x3007 0xFF) s t ∧
      { t with regs := s.regs, dram := s.dram, evt := s.evt, mlipend := s.mlipend } = s) ∧
  (∀ (s : State) (ch : Chan),
    s.chanBusy ch = false → 2 ≤ s.get (F.DDRC_STATUS_state ch) → s.get (F.DDRC_STATUS_state ch) ≠ 3 →
    ∃ t, exec (.ddrcTrain ch) s = .next t ∧ t.get (F.DDRC_STATUS_state ch) = 3 ∧ t.get (F.DDRC_TRAIN_step ch) = 1 ∧
      t.get (F.DDRC_REF_postponed ch) = 0 ∧ (t.chan ch).reads = [] ∧ (t.chan ch).waiting = [] ∧ (t.chan ch).writes = [] ∧ (∀ c, c ≠ ch.val → t.chan c = s.chan c) ∧
      RegsBut [R.DDRC_STATUS ch, R.DDRC_TRAIN ch, R.DDRC_REF ch, R.GOV_SMMIS_LO, R.GOV_SMMIS_HI] s t ∧ t.dram.mem = s.dram.mem ∧ { t with regs := s.regs, dram := s.dram } = s) ∧
  (∀ (s : State) (ch : Chan) (ms : BitVec 16),
    s.get (F.DDRC_STATUS_state ch) = 3 →
    ∃ t, exec (.trainingComplete ch none [] ms) s = .next t ∧ t.get (F.DDRC_STATUS_state ch) = 4 ∧ t.get (F.DDRC_TRAIN_duration ch) = ms.toNat ∧
      RegsBut [R.DDRC_STATUS ch, R.DDRC_TRAIN ch, R.DPHY_CTRL ch] s t ∧ OnlyRegs s t) ∧
  (∀ (s : State) (ch : Chan) (ms : BitVec 16) (step : Fin 8) (rank : Fin 16) (lane : Fin 20),
    s.get (F.DDRC_STATUS_state ch) = 3 →
    ∃ t, exec (.trainingComplete ch (some (step, rank, lane)) [] ms) s = .next t ∧ t.get (F.DDRC_STATUS_state ch) = 5 ∧
      t.get (F.DDRC_TRAIN_step ch) = step.val + 1 ∧ t.get (F.DDRC_TRAIN_lane ch) = lane ∧
      RaisedOne s t 0x3008 0xFF [ch, (t.reg (R.DDRC_TRAIN ch)).toNat] ∧
      RegsBut ([R.DDRC_STATUS ch, R.DDRC_TRAIN ch] ++ evtRegs 0x3008 0xFF) s t ∧ OnlyEvents s t) ∧
  (∀ (s : State) (ch : Chan) (hi : Bool) (v : Word),
    let a := if hi then R.DDRC_OWN_HI ch else R.DDRC_OWN_LO ch
    (∀ i, i < 8 → v.toNat / 16 ^ i % 16 ≤ 4) → (∀ p, p < 4 → s.pstate p = 0) → (∀ i, i < 8 → (s.reg a).toNat / 16 ^ i % 16 ≤ 4) →
    (if hi then 16 else 8) ≤ s.get (F.DDRC_POP_slices ch) →
    ∃ t, exec (.ddrcOwnWrite ch hi v) s = .next t ∧ t.reg a = v ∧ RegsBut [a] s t ∧ OnlyRegs s t) ∧
  (∀ (s : State) (ch : Chan) (rank : Fin 16) (now : List Nat),
    let limit := if s.on (F.DDRC_CTRL_fgr ch) then 8 else 4
    let n := mget (fun _ => 0) (s.chan ch).postponed rank
    let m := mget (fun _ => 0)
    s.cstate ch = 4 →
    ∃ t, exec (.refreshDue ch rank now) s = .next t ∧
      (n < limit → s.steered ch rank now = true → m (t.chan ch).postponed rank = n + 1 ∧ RegsBut [R.DDRC_REF ch] s t) ∧
      (n < limit → s.steered ch rank now = false → m (t.chan ch).postponed rank = n ∧ RegsSame s t) ∧
      (limit ≤ n → m (t.chan ch).postponed rank = n ∧
        t.get (F.DDRC_REFSTAT_high ch) = min (s.get (F.DDRC_REFSTAT_high ch) + 1) (2 ^ (F.DDRC_REFSTAT_high ch).width - 1) ∧ RegsBut [R.DDRC_REFSTAT ch] s t) ∧
      (∀ c, c ≠ ch.val → t.chan c = s.chan c) ∧ t.dram.mem = s.dram.mem ∧ { t with regs := s.regs, dram := s.dram } = s) ∧
  (∀ (s : State) (ch : Chan) (rank : Fin 16) (now : List Nat) (r : DramReq),
    let steer := s.get (F.DDRC_REF_steer_level ch)
    steer ≠ 0 → r ∈ (s.chan ch).reads → s.physRank ch (s.rankOf ch (haddr r.pk.hdr)) = rank.val → steer ≤ hurg r.pk.hdr →
    s.steered ch rank now = true) ∧
  (∀ (s : State) (ch : Chan) (rank : Fin 16) (k : Nat) (now : List Nat),
    let n := mget (fun _ => 0) (s.chan ch).postponed rank
    n ≠ 0 → k ≠ 0 → s.cstate ch = 4 → s.steered ch rank now = false →
    ∃ t, exec (.refreshMakeup ch rank k now) s = .next t ∧ mget (fun _ => 0) (t.chan ch).postponed rank = n - k ∧
      t.get (F.DDRC_REFSTAT_low ch) = min (s.get (F.DDRC_REFSTAT_low ch) + 1) (2 ^ (F.DDRC_REFSTAT_low ch).width - 1) ∧
      RegsBut [R.DDRC_REF ch, R.DDRC_REFSTAT ch] s t ∧ t.dram.mem = s.dram.mem ∧ { t with regs := s.regs, dram := s.dram } = s) ∧
  (∀ (s : State) (ch : Chan) (rank : Fin 16),
    s.get (F.DDRC_PD_idle ch) ≠ 0 → s.cstate ch = 4 →
    ∃ t, exec (.powerDownEntry ch rank) s = .next t ∧ mget (fun _ => false) (t.chan ch).powerDown rank = true ∧
      { t.chan ch with powerDown := (s.chan ch).powerDown } = s.chan ch ∧ (∀ c, c ≠ ch.val → t.chan c = s.chan c) ∧ { t with dram := s.dram } = s) ∧
  (∀ (s : State) (ch : Chan) (rank : Fin 16) (d : Bool),
    ∃ t, exec (.mr4RateReport ch rank d) s = .next t ∧ mget (fun _ => false) (t.chan ch).doubled rank = d ∧ (d = true → t.get (F.DDRC_TEMP_rate ch) = 2) ∧
      RegsBut [R.DDRC_TEMP ch] s t ∧ (∀ c, c ≠ ch.val → t.chan c = s.chan c) ∧ { t with regs := s.regs, dram := s.dram } = s)

/-! ## Spokes -/

/-- R182, R183, R184, R180, R196, R200: a write of SPK_CTRL sets its fields, a role only when it is assigned one, loopback only while the spoke's
partition does not run; a spoke that is switched on begins training, one that is switched off loses every lane. The fourth training block in a row
locks its lane. A slip moves the boundary by one unit interval of 66 and what matched matches no more. An eye that falls below fom_low raises
SPOKE_EYE_LOW once. A lane that goes down is a spoke fault of kind 5. In tx_mode 3 the errored bits of the PRBS31 pattern are counted. -/
def Obligations.SpokeLanes : Prop :=
  (∀ (s : State) (sp : Spoke) (v : Word),
    s.spokeExists sp = true →
    ∃ t, exec (.spokeCtrlWrite sp v) s = .next t ∧ t.get (F.SPK_CTRL_en sp) = (F.SPK_CTRL_en sp).of v ∧
      t.get (F.SPK_CTRL_fom_low sp) = (F.SPK_CTRL_fom_low sp).of v ∧
      t.get (F.SPK_CTRL_role sp) = (if (F.SPK_CTRL_role sp).of v < 6 then (F.SPK_CTRL_role sp).of v else s.get (F.SPK_CTRL_role sp)) ∧
      t.get (F.SPK_CTRL_loopback sp) = (if (match s.spokeOwner sp with | some p => s.running p | none => false) then s.get (F.SPK_CTRL_loopback sp)
        else (F.SPK_CTRL_loopback sp).of v) ∧
      ((F.SPK_CTRL_en sp).of v = 1 → (s.get (F.SPK_STATUS_state sp) = 0 ∨ (s.get (F.SPK_STATUS_state sp) = 6 ∧ (F.SPK_CTRL_tx_mode sp).of v = 1)) →
        t.get (F.SPK_STATUS_state sp) = 1 ∧ (t.spoke sp).peerInfo = []) ∧
      ((F.SPK_CTRL_en sp).of v = 0 → t.get (F.SPK_STATUS_state sp) = 0 ∧
        ∀ l, l < 8 → t.get (F.LANE_STAT_lock (laneIdx sp l)) = 0 ∧ t.bit (F.SPK_STATUS_locked sp) l = false) ∧
      RegsBut ([R.SPK_CTRL sp, R.SPK_STATUS sp, R.SPK_PEER sp, R.GOV_SMMIS_LO, R.GOV_SMMIS_HI] ++ (List.range 8).map (fun l => R.LANE_STAT (laneIdx sp l))) s t ∧
      { t with regs := s.regs, parts := s.parts, spokes := s.spokes, gov := s.gov } = s) ∧
  (∀ (s : State) (sp : Spoke) (l : Fin 8) (block : BitVec 64) (skew : Nat),
    s.spokeExists sp = true → s.on (F.SPK_CTRL_en sp) = true → s.get (F.SPK_CTRL_tx_mode sp) ≠ 3 → s.on (F.SPK_CTRL_loopback sp) = false → block.toNat % 2 ^ 16 = 0xD5 + l.val * 2 ^ 8 → (s.laneSt sp l).plain = 3 →
    ∃ t, exec (.trainingBlockReceive sp l 2 block skew) s = .next t ∧ t.get (F.LANE_STAT_lock (laneIdx sp l)) = 1 ∧
      t.get (F.LANE_STAT_pattern_ok (laneIdx sp l)) = 1 ∧ t.get (F.LANE_STAT_polarity (laneIdx sp l)) = 0 ∧ t.bit (F.SPK_STATUS_locked sp) l = true ∧
      (t.laneSt sp l).plain = 4 ∧ RegsBut [R.LANE_STAT (laneIdx sp l), R.SPK_STATUS sp, R.SPK_PEER sp] s t ∧
      { t with regs := s.regs, spokes := s.spokes, gov := s.gov } = s) ∧
  (∀ (s : State) (sp : Spoke) (l : Fin 8),
    s.spokeExists sp = true →
    ∃ t, exec (.laneSlip sp l) s = .next t ∧ t.laneSt sp l = { boundary := ((s.laneSt sp l).boundary + 1) % 66 } ∧
      t.get (F.LANE_STAT_pattern_ok (laneIdx sp l)) = 0 ∧ t.get (F.LANE_STAT_slip (laneIdx sp l)) = 0 ∧
      RegsBut [R.LANE_STAT (laneIdx sp l)] s t ∧ { t with regs := s.regs, spokes := s.spokes } = s) ∧
  (∀ (s : State) (sp : Spoke) (l : Fin 8) (fom : BitVec 8),
    s.spokeExists sp = true → fom.toNat < s.get (F.SPK_CTRL_fom_low sp) → (s.spoke sp).lowSent = false →
    ∃ t, exec (.fomRefresh sp l fom) s = .next t ∧ t.get (F.LANE_STAT_fom (laneIdx sp l)) = fom.toNat ∧ (t.spoke sp).lowSent = true ∧
      t.get (F.SPK_STATUS_min_fom sp) ≤ fom.toNat ∧ RaisedOne s t 0x4006 (ownerField (s.spokeOwner sp)) [sp, l, fom.toNat] ∧
      RegsBut ([R.LANE_STAT (laneIdx sp l), R.SPK_STATUS sp] ++ evtRegs 0x4006 (ownerField (s.spokeOwner sp))) s t ∧
      { t with regs := s.regs, spokes := s.spokes, evt := s.evt, mlipend := s.mlipend } = s) ∧
  (∀ (s : State) (sp : Spoke) (l : Fin 8) (fom : BitVec 8),
    s.spokeExists sp = true → s.get (F.SPK_CTRL_fom_low sp) ≤ fom.toNat →
    (∀ j, j < 8 → s.get (F.SPK_CTRL_fom_low sp) ≤ s.get (F.LANE_STAT_fom (laneIdx sp j))) →
    ∃ t, exec (.fomRefresh sp l fom) s = .next t ∧ t.get (F.LANE_STAT_fom (laneIdx sp l)) = fom.toNat ∧ (t.spoke sp).lowSent = false ∧
      RegsBut [R.LANE_STAT (laneIdx sp l), R.SPK_STATUS sp] s t ∧ { t with regs := s.regs, spokes := s.spokes } = s) ∧
  (∀ (s : State) (sp : Spoke) (l : Fin 8),
    s.spokeExists sp = true → s.on (F.SPK_CTRL_en sp) = true → s.spokeOwner sp = none → s.on (F.SPK_ERR_flag sp) = false →
    ∃ t, exec (.spokeLaneDown sp l) s = .next t ∧ t.get (F.SPK_STATUS_state sp) = 6 ∧ t.get (F.SPK_ERR_flag sp) = 1 ∧
      t.get (F.SPK_ERR_kind sp) = 5 ∧ t.get (F.SPK_ERR_lane sp) = l ∧ t.get (F.LANE_STAT_lock (laneIdx sp l)) = 0 ∧
      RaisedOne s t 0x400A 0xFF [sp, 5, l, (s.spoke sp).rxNext % 4096] ∧
      RegsBut ([R.LANE_STAT (laneIdx sp l), R.SPK_STATUS sp, R.SPK_ERR sp] ++ evtRegs 0x400A 0xFF) s t ∧
      { t with regs := s.regs, spokes := s.spokes, evt := s.evt, mlipend := s.mlipend } = s) ∧
  (∀ (s : State) (sp : Spoke) (l : Fin 8) (p : Nat),
    s.spokeExists sp = true → s.on (F.SPK_CTRL_en sp) = true → s.spokeOwner sp = some p → s.running p = true → s.on (F.SPK_ERR_flag sp) = false →
    ∃ t, exec (.spokeLaneDown sp l) s = .next t ∧ t.get (F.LANE_STAT_lock (laneIdx sp l)) = 0 ∧
      SpokeFaulted s t sp p 5 l ((s.spoke sp).rxNext % 4096) 0x400A (s.dueNext p (s.spoke sp).rxNext)) ∧
  (∀ (s : State) (sp : Spoke) (l : Fin 8) (sync : BitVec 2) (block : BitVec 64) (skew : Nat),
    let bits := lowBits 2 sync.toNat ++ lowBits 64 block.toNat
    let seen := if s.on (F.LANE_STAT_polarity (laneIdx sp l)) then bits.map not else bits
    s.spokeExists sp = true → s.on (F.SPK_CTRL_en sp) = true → s.get (F.SPK_CTRL_tx_mode sp) = 3 → s.on (F.SPK_CTRL_loopback sp) = false →
    ∃ t, exec (.trainingBlockReceive sp l sync block skew) s = .next t ∧
      t.get (F.SPK_ERR_count sp) = min (s.get (F.SPK_ERR_count sp) + (prbsErrors seen (s.laneSt sp l).prbs).1) (2 ^ (F.SPK_ERR_count sp).width - 1) ∧
      RegsBut [R.SPK_ERR sp] s t ∧ { t with regs := s.regs, spokes := s.spokes } = s)

/-- R185, R186, R187, R188, R190, R192, R195, R196, R197: a frame that a transmitting spoke sends holds its kind, its stamp, a word of each channel for
each of its cycles, the vote records due and their check; records that do not fit are a spoke fault of kind 6. A frame whose check fails is a spoke
fault of kind 1, one of another type or stamp than the next of a running partition of kind 2, one with a malformed record of kind 3, a late one of
kind 4: the spoke is in state 6, the fault is raised, and a running partition holds HALT_N low and marks the turn invalid. A measure frame keeps the
largest latency, any other frame of a partition that does not run changes nothing; a run frame's words enter the receive buffer L slots on. -/
def Obligations.SpokeFrames : Prop :=
  (∀ (s : State) (sp : Spoke) (p : Nat),
    let x := s.spoke sp
    let kind := s.frameKind p sp
    let first := x.txNext
    let recs := if kind = 1 then s.dueRecords p sp first else []
    let words := (List.range (framePeriod s.pace)).map (fun i => if kind = 1 then s.cycleWords p sp (first + i) else (0, 0))
    let f : Frame := ⟨kind, if kind = 0 then 0 else first % 4096, words, recs.map (s.encodeRecord p first), 0⟩
    s.spokeOwner sp = some p → s.get (F.SPK_CTRL_tx_mode sp) = 2 → recs.length ≤ frameRecords s.pace →
    ∃ t, exec (.spokeFrameSend sp) s = .next t ∧
      t.spoke sp = { x with sent := { f with crc := f.check s.pace } :: x.sent, txNext := if kind = 0 then first else first + framePeriod s.pace } ∧
      (∀ k, k ≠ sp.val → t.spoke k = s.spoke k) ∧ { t with spokes := s.spokes } = s) ∧
  (∀ (s : State) (sp : Spoke) (p : Nat),
    s.spokeOwner sp = some p → s.get (F.SPK_CTRL_tx_mode sp) = 2 → s.running p = true → frameRecords s.pace < (s.dueRecords p sp (s.spoke sp).txNext).length →
    s.on (F.SPK_ERR_flag sp) = false →
    ∃ t, exec (.spokeFrameSend sp) s = .next t ∧ SpokeFaulted s t sp p 6 0 ((s.spoke sp).txNext % 4096) 0x400B false) ∧
  (∀ (s : State) (sp : Spoke) (p ready : Nat) (f : Frame),
    let next := (s.spoke sp).rxNext
    s.spokeOwner sp = some p → s.on (F.SPK_CTRL_en sp) = true → s.on (F.SPK_CTRL_loopback sp) = false → (s.part p).spokeFault = false →
    s.running p = true → s.on (F.SPK_ERR_flag sp) = false →
    ∃ t, exec (.spokeFrameReceive sp f ready) s = .next t ∧
      (f.crc ≠ f.check s.pace → SpokeFaulted s t sp p 1 0 (next % 4096) 0x4008 (s.dueNext p next)) ∧
      (f.crc = f.check s.pace → (f.kind ≠ 1 ∨ f.stamp ≠ next % 4096) → SpokeFaulted s t sp p 2 0 f.stamp 0x4008 (s.dueNext p next)) ∧
      (f.crc = f.check s.pace → f.kind = 1 → f.stamp = next % 4096 → ready ≤ next + s.hopBudget p → s.takeRecords p sp next f.records = none →
        SpokeFaulted s t sp p 3 0 f.stamp 0x4008 (s.dueNext p next)) ∧
      (f.crc = f.check s.pace → f.kind = 1 → f.stamp = next % 4096 → next + s.hopBudget p < ready →
        SpokeFaulted s t sp p 4 0 f.stamp 0x4009 (s.dueNext p next))) ∧
  (∀ (s : State) (sp : Spoke) (p ready : Nat) (f : Frame),
    let next := (s.spoke sp).rxNext
    let l := s.get (F.TURN_CONFIG_l p)
    let d := s.depth p
    let w (i : Nat) := f.payload.getD i (0, 0)
    s.spokeOwner sp = some p → s.on (F.SPK_CTRL_en sp) = true → s.on (F.SPK_CTRL_loopback sp) = false → (s.part p).spokeFault = false →
    s.running p = true → f.crc = f.check s.pace → f.kind = 1 → f.stamp = next % 4096 → ready ≤ next + s.hopBudget p → f.records = [] →
    ∃ t, exec (.spokeFrameReceive sp f ready) s = .next t ∧
      (∀ i, i < framePeriod s.pace → ∀ n, s.slotAt p (next + i) = some (n, false) →
        let b := sp.val * 8192 + (if n + l < d then n + l else 4096 + (n + l - d))
        mget (fun _ => 0) t.spokeRx (2 * b) = (w i).1 ∧
        mget (fun _ => 0) t.spokeRx (2 * b + 1) = (if s.pace = 2 then BitVec.ofNat 128 ((w i).2.toNat % 2 ^ 64) else (w i).2)) ∧
      (∀ k, k / 16384 ≠ sp.val → mget (fun _ => 0) t.spokeRx k = mget (fun _ => 0) s.spokeRx k) ∧
      t.get (F.SPK_LAT_min_slack sp) = min (s.get (F.SPK_LAT_min_slack sp)) (next + s.hopBudget p - ready) ∧
      t.spoke sp = { s.spoke sp with rxNext := next + framePeriod s.pace } ∧ (∀ k, k ≠ sp.val → t.spoke k = s.spoke k) ∧
      RegsBut [R.SPK_LAT sp] s t ∧ { t with regs := s.regs, spokes := s.spokes, spokeRx := s.spokeRx } = s) ∧
  (∀ (s : State) (sp : Spoke) (p ready : Nat) (f : Frame),
    let x := s.spoke sp
    s.spokeOwner sp = some p → s.on (F.SPK_CTRL_en sp) = true → s.on (F.SPK_CTRL_loopback sp) = false → (s.part p).spokeFault = false →
    s.running p = false → (s.part p).turnBase ≤ x.rxNext → f.crc = f.check s.pace → f.kind < 3 →
    ∃ t, exec (.spokeFrameReceive sp f ready) s = .next t ∧
      ((s.measuringNow p = false ∨ f.kind ≠ 2) → t = s) ∧
      (s.measuringNow p = true → f.kind = 2 → f.stamp = x.rxNext % 4096 →
        t.spoke sp = { x with measuring := some (max (ready - x.rxNext) (x.measuring.getD 0)), rxNext := x.rxNext + framePeriod s.pace } ∧
        (∀ k, k ≠ sp.val → t.spoke k = s.spoke k) ∧ { t with spokes := s.spokes } = s)) ∧
  (∀ (s : State) (sp : Spoke) (p : Nat),
    let next := (s.spoke sp).rxNext
    s.spokeOwner sp = some p → (s.part p).spokeFault = false → s.running p = true → s.on (F.SPK_ERR_flag sp) = false →
    ∃ t, exec (.spokeLateFrame sp) s = .next t ∧ SpokeFaulted s t sp p 4 0 (next % 4096) 0x4009 (s.dueNext p next)) ∧
  (∀ (s : State) (sp : Spoke) (p ready : Nat) (f : Frame), s.spokeOwner sp = some p → (s.part p).spokeFault = true →
    exec (.spokeFrameReceive sp f ready) s = .next s)

/-! ## Run control and the system lines -/

/-- R333, R334, R335, R336, R337, R276, R277: RUN and STEP of a partition that is HALTED, or LOADED and released, that the loader does not hold, that
has no start pending and whose context is whole, arm their count (1 for STEP). In a single-module partition, and in the lead of one of several
modules, the start is then pending and the command in progress: the lead drives SYNC_N; another module's command completes at once with the count.
Any other RUN or STEP completes with RUN_STATE and changes nothing else. HALT of a RUNNING partition makes it halt with reason 1, by a pulse on
HALT_N in one of several modules; of a HALTED one it completes at once with status 0. R63, R334, R158, R406, R387, R459: a pending start of a
single-module partition whose far ports owe no slot, whose domains are in Run and whose rails have returned, with no pace change under way, takes
place: the partition is RUNNING, its armed count stands in DBG_RUNLEFT, no halt reason and no mark of an earlier turn is left, and a start at turn 0
clears the turn counters and anchors TB1, and the REFCLK edge of the start and its cycle are kept (R194). -/
def Obligations.RunRingAndStarts : Prop :=
  (∀ (s : State) (ring : Fin 4) (d : BitVec 512) (step : Bool),
    let p := dPart d
    let op := if step then 0x22 else 0x20
    let n := if step then 1 else dParam d % 2 ^ 64
    let x := s.part p
    s.Begins ring d → dOp d = op → (s.pstate p = 4 ∨ (s.pstate p = 2 ∧ x.released = true)) → s.loaderHas p = false → x.startPend = false → x.contextLost = false →
    ∃ t, exec (if step then .step ring else .run ring) s = .next t ∧ OnlyPart p s t ∧ (t.ring ring).fetched = (s.ring ring).fetched.tail ∧ t.pstate p = s.pstate p ∧
      ((s.multi p = false ∨ s.leads p = true) →
        t.part p = { x with armed := some n, dbgReq := 0, startPend := true, waiters := x.waiters ++ [⟨ring, s.host.serial, op⟩] } ∧
        (t.ring ring).running = some (s.host.serial, d)) ∧
      (s.multi p = true → s.leads p = true → t.lines = { s.lines with syncPulse := true }) ∧
      (s.multi p = true → s.leads p = false → t.part p = { x with armed := some n, dbgReq := 0 } ∧ Completed s t ring d 0 n) ∧
      (s.multi p = false → t.lines = s.lines ∧
        (s.railsHeld = false → ∀ q, q < 4 → s.ownsQuad p q = true → t.get (F.GOV_VFLUME_target q) = s.inRange q (mget (fun _ => 750) s.gov.run q))) ∧
      { t with regs := s.regs, parts := s.parts, host := s.host, gov := s.gov, evt := s.evt, mlipend := s.mlipend, lines := s.lines } = s) ∧
  (∀ (s : State) (ring : Fin 4) (d : BitVec 512) (step : Bool),
    let p := dPart d
    let x := s.part p
    s.Begins ring d → dOp d = (if step then 0x22 else 0x20) →
    ((s.pstate p ≠ 2 ∧ s.pstate p ≠ 4) ∨ (s.pstate p = 2 ∧ x.released = false) ∨ s.loaderHas p = true ∨ x.startPend = true ∨ x.contextLost = true) →
    ∃ t, exec (if step then .step ring else .run ring) s = .next t ∧ Completed s t ring d 0x2005 0 ∧ { t with host := s.host } = s) ∧
  (∀ (s : State) (ring : Fin 4) (d : BitVec 512),
    let p := dPart d
    s.Begins ring d → dOp d = 0x21 → s.pstate p = 3 →
    ∃ t, exec (.halt ring) s = .next t ∧ OnlyPart p s t ∧
      t.part p = { s.part p with causes := (s.part p).causes ||| 2 ^ 1,
                                 causeTurn := if (s.part p).causes = 0 then s.turns p else (s.part p).causeTurn,
                                 waiters := (s.part p).waiters ++ [⟨ring, s.host.serial, 0x21⟩] } ∧
      t.lines = (if s.multi p = true ∧ s.lines.haltPending = false then { s.lines with haltPulse := true, haltOwn := true } else s.lines) ∧
      (t.ring ring).running = some (s.host.serial, d) ∧ { t with parts := s.parts, host := s.host, lines := s.lines } = s) ∧
  (∀ (s : State) (ring : Fin 4) (d : BitVec 512),
    s.Begins ring d → dOp d = 0x21 → s.pstate (dPart d) ≠ 3 →
    ∃ t, exec (.halt ring) s = .next t ∧ Completed s t ring d (if s.pstate (dPart d) = 4 then 0 else 0x2005) 0 ∧ { t with host := s.host } = s) ∧
  (∀ (s : State) (p : Part) (edge : Nat),
      (s.part p).startPend = true → s.multi p = false → s.startReady p = true → s.railsReady p = true → s.paceSettled = true → (s.part p).pendInvalid = false →
      (s.part p).waiters.all (fun w => w.op != 0x20) = true →
      (∀ q, q < 4 → s.ownsQuad p q = true → ∀ j, j < 128 → ∀ k, k < 32 → (s.slot (128 * q + j) k).busy = true → (s.slot (128 * q + j) k).owed = false) →
      ∃ t, exec (.partitionStart p edge) s = .next t ∧ t.pstate p = 3 ∧ (t.part p).startEdge = edge ∧ (t.part p).startCycle = (s.part p).turnBase ∧ t.get (F.PART_STATE_halt_reason p) = 0 ∧
        t.get64 (R.DBG_RUNLEFT_LO p) (R.DBG_RUNLEFT_HI p) = (s.part p).armed.getD 0 % 2 ^ 64 ∧
        (t.part p).armed = none ∧ (t.part p).startPend = false ∧ (t.part p).causes = 0 ∧ (t.part p).invalid = false ∧
        (t.part p).invalidToHalt = false ∧ (t.part p).bank = (s.part p).bank ∧
        ((s.part p).turn0 = true → t.turns p = 0 ∧ t.get (F.TB1_STATUS_anchored p) = 1 ∧ t.get (F.TB1_STATUS_first_invalid p) = 0 ∧
          t.get (F.TURN_STATUS_invalid_count p) = 0 ∧ t.get (F.TURN_STATUS_last_valid p) = 0 ∧ t.get (F.TURN_CTRL_clear p) = s.get (F.TURN_CTRL_clear p) ∧ (t.part p).invalidToTurn0 = false) ∧
        ((s.part p).turn0 = false → t.turns p = s.turns p ∧ (t.part p).invalidToTurn0 = (s.part p).invalidToTurn0 ∧
          RegsBut [R.PART_STATE p, R.DBG_RUNLEFT_LO p, R.DBG_RUNLEFT_HI p] s t) ∧
        OnlyPart p s t ∧ RegsBut ([R.PART_STATE p, R.DBG_RUNLEFT_LO p, R.DBG_RUNLEFT_HI p, R.TURN_COUNT_LO p, R.TURN_COUNT_HI p, R.TURN_QUANTA_LO p,
          R.TURN_QUANTA_HI p, R.TURN_LASTBRAKE p, R.TURN_STATUS p, R.TB1_STATUS p] ++ (List.range 8).map (R.TURN_CAUSE p)) s t ∧
        { t with regs := s.regs, parts := s.parts, gov := s.gov, watchFirst := s.watchFirst } = s)

/-- R418, R419, R193, R195, R358: an edge of a line that GPIO_SYSCTRL does not ignore and that has held as long as its filter sets the line's level, and
a falling one of HALT_N and SYNC_N, a rising one of CFG_DONE, a falling one of TRIG_X and TRIG_IN's edge of ACQ_XCFG.in_rising are pending; one that
has not held so long is counted as rejected, an ignored one does nothing. R193, R194, R197, R198, R337, R22: the pending HALT_N edge, acted on at a
REFCLK edge, stops every running partition of more than one module at the end of the turn that the partition cycle of that edge lies in: the turn in
progress, or the next when that cycle lies beyond it. A line another module or this one still pulls low, or this module's own pulse still on, makes
that turn and all until the next turn 0 invalid; reason 5 is another module's. The pulse ends. R358, R359, R376: TRIG_IN acted on marks, by source
0, every partition with src_in whose capture is enabled (one that drives TRIG_X pulls that line instead), TRIG_X marks by source 1, and 5 too when
this module launched it, in the turn in progress at the partition cycle of the edge acted on (R194): the next turn's where that cycle lies beyond
the last of this one; both trigger trace where TRC_TRIG says so. The pulse this module drives on TRIG_X ends. -/
def Obligations.SystemHaltAndTriggerLines : Prop :=
  (∀ (s : State) (line : Fin 5) (level : Bool) (cycles : Nat),
    s.bit F.GPIO_SYSCTRL_ignore line = true → exec (.systemLineEdge line level cycles) s = .next s) ∧
  (∀ (s : State) (line : Fin 5) (level : Bool) (cycles : Nat),
    let f := if line.val = 0 then s.get F.GPIO_SYSFILT_trig_in else if line.val < 3 then s.get F.GPIO_SYSFILT_halt_n else s.get F.GPIO_SYSFILT_sync_n
    s.bit F.GPIO_SYSCTRL_ignore line = false → 5 * cycles + 4 < 4 * f + 4 →
    ∃ t, exec (.systemLineEdge line level cycles) s = .next t ∧
      t.get F.GPIO_SYSSTAT_rejected = min (s.get F.GPIO_SYSSTAT_rejected + 1) (2 ^ F.GPIO_SYSSTAT_rejected.width - 1) ∧
      RegsBut [R.GPIO_SYSSTAT] s t ∧ { t with regs := s.regs } = s) ∧
  (∀ (s : State) (line : Fin 5) (level : Bool) (cycles : Nat),
    let f := if line.val = 0 then s.get F.GPIO_SYSFILT_trig_in else if line.val < 3 then s.get F.GPIO_SYSFILT_halt_n else s.get F.GPIO_SYSFILT_sync_n
    let x := s.lines
    s.bit F.GPIO_SYSCTRL_ignore line = false → 4 * f + 4 ≤ 5 * cycles + 4 → s.syncParts = [] →
    ∃ t, exec (.systemLineEdge line level cycles) s = .next t ∧ t.lines.levels.testBit line = level ∧
      (∀ k, k < 5 → k ≠ line.val → t.lines.levels.testBit k = x.levels.testBit k) ∧
      t.lines.cfgPending = (x.cfgPending || (line == 4 && level)) ∧ t.lines.syncPending = (x.syncPending || (line == 3 && !level)) ∧
      t.lines.haltSinceSync = (x.haltSinceSync && !(line == 3 && !level)) ∧ t.lines.haltPending = (x.haltPending || (line == 2 && !level)) ∧
      t.lines.trigXPending = (x.trigXPending || (line == 1 && !level)) ∧
      t.lines.trigInPending = (x.trigInPending || (line == 0 && level == s.on F.ACQ_XCFG_in_rising)) ∧
      { t with lines := s.lines } = s) ∧
  (∀ (s : State) (cycles : Nat) (p : Part),
    s.bit F.GPIO_SYSCTRL_ignore 3 = false → s.get F.GPIO_SYSFILT_sync_n * 4 + 4 ≤ 5 * cycles + 4 → s.syncParts = [p.val] →
    ∃ t, exec (.systemLineEdge 3 false cycles) s = .next t ∧ t.lines.syncPending = true ∧ t.lines.haltSinceSync = false ∧
      t.part p = { s.part p with syncStart := true, measure := (s.part p).turn0 || (s.part p).remeasure } ∧ OnlyPart p s t ∧
      { t with lines := s.lines, parts := s.parts } = s) ∧
  (∀ (s : State) (p : Part) (low : Bool) (edge : Nat),
    let fault := low || s.lines.haltHeld || s.lines.haltPulse
    let x := s.part p
    let later := s.cycleOf p (s.depth p) ≤ s.cycleOfEdge p edge
    let y := if s.lines.haltOwn then x
      else { x with causes := x.causes ||| 2 ^ 5, causeTurn := if x.causes = 0 then s.turns p + (if later then 1 else 0) else x.causeTurn }
    s.lines.haltPending = true → s.multi p = true → s.running p = true → (∀ q, q < 4 → q ≠ p.val → s.running q = false) →
    ∃ t, exec (.haltNActed low edge) s = .next t ∧
      t.lines = { s.lines with haltPending := false, haltOwn := s.lines.haltHeld, haltSinceSync := true } ∧
      (¬ later → t.part p = { y with haltActed := true, invalid := x.invalid || fault, invalidToTurn0 := x.invalidToTurn0 || fault }) ∧
      (later → t.part p = { y with haltNext := true, invalidFromNext := x.invalidFromNext || fault }) ∧
      OnlyPart p s t ∧ { t with parts := s.parts, lines := s.lines } = s) ∧
  (∀ (s : State) (low : Bool) (edge : Nat), s.lines.haltPending = false → exec (.haltNActed low edge) s = .next s) ∧
  (∀ (s : State), ∃ t, exec .haltPulseEnd s = .next t ∧ t.lines = { s.lines with haltPulse := false } ∧ { t with lines := s.lines } = s) ∧
  (∀ (s : State) (p : Part) (edge : Nat),
    s.lines.trigInPending = true → (∀ q, q < 4 → q ≠ p.val → s.get (F.ACQ_P_CTRL_src_in q) = 0) → s.on (F.ACQ_P_CTRL_src_in p) = true →
    s.on (F.ACQ_P_CTRL_en p) = true → s.on (F.ACQ_P_CTRL_drive_x p) = false → s.running p = true → (s.cap p).items = [] → (s.cap p).staged = [] →
    s.on F.TRC_TRIG_src_in = false →
    let later := s.cycleOf p (s.depth p) ≤ s.cycleOfEdge p edge
    ∃ t, exec (.trigInActed edge) s = .next t ∧ t.lines = { s.lines with trigInPending := false } ∧
      (¬ later → (t.cap p).marks = (s.cap p).marks ||| 1 ∧ (t.cap p).nextMarks = (s.cap p).nextMarks) ∧
      (later → (t.cap p).nextMarks = (s.cap p).nextMarks ||| 1 ∧ (t.cap p).marks = (s.cap p).marks) ∧
      { t with lines := s.lines, acq := s.acq } = s) ∧
  (∀ (s : State) (p : Part) (edge : Nat),
    s.lines.trigInPending = true → (∀ q, q < 4 → q ≠ p.val → s.get (F.ACQ_P_CTRL_src_in q) = 0) → s.on (F.ACQ_P_CTRL_src_in p) = true →
    s.on (F.ACQ_P_CTRL_en p) = true → s.on (F.ACQ_P_CTRL_drive_x p) = true → s.lines.trigXPulse = false → s.lines.trigXPending = false →
    (s.cap p).items = [] → (s.cap p).staged = [] → s.on F.TRC_TRIG_src_in = false →
    ∃ t, exec (.trigInActed edge) s = .next t ∧ t.lines = { s.lines with trigInPending := false, trigXPulse := true, trigXOwn := true } ∧
      { t with lines := s.lines } = s) ∧
  (∀ (s : State) (edge : Nat), s.lines.trigInPending = false → exec (.trigInActed edge) s = .next s) ∧
  (∀ (s : State) (p : Part) (edge : Nat),
    s.lines.trigXPending = true → (∀ q, q < 4 → q ≠ p.val → s.get (F.ACQ_P_CTRL_src_x q) = 0) → s.on (F.ACQ_P_CTRL_src_x p) = true →
    s.on (F.ACQ_P_CTRL_en p) = true → s.running p = true → (s.cap p).items = [] → (s.cap p).staged = [] → s.on F.TRC_TRIG_src_x = false →
    let later := s.cycleOf p (s.depth p) ≤ s.cycleOfEdge p edge
    let m := if s.lines.trigXOwn then 34 else 2
    ∃ t, exec (.trigXActed edge) s = .next t ∧ t.lines = { s.lines with trigXPending := false, trigXOwn := false } ∧
      (¬ later → (t.cap p).marks = (s.cap p).marks ||| m ∧ (t.cap p).nextMarks = (s.cap p).nextMarks) ∧
      (later → (t.cap p).nextMarks = (s.cap p).nextMarks ||| m ∧ (t.cap p).marks = (s.cap p).marks) ∧ { t with lines := s.lines, acq := s.acq } = s) ∧
  (∀ (s : State) (edge : Nat), s.lines.trigXPending = false → exec (.trigXActed edge) s = .next s) ∧
  (∀ (s : State), ∃ t, exec .trigXPulseEnd s = .next t ∧ t.lines = { s.lines with trigXPulse := false } ∧ { t with lines := s.lines } = s)

/-- R195, R184, R190, R336: when the pending SYNC_N edge is acted on, a partition that needs it measures afresh. At the end of the measurement each of
its spokes records the largest latency, and enters state 4 if its peer agrees and the latency is within the hop budget; a measurement above the
budget, a peer of another pace, and one that does not match are a no-go: a spoke fault of kind 7 with HALT_N held low. SYNC_START with the line high
starts the partitions captured, their spokes in state 5; with the line low, held or pulsed here, or pulled low since the capture, none starts, and
the armed counts stay armed. -/
def Obligations.StartTogether : Prop :=
  (∀ (s : State) (p : Part) (sp : Spoke),
    s.lines.syncPending = true → (∀ q, q < 4 → q ≠ p.val → (s.part q).syncStart = false) → (s.part p).syncStart = true → (s.part p).measure = true →
    s.spokesOf p = [sp.val] →
    ∃ t, exec .syncNActed s = .next t ∧ t.spoke sp = { s.spoke sp with measuring := none, rxNext := 0, txNext := 0 } ∧
      (∀ k, k ≠ sp.val → t.spoke k = s.spoke k) ∧ t.lines = { s.lines with syncPending := false, syncPulse := false } ∧
      { t with lines := s.lines, spokes := s.spokes } = s) ∧
  (∀ (s : State), s.lines.syncPending = false → exec .syncNActed s = .next s) ∧
  (∀ (s : State) (p : Part) (sp : Spoke) (m : Nat),
    let x := s.spoke sp
    let st := s.get (F.SPK_STATUS_state sp)
    let base := (s.part p).turnBase
    (∀ q, q < 4 → q ≠ p.val → (s.part q).syncStart = false) → (s.part p).syncStart = true → (s.part p).measure = true → s.spokesOf p = [sp.val] →
    mget (fun _ => none) x.peerInfo 1 = some (s.ownInfo sp 1) → mget (fun _ => none) x.peerInfo 2 = some (s.ownInfo sp 2) →
    s.get (F.SPK_PEER_peer_pace sp) = s.pace → rolesPair (s.get (F.SPK_CTRL_role sp)) (s.get (F.SPK_PEER_peer_role sp)) = true →
    x.measuring = some m → m < 4096 → s.anyOwed p = false → s.paceSettled = true → s.on (F.SPK_ERR_flag sp) = false →
    ∃ t, exec .measurementEnd s = .next t ∧ t.get (F.SPK_LAT_measured sp) = m ∧
      t.spoke sp = { x with rxNext := base, txNext := base } ∧ t.part p = { s.part p with measure := false } ∧ OnlyPart p s t ∧
      (m ≤ s.hopBudget p → t.get (F.SPK_STATUS_state sp) = (if st = 2 ∨ st = 3 then 4 else st) ∧ RegsBut [R.SPK_LAT sp, R.SPK_STATUS sp, R.SPK_PEER sp] s t ∧
        { t with regs := s.regs, parts := s.parts, spokes := s.spokes } = s) ∧
      (s.hopBudget p < m → t.get (F.SPK_STATUS_state sp) = (if st = 2 then 3 else st) ∧ t.get (F.SPK_ERR_flag sp) = 1 ∧ t.get (F.SPK_ERR_kind sp) = 7 ∧
        t.lines = s.lines.hold p ∧ RaisedOne s t 0x4005 p [sp, m, s.hopBudget p] ∧
        RegsBut ([R.SPK_LAT sp, R.SPK_STATUS sp, R.SPK_PEER sp, R.SPK_ERR sp] ++ evtRegs 0x4005 p) s t ∧
        { t with regs := s.regs, parts := s.parts, spokes := s.spokes, lines := s.lines, evt := s.evt, mlipend := s.mlipend } = s)) ∧
  (∀ (s : State) (p : Part) (sp : Spoke),
    let x := s.spoke sp
    let peer := s.get (F.SPK_PEER_peer_pace sp)
    let others := mget (fun _ => none) x.peerInfo 1 = some (s.ownInfo sp 1) ∧ mget (fun _ => none) x.peerInfo 2 = some (s.ownInfo sp 2) ∧
      rolesPair (s.get (F.SPK_CTRL_role sp)) (s.get (F.SPK_PEER_peer_role sp)) = true
    (∀ q, q < 4 → q ≠ p.val → (s.part q).syncStart = false) → (s.part p).syncStart = true → (s.part p).measure = false → s.spokesOf p = [sp.val] →
    (¬ others ∨ peer ≠ s.pace) → s.on (F.SPK_ERR_flag sp) = false →
    ∃ t, exec .measurementEnd s = .next t ∧ t.get (F.SPK_ERR_kind sp) = 7 ∧ t.lines = s.lines.hold p ∧
      (¬ others → RaisedOne s t 0x4007 p [sp, (t.reg (R.SPK_PEER sp)).toNat] ∧ RegsBut ([R.SPK_ERR sp, R.SPK_PEER sp, R.SPK_STATUS sp] ++ evtRegs 0x4007 p) s t) ∧
      (others → RaisedOne s t 0x2003 p [sp, s.pace, peer] ∧ RegsBut ([R.SPK_ERR sp, R.SPK_PEER sp, R.SPK_STATUS sp] ++ evtRegs 0x2003 p) s t) ∧
      { t with regs := s.regs, lines := s.lines, evt := s.evt, mlipend := s.mlipend, gov := s.gov } = s) ∧
  (∀ (s : State) (p : Part) (sp : Spoke) (edge : Nat),
    let base := (s.part p).turnBase
    (∀ q, q < 4 → q ≠ p.val → (s.part q).syncStart = false) → (s.part p).syncStart = true → s.syncParts = [p.val] → s.spokesOf p = [sp.val] →
    s.lines.haltHeld = false → s.lines.haltPulse = false → s.lines.haltSinceSync = false → (s.part p).pendInvalid = false →
    (s.part p).waiters.all (fun w => w.op != 0x20) = true →
    ∃ t, exec (.syncStart true edge) s = .next t ∧ t.pstate p = 3 ∧ (t.part p).syncStart = false ∧ (t.part p).armed = none ∧
      (t.part p).startEdge = edge ∧ (t.part p).startCycle = base ∧
      t.get64 (R.DBG_RUNLEFT_LO p) (R.DBG_RUNLEFT_HI p) = (s.part p).armed.getD 0 % 2 ^ 64 ∧
      (s.get (F.SPK_STATUS_state sp) = 4 → t.get (F.SPK_STATUS_state sp) = 5) ∧ t.get (F.SPK_LAT_min_slack sp) = 4095 ∧
      t.spoke sp = { s.spoke sp with rxNext := base, txNext := base } ∧ OnlyPart p s t ∧
      { t with regs := s.regs, parts := s.parts, spokes := s.spokes, gov := s.gov, watchFirst := s.watchFirst } = s) ∧
  (∀ (s : State) (p : Part) (high : Bool) (edge : Nat),
    (∀ q, q < 4 → q ≠ p.val → (s.part q).syncStart = false) → (s.part p).syncStart = true →
    (high = false ∨ s.lines.haltHeld = true ∨ s.lines.haltPulse = true ∨ s.lines.haltSinceSync = true) →
    (s.part p).waiters.all (fun w => w.op != 0x20 && w.op != 0x22) = true →
    ∃ t, exec (.syncStart high edge) s = .next t ∧ t.part p = { s.part p with syncStart := false, measure := false, startPend := false } ∧ OnlyPart p s t ∧
      (∀ q, (∀ sp ∈ s.spokesOf q, s.on (F.SPK_ERR_flag sp) = false) → q ∉ t.lines.holders) ∧
      (∀ q ∈ s.lines.holders, (∃ sp ∈ s.spokesOf q, s.on (F.SPK_ERR_flag sp) = true) → q ∈ t.lines.holders) ∧ RegsSame s t ∧
      { t with parts := s.parts, lines := s.lines } = s)

/-- R276, R269, R282, R294, R281: descriptors up to the host's count are fetched, in order; a fetch that fails stops the ring with RING_FETCH_ERROR; a
ring that does not run fetches nothing. A write that enables a ring of a size from 4 to 16 starts its counts at 0 and ends its stop; one of another
size does nothing; any other write only sets the register. A ring the host has caught up on has been told of nothing; one it has not is announced
once. R274, R276, R277, R279: NOP completes with status 0. An op that the table does not have raises and completes with RING_BAD_OPCODE, whatever
else the descriptor holds; a NOP whose other fields fail their check raises and completes with RING_BAD_DESCRIPTOR. R271, R280, R281, R282: while
the engine runs and no poll is in flight a poll is issued, which covers what was posted until then. Its return takes over the count of every running
ring that moves forward no further than it may, and ends the poll; a count that moves backwards, or too far, stops its ring and keeps the old count,
with RING_DOORBELL_ERROR; a poll that fails stops every running ring, with RING_FETCH_ERROR. HRDY rises when a ring the poll covered is
unacknowledged, and falls when every ring has caught up. -/
def Obligations.HostRings : Prop :=
  (∀ (s : State) (snap : List (Nat × Nat)) (w : Word),
    s.host.poll = some snap → (∀ n, n < 13 → n ≠ 4 → s.ringRuns n = false) → s.ringRuns 4 = true → s.hostSluices = [] → (s.ring 4).held = [] →
    s.outRings = [4] → snap = [(4, (s.ring 4).dev)] → s.ringMsix 4 = false →
    countOk (2 ^ 32) (s.ring 4).host ((s.ring 4).dev % 2 ^ 32) w.toNat = true →
    ∃ t, exec (.pollReturn [0, 0, 0, 0, w] [] none) s = .next t ∧ (t.ring 4).host = w.toNat ∧ (t.ring 4).dev = (s.ring 4).dev ∧
      (t.ring 4).told = ((s.ring 4).dev != w.toNat) ∧ t.get F.RING_HRDY_level = (if (s.ring 4).dev = w.toNat then 0 else 1) ∧ t.host.poll = none ∧
      (∀ n, n ≠ 4 → t.ring n = s.ring n) ∧ RegsBut [R.RING_HRDY] s t ∧ { t with regs := s.regs, host := s.host } = s) ∧
  (∀ (s : State) (ring : Fin 4) (descs : List (BitVec 512)),
    let x := s.ring ring
    let want := (x.host + 2 ^ 32 - x.dev) % 2 ^ 32 - (x.fetched.length + if x.running.isSome then 1 else 0)
    s.ringRuns ring = true →
    ∃ t, exec (.descriptorFetchComplete ring descs none) s = .next t ∧ t.ring ring = { x with fetched := x.fetched ++ descs.take want } ∧
      (∀ n, n ≠ ring.val → t.ring n = s.ring n) ∧ t.host.writes = s.host.writes ∧ { t with host := s.host } = s) ∧
  (∀ (s : State) (ring : Fin 4) (descs : List (BitVec 512)) (e : Option PcieErr), s.ringRuns ring = false →
    exec (.descriptorFetchComplete ring descs e) s = .next s) ∧
  (∀ (s : State) (ring : Fin 4) (descs : List (BitVec 512)) (e : PcieErr),
    s.ringRuns ring = true →
    ∃ t, exec (.descriptorFetchComplete ring descs (some e)) s = .next t ∧ t.bit F.RING_STATUS_stopped ring = true ∧ t.ringRuns ring = false ∧
      (s.on F.RING_ERR_flag = false → t.get F.RING_ERR_flag = 1 ∧ t.get F.RING_ERR_kind = 2 ∧ t.get F.RING_ERR_ring = ring) ∧
      (s.on F.PCIE_ERR_flag = false → t.get F.PCIE_ERR_flag = 1 ∧ t.reg R.PCIE_ERRHDR0 = e.hdr0 ∧ t.reg R.PCIE_ERRHDR1 = e.hdr1) ∧
      RaisedOne s t 0x6006 0xFF [ring, t.get F.PCIE_ERR_kind] ∧ t.ring ring = { s.ring ring with told := true } ∧
      RegsBut ([R.RING_STATUS, R.RING_ERR, R.PCIE_ERR, R.PCIE_ERRHDR0, R.PCIE_ERRHDR1] ++ (List.range 16).map R.PCIE_MSGCNT ++ evtRegs 0x6006 0xFF) s t ∧
      { t with regs := s.regs, host := s.host, evt := s.evt, mlipend := s.mlipend } = s) ∧
  (∀ (s : State) (n : Fin 13) (value : Word),
    let size := value.toNat / 2 ^ 24 % 32
    value.getLsbD 31 = true → 4 ≤ size → size ≤ 16 → s.on (F.RING_R_CFG_en n) = false →
    ∃ t, exec (.ringEnable n value) s = .next t ∧ t.reg (R.RING_R_CFG n) = value &&& 0x9F3F8000 ∧ t.bit F.RING_STATUS_stopped n = false ∧
      (t.ring n).host = 0 ∧ (t.ring n).fetched = [] ∧ (t.ring n).running = none ∧ ((s.ring n).held = [] → t.ring n = {}) ∧
      (∀ k, k ≠ n.val → t.ring k = s.ring k) ∧ (n.val = 8 → t.get F.RING_EVSEQ_seq = 0) ∧
      RegsBut [R.RING_R_CFG n, R.RING_STATUS, if n.val = 8 then R.RING_EVSEQ else R.RING_STATUS] s t ∧ { t with regs := s.regs, host := s.host } = s) ∧
  (∀ (s : State) (n : Fin 13) (value : Word),
    let size := value.toNat / 2 ^ 24 % 32
    value.getLsbD 31 = true → size < 4 ∨ 16 < size → exec (.ringEnable n value) s = .next s) ∧
  (∀ (s : State) (n : Fin 13) (value : Word),
    let size := value.toNat / 2 ^ 24 % 32
    value.getLsbD 31 = false ∨ (s.on (F.RING_R_CFG_en n) = true ∧ 4 ≤ size ∧ size ≤ 16) →
    ∃ t, exec (.ringEnable n value) s = .next t ∧ t.reg (R.RING_R_CFG n) = value &&& 0x9F3F8000 ∧ RegsBut [R.RING_R_CFG n] s t ∧ OnlyRegs s t) ∧
  (∀ (s : State) (ring : Fin 4) (d : BitVec 512),
    s.Begins ring d → dOp d = 0 →
    ∃ t, exec (.nopCommand ring) s = .next t ∧ Completed s t ring d 0 0 ∧ (t.ring ring).fetched = (s.ring ring).fetched.tail ∧
      (∀ n, n ≠ ring.val → n ≠ ring.val + 4 → t.ring n = s.ring n) ∧ { t with host := s.host } = s) ∧
  (∀ (s : State) (ring : Fin 4) (d : BitVec 512),
    let part := if dPart d < 4 then dPart d else 0xFF
    s.ringRuns ring = true → (s.ring ring).running = none → (s.ring ring).fetched.head? = some d → (s.ring (ring + 4)).held = [] →
    ringOps.contains (dOp d) = false →
    ∃ t, exec (.ringBadOpcode ring) s = .next t ∧ Completed s t ring d 0x6002 0 ∧ RaisedOne s t 0x6002 part [ring, (s.ring ring).dev] ∧
      (∀ n, n ≠ ring.val → n ≠ ring.val + 4 → t.ring n = s.ring n) ∧ RegsBut (evtRegs 0x6002 part) s t ∧
      { t with regs := s.regs, host := s.host, evt := s.evt, mlipend := s.mlipend } = s) ∧
  (∀ (s : State) (ring : Fin 4), (s.ring ring).fetched.head?.all (fun d => ringOps.contains (dOp d)) = true → exec (.ringBadOpcode ring) s = .next s) ∧
  (∀ (s : State) (ring : Fin 4) (d : BitVec 512),
    let part := if dPart d < 4 then dPart d else 0xFF
    s.ringRuns ring = true → (s.ring ring).running = none → (s.ring ring).fetched.head? = some d → (s.ring (ring + 4)).held = [] →
    dOp d = 0 → s.cmdFieldsOk d = false →
    ∃ t, exec (.nopCommand ring) s = .next t ∧ Completed s t ring d 0x6003 0 ∧ RaisedOne s t 0x6003 part [ring, (s.ring ring).dev] ∧
      RegsBut (evtRegs 0x6003 part) s t ∧ { t with regs := s.regs, host := s.host, evt := s.evt, mlipend := s.mlipend } = s) ∧
  (∀ (s : State),
    s.on F.RING_CTRL_en = true → s.on F.PCIE_STATUS_up = true → s.host.poll = none →
    ∃ t, exec .doorbellPoll s = .next t ∧ t.host.poll = some (s.outRings.map (fun n => (n, (t.ring n).dev))) ∧ RegsBut [R.RING_EVSEQ] s t ∧
      { t with regs := s.regs, host := s.host, evt := s.evt } = s) ∧
  (∀ (s : State), (s.on F.RING_CTRL_en = false ∨ s.on F.PCIE_STATUS_up = false ∨ s.host.poll ≠ none) → exec .doorbellPoll s = .next s) ∧
  (∀ (s : State) (snap : List (Nat × Nat)) (words sluices : List Word),
    let limit (n : Nat) := if n < 4 then (s.ring n).dev + 2 ^ s.ringSize n else (s.ring n).dev
    s.host.poll = some snap →
    ∃ t, exec (.pollReturn words sluices none) s = .next t ∧ t.host.poll = none ∧
      (∀ e ∈ doorbellRings, e.1 < words.length → s.ringRuns e.2 = true →
        let w := (words.getD e.1 0).toNat
        if countOk (2 ^ 32) (s.ring e.2).host (limit e.2 % 2 ^ 32) w = true then (t.ring e.2).host = w ∧ t.ringStopped e.2 = false
        else (t.ring e.2).host = (s.ring e.2).host ∧ t.ringStopped e.2 = true) ∧
      ((∃ e ∈ snap, e.1 ∈ t.outRings ∧ e.2 ≠ (t.ring e.1).host) → t.get F.RING_HRDY_level = 1) ∧
      ((∀ e ∈ snap, e.1 ∈ t.outRings → e.2 = (t.ring e.1).host) → (∀ n ∈ t.outRings, (t.ring n).dev = (t.ring n).host) → t.get F.RING_HRDY_level = 0) ∧
      ((∀ e ∈ snap, e.1 ∈ t.outRings → e.2 = (t.ring e.1).host) → (∃ n ∈ t.outRings, (t.ring n).dev ≠ (t.ring n).host) →
        t.get F.RING_HRDY_level = s.get F.RING_HRDY_level)) ∧
  (∀ (s : State) (snap : List (Nat × Nat)) (e : Nat × Nat) (words : List Word) (w : Word),
    let limit := if e.2 < 4 then (s.ring e.2).dev + 2 ^ s.ringSize e.2 else (s.ring e.2).dev
    s.host.poll = some snap → e ∈ doorbellRings → words[e.1]? = some w → (∀ n, n < 13 → n ≠ e.2 → s.ringRuns n = false) → s.ringRuns e.2 = true → s.hostSluices = [] →
    countOk (2 ^ 32) (s.ring e.2).host (limit % 2 ^ 32) w.toNat = false →
    ∃ t, exec (.pollReturn words [] none) s = .next t ∧ RaisedOne s t 0x6005 0xFF [e.2, w.toNat] ∧
      (s.on F.RING_ERR_flag = false → t.get F.RING_ERR_flag = 1 ∧ t.get F.RING_ERR_kind = 1 ∧ t.get F.RING_ERR_ring = e.2)) ∧
  (∀ (s : State) (snap : List (Nat × Nat)) (words sluices : List Word) (x : PcieErr),
    s.host.poll = some snap →
    ∃ t, exec (.pollReturn words sluices (some x)) s = .next t ∧ t.host.poll = none ∧
      (∀ n, n < 13 → t.ringStopped n = (s.ringStopped n || s.ringRuns n) ∧ (t.ring n).host = (s.ring n).host) ∧
      ((∃ n, n < 13 ∧ s.ringRuns n = true) → s.on F.PCIE_ERR_flag = false → t.get F.PCIE_ERR_flag = 1 ∧ t.reg R.PCIE_ERRHDR0 = x.hdr0 ∧ t.reg R.PCIE_ERRHDR1 = x.hdr1) ∧
      { t with regs := s.regs, host := s.host, evt := s.evt, mlipend := s.mlipend } = s) ∧
  (∀ (s : State) (snap : List (Nat × Nat)) (words sluices : List Word) (x : PcieErr) (i : Fin 13),
    s.host.poll = some snap → (∀ n, n < 13 → n ≠ i.val → s.ringRuns n = false) → s.ringRuns i = true → s.hostSluices = [] →
    ∃ t, exec (.pollReturn words sluices (some x)) s = .next t ∧ RaisedOne s t 0x6006 0xFF [i, t.get F.PCIE_ERR_kind] ∧
      (s.on F.RING_ERR_flag = false → t.get F.RING_ERR_kind = 2 ∧ t.get F.RING_ERR_ring = i)) ∧
  (∀ (s : State) (words sluices : List Word) (e : Option PcieErr), s.host.poll = none → exec (.pollReturn words sluices e) s = .next s)

/-- R275, R248: a COPY of length 0 completes with ZERO_LENGTH and touches no memory; one whose alignment, size and placement are right stays in progress
until its data has moved; one that breaks a rule completes with RING_BAD_DESCRIPTOR. When a COPY_IN's data has arrived and no line is turned away,
DRAM holds it and nothing else of DRAM has changed; a COPY_OUT writes the DRAM bytes to the host; both complete with status 0 and the length. A
COPY_IN that meets a staging lock at its first line moves nothing and completes with RING_COPY_ERROR. -/
def Obligations.HostCopies : Prop :=
  (∀ (s : State) (ring : Fin 4) (d : BitVec 512),
    s.Begins ring d → dOp d = 1 → dLen d = 0 →
    ∃ t, exec (.copyIn ring) s = .next t ∧ Completed s t ring d 0x6001 0 ∧ { t with host := s.host } = s) ∧
  (∀ (s : State) (ring : Fin 4) (d : BitVec 512),
    s.Begins ring d → dOp d = 1 → dLen d ≠ 0 → s.copyOk d = true →
    ∃ t, exec (.copyIn ring) s = .next t ∧ t.ring ring = { s.ring ring with fetched := (s.ring ring).fetched.tail, running := some (s.host.serial, d) } ∧
      (∀ n, n ≠ ring.val → t.ring n = s.ring n) ∧ t.host.writes = s.host.writes ∧ { t with host := s.host } = s) ∧
  (∀ (s : State) (ring : Fin 4) (d : BitVec 512),
    s.Begins ring d → dOp d = 1 → dLen d ≠ 0 → dHaddr d % 64 ≠ 0 ∨ dLen d % 64 ≠ 0 ∨ dDaddr d % 64 ≠ 0 ∨ 2 ^ 36 < dLen d →
    ∃ t, exec (.copyIn ring) s = .next t ∧ Completed s t ring d 0x6003 0 ∧ RaisedOne s t 0x6003 0xFF [ring, (s.ring ring).dev] ∧
      { t with regs := s.regs, host := s.host, evt := s.evt, mlipend := s.mlipend } = s) ∧
  (∀ (s : State) (ring : Fin 4) (d : BitVec 512),
    s.Begins ring d → dOp d = 2 → dLen d = 0 →
    ∃ t, exec (.copyOut ring) s = .next t ∧ Completed s t ring d 0x6001 0 ∧ { t with host := s.host } = s) ∧
  (∀ (s : State) (ring : Fin 4) (d : BitVec 512),
    s.Begins ring d → dOp d = 2 → dLen d ≠ 0 → s.copyOk d = true →
    ∃ t, exec (.copyOut ring) s = .next t ∧ t.ring ring = { s.ring ring with fetched := (s.ring ring).fetched.tail, running := some (s.host.serial, d) } ∧
      (∀ n, n ≠ ring.val → t.ring n = s.ring n) ∧ { t with host := s.host } = s) ∧
  (∀ (s : State) (ring : Fin 4) (d : BitVec 512) (serial : Nat) (data : List Byte),
    let c := dDaddr d / 2 ^ 40
    let a := dDaddr d % 2 ^ 38
    (s.ring ring).running = some (serial, d) → dDaddr d < 2 ^ 44 → dOp d = 1 → dLen d = 64 * (dLen d / 64) → data.length = dLen d → a % 64 = 0 →
    (s.ring (ring + 4)).held = [] →
    s.race.lost = [] → s.cstate c ≠ 7 → (∀ i, i < dLen d / 64 → s.busBlocked c (a + 64 * i) 5 = false ∧ s.stageLocked c (a + 64 * i) 64 = false) →
    ∃ t, exec (.copyComplete ring data none {}) s = .next t ∧ Completed s t ring d 0 (dLen d) ∧ t.dramRead c a (dLen d) = data ∧
      (∀ k, k < dramKey c a ∨ dramKey c a + dLen d ≤ k → mget dramByte t.dram.mem k = mget dramByte s.dram.mem k) ∧
      RegsBut [R.RACE_UNITS_LO, R.RACE_UNITS_HI, R.MPORT_PFDISC] s t ∧ { t with regs := s.regs, host := s.host, dram := s.dram, race := s.race, free := s.free } = s) ∧
  (∀ (s : State) (ring : Fin 4) (d : BitVec 512) (serial : Nat) (data : List Byte),
    let c := dDaddr d / 2 ^ 40
    let a := dDaddr d % 2 ^ 38
    (s.ring ring).running = some (serial, d) → dDaddr d < 2 ^ 44 → dOp d = 1 → 64 ≤ dLen d → data.length = dLen d → (s.ring (ring + 4)).held = [] →
    s.race.lost = [] → s.cstate c ≠ 7 → s.busBlocked c a 5 = false → s.stageLocked c a 64 = true →
    ∃ t, exec (.copyComplete ring data none {}) s = .next t ∧ Completed s t ring d 0x6004 0 ∧ t.dram = s.dram ∧
      { t with regs := s.regs, host := s.host, race := s.race, free := s.free, evt := s.evt, mlipend := s.mlipend } = s) ∧
  (∀ (s : State) (ring : Fin 4) (d : BitVec 512) (serial : Nat) (e : RowEcc),
    let c := dDaddr d / 2 ^ 40
    let a := dDaddr d % 2 ^ 38
    (s.ring ring).running = some (serial, d) → dDaddr d < 2 ^ 44 → dOp d = 2 → dLen d = 64 * (dLen d / 64) → dLen d ≠ 0 → (s.ring (ring + 4)).held = [] →
    a % 64 = 0 → s.race.lost = [] → s.cstate c ≠ 7 → e.ue = [] → (∀ i, i < dLen d / 64 → s.busBlocked c (a + 64 * i) 5 = false ∧ s.lineBad c (a / 64 + i) = false) →
    ∃ t, exec (.copyComplete ring [] none e) s = .next t ∧
      Completed { s with host := { s.host with writes := ⟨dHaddr d, s.dramRead c a (dLen d)⟩ :: s.host.writes } } t ring d 0 (dLen d) ∧
      t.get (F.DDRC_CE_ce_count c) = min (s.get (F.DDRC_CE_ce_count c) + e.ce) (2 ^ (F.DDRC_CE_ce_count c).width - 1) ∧
      RegsBut [R.RACE_UNITS_LO, R.RACE_UNITS_HI, R.DDRC_CE c] s t ∧ { t with regs := s.regs, host := s.host, race := s.race, free := s.free } = s)

/-- R271, R272, R280, R283, R293, R330: RING_CTRL.en enables polling and reads the window table; cleared, no poll is in flight and HRDY is low. A link
that goes down clears the engine's enable and HRDY, takes what the rings have in progress, raises HOST_LINK_DOWN and keeps every partition. A link
that comes up, or ends a retraining that was asked for, shows its speed, no higher than the limit, its width and its lanes. R266, R267, R315, R272:
a BAR2 access reaches a hopper word only in a bank the host owns; in another a read answers 0, a write is dropped, and both are counted. A BAR4
access while the aperture is off, or to a slice it may not reach, is counted, issues no packet, and a read answers 0xFF; one that is allowed issues
one packet of initiator 0x220. The completion of a host window's read answers its far port. -/
def Obligations.LinkAndApertures : Prop :=
  (∀ (s : State) (wins : List HostWin),
    s.on F.RING_CTRL_en = false → s.on F.PCIE_STATUS_up = true →
    ∃ t, exec (.ringEngineEnable true wins) s = .next t ∧ t.get F.RING_CTRL_en = 1 ∧
      (∀ w, w < 64 → mget (fun _ => {}) t.hostWins w = wins.getD w {}) ∧ RegsBut [R.RING_CTRL] s t ∧
      { t with regs := s.regs, hostWins := s.hostWins } = s) ∧
  (∀ (s : State) (wins : List HostWin),
    ∃ t, exec (.ringEngineEnable false wins) s = .next t ∧ t.get F.RING_CTRL_en = 0 ∧ t.get F.RING_HRDY_level = 0 ∧
      t.host = { s.host with poll := none } ∧ RegsBut [R.RING_CTRL, R.RING_HRDY] s t ∧ { t with regs := s.regs, host := s.host } = s) ∧
  (∀ (s : State),
    s.on F.PCIE_STATUS_up = true → s.sessLevel 3 = 0 →
    ∃ t, exec .hostLinkDown s = .next t ∧ t.reg R.PCIE_STATUS = 0 ∧ t.get F.RING_CTRL_en = 0 ∧ t.get F.RING_HRDY_level = 0 ∧ t.host.poll = none ∧
      (∀ n, (t.ring n).fetched = [] ∧ (t.ring n).running = none ∧ (t.ring n).held = []) ∧ (∀ j, j < 16 → t.get (F.PCIE_LANE_active j) = 0) ∧
      RaisedOne s t 0x6008 0xFF [(t.reg R.PCIE_LINKCNT).toNat] ∧ t.parts = s.parts ∧ (∀ p, p < 4 → t.pstate p = s.pstate p) ∧ t.loader = s.loader ∧
      RegsBut ([R.PCIE_STATUS, R.PCIE_LINKCNT, R.PCIE_CTRL, R.RING_CTRL, R.RING_HRDY] ++ (List.range 16).map R.PCIE_LANE ++ evtRegs 0x6008 0xFF) s t ∧
      { t with regs := s.regs, host := s.host, evt := s.evt, mlipend := s.mlipend } = s) ∧
  (∀ (s : State), s.on F.PCIE_STATUS_up = false → exec .hostLinkDown s = .next s) ∧
  (∀ (s : State) (speed : Fin 3) (width : Fin 17) (inverted : BitVec 16) (reversed msix fmask : Bool),
    (s.on F.PCIE_STATUS_up = false ∨ s.on F.PCIE_CTRL_retrain = true) → width.val = 1 ∨ width.val = 4 ∨ width.val = 8 ∨ width.val = 16 →
    ∃ t, exec (.pcieLinkUp speed width inverted reversed msix fmask) s = .next t ∧ t.get F.PCIE_STATUS_up = 1 ∧
      t.get F.PCIE_STATUS_speed = min speed.val (s.get F.PCIE_CTRL_max_speed) ∧ t.get F.PCIE_CTRL_retrain = 0 ∧
      t.get F.PCIE_LINKCNT_low = (if s.on F.PCIE_STATUS_up then min (s.get F.PCIE_LINKCNT_low + 1) (2 ^ F.PCIE_LINKCNT_low.width - 1) else s.get F.PCIE_LINKCNT_low) ∧
      t.get F.PCIE_STATUS_width = width ∧ t.on F.PCIE_STATUS_reversed = reversed ∧
      (∀ j, j < 16 → t.on (F.PCIE_LANE_active j) = decide (j < width.val) ∧
        t.on (F.PCIE_LANE_inverted j) = (decide (j < width.val) && inverted.getLsbD j)) ∧
      t.host = { s.host with msix := msix, fmask := fmask } ∧
      RegsBut ([R.PCIE_STATUS, R.RST_STATUS, R.PCIE_CTRL, R.PCIE_LINKCNT] ++ (List.range 16).map R.PCIE_LANE) s t ∧ { t with regs := s.regs, host := s.host } = s) ∧
  (∀ (s : State) (up anDone : Bool) (partner : BitVec 16),
    ∃ t, exec (.mgmtLinkChange up anDone partner) s = .next t ∧ t.on F.PTP_STATUS_link = up ∧ t.on F.PTP_STATUS_an_done = anDone ∧
      t.get F.PTP_AN_partner = partner.toNat ∧ RegsBut [R.PTP_STATUS, R.PTP_AN] s t ∧ OnlyRegs s t) ∧
  (∀ (s : State) (off : BitVec 24) (data : Option Word),
    let o := (s.get F.PCIE_BAR2SEL_group * 2 ^ 24 + off.toNat / 4 * 4) % 2 ^ 26
    s.hopOwner (hopBank o) ≠ 5 →
    ∃ t, exec (.bar2Access off data) s = .next t ∧ (data = none → t.host = { s.host with readBytes := [0, 0, 0, 0] }) ∧
      (data ≠ none → t.host = s.host) ∧ t.get F.PCIE_BARDENY_low = min (s.get F.PCIE_BARDENY_low + 1) (2 ^ F.PCIE_BARDENY_low.width - 1) ∧
      RegsBut [R.PCIE_BARDENY, R.HOP_DENY] s t ∧ { t with regs := s.regs, host := s.host } = s) ∧
  (∀ (s : State) (off : BitVec 24) (w : Word),
    let o := (s.get F.PCIE_BAR2SEL_group * 2 ^ 24 + off.toNat / 4 * 4) % 2 ^ 26
    s.hopOwner (hopBank o) = 5 →
    ∃ t, exec (.bar2Access off (some w)) s = .next t ∧ t.hopRead o 4 = natLe 4 w.toNat ∧
      (∀ a, a < o ∨ o + 4 ≤ a → mget (fun _ => 0) t.hop.mem a = mget (fun _ => 0) s.hop.mem a) ∧ RegsSame s t ∧
      { t with hop := s.hop, millers := s.millers } = s) ∧
  (∀ (s : State) (off : BitVec 24),
    let o := (s.get F.PCIE_BAR2SEL_group * 2 ^ 24 + off.toNat / 4 * 4) % 2 ^ 26
    s.hopOwner (hopBank o) = 5 → s.hopBad o 4 = false →
    ∃ t, exec (.bar2Access off none) s = .next t ∧ t.host = { s.host with readBytes := s.hopRead o 4 } ∧ { t with host := s.host } = s) ∧
  (∀ (s : State) (off : BitVec 36) (len : Fin 65) (data : Option (List Byte)),
    let x := s.bar4Target off.toNat
    (s.on F.PCIE_BAR4CTL_en = false ∨ (data ≠ none ∧ s.on F.PCIE_BAR4CTL_write_en = false) ∨ s.bar4Owner (x.1 % 16) x.2 = false) →
    s.get F.CFG_BOOT_state ≠ 2 → len.val ≠ 0 → off.toNat % 64 + len.val ≤ 64 → s.host.barRaised = true →
    ∃ t, exec (.bar4Access off len data) s = .next t ∧ (data = none → t.host = { s.host with readBytes := List.replicate len 0xFF }) ∧
      (data ≠ none → t.host = s.host) ∧ t.get F.PCIE_BARDENY_high = min (s.get F.PCIE_BARDENY_high + 1) (2 ^ F.PCIE_BARDENY_high.width - 1) ∧
      RegsBut [R.PCIE_BARDENY] s t ∧ { t with regs := s.regs, host := s.host } = s) ∧
  (∀ (s : State) (off : BitVec 36) (len : Fin 65) (data : Option (List Byte)),
    let x := s.bar4Target off.toNat
    s.on F.PCIE_BAR4CTL_en = true → (data = none ∨ s.on F.PCIE_BAR4CTL_write_en = true) → s.get F.CFG_BOOT_state ≠ 2 → len.val ≠ 0 →
    off.toNat % 64 + len.val ≤ 64 → s.bar4Owner (x.1 % 16) x.2 = true →
    ∃ t, exec (.bar4Access off len data) s = .next t ∧
      t.host = { s.host with barTag := s.host.barTag + 1, barReqs := s.host.barReqs ++ [(s.host.barTag % 1024, off.toNat, x.1, x.2, len.val)] } ∧
      t.race.sent.length = s.race.sent.length + 1 ∧ t.race.reqs.length = s.race.reqs.length + 1 ∧
      (t.race.reqs.getLast?.map (fun r => (hcmd r.hdr, hinit r.hdr, htag r.hdr, hctx r.hdr))) =
        some (if data = none then 1 else 3, 0x220, s.host.barTag % 1024, 5) ∧
      RegsBut [R.RACE_UNITS_LO, R.RACE_UNITS_HI] s t ∧ { t with regs := s.regs, host := s.host, race := s.race } = s) ∧
  (∀ (s : State) (i : Nat) (data : List Byte) (r : HostRead),
    s.host.reads[i]? = some r → hpf r.hdr = false → s.on F.PCIE_STATUS_up = true → s.on F.RING_CTRL_en = true →
    ∃ t, exec (.hostWindowCompletion i data none) s = .next t ∧ t.host = { s.host with reads := s.host.reads.eraseIdx i } ∧
      t.race.sent = respond r.hdr 0 (bytesUnits (hlen r.hdr) data) :: s.race.sent ∧
      t.race.reqs = s.race.reqs.map (fun q => if q.is (hinit r.hdr) (htag r.hdr) then { q with answered := true } else q) ∧
      RegsSame s t ∧ { t with host := s.host, race := s.race } = s) ∧
  (∀ (s : State) (i : Nat) (data : List Byte) (r : HostRead) (e : PcieErr),
    s.host.reads[i]? = some r → hpf r.hdr = false → s.on F.PCIE_ERR_flag = false →
    ∃ t, exec (.hostWindowCompletion i data (some e)) s = .next t ∧ t.host = { s.host with reads := s.host.reads.eraseIdx i } ∧
      t.race.sent = respond r.hdr 5 [] :: s.race.sent ∧ t.get F.PCIE_ERR_flag = 1 ∧ t.reg R.PCIE_ERRHDR0 = e.hdr0 ∧ t.reg R.PCIE_ERRHDR1 = e.hdr1 ∧
      RegsBut [R.PCIE_ERR, R.PCIE_ERRHDR0, R.PCIE_ERRHDR1] s t ∧ { t with regs := s.regs, host := s.host, race := s.race } = s)

/-! ## The governor and the clocks -/

/-- R225, R226, R227, R236: in an interval with enough bursts the governor records the eye's edges and moves the read centre by 1/64 UI towards the
centre error, half the difference of the edges, once that is at least centre_thr; the write delay moves by one step when the oscillator has moved by
osc_per_step either way since the last change; each change is counted and logged. While the channel is not in state 4, its PHY is frozen or its
group sleeps, the measurement counts as skipped. Where a rule leaves the first direction open, training's recorded direction is the model's (log
entry 32). R228, R234, R236: an eye that has fallen by fom_drop with DFE tap 1 at an end starts a trial of the equaliser code, logged; when it ends
the code is kept if fom has risen and the one before restored otherwise, counted and logged. Trials alternate up and down, the first up (log entry
32). A frozen spoke is not touched, and a code at the end of its range starts no trial. -/
def Obligations.GovernorDramAndLanes : Prop :=
  (∀ (s : State) (ch : Chan) (rank : Fin 8) (lane : Fin 20) (m : LaneMeas),
    let c := ch.val
    s.on F.GOV_CTRL_dram_en = true → s.get F.GOV_DRAMCFG_interval ≠ 0 → s.get (F.DDRC_STATUS_state c) ≠ 4 ∨ s.on (F.DPHY_CTRL_freeze c) = true ∨
      3 ≤ s.get (F.PWR_DSTAT_state (36 + c / 4)) →
    ∃ t, exec (.govDramInterval ch rank lane m) s = .next t ∧ t.get F.GOV_SKIPCNT_count = (s.get F.GOV_SKIPCNT_count + 1) % 2 ^ 32 ∧
      t.get (F.GOV_DRAMADJ_other c) = min (s.get (F.GOV_DRAMADJ_other c) + 1) 65535 ∧ RegsBut [R.GOV_DRAMADJ c, R.GOV_SKIPCNT] s t ∧ OnlyRegs s t) ∧
  (∀ (s : State) (ch : Chan) (rank : Fin 8) (lane : Fin 20) (m : LaneMeas),
    let c := ch.val
    let n := rank.val * 32 + lane.val
    let err : Int := (m.right.toNat : Int) - (m.left.toNat : Int)
    let old := s.get ((F.DPHY_RDEYE_centre c).sel n)
    let new := if 0 < err then old + 1 else old - 1
    s.on F.GOV_CTRL_dram_en = true → s.get F.GOV_DRAMCFG_interval ≠ 0 → s.get (F.DDRC_STATUS_state c) = 4 → s.on (F.DPHY_CTRL_freeze c) = false →
    s.get (F.PWR_DSTAT_state (36 + c / 4)) < 3 → s.govFrozen = false → m.probeUe = none → m.osc = none → 64 * s.get F.GOV_DRAMCFG_min_bursts ≤ m.bursts →
    2 * max 1 (s.get F.GOV_DRAMCFG_centre_thr) ≤ err.natAbs → 0 < old → old < 255 →
    ∃ t, exec (.govDramInterval ch rank lane m) s = .next t ∧ t.get ((F.DPHY_RDEYE_left c).sel n) = m.left.toNat ∧
      t.get ((F.DPHY_RDEYE_right c).sel n) = m.right.toNat ∧ t.get ((F.DPHY_RDEYE_centre c).sel n) = new ∧
      t.get (F.DPHY_CTRL_adj_count c) = min (s.get (F.DPHY_CTRL_adj_count c) + 1) (2 ^ (F.DPHY_CTRL_adj_count c).width - 1) ∧
      LoggedOne s t 1 (c * 256 + n) old new ∧
      RegsBut ([selAddr (R.DPHY_RDEYE c) n, selAddr (R.DPHY_DRIFT c) n, R.DPHY_CTRL c, R.GOV_DRAMADJ c, R.GOV_SKIPCNT] ++ govLogRegs) s t ∧
      { t with regs := s.regs, gov := s.gov, evt := s.evt, mlipend := s.mlipend } = s) ∧
  (∀ (s : State) (ch : Chan) (rank : Fin 8) (lane : Fin 20) (m : LaneMeas) (osc : BitVec 16),
    let c := ch.val
    let n := rank.val * 32 + lane.val
    let ref := mget (fun _ => 0) s.gov.oscAt (c * 512 + n)
    let old := s.get ((F.DPHY_WRDLY_delay c).sel n)
    let per := s.get F.GOV_DRAMCFG_osc_per_step
    let rise := decide (ref + per ≤ osc.toNat)
    let new := if rise = mget (fun _ => false) s.gov.oscUp (c * 512 + n) then old + 1 else old - 1
    s.on F.GOV_CTRL_dram_en = true → s.get F.GOV_DRAMCFG_interval ≠ 0 → s.get (F.DDRC_STATUS_state c) = 4 → s.on (F.DPHY_CTRL_freeze c) = false →
    s.get (F.PWR_DSTAT_state (36 + c / 4)) < 3 → s.govFrozen = false → m.probeUe = none → m.osc = some osc →
    m.bursts < 64 * s.get F.GOV_DRAMCFG_min_bursts → 0 < per → (rise = true ∨ osc.toNat + per ≤ ref) →
    0 < old → old < 255 →
    ∃ t, exec (.govDramInterval ch rank lane m) s = .next t ∧ t.get ((F.DPHY_WRDLY_delay c).sel n) = new ∧
      t.get ((F.DPHY_WRDLY_osc c).sel n) = osc.toNat ∧ mget (fun _ => 0) t.gov.oscAt (c * 512 + n) = (if rise then ref + per else ref - per) ∧
      LoggedOne s t 2 (c * 256 + n) old new ∧ RegsBut ([selAddr (R.DPHY_WRDLY c) n, R.DPHY_CTRL c, R.GOV_DRAMADJ c] ++ govLogRegs) s t ∧
      { t with regs := s.regs, gov := s.gov, evt := s.evt, mlipend := s.mlipend } = s) ∧
  (∀ (s : State) (sp : Spoke) (lane : Fin 8) (tapEnd : Bool) (code : BitVec 8),
    s.on (F.SPK_CTRL_eq_freeze sp) = true → exec (.govLaneInterval sp lane tapEnd code) s = .next s) ∧
  (∀ (s : State) (sp : Spoke) (lane : Fin 8) (code : BitVec 8),
    let n := laneIdx sp lane
    let dn := mget (fun _ => false) s.gov.up n
    let new := if dn then code.toNat - 1 else code.toNat + 1
    s.on F.GOV_CTRL_lane_en = true → s.govFrozen = false → s.get F.GOV_LANECFG_interval ≠ 0 → s.get F.GOV_LANECFG_fom_drop ≠ 0 →
    s.on (F.SPK_CTRL_eq_freeze sp) = false → 2 ≤ s.get (F.SPK_STATUS_state sp) → s.get (F.SPK_STATUS_state sp) ≤ 5 →
    mget (fun _ => none) s.gov.trials n = none → s.get (F.LANE_STAT_fom n) + s.get F.GOV_LANECFG_fom_drop ≤ mget (fun _ => 0) s.gov.foms n →
    (if dn then 0 < code.toNat else code.toNat < 255) →
    ∃ t, exec (.govLaneInterval sp lane true code) s = .next t ∧ mget (fun _ => 0) t.gov.eqCode n = new ∧
      mget (fun _ => none) t.gov.trials n = some (code.toNat, s.get (F.LANE_STAT_fom n)) ∧ mget (fun _ => false) t.gov.up n = !dn ∧
      LoggedOne s t 4 n code.toNat new ∧ RegsBut govLogRegs s t ∧
      { t with regs := s.regs, gov := s.gov, evt := s.evt, mlipend := s.mlipend } = s) ∧
  (∀ (s : State) (sp : Spoke) (lane : Fin 8) (tapEnd : Bool) (code : BitVec 8),
    let n := laneIdx sp lane
    s.on F.GOV_CTRL_lane_en = true → s.govFrozen = false → s.get F.GOV_LANECFG_interval ≠ 0 → s.get F.GOV_LANECFG_fom_drop ≠ 0 →
    s.on (F.SPK_CTRL_eq_freeze sp) = false → 2 ≤ s.get (F.SPK_STATUS_state sp) → s.get (F.SPK_STATUS_state sp) ≤ 5 → mget (fun _ => none) s.gov.trials n = none →
    (tapEnd = false ∨ mget (fun _ => 0) s.gov.foms n < s.get (F.LANE_STAT_fom n) + s.get F.GOV_LANECFG_fom_drop ∨
      (if mget (fun _ => false) s.gov.up n then code.toNat = 0 else code.toNat = 255)) →
    ∃ t, exec (.govLaneInterval sp lane tapEnd code) s = .next t ∧ mget (fun _ => 0) t.gov.eqCode n = code.toNat ∧ mget (fun _ => none) t.gov.trials n = none ∧
      RegsSame s t ∧ { t with gov := s.gov } = s) ∧
  (∀ (s : State) (sp : Spoke) (lane : Fin 8), s.on (F.SPK_CTRL_eq_freeze sp) = true → exec (.govLaneTrialEnd sp lane) s = .next s) ∧
  (∀ (s : State) (sp : Spoke) (lane : Fin 8) (code fom : Nat),
    let n := laneIdx sp lane
    let now := mget (fun _ => 0) s.gov.eqCode n
    mget (fun _ => none) s.gov.trials n = some (code, fom) → s.on (F.SPK_CTRL_eq_freeze sp) = false → s.govFrozen = false → s.on F.GOV_STATUS_frozen = false →
    ∃ t, exec (.govLaneTrialEnd sp lane) s = .next t ∧ mget (fun _ => none) t.gov.trials n = none ∧
      (fom < s.get (F.LANE_STAT_fom n) → mget (fun _ => 0) t.gov.eqCode n = now ∧ LoggedOne s t 4 n code now ∧
        t.get (F.GOV_LANEADJ_applied sp) = min (s.get (F.GOV_LANEADJ_applied sp) + 1) 65535) ∧
      (s.get (F.LANE_STAT_fom n) ≤ fom → mget (fun _ => 0) t.gov.eqCode n = code ∧ LoggedOne s t 5 n now code ∧
        t.get (F.GOV_LANEADJ_other sp) = min (s.get (F.GOV_LANEADJ_other sp) + 1) 65535) ∧
      RegsBut (R.GOV_LANEADJ sp :: govLogRegs) s t ∧ { t with regs := s.regs, gov := s.gov, evt := s.evt, mlipend := s.mlipend } = s)

/-- R230, R231, R232, R234, R237: at a window end a quadrant whose lowest non-empty bin is at or below raise_bin raises its VFLUME target by up_step, no
further than the ceiling; one whose lowest bin is at or above lower_bin, with enough fires and no hold-off left, lowers it by down_step, no further
than the floor; one with no launched region, or of a halted single-module partition, goes to the floor. The change is logged, its rail moves and the
window's counts start again. While the rail moves no window runs. A report of the regulator ends the move. A write of the target is taken only while
frozen and within floor to ceiling. Freezing holds every loop, and is shown once nothing is in progress; its end starts every window again, and
brings every target back into its range. -/
def Obligations.GovernorFlume : Prop :=
  (∀ (s : State) (q : Quad), s.gov.ramp.testBit q = true → exec (.govFlumeWindow q) s = .next s) ∧
  (∀ (s : State) (q : Quad) (p b : Nat),
    let old := s.get (F.GOV_VFLUME_target q)
    let new := s.inRange q (old + s.get F.GOV_FLMLIM_up_step)
    s.gov.ramp.testBit q = false → s.get F.GOV_FLMCFG_window ≠ 0 → s.quadEnabled q = true → s.get (F.PWR_DSTAT_state (32 + q.val)) = 0 →
    s.on F.GOV_CTRL_flume_en = true → s.govFrozen = false → s.launchedRegions q ≠ [] → s.quadOwner q = some p → s.running p = true →
    s.lowestBin q = some b → b ≤ s.get F.GOV_FLMCFG_raise_bin → old < s.flumeCeiling → new ≠ old →
    ∃ t, exec (.govFlumeWindow q) s = .next t ∧ t.get (F.GOV_VFLUME_target q) = new ∧ mget (fun _ => 750) t.gov.run q = new ∧
      t.gov.ramp.testBit q = true ∧ mget (fun _ => 0) t.gov.holdoff q = s.get F.GOV_FLMCFG_holdoff ∧
      (∀ r bin, r / 512 = q.val → bin < 16 → t.winFires r bin = 0 ∧ t.movFires r bin = 0) ∧
      t.get F.GOV_STATUS_ramping = 1 ∧ LoggedOne s t 6 q old new ∧ RegsBut ([R.GOV_VFLUME q, R.GOV_STATUS] ++ govLogRegs) s t ∧
      { t with regs := s.regs, gov := s.gov, evt := s.evt, mlipend := s.mlipend } = s) ∧
  (∀ (s : State) (q : Quad) (b : Nat),
    let old := s.get (F.GOV_VFLUME_target q)
    let new := s.inRange q (old - s.get F.GOV_FLMLIM_down_step)
    let lower := s.get F.GOV_FLMCFG_lower_bin
    s.gov.ramp.testBit q = false → s.get F.GOV_FLMCFG_window ≠ 0 → s.quadEnabled q = true → s.get (F.PWR_DSTAT_state (32 + q.val)) = 0 →
    s.on F.GOV_CTRL_flume_en = true → s.govFrozen = false → s.launchedRegions q ≠ [] → (∀ p, s.quadOwner q = some p → s.pstate p ≠ 4 ∨ s.multi p = true) →
    s.lowestBin q = some b → s.get F.GOV_FLMCFG_raise_bin < b → lower ≠ 0 → lower ≤ b → mget (fun _ => 0) s.gov.holdoff q ≤ 1 → s.get F.GOV_FLMLIM_down_step ≠ 0 →
    s.firedInWindow q = true → (∀ r ∈ s.launchedRegions q, 16 * s.get F.GOV_FLMCFG_min_fires ≤ ((List.range 16).map (s.winFires r)).sum) → new ≠ old →
    ∃ t, exec (.govFlumeWindow q) s = .next t ∧ t.get (F.GOV_VFLUME_target q) = new ∧ t.gov.ramp.testBit q = true ∧
      (∀ r bin, r / 512 = q.val → bin < 16 → t.winFires r bin = 0 ∧ t.movFires r bin = 0) ∧
      t.get F.GOV_STATUS_ramping = 1 ∧ LoggedOne s t 6 q old new ∧ RegsBut ([R.GOV_VFLUME q, R.GOV_STATUS] ++ govLogRegs) s t ∧
      { t with regs := s.regs, gov := s.gov, evt := s.evt, mlipend := s.mlipend } = s) ∧
  (∀ (s : State) (q : Quad),
    let old := s.get (F.GOV_VFLUME_target q)
    let new := s.flumeFloor q
    s.gov.ramp.testBit q = false → s.get F.GOV_FLMCFG_window ≠ 0 → s.quadEnabled q = true → s.get (F.PWR_DSTAT_state (32 + q.val)) = 0 →
    s.on F.GOV_CTRL_flume_en = true → s.govFrozen = false →
    (s.launchedRegions q = [] ∨ (s.quadOwner q).any (fun p => s.pstate p == 4 && !s.multi p) = true) → new ≠ old →
    ∃ t, exec (.govFlumeWindow q) s = .next t ∧ t.get (F.GOV_VFLUME_target q) = new ∧ t.gov.ramp.testBit q = true ∧ LoggedOne s t 6 q old new ∧
      RegsBut ([R.GOV_VFLUME q, R.GOV_STATUS] ++ govLogRegs) s t ∧ { t with regs := s.regs, gov := s.gov, evt := s.evt, mlipend := s.mlipend } = s) ∧
  (∀ (s : State) (q : Quad),
    s.gov.ramp.testBit q = true → s.gov.ramp < 16 → s.govFrozen = false → s.on F.GOV_STATUS_frozen = false →
    ∃ t, exec (.regulatorTargetReached ⟨q.val + 1, by omega⟩) s = .next t ∧ t.get (F.GOV_VFLUME_actual q) = s.get (F.GOV_VFLUME_target q) ∧
      (∀ k, t.gov.ramp.testBit k = (s.gov.ramp.testBit k && k != q.val)) ∧ t.on F.GOV_STATUS_ramping = (t.gov.ramp != 0) ∧
      (∀ r bin, r / 512 = q.val → bin < 16 → t.winFires r bin = 0) ∧ RegsBut [R.GOV_VFLUME q, R.GOV_STATUS] s t ∧
      { t with regs := s.regs, gov := s.gov } = s) ∧
  (∀ (s : State) (q : Quad) (value : Word),
    let v := value.toNat / 256 % 4096
    s.quadEnabled q = true → s.on F.GOV_STATUS_frozen = true → s.flumeFloor q ≤ v → v ≤ s.flumeCeiling → v ≠ s.get (F.GOV_VFLUME_target q) →
    ∃ t, exec (.govVflumeWrite q value) s = .next t ∧ t.get (F.GOV_VFLUME_target q) = v ∧ LoggedOne s t 6 q (s.get (F.GOV_VFLUME_target q)) v ∧
      t.gov.ramp.testBit q = true ∧ RegsBut ([R.GOV_VFLUME q, R.GOV_STATUS] ++ govLogRegs) s t ∧
      { t with regs := s.regs, gov := s.gov, evt := s.evt, mlipend := s.mlipend } = s) ∧
  (∀ (s : State) (q : Quad) (value : Word),
    let v := value.toNat / 256 % 4096
    s.quadEnabled q = false ∨ s.on F.GOV_STATUS_frozen = false ∨ v < s.flumeFloor q ∨ s.flumeCeiling < v → exec (.govVflumeWrite q value) s = .next s) ∧
  (∀ (s : State),
    ∃ t, exec (.govFreeze true) s = .next t ∧ t.get F.GOV_CTRL_freeze = 1 ∧ (s.gov.trials = [] → s.gov.ramp = 0 → t.get F.GOV_STATUS_frozen = 1) ∧
      (s.gov.trials ≠ [] ∨ s.gov.ramp ≠ 0 → t.get F.GOV_STATUS_frozen = s.get F.GOV_STATUS_frozen) ∧
      RegsBut [R.GOV_CTRL, R.GOV_STATUS] s t ∧ OnlyRegs s t) ∧
  (∀ (s : State),
    ∃ t, exec (.govFreeze false) s = .next t ∧ t.get F.GOV_CTRL_freeze = 0 ∧ t.get F.GOV_STATUS_frozen = 0 ∧
      (∀ r bin, r < 2048 → bin < 16 → t.winFires r bin = 0 ∧ t.movFires r bin = 0) ∧
      (s.get F.GOV_FLMCFG_window ≠ 0 → ∀ q, q < 4 → s.quadEnabled q = true → t.get (F.GOV_VFLUME_target q) = s.inRange q (s.get (F.GOV_VFLUME_target q))) ∧
      ((∀ q, q < 4 → s.inRange q (s.get (F.GOV_VFLUME_target q)) = s.get (F.GOV_VFLUME_target q)) →
        RegsBut [R.GOV_CTRL, R.GOV_STATUS] s t ∧ { t with regs := s.regs, gov := s.gov } = s))

/-- R233, R237, R235: each sample sums the rails' power; the hold fraction rises by 8, to 960 at most, while the average exceeds the cap, falls by 4
while it is more than 2 % below, and is 0 with no cap. A unit whose commanded and observed states have disagreed for 1 ms sets its bit and raises
STATE_MISMATCH once. -/
def Obligations.GovernorPower : Prop :=
  (∀ (s : State) (rails : List RailRead) (cycles : List Nat),
    let power := ((List.range 8).map (fun r => match rails.getD r none with | some x => x.1.toNat * x.2.toNat | none => s.get (F.GOV_RAIL_low r) * s.get (F.GOV_RAIL_high r))).sum
    let ps := (power :: s.gov.power).take 10
    let cap := 1000 * ps.length * s.get F.GOV_CAP_watts
    let h := s.get F.GOV_CAPSTAT_h
    let h' := if s.get F.GOV_CAP_watts = 0 ∨ s.on F.GOV_CTRL_cap_en = false then 0
      else if cap < ps.sum then min 960 (h + 8) else if 100 * ps.sum < 98 * cap then h - 4 else h
    (∀ p, p < 4 → s.running p = false) → h ≤ 960 →
    ∃ t, exec (.govPowerSample rails cycles) s = .next t ∧ t.gov.power = ps ∧ t.get F.GOV_POWER_low = ps.sum / ps.length / 1000 % 2 ^ 16 ∧ t.get F.GOV_CAPSTAT_h = h' ∧
      (∀ r, r < 8 → (t.bit F.GOV_STATUS_rails_missing r = (rails.getD r none).isNone)) ∧ t.get F.GOV_STATUS_cap_band = h' / 64 ∧
      { t with regs := s.regs, gov := s.gov, evt := s.evt, mlipend := s.mlipend } = s) ∧
  (∀ (s : State) (unit : Fin 44),
    (∀ u, u < 44 → s.misBit u = true → s.unitMismatch u = true) → s.unitMismatch unit = true → s.misBit unit = false →
    ∃ t, exec (.stateMismatch unit) s = .next t ∧ t.misBit unit = true ∧
      RaisedOne s t 0x8009 0xFF [unit, if s.unitOn unit then 1 else 0, if s.unitSeen unit then 1 else 0] ∧
      RegsBut ([R.GOV_SMMIS_LO, R.GOV_SMMIS_HI] ++ evtRegs 0x8009 0xFF) s t ∧ OnlyEvents s t) ∧
  (∀ (s : State) (unit : Fin 44),
    (∀ u, u < 44 → s.misBit u = true → s.unitMismatch u = true) → s.unitMismatch unit = false → exec (.stateMismatch unit) s = .next s)

/-- R400, R434, R399, R412: CLK_DDR is taken only while every channel is disabled and none trains, the clock then loses lock and trained channels return
to state 2; otherwise the write sets refused. The clock locks again at the speed written. VCORE at its target lets the pace that waits for it
switch; a timeout raises VOLTAGE_FAULT and gives the pace up. A monitored clock more than 1 % off raises CLOCK_FAULT once, the REFCLK average
outside 99.4 to 100.03 MHz each time. -/
def Obligations.Clocks : Prop :=
  (∀ (s : State) (speed : Bool),
    (∃ c, c < 16 ∧ (s.on (F.DDRC_CTRL_en c) = true ∨ s.get (F.DDRC_STATUS_state c) = 3)) →
    ∃ t, exec (.clkDdrWrite speed) s = .next t ∧ t.get F.CLK_STATUS_refused = 1 ∧ RegsBut [R.CLK_STATUS] s t ∧ OnlyRegs s t) ∧
  (∀ (s : State) (speed : Bool),
    (∀ c, c < 16 → s.on (F.DDRC_CTRL_en c) = false ∧ s.get (F.DDRC_STATUS_state c) ≠ 3) →
    ∃ t, exec (.clkDdrWrite speed) s = .next t ∧ t.on F.CLK_DDR_speed = speed ∧ t.get F.CLK_STATUS_ddr_lock = 0 ∧
      (∀ c, c < 16 → t.get (F.DDRC_STATUS_state c) =
        (if s.get (F.DDRC_STATUS_state c) = 4 ∨ s.get (F.DDRC_STATUS_state c) = 5 then 2 else s.get (F.DDRC_STATUS_state c))) ∧
      RegsBut ([R.CLK_STATUS, R.CLK_DDR] ++ (List.range 16).map R.DDRC_STATUS) s t ∧ OnlyRegs s t) ∧
  (∀ (s : State),
    ∃ t, exec .ddrPhyRelock s = .next t ∧ t.get F.CLK_STATUS_ddr_lock = 1 ∧ t.get F.CLK_STATUS_ddr_speed = s.get F.CLK_DDR_speed ∧
      RegsBut [R.CLK_STATUS] s t ∧ OnlyRegs s t) ∧
  (∀ (s : State) (v : Nat),
    s.clk.paceWait = some v →
    ∃ t, exec (.regulatorTargetReached 0) s = .next t ∧ t.clk = { s.clk with paceWait := none, paceTo := some v } ∧ t.get F.CLK_STATUS_switching = 1 ∧
      t.gov = { s.gov with vcoreRamp := false } ∧ RegsBut [R.CLK_STATUS] s t ∧ { t with regs := s.regs, clk := s.clk, gov := s.gov } = s) ∧
  (∀ (s : State) (mv : BitVec 16),
    s.gov.vcoreRamp = true →
    ∃ t, exec (.regulatorTimeout mv) s = .next t ∧ t.clk = { s.clk with paceWait := none } ∧ t.get F.CLK_PACE_pace = s.pace ∧
      RaisedOne s t 0x8002 0xFF [0, mv.toNat, s.gov.vcore] ∧ RegsBut (R.CLK_PACE :: evtRegs 0x8002 0xFF) s t ∧
      { t with regs := s.regs, clk := s.clk, evt := s.evt, mlipend := s.mlipend } = s) ∧
  (∀ (s : State) (m : Fin 25) (freq : BitVec 20),
    let e := s.expectedFreq m
    m.val < 24 → s.on F.CLK_CTRL_mon_en = true → 100 * freq.toNat < 99 * e ∨ 101 * e < 100 * freq.toNat → s.on F.CLK_STATUS_switching = false →
    s.on (F.CLK_MON_fault m) = false →
    ∃ t, exec (.clockMonitorSample m freq) s = .next t ∧ t.get (F.CLK_MON_freq m) = freq.toNat ∧ t.get (F.CLK_MON_fault m) = 1 ∧
      t.bit F.CLK_STATUS_mon_fault m = true ∧ RaisedOne s t 0x8003 0xFF [m, freq.toNat] ∧
      RegsBut ([R.CLK_MON m, R.CLK_STATUS] ++ evtRegs 0x8003 0xFF) s t ∧ OnlyEvents s t) ∧
  (∀ (s : State) (m : Fin 25) (freq : BitVec 20),
    let e := s.expectedFreq m
    m.val < 24 → 99 * e ≤ 100 * freq.toNat → 100 * freq.toNat ≤ 101 * e →
    ∃ t, exec (.clockMonitorSample m freq) s = .next t ∧ t.get (F.CLK_MON_freq m) = freq.toNat ∧ RegsBut [R.CLK_MON m] s t ∧ OnlyRegs s t) ∧
  (∀ (s : State) (freq : BitVec 20),
    s.on F.CLK_CTRL_mon_en = true → freq.toNat < 99400 ∨ 100030 < freq.toNat →
    ∃ t, exec (.clockMonitorSample 24 freq) s = .next t ∧ t.get F.CLK_REFMON_khz = freq.toNat ∧ RaisedOne s t 0x8003 0xFF [24, freq.toNat] ∧
      RegsBut (R.CLK_REFMON :: evtRegs 0x8003 0xFF) s t ∧ OnlyEvents s t)

/-! ## Clearing counters -/

/-- R107, R137, R173, R132, R123, R134, R170, R222, R199, R200: a write of a block's clear bit zeroes the block's counters and leaves every other
register and all other state alone; SPK_LAT.min_slack goes to its greatest value, and the window's statistics are forgotten. -/
def Obligations.FabricCountersClear : Prop :=
  (∀ (s : State),
    ∃ t, exec .raceDeadcntClear s = .next t ∧ t.reg R.RACE_DEADCNT = 0 ∧ t.reg R.RACE_DROP = 0 ∧
      RegsBut [R.RACE_DEADCNT, R.RACE_DROP] s t ∧ OnlyRegs s t) ∧
  (∀ (s : State),
    ∃ t, exec .raceEccCeClear s = .next t ∧ t.get F.RACE_ECC_ce_count = 0 ∧ t.get F.RACE_ECC_ue_flag = s.get F.RACE_ECC_ue_flag ∧
      RegsBut [R.RACE_ECC] s t ∧ OnlyRegs s t) ∧
  (∀ (s : State),
    ∃ t, exec .raceStctrlClear s = .next t ∧ (∀ k, k < 64 → t.reg (R.STAT_UNITS k) = 0 ∧ t.reg (R.STAT_LAT k) = 0) ∧ t.get64 R.RACE_UNITS_LO R.RACE_UNITS_HI = 0 ∧ t.reg R.RACE_PEAKWAIT = 0 ∧ t.race = { s.race with stats := [] } ∧
      RegsBut ((List.range 64).map R.STAT_UNITS ++ (List.range 64).map R.STAT_LAT ++ [R.RACE_UNITS_LO, R.RACE_UNITS_HI, R.RACE_PEAKWAIT]) s t ∧ { t with regs := s.regs, race := s.race } = s) ∧
  (∀ (s : State) (m : Mill),
    ∃ t, exec (.millEccCeClear m) s = .next t ∧ t.get (F.MILL_ECC_ce_count m) = 0 ∧
      RegsBut [R.MILL_ECC m] s t ∧ OnlyRegs s t) ∧
  (∀ (s : State),
    ∃ t, exec .flmCntClear s = .next t ∧ t.reg R.FLM_DROPCNT = 0 ∧
      RegsBut [R.FLM_DROPCNT] s t ∧ OnlyRegs s t) ∧
  (∀ (s : State) (region : Fin 2048),
    ∃ t, exec (.flmSlackClear region) s = .next t ∧ t.get F.FLM_SLACKSEL_region = region ∧
      (∀ b, b < 16 → mget (fun _ => 0) t.flume.hist (region.val * 16 + b) = 0) ∧
      (∀ k, k / 16 ≠ region.val → mget (fun _ => 0) t.flume.hist k = mget (fun _ => 0) s.flume.hist k) ∧
      RegsBut [R.FLM_SLACKSEL] s t ∧ { t with regs := s.regs, flume := { t.flume with hist := s.flume.hist } } = s) ∧
  (∀ (s : State),
    ∃ t, exec .flmEccCeClear s = .next t ∧ t.get F.FLM_ECC_ce_count = 0 ∧
      RegsBut [R.FLM_ECC] s t ∧ OnlyRegs s t) ∧
  (∀ (s : State),
    ∃ t, exec .mportCntClear s = .next t ∧ t.get F.MPORT_PFISSUE_count = 0 ∧ t.get F.MPORT_PFUSE_count = 0 ∧ t.get F.MPORT_PFDISC_count = 0 ∧ t.get F.MPORT_PFDROP_count = 0 ∧ t.get F.MPORT_STATUS_mm_ce_count = 0 ∧ t.reg R.MPORT_RANGE = 0 ∧ (∀ id, id < 512 → t.get (F.MPORT_PSTAT_maxlat.sel id) = 0) ∧
      RegsBut ([R.MPORT_PFISSUE, R.MPORT_PFUSE, R.MPORT_PFDISC, R.MPORT_PFDROP, R.MPORT_STATUS, R.MPORT_RANGE] ++ (List.range 512).map (selAddr R.MPORT_PSTAT)) s t ∧ OnlyRegs s t) ∧
  (∀ (s : State) (c : Chan),
    ∃ t, exec (.ddrcCeClear c) s = .next t ∧ t.get (F.DDRC_CE_ce_count c) = 0 ∧ t.reg (R.DDRC_REFSTAT c) = 0 ∧ t.reg (R.DDRC_LATE c) = 0 ∧ t.reg (R.DDRC_ALERT c) = 0 ∧
      RegsBut [R.DDRC_CE c, R.DDRC_REFSTAT c, R.DDRC_LATE c, R.DDRC_ALERT c] s t ∧ OnlyRegs s t) ∧
  (∀ (s : State) (sp : Spoke),
    ∃ t, exec (.spkLatClear sp) s = .next t ∧ t.get (F.SPK_LAT_min_slack sp) = 4095 ∧ t.get (F.SPK_ERR_count sp) = 0 ∧ t.get (F.SPK_LAT_measured sp) = s.get (F.SPK_LAT_measured sp) ∧
      RegsBut [R.SPK_LAT sp, R.SPK_ERR sp] s t ∧ OnlyRegs s t)

/-- R294, R319, R323, R377, R379, R395, R413, R415, R430, R432, R455: a write of a block's clear bit zeroes the block's counters and leaves every other
register and all other state alone; SENS_PEAK takes the hottest reading of the moment, and the counts of the event codes go to 0. -/
def Obligations.ShellCountersClear : Prop :=
  (∀ (s : State),
    ∃ t, exec .slcCntClear s = .next t ∧ (∀ k, k < 256 → t.reg (selAddr R.SLC_DROPS k) = 0 ∧ t.reg (selAddr R.SLC_ITEMS k) = 0) ∧
      RegsBut ((List.range 256).map (selAddr R.SLC_DROPS) ++ (List.range 256).map (selAddr R.SLC_ITEMS)) s t ∧ OnlyRegs s t) ∧
  (∀ (s : State),
    ∃ t, exec .hopCntClear s = .next t ∧ (∀ b, b < 16 → t.reg (R.HOP_STALL b) = 0) ∧ t.reg R.HOP_DENY = 0 ∧ t.get F.HOP_ECC_ce_count = 0 ∧ t.get F.HOP_ECC_ue_flag = s.get F.HOP_ECC_ue_flag ∧
      RegsBut ((List.range 16).map R.HOP_STALL ++ [R.HOP_DENY, R.HOP_ECC]) s t ∧ OnlyRegs s t) ∧
  (∀ (s : State),
    ∃ t, exec .schedCntClear s = .next t ∧ t.reg R.SCHED_REFCNT = 0 ∧ t.reg R.SCHED_DISPCNT = 0 ∧ t.reg R.SCHED_PREEMPTCNT = 0 ∧ t.reg R.SCHED_CANCELCNT = 0 ∧ t.get F.SCHED_STATUS_late_due = 0 ∧
      RegsBut [R.SCHED_REFCNT, R.SCHED_DISPCNT, R.SCHED_PREEMPTCNT, R.SCHED_CANCELCNT, R.SCHED_STATUS] s t ∧ OnlyRegs s t) ∧
  (∀ (s : State),
    ∃ t, exec .acqCntClear s = .next t ∧ (∀ n, n < 32 → t.get (F.ACQ_CNTDATA_count.sel n) = 0) ∧
      RegsBut ((List.range 32).map (selAddr R.ACQ_CNTDATA)) s t ∧ OnlyRegs s t) ∧
  (∀ (s : State),
    ∃ t, exec .trcCntClear s = .next t ∧ t.reg R.TRC_LOST = 0 ∧ t.reg R.TRC_PKTCNT = 0 ∧ t.reg R.TRC_EXCL = 0 ∧ (∀ k, k < 32 → t.get (F.TRC_CORE_dropped k) = 0 ∧ t.get (F.TRC_CORE_en k) = s.get (F.TRC_CORE_en k)) ∧
      RegsBut ([R.TRC_LOST, R.TRC_PKTCNT, R.TRC_EXCL] ++ (List.range 32).map R.TRC_CORE) s t ∧ OnlyRegs s t) ∧
  (∀ (s : State),
    ∃ t, exec .ptpCntClear s = .next t ∧ (∀ a, a ∈ [R.PTP_RXFRAMES, R.PTP_TXFRAMES, R.PTP_RXEVENTS, R.PTP_TXEVENTS, R.PTP_TSLOST, R.PTP_RXERR, R.PTP_DOMAINDROP, R.PTP_RXSYNC] → t.reg a = 0) ∧
      RegsBut [R.PTP_RXFRAMES, R.PTP_TXFRAMES, R.PTP_RXEVENTS, R.PTP_TXEVENTS, R.PTP_TSLOST, R.PTP_RXERR, R.PTP_DOMAINDROP, R.PTP_RXSYNC] s t ∧ OnlyRegs s t) ∧
  (∀ (s : State),
    ∃ t, exec .pwrCntClear s = .next t ∧ t.get F.PWR_TRANS_count = 0 ∧ (∀ u, u < 48 → t.get (F.PWR_DSTAT_entries u) = 0 ∧ t.get (F.PWR_DSTAT_state u) = s.get (F.PWR_DSTAT_state u)) ∧
      RegsBut (R.PWR_TRANS :: (List.range 48).map R.PWR_DSTAT) s t ∧ OnlyRegs s t) ∧
  (∀ (s : State),
    ∃ t, exec .sensPeakClear s = .next t ∧ t.get F.SENS_PEAK_sensor = s.get F.SENS_HOTTEST_sensor ∧ t.get F.SENS_PEAK_temp = s.get F.SENS_HOTTEST_temp ∧
      RegsBut [R.SENS_PEAK] s t ∧ OnlyRegs s t) ∧
  (∀ (s : State),
    ∃ t, exec .gpioCntClear s = .next t ∧ t.reg R.GPIO_DENY = 0 ∧ t.get F.GPIO_SYSSTAT_rejected = 0 ∧
      RegsBut [R.GPIO_DENY, R.GPIO_SYSSTAT] s t ∧ OnlyRegs s t) ∧
  (∀ (s : State),
    ∃ t, exec .tioCntClear s = .next t ∧ t.reg R.TIO_DENY = 0 ∧
      RegsBut [R.TIO_DENY] s t ∧ OnlyRegs s t) ∧
  (∀ (s : State),
    ∃ t, exec .evtCntClear s = .next t ∧ (∀ a, a ∈ ([R.EVT_RAISED, R.EVT_MASKED, R.EVT_MLRCNT, R.EVT_RAISEDENY, R.EVT_DEVCNT] ++ (List.range 12).map R.EVT_CLASSCNT ++ (List.range 4).map R.EVT_PARTCNT) → t.reg a = 0) ∧ t.evt = { s.evt with codeCnt := [] } ∧
      RegsBut 
        ([R.EVT_RAISED, R.EVT_MASKED, R.EVT_MLRCNT, R.EVT_RAISEDENY, R.EVT_DEVCNT] ++ (List.range 12).map R.EVT_CLASSCNT ++ (List.range 4).map R.EVT_PARTCNT) s t ∧ { t with regs := s.regs, evt := s.evt } = s)

/-! ## Power and resets -/

/-- R402, R403, R404, R405, R406, R407, R413: the manager lowers a domain that is neither held nor forced to a state its kind takes and its caps allow;
a mill row keeps its contents down to Doze, and loses its stores and memories in Sleep and Off, in Off its instructions too. A wake targets Run, and
at its end the domain is in its target state, a group's channels out of self-refresh; a packet wakes no row from Sleep or Off. A force is taken, or
refused with PWR_REFUSED where the kind does not take the state or a hold stands against it; one that takes the row of a halted or loaded partition
into Sleep or Off loses its context. A wake that does not end raises PWR_WAKE_TIMEOUT. A core in WFI enters Nap where its known events are far
enough off (R405; log entry 86), and leaves it. R408, R409, R415, R221: a reading of a die sensor below the trip limit is shown; the first to reach
the warning limit raises THERMAL_WARN, with no second until every sensor has cooled by 5 °C. One at the trip limit pulls THERMTRIP_N low, is
recorded, and takes the device into a cold reset with cause 4. A DRAM module above its channel's limit raises DRAM_HOT once. A supply outside its
tolerance sets its bit and raises VOLTAGE_FAULT once. -/
def Obligations.PowerAndSensors : Prop :=
  (∀ (s : State) (u : Fin 80) (st : Fin 6),
    u.val < 48 → s.on F.PWR_CTRL_en = true → (u.val < 44 → s.unitExists u = true) → s.on (F.PWR_DOM_force_en u) = false →
    s.on (F.PWR_DSTAT_waking u) = false → takesState u st = true → s.domHeld u false = false → st.val ≤ s.maxState u → st.val ≤ s.domCap u →
    s.dstate u < st.val → st.val < 4 → u.val < 32 →
    ∃ t, exec (.powerStateEntry u st) s = .next t ∧ t.dstate u = st ∧ t.get (F.PWR_DSTAT_target u) = st ∧
      t.get F.PWR_TRANS_count = (s.get F.PWR_TRANS_count + 1) % 2 ^ F.PWR_TRANS_count.width ∧
      RegsBut [R.PWR_DSTAT u, R.PWR_TRANS, R.GOV_SMMIS_LO, R.GOV_SMMIS_HI] s t ∧ OnlyRegs s t) ∧
  (∀ (s : State) (u : Fin 80) (st : Fin 6),
    u.val < 32 → s.on F.PWR_CTRL_en = true → s.unitExists u = true → s.on (F.PWR_DOM_force_en u) = false →
    s.on (F.PWR_DSTAT_waking u) = false → s.domHeld u false = false → st.val ≤ s.maxState u → st.val ≤ s.domCap u → s.dstate u < st.val → 4 ≤ st.val →
    ∃ t, exec (.powerStateEntry u st) s = .next t ∧ t.dstate u = st ∧
      (∀ k, mget (fun _ => 0) t.stones.rows k = if k / (4864 * 16) / 8 = u.val then 0 else mget (fun _ => 0) s.stones.rows k) ∧
      (∀ k, mget (fun _ => 0) t.dm.mem k = if k / 16384 / 8 = u.val then 0 else mget (fun _ => 0) s.dm.mem k) ∧
      (∀ k, mget (fun _ => 0) t.stones.words k = if st.val = 5 ∧ k / 2 ^ 21 / 8 = u.val then 0 else mget (fun _ => 0) s.stones.words k) ∧
      RegsBut [R.PWR_DSTAT u, R.PWR_TRANS, R.GOV_SMMIS_LO, R.GOV_SMMIS_HI] s t ∧ { t with regs := s.regs, stones := s.stones, dm := s.dm } = s) ∧
  (∀ (s : State) (u : Fin 80) (st : Fin 6),
    u.val < 48 → s.domHeld u false = true → exec (.powerStateEntry u st) s = .next s) ∧
  (∀ (s : State) (k : Core),
    s.on F.PWR_CTRL_en = true → s.bit F.PWR_CORECFG_cores k = true → (s.miller k).wfi = true → s.napping k = false → s.traced k = false → s.napWorth k = true →
    ∃ t, exec (.powerStateEntry ⟨48 + k.val, by omega⟩ 2) s = .next t ∧ t.napping k = true ∧ RegsBut [R.PWR_CORENAP] s t ∧ OnlyRegs s t) ∧
  (∀ (s : State) (u : Fin 80),
    u.val < 48 → s.unitExists u = true → s.dstate u ≠ 0 → s.on (F.PWR_DOM_force_en u) = false →
    ∃ t, exec (.wakeStart u) s = .next t ∧ t.get (F.PWR_DSTAT_target u) = 0 ∧ t.get (F.PWR_DSTAT_waking u) = 1 ∧ t.dstate u = s.dstate u ∧
      RegsBut [R.PWR_DSTAT u, R.GOV_SMMIS_LO, R.GOV_SMMIS_HI] s t ∧ OnlyRegs s t) ∧
  (∀ (s : State) (u : Fin 80),
    u.val < 48 → s.unitExists u = true → s.dstate u ≠ 0 → s.on (F.PWR_DOM_force_en u) = false → 32 ≤ u.val ∨ s.dstate u < 4 →
    ∃ t, exec (.accessWake u) s = .next t ∧ t.get (F.PWR_DSTAT_target u) = 0 ∧ t.get (F.PWR_DSTAT_waking u) = 1 ∧
      RegsBut [R.PWR_DSTAT u, R.GOV_SMMIS_LO, R.GOV_SMMIS_HI] s t ∧ OnlyRegs s t) ∧
  (∀ (s : State) (u : Fin 80), u.val < 32 → 4 ≤ s.dstate u → exec (.accessWake u) s = .next s) ∧
  (∀ (s : State) (u : Fin 80),
    u.val < 48 → s.unitExists u = true → s.on (F.PWR_DSTAT_waking u) = true → (∀ c, c < 16 → (s.chan c).waiting.all (fun r => !r.held) = true) →
    ∃ t, exec (.wakeComplete u) s = .next t ∧ t.dstate u = s.get (F.PWR_DSTAT_target u) ∧ t.get (F.PWR_DSTAT_waking u) = 0 ∧
      (∀ c, c < 16 → t.get (F.DDRC_STATUS_state c) = (if u.val = 36 + c / 4 ∧ s.get (F.PWR_DSTAT_target u) < 3 ∧ s.get (F.DDRC_STATUS_state c) = 7 then 4
        else s.get (F.DDRC_STATUS_state c))) ∧
      RegsBut ([R.PWR_DSTAT u, R.PWR_TRANS, R.GOV_SMMIS_LO, R.GOV_SMMIS_HI] ++ (List.range 16).map R.DDRC_STATUS) s t ∧ OnlyRegs s t) ∧
  (∀ (s : State) (k : Core),
    s.napping k = true →
    ∃ t, exec (.wakeComplete ⟨48 + k.val, by omega⟩) s = .next t ∧ t.napping k = false ∧ t.power = s.power ∧ t.millers = s.millers) ∧
  (∀ (s : State) (d : Fin 48) (value : Word),
    let force := (F.PWR_DOM_force d).of value
    force < 6 → (d.val < 44 → s.unitExists d = true) → (F.PWR_DOM_force_en d).of value = 1 →
    takesState d force = false ∨ (0 < force ∧ s.domHeld d (s.on F.PCIE_STATUS_up) = true) →
    ∃ t, exec (.pwrForceWrite d value) s = .next t ∧ t.get (F.PWR_DOM_refused d) = 1 ∧ t.dstate d = s.dstate d ∧
      RaisedOne s t 0x8004 (ownerField (s.domOwner d)) [d, s.dstat d] ∧ t.get F.PWR_FAULT_flag = 1 ∧
      RegsBut ([R.PWR_DOM d, R.PWR_FAULT] ++ evtRegs 0x8004 (ownerField (s.domOwner d))) s t ∧ OnlyEvents s t) ∧
  (∀ (s : State) (d : Fin 48) (value : Word),
    let force := (F.PWR_DOM_force d).of value
    force < 6 → (d.val < 44 → s.unitExists d = true) → (F.PWR_DOM_force_en d).of value = 1 → takesState d force = true →
    force = 0 ∨ s.domHeld d (s.on F.PCIE_STATUS_up) = false → force < 4 →
    ∃ t, exec (.pwrForceWrite d value) s = .next t ∧ t.get (F.PWR_DOM_force_en d) = 1 ∧ t.get (F.PWR_DOM_force d) = force ∧
      t.get (F.PWR_DSTAT_target d) = force ∧ (s.dstate d ≤ force → t.dstate d = force) ∧
      (force < s.dstate d → t.dstate d = s.dstate d ∧ t.get (F.PWR_DSTAT_waking d) = 1) ∧ t.parts = s.parts) ∧
  (∀ (s : State) (d : Fin 48) (value : Word) (p : Nat),
    let force := (F.PWR_DOM_force d).of value
    d.val < 32 → s.unitExists d = true → (F.PWR_DOM_force_en d).of value = 1 → 4 ≤ force → force < 6 → s.domHeld d (s.on F.PCIE_STATUS_up) = false →
    s.domOwner d = some p → (s.pstate p = 4 ∨ s.pstate p = 2) → s.dstate d < force →
    ∃ t, exec (.pwrForceWrite d value) s = .next t ∧ t.dstate d = force ∧ (t.part p).contextLost = true ∧ (t.part p).invalidToLoad = true ∧
      RaisedOne s t 0x8005 p [d, t.dstat d] ∧ OnlyPart p s t) ∧
  (∀ (s : State) (d : Fin 48),
    s.on (F.PWR_DSTAT_waking d) = true → s.on F.PWR_FAULT_flag = false →
    ∃ t, exec (.pwrWakeTimeout d) s = .next t ∧ RaisedOne s t 0x8006 (ownerField (s.domOwner d)) [d, s.dstat d] ∧ t.get F.PWR_FAULT_flag = 1 ∧
      t.get F.PWR_FAULT_kind = 1 ∧ t.get F.PWR_FAULT_domain = d ∧
      RegsBut (R.PWR_FAULT :: evtRegs 0x8006 (ownerField (s.domOwner d))) s t ∧ OnlyEvents s t) ∧
  (∀ (s : State) (i : Fin 40) (temp : BitVec 16),
    let hot := decide ((16 * s.get F.SENS_LIMITS_warn : Int) ≤ temp.toInt)
    i.val < 24 → temp.toInt < 16 * s.get F.SENS_LIMITS_trip → s.get F.SENS_LIMITS_warn ≠ 0 → s.power.warned = false →
    ∃ t, exec (.sensorSample i temp) s = .next t ∧ t.get (F.SENS_TEMP_temp i) = temp.toNat ∧ t.get (F.SENS_TEMP_valid i) = 1 ∧
      t.bit F.SENS_STATUS_over i = hot ∧ t.power = { s.power with warned := hot } ∧
      (hot = true → RaisedOne s t 0x8001 0xFF [i, (t.reg (R.SENS_TEMP i)).toNat]) ∧
      RegsBut ([R.SENS_TEMP i, R.SENS_HOTTEST, R.SENS_PEAK, R.SENS_STATUS] ++ evtRegs 0x8001 0xFF) s t ∧
      { t with regs := s.regs, power := s.power, evt := s.evt, mlipend := s.mlipend } = s) ∧
  (∀ (s : State) (i : Fin 40) (temp : BitVec 16),
    i.val < 24 → 16 * s.get F.SENS_LIMITS_trip ≤ temp.toInt → s.sessLevel 1 = 0 → s.sessLevel 2 = 0 → s.sessLevel 3 = 0 →
    ∃ t, exec (.sensorSample i temp) s = .next t ∧ t.power.thermtrip = true ∧ t.get F.SENS_TRIPREC_sensor = i ∧
      t.get F.SENS_TRIPREC_temp = temp.toNat ∧ NotedReset s t 4 0 ∧ (∀ p, p < 4 → t.pstate p = 0) ∧ t.parts = [] ∧ t.stones = {} ∧ t.keys = s.keys) ∧
  (∀ (s : State) (c : Fin 16) (temp : BitVec 16),
    let deg := (temp.toInt / 16).toNat
    s.get (F.DDRC_TEMP_limit c) ≠ 0 → s.get (F.DDRC_TEMP_limit c) < deg → deg < 256 → (s.chan c).hot = false →
    ∃ t, exec (.sensorSample ⟨24 + c.val, by omega⟩ temp) s = .next t ∧ t.get (F.DDRC_TEMP_hottest c) = deg ∧ (t.chan c).hot = true ∧
      RaisedOne s t 0x300C 0xFF [c, deg] ∧ RegsBut (R.DDRC_TEMP c :: evtRegs 0x300C 0xFF) s t ∧
      { t with regs := s.regs, dram := s.dram, evt := s.evt, mlipend := s.mlipend } = s) ∧
  (∀ (s : State) (m : Fin 16) (mv : BitVec 16),
    let target := s.vmonTarget m
    let dev := if mv.toNat < target then target - mv.toNat else mv.toNat - target
    s.vmonChecked m = true → target * s.get F.SENS_VTOL_permille < 1000 * dev → s.bit F.SENS_VFAULT_monitors m = false →
    ∃ t, exec (.voltageFault m mv) s = .next t ∧ t.get (F.SENS_VMON_mv m) = mv.toNat ∧ t.bit F.SENS_VFAULT_monitors m = true ∧
      RaisedOne s t 0x8002 0xFF [m, mv.toNat, target] ∧ RegsBut ([R.SENS_VMON m, R.SENS_VFAULT] ++ evtRegs 0x8002 0xFF) s t ∧ OnlyEvents s t) ∧
  (∀ (s : State) (m : Fin 16) (mv : BitVec 16),
    (s.bit F.SENS_VFAULT_monitors m = true ∨ s.vmonChecked m = false) →
    ∃ t, exec (.voltageFault m mv) s = .next t ∧ t.get (F.SENS_VMON_mv m) = mv.toNat ∧ RegsBut [R.SENS_VMON m] s t ∧ OnlyRegs s t)

/-- R410, R414, R411, R399, R453, R283: a lost REFCLK, a main shaft that unlocks, RESET_N, PWR_OK and a write of RST_CTRL by the host take the device
into a cold reset with causes 5, 6, 2, 3 and 7; VAON rising leaves everything but key RAM as after power-on. A warm reset empties the partitions and
the hopper, gives every DRAM slice to the shell and keeps DRAM's contents. A PCIe reset is counted, and takes the host's side: rings, enables,
message table. The bring-up goes on by stages to the fuses, with whose values miller 0 starts. -/
def Obligations.Resets : Prop :=
  (∀ (s : State), s.sessLevel 1 = 0 → s.sessLevel 2 = 0 → s.sessLevel 3 = 0 →
    ∃ t, exec .refclkLost s = .next t ∧ ColdReset (s.bump F.CLK_UNLOCKCNT_ref_lost 1) t 5 0 ∧ t.get F.RST_SEQ_stage = s.stageNow ∧
      t.get F.CLK_UNLOCKCNT_ref_lost = min (s.get F.CLK_UNLOCKCNT_ref_lost + 1) (2 ^ F.CLK_UNLOCKCNT_ref_lost.width - 1)) ∧
  (∀ (s : State), s.sessLevel 1 = 0 → s.sessLevel 2 = 0 → s.sessLevel 3 = 0 →
    ∃ t, exec .mainShaftUnlock s = .next t ∧ ColdReset (s.bump F.CLK_UNLOCKCNT_unlocks 1) t 6 0 ∧ t.get F.RST_SEQ_stage = s.stageNow) ∧
  (∀ (s : State), s.sessLevel 1 = 0 → s.sessLevel 2 = 0 → s.sessLevel 3 = 0 →
    ∃ t, exec .resetNAssert s = .next t ∧ ColdReset (s.put F.RST_STATUS_reset_n 0) t 2 0 ∧ t.get F.RST_SEQ_stage = 0 ∧ t.get F.RST_STATUS_reset_n = 0) ∧
  (∀ (s : State), s.sessLevel 1 = 0 → s.sessLevel 2 = 0 → s.sessLevel 3 = 0 →
    ∃ t, exec .pwrOkFall s = .next t ∧ ColdReset (s.put F.RST_STATUS_pwr_ok 0) t 3 0 ∧ t.get F.RST_SEQ_stage = 0 ∧ t.power.thermtrip = false) ∧
  (∀ (s : State), s.sessLevel 1 = 0 → s.sessLevel 2 = 0 → s.sessLevel 3 = 0 →
    ∃ t, exec (.rstCtrlCold .host) s = .next t ∧ ColdReset s t 7 (writerCode .host) ∧ t.get F.RST_SEQ_stage = s.stageNow) ∧
  (∀ (s : State), s.sessLevel 1 = 0 → s.sessLevel 2 = 0 → s.sessLevel 3 = 0 →
    ∃ t, exec (.rstCtrlWarm .host) s = .next t ∧ NotedReset s t 8 (writerCode .host) ∧ t.get F.RST_SEQ_stage = 3 ∧ (∀ p, p < 4 → t.pstate p = 0) ∧
      t.parts = [] ∧ t.stones = {} ∧ t.hop = {} ∧ t.millers = [] ∧ t.dram.mem = s.dram.mem ∧ t.keys = s.keys ∧ t.clk = s.clk ∧ t.power = s.power ∧
      (∀ c, c < 16 → t.reg (R.DDRC_OWN_LO c) = 0 ∧ t.reg (R.DDRC_OWN_HI c) = 0 ∧ t.get (F.DDRC_STATUS_state c) = s.get (F.DDRC_STATUS_state c)) ∧
      t.host.writes = s.host.writes ∧ t.host.rings = [] ∧ t.pending = s.pending) ∧
  (∀ (s : State),
    ∃ t, exec .vaonRise s = .next t ∧ t.get F.RST_STATUS_pwr_ok = 0 ∧ t.keys = s.keys ∧ t.parts = [] ∧ t.dram = {} ∧
      (∀ a, a ≠ R.RST_STATUS → t.reg a = if a / 0x10000 = 8 then s.reg a else State.reset.reg a) ∧
      { t with regs := [], keys := {}, pins := {}, host := {}, free := 0, pending := [] } = { State.reset with regs := [] }) ∧
  (∀ (s : State), s.sessLevel 3 = 0 → s.on F.PCIE_STATUS_up = true →
    ∃ t, exec .perstNAssert s = .next t ∧ t.get F.RST_STATUS_perst_n = 0 ∧ t.get F.RST_PCIECNT_perst = min (s.get F.RST_PCIECNT_perst + 1) (2 ^ F.RST_PCIECNT_perst.width - 1) ∧
      t.get F.PCIE_STATUS_up = 0 ∧ t.get F.RING_CTRL_en = 0 ∧ t.get F.RING_HRDY_level = 0 ∧ (∀ n, n < 16 → t.ring n = {}) ∧ t.host.msix = false ∧
      t.host.table = [] ∧ RaisedOne s t 0x6008 0xFF [min (s.get F.PCIE_LINKCNT_high + 1) 65535 * 2 ^ 16 + (s.reg R.PCIE_LINKCNT).toNat % 2 ^ 16] ∧
      t.parts = s.parts ∧ t.dram = s.dram) ∧
  (∀ (s : State), s.sessLevel 3 = 0 → s.on F.PCIE_STATUS_up = true →
    ∃ t, exec .hotReset s = .next t ∧ t.get F.RST_PCIECNT_hot_flr = min (s.get F.RST_PCIECNT_hot_flr + 1) (2 ^ F.RST_PCIECNT_hot_flr.width - 1) ∧
      t.get F.PCIE_STATUS_up = 0 ∧ t.get F.RING_CTRL_en = 0 ∧ (∀ n, n < 16 → t.ring n = {}) ∧ t.host.table = [] ∧ t.parts = s.parts) ∧
  (∀ (s : State), s.sessLevel 3 = 0 →
    ∃ t, exec .functionLevelReset s = .next t ∧ t.get F.RST_PCIECNT_hot_flr = min (s.get F.RST_PCIECNT_hot_flr + 1) (2 ^ F.RST_PCIECNT_hot_flr.width - 1) ∧
      t.get F.PCIE_STATUS_up = s.get F.PCIE_STATUS_up ∧ t.get F.RING_CTRL_en = 0 ∧ (∀ n, n < 16 → t.ring n = {}) ∧ t.host.msix = false ∧
      t.evt = s.evt ∧ t.parts = s.parts) ∧
  (∀ (s : State) (slot : BitVec 6) (role : Bool),
    ∃ t, exec (.pwrOkRise slot role) s = .next t ∧ t.get F.RST_STATUS_pwr_ok = 1 ∧ t.get F.GLB_STRAPS_slot = slot.toNat ∧
      t.on F.GLB_STRAPS_xspi_role = role ∧ t.get F.RST_SEQ_stage = max 1 (s.get F.RST_SEQ_stage) ∧
      RegsBut [R.RST_STATUS, R.GLB_STRAPS, R.RST_SEQ] s t ∧ OnlyRegs s t) ∧
  (∀ (s : State),
    s.on F.RST_STATUS_pwr_ok = true → s.get F.RST_SEQ_stage ≤ 1 →
    ∃ t, exec .resetNRelease s = .next t ∧ t.get F.RST_STATUS_reset_n = 1 ∧ t.get F.RST_SEQ_stage = 2 ∧ t.get F.CLK_STATUS_shaft_lock = 1 ∧
      RegsBut [R.RST_STATUS, R.RST_SEQ, R.CLK_STATUS] s t ∧ OnlyRegs s t) ∧
  (∀ (s : State) (f : Fuses),
    s.on F.RST_STATUS_reset_n = true → s.on F.RST_STATUS_pwr_ok = true → (s.get F.RST_SEQ_stage = 1 ∨ s.get F.RST_SEQ_stage = 2) →
    ∃ t, exec (.fuseReadComplete f) s = .next t ∧ t.reg R.GLB_PART = f.part &&& 0xFFFFFF0F ∧ t.reg R.GLB_CAPS = f.caps &&& 0xF003FFFF ∧
      t.reg R.GLB_ROMVER = f.romver ∧ t.reg R.GLB_VTARGET = f.vtarget &&& 0x00FFFFFF ∧ t.reg R.GLB_SUBSYS = f.subsys ∧
      t.on F.KEY_FUSE_programmed = f.fuseKey.isSome ∧ (∀ g, f.fuseKey = some g → t.get F.KEY_FUSE_generation = g.toNat) ∧ t.get F.RST_SEQ_stage = 3 ∧ t.get F.CLK_STATUS_shaft_lock = 1 ∧
      (∀ k, k ≠ 0 → t.miller k = s.miller k) ∧ (t.miller 0).machine = true ∧ (t.miller 0).wfi = false)

/-! ## Loading, booting, keys -/

/-- R247, R248, R252, R262: a LOAD of an EMPTY partition with a qmask, a STAGE of a RUNNING or HALTED one and a COMMIT of a HALTED one with a partial
staged join the loader's queue, a LOAD shows LOADING; a range that lies where it may is locked. In another state the command completes with
LOAD_STATE, or raises it for shell firmware, and changes nothing. DISCARD drops the staged partial and unlocks it. UNLOAD sends the partition
towards EMPTY. -/
def Obligations.LoaderCommands : Prop :=
  (∀ (s : State) (ring : Fin 4) (d : BitVec 512) (wins : List HostWin),
    let p := dPart d
    let named := dParam d % 2 = 1
    let j : LoadJob := { cmd := 1, part := p, chan := dDaddr d / 2 ^ 40, addr := dDaddr d % 2 ^ 40, len := dLen d,
                         m := if named then some (dParam d / 2 % 4) else none, waiter := some ⟨ring, s.host.serial, 0x10⟩ }
    s.Begins ring d → dOp d = 0x10 → dDaddr d % 4096 = 0 → dLen d % 4096 = 0 → dDaddr d / 2 ^ 38 % 4 = 0 → s.pstate p = 0 →
    s.get (F.PART_QMASK_qmask p) ≠ 0 →
    ∃ t, exec (.load (.ring ring) wins) s = .next t ∧ t.pstate p = 1 ∧ t.get (F.CFG_P_STATE_pass p) = 0 ∧ t.loader.queue = s.loader.queue ++ [{ j with locked := dLen d != 0 && s.placementOk j.chan j.addr j.len }] ∧
      t.loader.locks = (if dLen d ≠ 0 ∧ s.placementOk j.chan j.addr j.len = true then ⟨p, j.chan, j.addr, j.len⟩ :: s.loader.locks else s.loader.locks) ∧
      t.bit F.CFG_LOADQ_queued p = true ∧ t.get64 (R.CFG_P_LEN_LO p) (R.CFG_P_LEN_HI p) = dLen d ∧
      (∀ w, w < 64 → mget (fun _ => {}) t.hostWins w = wins.getD w {}) ∧ (t.ring ring).running = some (s.host.serial, d) ∧
      RegsBut [R.PART_STATE p, R.CFG_P_STATE p, R.CFG_P_SRC_LO p, R.CFG_P_SRC_HI p, R.CFG_P_LEN_LO p, R.CFG_P_LEN_HI p, R.CFG_LOADQ] s t ∧
      { t with regs := s.regs, loader := s.loader, host := s.host, hostWins := s.hostWins } = s) ∧
  (∀ (s : State) (p : Part) (wins : List HostWin),
    let x := s.sourceOf p
    let m := if s.on (F.CFG_P_STATE_m_named p) then some (s.get (F.CFG_P_STATE_m p)) else none
    s.partExists p = true → s.pstate p = 0 → s.get (F.PART_QMASK_qmask p) ≠ 0 →
    ∃ t, exec (.load (.shell p) wins) s = .next t ∧ t.pstate p = 1 ∧
      t.loader.queue = s.loader.queue ++ [{ cmd := 1, part := p, chan := x.1, addr := x.2.1, len := x.2.2, m := m, waiter := none, locked := x.2.2 != 0 && s.placementOk x.1 x.2.1 x.2.2 }] ∧
      RegsBut [R.PART_STATE p, R.CFG_P_STATE p, R.CFG_LOADQ] s t ∧ { t with regs := s.regs, loader := s.loader, hostWins := s.hostWins } = s) ∧
  (∀ (s : State) (ring : Fin 4) (d : BitVec 512) (wins : List HostWin),
    s.Begins ring d → dOp d = 0x10 → dDaddr d % 4096 = 0 → dLen d % 4096 = 0 → s.pstate (dPart d) ≠ 0 →
    ∃ t, exec (.load (.ring ring) wins) s = .next t ∧ Completed s t ring d 0x100C (s.loadResult (dPart d)) ∧ { t with host := s.host } = s) ∧
  (∀ (s : State) (p : Part) (wins : List HostWin),
    s.partExists p = true → s.pstate p ≠ 0 →
    ∃ t, exec (.load (.shell p) wins) s = .next t ∧ RaisedOne s t 0x100C p [1, s.pstate p] ∧ RegsBut (evtRegs 0x100C p) s t ∧ OnlyEvents s t) ∧
  (∀ (s : State) (p : Part),
    s.partExists p = true → s.pstate p = 3 ∨ s.pstate p = 4 → mget (fun _ => none) s.loader.staged p = none →
    ∃ t, exec (.stage (.shell p)) s = .next t ∧ t.pstate p = s.pstate p ∧
      t.loader.queue = s.loader.queue ++ [{ cmd := 2, part := p, chan := (s.sourceOf p).1, addr := (s.sourceOf p).2.1, len := (s.sourceOf p).2.2, locked := (s.sourceOf p).2.2 != 0 && s.placementOk (s.sourceOf p).1 (s.sourceOf p).2.1 (s.sourceOf p).2.2 }] ∧
      RegsBut [R.CFG_LOADQ] s t ∧ { t with regs := s.regs, loader := s.loader } = s) ∧
  (∀ (s : State) (ring : Fin 4) (d : BitVec 512),
    s.Begins ring d → dOp d = 0x11 → dDaddr d % 4096 = 0 → dLen d % 4096 = 0 → dDaddr d / 2 ^ 38 % 4 = 0 → s.pstate (dPart d) = 3 ∨ s.pstate (dPart d) = 4 →
    ∃ t, exec (.stage (.ring ring)) s = .next t ∧ t.get (F.CFG_P_PARTIAL_staged (dPart d)) = (if (mget (fun _ => none) s.loader.staged (dPart d)).isSome then 0
        else s.get (F.CFG_P_PARTIAL_staged (dPart d))) ∧ mget (fun _ => none) t.loader.staged (dPart d) = none ∧
      t.loader.queue = s.loader.queue ++ [{ cmd := 2, part := dPart d, chan := dDaddr d / 2 ^ 40, addr := dDaddr d % 2 ^ 40, len := dLen d,
                                            waiter := some ⟨ring, s.host.serial, 0x11⟩, locked := dLen d != 0 && s.placementOk (dDaddr d / 2 ^ 40) (dDaddr d % 2 ^ 40) (dLen d) }] ∧
      { t with regs := s.regs, loader := s.loader, host := s.host } = s) ∧
  (∀ (s : State) (p : Part) (wins : List HostWin),
    s.partExists p = true → s.pstate p = 4 → s.on (F.CFG_P_PARTIAL_staged p) = true →
    ∃ t, exec (.commit (.shell p) wins) s = .next t ∧ t.loader = { s.loader with queue := s.loader.queue ++ [{ cmd := 3, part := p }] } ∧
      RegsBut [R.CFG_LOADQ] s t ∧ { t with regs := s.regs, loader := s.loader, hostWins := s.hostWins } = s) ∧
  (∀ (s : State) (ring : Fin 4) (d : BitVec 512) (wins : List HostWin),
    s.Begins ring d → dOp d = 0x12 → s.pstate (dPart d) = 4 → s.on (F.CFG_P_PARTIAL_staged (dPart d)) = true →
    ∃ t, exec (.commit (.ring ring) wins) s = .next t ∧
      t.loader = { s.loader with queue := s.loader.queue ++ [{ cmd := 3, part := dPart d, waiter := some ⟨ring, s.host.serial, 0x12⟩ }] } ∧
      RegsBut [R.CFG_LOADQ] s t ∧ { t with regs := s.regs, loader := s.loader, hostWins := s.hostWins, host := s.host } = s) ∧
  (∀ (s : State) (p : Part) (g : Staged),
    s.partExists p = true → mget (fun _ => none) s.loader.staged p = some g → s.loader.queue = [] → s.loader.active = none →
    ∃ t, exec (.discard (.shell p)) s = .next t ∧ mget (fun _ => none) t.loader.staged p = none ∧ t.get (F.CFG_P_PARTIAL_staged p) = 0 ∧
      t.loader.locks = s.loader.locks.erase ⟨p, g.chan, g.addr, g.len⟩ ∧
      RegsBut [R.CFG_P_PARTIAL p, R.CFG_P_PIMAGE p, R.CFG_LOADQ] s t ∧ { t with regs := s.regs, loader := s.loader } = s) ∧
  (∀ (s : State) (ring : Fin 4) (d : BitVec 512),
    s.Begins ring d → dOp d = 0x13 → mget (fun _ => none) s.loader.staged (dPart d) = none → s.loader.queue = [] → s.loader.active = none →
    ∃ t, exec (.discard (.ring ring)) s = .next t ∧ Completed s t ring d 0 0 ∧ RegsBut [R.CFG_LOADQ] s t ∧ { t with regs := s.regs, host := s.host } = s) ∧
  (∀ (s : State) (p : Part),
    s.partExists p = true → s.pstate p ≠ 3 → s.loader.queue = [] → s.loader.active = none → mget (fun _ => none) s.loader.staged p = none →
    (s.part p).waiters = [] → p.val ∉ s.loader.emptying →
    ∃ t, exec (.unload (.shell p)) s = .next t ∧ t.pstate p = 1 ∧ t.get (F.PART_STATE_halt_reason p) = 0 ∧ t.get (F.CFG_P_STATE_fault_hold p) = 0 ∧
      t.loader = { s.loader with unloads := s.loader.unloads ++ [(p.val, none)], emptying := s.loader.emptying ++ [p.val],
                                 release := mset (fun _ => none) s.loader.release p none } ∧
      (t.part p).startPend = false ∧ OnlyPart p s t ∧ RegsBut [R.PART_STATE p, R.CFG_P_STATE p, R.CFG_LOADQ] s t ∧
      { t with regs := s.regs, loader := s.loader, parts := s.parts } = s) ∧
  (∀ (s : State) (ring : Fin 4) (d : BitVec 512),
    s.Begins ring d → dOp d = 0x14 → s.pstate (dPart d) ≠ 3 → s.loader.queue = [] → s.loader.active = none →
    mget (fun _ => none) s.loader.staged (dPart d) = none → (s.part (dPart d)).waiters = [] →
    ∃ t, exec (.unload (.ring ring)) s = .next t ∧ t.pstate (dPart d) = 1 ∧ (t.ring ring).running = some (s.host.serial, d) ∧
      t.loader.unloads = s.loader.unloads ++ [(dPart d, some ⟨ring, s.host.serial, 0x14⟩)] ∧ dPart d ∈ t.loader.emptying ∧
      { t with regs := s.regs, loader := s.loader, parts := s.parts, host := s.host } = s)

/-- R249, R250, R251, R256, R82, R254, R255, R128, R257: the loader takes the next command of its queue; a staged length of 0 fails with LOAD_TRUNCATED,
a range that could not be locked with LOAD_STAGING_FAULT, a header that authenticates and passes its checks begins the verify pass, one that does
not fails with LOAD_IDENTITY. A segment that opens to a directory in order moves the pass on, one that does not fails with LOAD_AUTH. A verified
partial is staged. A write pass of a full image ends with the partition LOADED, its registers shown, its counters 0 and its release begun. The three
stages of a release follow one another to the release of the partition. A partition that has been emptied is EMPTY, its configuration gone.
Cryptographic functions are uninterpreted (log entry 4). -/
def Obligations.LoaderPasses : Prop :=
  (∀ (s : State) (j : LoadJob) (rest : List LoadJob) (ecc : RowEcc) (us : Word),
    s.loader.active = none → s.loader.queue = j :: rest → j.cmd = 1 → j.part < 4 → j.len = 0 → j.waiter = none →
    ∃ t, exec (.loaderCommandStart ecc us) s = .next t ∧ t.pstate j.part = 0 ∧ t.loader.active = none ∧ t.loader.queue = rest ∧
      t.reg (R.CFG_P_FAULT j.part) = 0x8002100A ∧ t.get (F.CFG_P_FADDR_value j.part) = 0xFFFFFFFF ∧
      RaisedOne s t 0x100A j.part [0xFFFFFFFF, 2, 1] ∧ t.get (F.CFG_P_TIME_count j.part) = us.toNat ∧
      { t with regs := s.regs, loader := s.loader, evt := s.evt, mlipend := s.mlipend } = s) ∧
  (∀ (s : State) (j : LoadJob) (rest : List LoadJob) (ecc : RowEcc) (us : Word),
    s.loader.active = none → s.loader.queue = j :: rest → j.cmd = 1 ∨ j.cmd = 2 → j.part < 4 → j.len ≠ 0 → j.locked = false → j.waiter = none →
    ∃ t, exec (.loaderCommandStart ecc us) s = .next t ∧ t.pstate j.part = (if j.cmd = 1 then 0 else s.pstate j.part) ∧ t.loader.active = none ∧
      t.loader.queue = rest ∧ t.loader.locks = s.loader.locks ∧ t.reg (R.CFG_P_FAULT j.part) = 0x8002100D ∧
      RaisedOne s t 0x100D j.part [0xFFFFFFFF, 2, j.cmd] ∧
      { t with regs := s.regs, loader := s.loader, evt := s.evt, mlipend := s.mlipend } = s) ∧
  (∀ (s : State) (j : LoadJob) (rest : List LoadJob) (ecc : RowEcc) (us : Word) (key : BitVec 256) (m : Nat),
    let rd := s.stageReader j.chan j.addr
    let h := rd 0 512
    let k0 := firstKey key h
    let ok := k0.isSome && hTagOk (k0.getD 0) h
    s.loader.active = none → s.loader.queue = j :: rest → j.cmd = 1 → j.part < 4 → j.len ≠ 0 → j.waiter = none → j.modules = 0 →
    j.locked = true → ecc.ue = [] → s.Answers j.chan j.addr 512 → s.Answers j.chan (j.addr + 512) (48 * hSegs h) →
    s.sourceKey (hKeySource h) = some key → s.identityOk j rd h = true → s.profileOk h = true → (hPaces h).testBit s.pace = true →
    bindingOf (compiledSet (hQuads h) (hPair h)) (s.get (F.PART_QMASK_qmask j.part)) j.m = some m → hLen h ≤ j.len →
    ∃ t, exec (.loaderCommandStart ecc us) s = .next t ∧
      (ok = true → t.get (F.CFG_P_STATE_pass j.part) = 2 ∧ t.get (F.CFG_P_PROG_count j.part) = 0 ∧ t.get F.CFG_LOADQ_active = 1 ∧
        t.loader.active = some { j with modules := hCount h, key0 := k0.getD 0, key := k0.getD 0, m := some m, pass := 2 } ∧
        t.pstate j.part = s.pstate j.part ∧ t.evt = s.evt) ∧
      (ok = false → t.pstate j.part = 0 ∧ t.reg (R.CFG_P_FAULT j.part) = 0x80021001 ∧ t.loader.active = none ∧
        t.get F.KEY_FAILCNT_auth = min (s.get F.KEY_FAILCNT_auth + 1) 65535) ∧
      t.loader.queue = rest ∧
      { t with regs := s.regs, loader := s.loader, evt := s.evt, mlipend := s.mlipend, race := s.race, free := s.free } = s) ∧
  (∀ (s : State) (j : LoadJob) (ecc : RowEcc) (us : Word),
    let rd := s.stageReader j.chan j.addr
    let h := rd 0 512
    let e := segEnt rd j.seg
    let o := openSeg j.key rd h e
    let pt := o.getD []
    s.loader.active = some j → j.pass = 2 → j.cmd = 2 → j.part < 4 → j.seg < hSegs h → j.abandon = false → j.waiter = none →
    ecc.ue = [] → s.Answers j.chan (j.addr + e.off) e.len →
    ∃ t, exec (.loaderSegmentEnd ecc us) s = .next t ∧
      (o.isSome = true → dirOk pt j.seg e.len = true → carriesKey h j.seg = false →
        t.get (F.CFG_P_PROG_count j.part) = (j.seg + 1) % 2 ^ 32 ∧ RegsBut [R.CFG_P_PROG j.part, R.RACE_UNITS_LO, R.RACE_UNITS_HI, R.DDRC_CE j.chan] s t ∧
        t.loader = { s.loader with active := some { j with seg := j.seg + 1, plain := j.plain ++ pt, frames := j.frames ++ segFrames pt } }) ∧
      (o = none → t.reg (R.CFG_P_FAULT j.part) = BitVec.ofNat 32 0x8001100B ∧ t.get (F.CFG_P_FADDR_value j.part) = j.seg % 2 ^ 32 ∧
        t.loader.active = none ∧ t.get F.KEY_FAILCNT_auth = min (s.get F.KEY_FAILCNT_auth + 1) 65535 ∧ t.pstate j.part = s.pstate j.part) ∧
      { t with regs := s.regs, loader := s.loader, evt := s.evt, mlipend := s.mlipend, race := s.race, free := s.free } = s) ∧
  (∀ (s : State) (j : LoadJob) (us : Word),
    let h := s.stageReader j.chan j.addr 0 512
    s.loader.active = some j → j.pass = 2 → j.cmd = 2 → j.part < 4 → j.seg = hSegs h → j.abandon = false → j.waiter = none →
    s.contentFault j.part (s.imageSet j h) (j.m.getD 0) h j.frames (s.jobFrames j) = none →
    ∃ t, exec (.loadVerifyPassEnd us) s = .next t ∧ t.loader.active = none ∧
      (shaBytes j.plain = hSha h → mget (fun _ => none) t.loader.staged j.part = some ⟨j.chan, j.addr, j.len, j.frames, h⟩ ∧
        t.get (F.CFG_P_PARTIAL_staged j.part) = 1 ∧ t.get (F.CFG_P_PARTIAL_verifying j.part) = 0 ∧ t.evt = s.evt ∧
        t.loader.locks = (match mget (fun _ => none) s.loader.staged j.part with | some g => s.loader.locks.erase ⟨j.part, g.chan, g.addr, g.len⟩ | none => s.loader.locks)) ∧
      (shaBytes j.plain ≠ hSha h → t.reg (R.CFG_P_FAULT j.part) = 0x8002100B ∧ mget (fun _ => none) t.loader.staged j.part = mget (fun _ => none) s.loader.staged j.part ∧
        t.loader.locks = (if j.locked then s.loader.locks.erase ⟨j.part, j.chan, j.addr, j.len⟩ else s.loader.locks)) ∧
      t.pstate j.part = s.pstate j.part ∧ { t with regs := s.regs, loader := s.loader, evt := s.evt, mlipend := s.mlipend } = s) ∧
  (∀ (s : State) (j : LoadJob) (us : Word),
    let h := s.stageReader j.chan j.addr 0 512
    let p := j.part
    s.loader.active = some j → j.pass = 3 → j.cmd = 1 → p < 4 → j.seg = hSegs h → j.abandon = false → j.waiter = none →
    ∃ t, exec (.loadWritePassEnd us) s = .next t ∧ t.pstate p = 2 ∧ t.turns p = 0 ∧ t.get (F.TB1_STATUS_anchored p) = 0 ∧
      t.get (F.PART_PROFILE_depth p) = hDepth h % 4 ∧ t.get (F.TURN_CONFIG_k p) = hK h % 2 ^ (F.TURN_CONFIG_k p).width ∧
      t.get (F.PART_IMAGE_ID_image_id p) = num (hSha h) 0 4 ∧ t.get (F.PART_LINK_module_count p) = hCount h % 2 ^ (F.PART_LINK_module_count p).width ∧
      (t.part p).turn0 = true ∧ (t.part p).released = false ∧ OnlyPart p s t ∧ t.loader.active = none ∧ mget (fun _ => []) t.loader.record p = j.frames ∧
      t.loader.locks = (if j.locked then s.loader.locks.erase ⟨p, j.chan, j.addr, j.len⟩ else s.loader.locks) ∧ t.get (F.TURN_STATUS_last_valid p) = 0 ∧
      t.get (F.TURN_CTRL_clear p) = s.get (F.TURN_CTRL_clear p) ∧ (hCount h = 1 → t.releaseStage p = some 0) ∧
      { t with regs := s.regs, parts := s.parts, flume := s.flume, gov := s.gov, loader := s.loader, evt := s.evt, mlipend := s.mlipend, watchFirst := s.watchFirst } = s) ∧
  (∀ (s : State) (p : Part),
    p.val ∈ s.loader.emptying → s.on (F.ACQ_P_CTRL_en p) = false → s.loader.unloads = [] →
    ∃ t, exec (.emptyReturnComplete p) s = .next t ∧ t.pstate p = 0 ∧ p.val ∉ t.loader.emptying ∧ t.reg (R.PART_LINK p) = resetWord (R.PART_LINK p) ∧
      t.turns p = 0 ∧ t.get (F.PART_QMASK_qmask p) = s.get (F.PART_QMASK_qmask p) ∧ t.get (F.PART_QMASK_image_quads p) = 0 ∧
      (∀ k, s.ownsQuad p (k / 2 ^ 27) = true → mget (fun _ => 0) t.stones.words k = 0) ∧
      (∀ r, r < 2048 → s.ownsQuad p (r / 512) = true → t.region r = {}) ∧ mget (fun _ => []) t.loader.record p = [] ∧
      (t.part p).released = false ∧ OnlyPart p s t) ∧
  (∀ (s : State) (hold : Bool),
    ∃ t, exec (.holdDoneWrite hold) s = .next t ∧ t.on F.CFG_CTRL_hold_done = hold ∧ RegsBut [R.CFG_CTRL] s t ∧ OnlyRegs s t) ∧
  (∀ (s : State),
    s.lines.cfgPending = true →
    ∃ t, exec .cfgDoneRiseActed s = .next t ∧ t.lines = { s.lines with cfgPending := false } ∧
      (∀ p, p < 4 → t.releaseStage p = if s.multi p = true ∧ s.pstate p = 2 ∧ (s.part p).released = false then some 0 else s.releaseStage p) ∧
      { t with lines := s.lines, loader := { t.loader with release := s.loader.release } } = s) ∧
  (∀ (s : State), s.lines.cfgPending = false → exec .cfgDoneRiseActed s = .next s) ∧
  (∀ (s : State) (p : Part),
    s.releaseStage p = some 0 → s.loader.active = none → s.gpiosOf p = [] → (∀ k, k < 640 → (mget (fun _ => {}) s.flume.pins k : PinPort).used = false) →
    ∃ t, exec (.releaseOutputs p) s = .next t ∧ t.releaseStage p = some 1 ∧ t.get F.CFG_RELEASE_stage = 1 ∧
      (∀ q, q < 4 → t.stage q = if s.ownsQuad p q then 1 else s.stage q) ∧ t.get (F.TIO_PART_released p) = 1 ∧ t.get (F.TIO_PART_unserved p) = 0 ∧
      RegsBut [R.CFG_RELEASE, R.FLM_STATUS, R.TIO_PART p] s t ∧ { t with regs := s.regs, loader := { t.loader with release := s.loader.release } } = s) ∧
  (∀ (s : State) (p : Part),
    s.releaseStage p = some 1 → s.loader.active = none →
    ∃ t, exec (.releaseWriteEnables p) s = .next t ∧ t.releaseStage p = some 2 ∧ t.get F.CFG_RELEASE_stage = 2 ∧
      (∀ q, q < 4 → t.stage q = if s.ownsQuad p q then 2 else s.stage q) ∧
      RegsBut [R.CFG_RELEASE, R.FLM_STATUS] s t ∧ { t with regs := s.regs, loader := { t.loader with release := s.loader.release } } = s) ∧
  (∀ (s : State) (p : Part) (us : Word),
    s.releaseStage p = some 2 → s.loader.active = none →
    ∃ t, exec (.releaseDesignResets p us) s = .next t ∧ t.releaseStage p = none ∧ t.get F.CFG_RELEASE_stage = 3 ∧ t.bit F.CFG_RELEASE_parts p = true ∧
      (∀ q, q < 4 → t.stage q = if s.ownsQuad p q then 3 else s.stage q) ∧ t.part p = { s.part p with released := true } ∧ OnlyPart p s t ∧
      RegsBut [R.CFG_RELEASE, R.FLM_STATUS] s t ∧ { t with regs := s.regs, parts := s.parts, loader := { t.loader with release := s.loader.release } } = s)

/-- R258, R259, R260, R261, R262, R263, R264, R246: a flash stream while no shell has started is counted; an image that passes the checks of R260 starts
miller 0 at the hopper's first byte, one that does not is recorded, a failed golden stream leaves recovery with banks 8 to 15 the host's. In
recovery, boot_hopper does the same with the image in those banks. A key written goes into its slot and leaves KEY_WDATA 0, unless the slot is
locked; a write without rights is counted as denied; erasing empties a slot, erasing all empties every slot and lock, and so does the loss of both
supplies. -/
def Obligations.BootAndKeys : Prop :=
  (∀ (s : State) (stream : Fin 3) (image : List Byte) (ms : BitVec 16),
    let s' := ((s.put F.CFG_BOOT_streams (min 3 (s.get F.CFG_BOOT_streams + 1))).put F.CFG_XSPI_mode_8d 1).put F.CFG_XSPI_clock 200
    let golden := decide (stream.val = 2)
    let r := s'.checkShell (listReader image) image.length (if golden then [2] else [1])
    let code := match r.2 with | .ok _ => 0 | .error e => e
    s.get F.CFG_BOOT_state = 0 → s.get (F.CFG_BOOTLOG_source 0) = 0 →
    ∃ t, exec (.xspiStreamEnd stream image ms) s = .next t ∧ t.get F.CFG_BOOT_streams = min 3 (s.get F.CFG_BOOT_streams + 1) ∧
      t.get (F.CFG_BOOTLOG_source 0) = (if golden then 2 else 1) ∧ t.get (F.CFG_BOOTLOG_event 0) = code ∧
      (code = 0 → t.get F.CFG_BOOT_state = 1 ∧ t.get F.RST_SEQ_stage = 4 ∧ t.get F.RST_SEQ_ms = ms.toNat ∧ t.boot.xretry = false ∧
        (t.miller 0).pc = 0x10000000 ∧ (t.miller 0).machine = true ∧ (∀ k, k ≠ 0 → (t.miller k).pc = (s.miller k).pc)) ∧
      (code ≠ 0 → golden = false → t.get F.CFG_BOOT_state = 0 ∧ t.boot.xretry = true ∧ t.hop = s.hop ∧ t.millers = s.millers) ∧
      (code ≠ 0 → golden = true → t.get F.CFG_BOOT_state = 2 ∧ t.boot.xretry = false ∧ (∀ b, b < 8 → t.get (F.HOP_BANK_owner (8 + b)) = 5) ∧ t.hop = s.hop)) ∧
  (∀ (s : State) (ms : BitVec 16),
    let n := s.get F.CFG_RECOV_length
    let r := s.checkShell (fun o k => s.hopRead (2 ^ 25 + o) (min k (4096 * n - o))) (4096 * n) [1, 2, 3]
    let code := match r.2 with | .ok _ => 0 | .error e => e
    s.get F.CFG_BOOT_state = 2 → s.get (F.CFG_BOOTLOG_source 0) = 0 → 0 < n → n ≤ 8192 →
    ∃ t, exec (.bootHopper ms) s = .next t ∧ t.get (F.CFG_BOOTLOG_source 0) = 3 ∧ t.get (F.CFG_BOOTLOG_event 0) = code ∧
      (code = 0 → (t.get F.CFG_BOOT_state = 1 ∨ t.get F.CFG_BOOT_state = 3) ∧ (t.miller 0).pc = 0x10000000 ∧ t.get F.CFG_BOOT_source = 3) ∧
      (code ≠ 0 → t.get F.CFG_BOOT_state = 2 ∧ t.hop = s.hop ∧ t.millers = s.millers)) ∧
  (∀ (s : State) (ms : BitVec 16), s.get F.CFG_BOOT_state ≠ 2 → exec (.bootHopper ms) s = .next s) ∧
  (∀ (s : State) (k : Core) (n : Fin 8),
    s.on (F.KEY_SLOT_lock n) = false →
    ∃ t, exec (.keyWrite (.shell k) n) s = .next t ∧ mget (fun _ => none) t.keys.slots n = some s.wdata ∧
      (∀ i, i ≠ n.val → mget (fun _ => none) t.keys.slots i = mget (fun _ => none) s.keys.slots i) ∧ (∀ w, w < 8 → t.reg (R.KEY_WDATA w) = 0) ∧
      t.get (F.KEY_SLOT_valid n) = 1 ∧ t.get (F.KEY_SLOT_writes n) = min (s.get (F.KEY_SLOT_writes n) + 1) (2 ^ (F.KEY_SLOT_writes n).width - 1) ∧ t.bit F.KEY_STATUS_valid n = true ∧ t.reg (R.KEY_KCV n) = Config.keyCheck s.wdata ∧
      RegsBut ([R.KEY_CTRL, R.KEY_STATUS, R.KEY_SLOT n, R.KEY_KCV n] ++ (List.range 8).map R.KEY_WDATA) s t ∧ { t with regs := s.regs, keys := s.keys } = s) ∧
  (∀ (s : State) (k : Core) (n : Fin 8),
    s.on (F.KEY_SLOT_lock n) = true →
    ∃ t, exec (.keyWrite (.shell k) n) s = .next t ∧ RegsBut [R.KEY_CTRL] s t ∧ OnlyRegs s t) ∧
  (∀ (s : State) (n : Fin 8),
    ∃ t, exec (.keyWrite .host n) s = .next t ∧ t.get F.KEY_FAILCNT_denied = min (s.get F.KEY_FAILCNT_denied + 1) 65535 ∧ RegsBut [R.KEY_FAILCNT] s t ∧
      OnlyRegs s t) ∧
  (∀ (s : State) (k : Core) (n : Fin 8),
    s.on (F.KEY_SLOT_lock n) = false →
    ∃ t, exec (.keyZeroise (.shell k) n) s = .next t ∧ mget (fun _ => none) t.keys.slots n = none ∧
      (∀ i, i ≠ n.val → mget (fun _ => none) t.keys.slots i = mget (fun _ => none) s.keys.slots i) ∧ t.get (F.KEY_SLOT_valid n) = 0 ∧
      t.bit F.KEY_STATUS_valid n = false ∧ t.reg (R.KEY_KCV n) = 0 ∧
      RegsBut [R.KEY_CTRL, R.KEY_STATUS, R.KEY_SLOT n, R.KEY_KCV n] s t ∧ { t with regs := s.regs, keys := s.keys } = s) ∧
  (∀ (s : State) (k : Core),
    ∃ t, exec (.keyZeroiseAll (.shell k)) s = .next t ∧ (∀ n, n < 8 → mget (fun _ => none) t.keys.slots n = none ∧ t.reg (R.KEY_SLOT n) = 0) ∧
      t.get F.KEY_STATUS_valid = 0 ∧ t.get F.KEY_STATUS_locked = 0 ∧ t.get F.KEY_TAMPER_zeroised = 1 ∧
      t.get F.KEY_TAMPER_count = min (s.get F.KEY_TAMPER_count + 1) 65535 ∧
      RegsBut ([R.KEY_STATUS, R.KEY_TAMPER] ++ (List.range 8).map R.KEY_SLOT ++ (List.range 8).map R.KEY_KCV) s t ∧
      { t with regs := s.regs, keys := s.keys } = s) ∧
  (∀ (s : State),
    ∃ t, exec .keyRamLoss s = .next t ∧ (∀ n, n < 8 → mget (fun _ => none) t.keys.slots n = none ∧ t.reg (R.KEY_SLOT n) = 0) ∧
      t.get F.KEY_TAMPER_zeroised = 1 ∧ { t with regs := s.regs, keys := s.keys } = s)

/-! ## Sluices, the hopper and the scheduler -/

/-- R284, R285, R286, R287, R288, R289, R290, R292, R314, R295: enabling a disabled sluice empties it and its counters, an enable it may not have is
refused; disabling discards its items. A write that has arrived becomes an item behind the others, or, when the bank has no room for it, is counted
as dropped and marked by a gap marker. A design's read takes a piece of the current item. A host's payload becomes an item and its descriptor is
written back; the current item goes whole into the host's buffer. A drop discards the rest of the current item, which a read may ask for first; a
poll that finds no item is answered with the empty header. A read that the sluice refuses is answered with its status, a write makes the turn
invalid, and SLC_ERR records either. A notify that was refused enqueues its item once there is room. R313, R287, R288, R290: PUT admits the item in
the core's buffer, or says why not; GET and POLL take the next piece of a sluice the core consumes into the buffer, whose header they return; with
no piece there POLL returns the empty header and GET waits, without an effect. -/
def Obligations.Sluices : Prop :=
  (∀ (s : State) (k : Sluice) (v : Word),
    s.slEn k = false → v.getLsbD 31 = true → s.slRefuses k v = false →
    ∃ t, exec (.sluiceEnable k v) s = .next t ∧ t.reg (selAddr R.SLC_CFG k) = v &&& 0x80000077 ∧ t.slEn k = true ∧
      t.sluice k = { waits := (s.sluice k).waits, arrive := (s.sluice k).arrive } ∧
      (∀ i, i ≠ k.val → t.sluice i = s.sluice i) ∧ t.reg (selAddr R.SLC_DROPS k) = 0 ∧ t.reg (selAddr R.SLC_ITEMS k) = 0 ∧
      RegsBut [selAddr R.SLC_CFG k, selAddr R.SLC_DROPS k, selAddr R.SLC_ITEMS k] s t ∧ { t with regs := s.regs, sluices := s.sluices } = s) ∧
  (∀ (s : State) (k : Sluice) (v : Word),
    s.slEn k = false → v.getLsbD 31 = true → 6 ≤ v.toNat / 16 % 8 ∨ 6 ≤ v.toNat % 8 ∨ (v.toNat / 16 % 8 = 5 ∧ v.toNat % 8 = 5) →
    ∃ t, exec (.sluiceEnable k v) s = .next t ∧ t.get F.SLC_STATUS_refused = 1 ∧ RegsBut [R.SLC_STATUS] s t ∧ OnlyRegs s t) ∧
  (∀ (s : State) (k : Sluice),
    ∃ t, exec (.sluiceDisable k) s = .next t ∧ t.slEn k = false ∧ (t.sluice k).fill = [] ∧ (t.sluice k).drain = [] ∧ (t.sluice k).cur = none ∧
      (t.sluice k).arrive = (s.sluice k).arrive ∧ (t.sluice k).waits = (s.sluice k).waits ∧ (∀ i, i ≠ k.val → t.sluice i = s.sluice i) ∧
      RegsBut [selAddr R.SLC_CFG k] s t ∧ { t with regs := s.regs, sluices := s.sluices } = s) ∧
  (∀ (s : State) (k : Sluice) (pk : Pkt) (rest : List Pkt),
    let x := s.sluice k
    let n := s.fpWidth (hinit pk.hdr) / 8
    let i : SlItem := { prio := haddr pk.hdr / 16 % 8, len := n, data := (unitBytes pk.data).take n, tb0 := s.tb0, order := x.next }
    x.arrive = pk :: rest → s.slEn k = true → pk.poison = [] → s.slConsumer k ≠ 4 →
    bankUse (x.fill.filter (fun i => !i.gap)) + itemSpace n + 64 ≤ s.slBank k →
    ∃ t, exec (.sluiceItemAdmit k) s = .next t ∧ (t.sluice k).drain ++ (t.sluice k).fill = x.drain ++ x.fill ++ [i] ∧ (t.sluice k).arrive = rest ∧
      (t.sluice k).next = x.next + 1 ∧ t.get (F.SLC_ITEMS_count.sel k) = (s.get (F.SLC_ITEMS_count.sel k) + 1) % 2 ^ F.SLC_ITEMS_count.width ∧
      (∀ i, i ≠ k.val → t.sluice i = s.sluice i) ∧ RegsBut [selAddr R.SLC_ITEMS k] s t ∧ { t with regs := s.regs, sluices := s.sluices } = s) ∧
  (∀ (s : State) (k : Sluice) (pk : Pkt) (rest : List Pkt),
    let x := s.sluice k
    let n := s.fpWidth (hinit pk.hdr) / 8
    let i : SlItem := { prio := 7, len := 0, gap := true, drops := 1, tb0 := s.tb0, order := x.next }
    x.arrive = pk :: rest → s.slEn k = true → pk.poison = [] → s.slConsumer k ≠ 4 → x.fill.any (·.gap) = false →
    s.slBank k < bankUse (x.fill.filter (fun i => !i.gap)) + itemSpace n + 64 →
    ∃ t, exec (.sluiceItemAdmit k) s = .next t ∧ (t.sluice k).drain ++ (t.sluice k).fill = x.drain ++ x.fill ++ [i] ∧ (t.sluice k).arrive = rest ∧
      t.get (F.SLC_DROPS_full.sel k) = min (s.get (F.SLC_DROPS_full.sel k) + 1) (2 ^ F.SLC_DROPS_full.width - 1) ∧
      (∀ i, i ≠ k.val → t.sluice i = s.sluice i) ∧ RegsBut [selAddr R.SLC_DROPS k] s t ∧ { t with regs := s.regs, sluices := s.sluices } = s) ∧
  (∀ (s : State) (k : Sluice) (h : Unit128) (i : SlItem) (off : Nat),
    let n := s.fpWidth (hinit h) / 8 - 8
    let last := decide (i.len ≤ off + n)
    let x := s.sluice k
    x.waits = [h] → s.slEn k = true → s.slConsumer k = hctx h → haddr h / 32 % 2 = 0 → hpf h = false → s.isolated (htarget h) = false → s.answeredFor h = false → x.cur = some (i, off) → i.gap = false →
    i.data.length = i.len →
    ∃ t, exec (.sluiceRead k) s = .next t ∧ (t.sluice k).waits = [] ∧ (t.sluice k).cur = (if last then none else some (i, off + n)) ∧
      (t.sluice k).drain ++ (t.sluice k).fill = x.drain ++ x.fill ∧
      t.race.sent = respond h 0 (unitsOf 0 (s.fpStride (hinit h)) (BitVec.ofNat 512 (slHeader i off last + 2 ^ 64 * leNat ((i.data.drop off).take n)))) :: s.race.sent ∧
      RegsSame s t ∧ { t with sluices := s.sluices, race := s.race } = s) ∧
  (∀ (s : State) (k : Sluice) (h : Unit128) (i : SlItem) (off : Nat),
    let x := s.sluice k
    x.waits = [h] → s.slEn k = true → s.slConsumer k = hctx h → haddr h / 16 % 4 = 3 → hpf h = false → s.isolated (htarget h) = false → s.answeredFor h = false →
    x.cur = some (i, off) → x.drain = [] → x.fill = [] →
    ∃ t, exec (.sluiceRead k) s = .next t ∧ (t.sluice k).waits = [] ∧ (t.sluice k).cur = none ∧
      t.race.sent = respond h 0 (unitsOf 0 (s.fpStride (hinit h)) (BitVec.ofNat 512 slEmptyHeader)) :: s.race.sent ∧
      t.get (F.SLC_DROPS_remainder.sel k) = min (s.get (F.SLC_DROPS_remainder.sel k) + (i.data.length - off + 63) / 64) (2 ^ F.SLC_DROPS_remainder.width - 1) ∧
      RegsBut [selAddr R.SLC_DROPS k] s t ∧ { t with regs := s.regs, sluices := s.sluices, race := s.race } = s) ∧
  (∀ (s : State) (k : Sluice) (h : Unit128),
    let x := s.sluice k
    x.waits = [h] → s.slEn k = false ∨ s.slConsumer k ≠ hctx h → s.on F.SLC_ERR_flag = false → hpf h = false →
    s.isolated (htarget h) = false → s.answeredFor h = false →
    ∃ t, exec (.sluiceRead k) s = .next t ∧ t.sluice k = { x with waits := [] } ∧
      t.race.sent = respond h (if s.slEn k then 3 else 5) [] :: s.race.sent ∧
      t.get F.SLC_ERR_flag = 1 ∧ t.get F.SLC_ERR_sluice = k.val ∧ t.get F.SLC_ERR_part = hctx h % 4 ∧ RegsBut [R.SLC_ERR] s t ∧
      { t with regs := s.regs, sluices := s.sluices, race := s.race } = s) ∧
  (∀ (s : State) (k : Sluice) (pk : Pkt) (rest : List Pkt),
    let p := hctx pk.hdr
    (s.sluice k).arrive = pk :: rest → s.slEn k = false → p < 4 → s.running p = true → s.on F.SLC_ERR_flag = false →
    ∃ t, exec (.sluiceItemAdmit k) s = .next t ∧ t.sluice k = { s.sluice k with arrive := rest } ∧ (t.part p).invalid = true ∧
      t.get F.SLC_ERR_flag = 1 ∧ t.get F.SLC_ERR_sluice = k.val ∧ t.get F.SLC_ERR_part = p ∧ OnlyPart p s t ∧ RegsBut [R.SLC_ERR] s t ∧
      { t with regs := s.regs, sluices := s.sluices, parts := s.parts, lines := s.lines } = s) ∧
  (∀ (s : State) (k : Sluice) (desc : BitVec 512) (data : List Byte),
    let n := 16 + k.val
    let x := s.sluice k
    let a := s.ringAddr n (s.ring n).dev
    let i : SlItem := { prio := dField desc 10 1 % 8, len := data.length, data := data, tb0 := s.tb0, order := x.next }
    s.ringRuns n = true → s.hostProduces k = true → (s.ring n).host ≠ (s.ring n).dev → x.hostIn = none → s.slEn k = true →
    dField desc 8 2 = data.length → 0 < data.length → data.length ≤ 4096 → dField desc 0 8 % 64 = 0 → s.slConsumer k ≠ 4 →
    bankUse (x.fill.filter (fun i => !i.gap)) + itemSpace data.length + 64 ≤ s.slBank k →
    ∃ t, exec (.sluiceHostProduce k desc data none) s = .next t ∧ (t.sluice k).drain ++ (t.sluice k).fill = x.drain ++ x.fill ++ [i] ∧
      (t.ring n).dev = ((s.ring n).dev + 1) % 65536 ∧ (∀ r, r ≠ n → t.ring r = s.ring r) ∧
      t.host.writes = ⟨a + 60, natLe 4 (phaseOf (s.ringSize n) (s.ring n).dev * 2 ^ 31)⟩ :: s.host.writes ∧
      RegsBut [selAddr R.SLC_ITEMS k] s t ∧ { t with regs := s.regs, sluices := s.sluices, host := s.host } = s) ∧
  (∀ (s : State) (k : Sluice) (desc : BitVec 512) (i : SlItem),
    let n := 16 + k.val
    let a := s.ringAddr n (s.ring n).dev
    s.ringRuns n = true → s.hostConsumes k = true → s.slEn k = true → (s.ring n).posts ≠ (s.ring n).dev → dField desc 0 8 % 4096 = 0 →
    (s.sluice k).cur = some (i, 0) → i.data.length = i.len → i.data ≠ [] → i.gap = false →
    ∃ t, exec (.sluiceHostDeliver k desc none) s = .next t ∧ (t.sluice k).cur = none ∧
      t.host.writes = ⟨a + 60, natLe 4 (phaseOf (s.ringSize n) (s.ring n).dev * 2 ^ 31)⟩ :: ⟨a + 8, slDescBytes i true⟩ :: ⟨dField desc 0 8, i.data⟩ :: s.host.writes ∧
      (t.ring n).dev = ((s.ring n).dev + 1) % 65536 ∧ { t with sluices := s.sluices, host := s.host } = s) ∧
  (∀ (s : State) (ring : Fin 4) (d : BitVec 512) (k : Sluice) (i : SlItem),
    s.Begins ring d → dOp d = 0x30 → dParam d % 65536 = k.val → s.slEn k = true → s.hostConsumes k = true → (s.sluice k).cur = some (i, 0) →
    ∃ t, exec (.sluiceDrop ring) s = .next t ∧ Completed s t ring d 0 0 ∧ (t.sluice k).cur = none ∧
      t.get (F.SLC_DROPS_remainder.sel k) = min (s.get (F.SLC_DROPS_remainder.sel k) + (i.data.length + 63) / 64) (2 ^ F.SLC_DROPS_remainder.width - 1) ∧
      (i.data.length < i.len → i.order ∈ (t.sluice k).discard) ∧ RegsBut [selAddr R.SLC_DROPS k] s t ∧
      { t with regs := s.regs, sluices := s.sluices, host := s.host } = s) ∧
  (∀ (s : State) (k : Sluice) (i : SlItem) (off : Nat),
    s.slConsumer k ≠ 5 → (s.sluice k).cur = some (i, off) →
    ∃ t, exec (.slcCmdDrop k) s = .next t ∧ (t.sluice k).cur = none ∧
      t.get (F.SLC_DROPS_remainder.sel k) = min (s.get (F.SLC_DROPS_remainder.sel k) + (i.data.length - off + 63) / 64) (2 ^ F.SLC_DROPS_remainder.width - 1) ∧
      (i.data.length < i.len → i.order ∈ (t.sluice k).discard) ∧ (t.sluice k).drain ++ (t.sluice k).fill = (s.sluice k).drain ++ (s.sluice k).fill ∧
      RegsBut [selAddr R.SLC_DROPS k] s t ∧ { t with regs := s.regs, sluices := s.sluices } = s) ∧
  (∀ (s : State) (k : Sluice),
    let i := s.hopItem ((s.get F.SCHED_NTBASE_offset * 8192 + 32 * k.val) % 2 ^ 26)
    (s.sluice k).notify = true → s.on F.SCHED_NTBASE_en = true → i.delay = 0 → i.w0 ≠ 0 → i.valid none = true → s.sched.ready.length < 4096 →
    ∃ t, exec (.notifyRetry k) s = .next t ∧ (t.sluice k).notify = false ∧ t.sched.count = s.sched.count + 1 ∧
      t.sched.ready.map (fun r => r.item.w0) = s.sched.ready.map (fun r => r.item.w0) ++ [i.w0] ∧
      RegsBut [R.SCHED_CANCELCNT] s t ∧ { t with regs := s.regs, sluices := s.sluices, sched := s.sched } = s) ∧
  (∀ (s : State) (k : Sluice), (s.sluice k).notify = false → exec (.notifyRetry k) s = .next s) ∧
  (∀ (s : State) (k : Core) (o : Nat),
    let sel := (s.portWord k 4).toNat
    let len := sel / 2 ^ 16 % 8192
    let sl := s.selSluice k
    let x := s.sluice sl
    let i : SlItem := { prio := sel / 256 % 8, len := len, data := s.hopRead o len, tb0 := s.tb0, order := x.next }
    s.portSide k sl true = true → 0 < len → len ≤ 4096 → s.portBuf k len = some o → s.slConsumer sl ≠ 4 →
    bankUse (x.fill.filter (fun i => !i.gap)) + itemSpace len + 64 ≤ s.slBank sl →
    ∃ t, exec (.put k) s = .next t ∧ t.portData = 0 ∧ (t.sluice sl).drain ++ (t.sluice sl).fill = x.drain ++ x.fill ++ [i] ∧
      (∀ j, j ≠ sl → t.sluice j = s.sluice j) ∧ RegsBut [selAddr R.SLC_ITEMS sl] s t ∧
      { t with regs := s.regs, sluices := s.sluices, portData := s.portData } = s) ∧
  (∀ (s : State) (k : Core),
    s.portSide k (s.selSluice k) true = false →
    ∃ t, exec (.put k) s = .next t ∧ t.portData = 0x7007 ∧ { t with portData := s.portData } = s) ∧
  (∀ (s : State) (k : Core) (o off : Nat) (i : SlItem),
    let sl := s.selSluice k
    s.portSide k sl false = true → s.portBuf k 4096 = some o → (s.portWord k 4).getLsbD 31 = false → (s.sluice sl).cur = some (i, off) → i.gap = false →
    i.data.length = i.len → off < i.len → i.len ≤ off + 4096 →
    ∃ t, exec (.get k) s = .next t ∧ t.portData = BitVec.ofNat 64 (slHeader i off true) ∧ (t.sluice sl).cur = none ∧
      t.hopRead o (i.len - off) = i.data.drop off ∧
      (∀ a, a < o ∨ o + (i.len - off) ≤ a → mget (fun _ => 0) t.hop.mem a = mget (fun _ => 0) s.hop.mem a) ∧ RegsSame s t ∧
      { t with sluices := s.sluices, hop := s.hop, millers := s.millers, portData := s.portData } = s) ∧
  (∀ (s : State) (k : Core) (o off : Nat) (i : SlItem),
    let sl := s.selSluice k
    s.portSide k sl false = true → s.portBuf k 4096 = some o → (s.portWord k 4).getLsbD 31 = false → (s.sluice sl).cur = some (i, off) → i.gap = false →
    i.data.length = i.len → off < i.len → i.len ≤ off + 4096 →
    ∃ t, exec (.poll k) s = .next t ∧ t.portData = BitVec.ofNat 64 (slHeader i off true) ∧ (t.sluice sl).cur = none ∧
      t.hopRead o (i.len - off) = i.data.drop off ∧ RegsSame s t ∧
      { t with sluices := s.sluices, hop := s.hop, millers := s.millers, portData := s.portData } = s) ∧
  (∀ (s : State) (k : Core) (o : Nat),
    s.portSide k (s.selSluice k) false = true → s.portBuf k 4096 = some o → (s.portWord k 4).getLsbD 31 = false → s.slEmpty (s.selSluice k) = true →
    (∃ t, exec (.poll k) s = .next t ∧ t.portData = BitVec.ofNat 64 slEmptyHeader ∧ { t with portData := s.portData } = s)) ∧
  (∀ (s : State) (k : Core) (o : Nat),
    s.portSide k (s.selSluice k) false = true → s.portBuf k 4096 = some o → (s.portWord k 4).getLsbD 31 = false → s.slEmpty (s.selSluice k) = true →
    exec (.get k) s = .next s)

/-- R315, R316, R319, R320: a handover that its writer may make is pending; another raises HOP_OWNER_REJECTED and changes nothing; owners 6 and 7 are
ignored. At its end the bank is the new owner's, with contents kept, or zeroed if a scrub was asked. A test of a region keeps contents; a failing
one takes a spare and raises HOP_TEST_FAIL. -/
def Obligations.HopperBanks : Prop :=
  (∀ (s : State) (k : Core) (bank : Fin 16) (owner : Fin 8) (scrub : Bool),
    owner.val < 6 →
    ∃ t, exec (.bankHandover (.shell k) bank owner scrub) s = .next t ∧ t.bit F.HOP_STATUS_handover bank = true ∧
      mget (fun _ => none) t.hop.heir bank = some (owner.val, scrub) ∧ t.hopOwner bank = s.hopOwner bank ∧ t.hop.mem = s.hop.mem ∧
      RegsBut [R.HOP_STATUS] s t ∧ { t with regs := s.regs, hop := s.hop } = s) ∧
  (∀ (s : State) (bank : Fin 16) (owner : Fin 8) (scrub : Bool),
    owner.val < 6 → s.hopOwner bank ≠ 5 →
    ∃ t, exec (.bankHandover .host bank owner scrub) s = .next t ∧ RaisedOne s t 0xB004 0xFF [bank, owner, 4] ∧ t.hop = s.hop ∧
      RegsBut (evtRegs 0xB004 0xFF) s t ∧ OnlyEvents s t) ∧
  (∀ (s : State) (who : Requester) (bank : Fin 16) (owner : Fin 8) (scrub : Bool), 6 ≤ owner.val → exec (.bankHandover who bank owner scrub) s = .next s) ∧
  (∀ (s : State) (bank : Fin 16) (owner : Nat),
    mget (fun _ => none) s.hop.heir bank = some (owner, false) → owner < 6 →
    ∃ t, exec (.handoverComplete bank) s = .next t ∧ t.hopOwner bank = owner ∧ t.bit F.HOP_STATUS_handover bank = false ∧ t.hop.mem = s.hop.mem ∧
      mget (fun _ => none) t.hop.heir bank = none ∧ RegsBut [R.HOP_STATUS, R.HOP_BANK bank] s t ∧ { t with regs := s.regs, hop := s.hop } = s) ∧
  (∀ (s : State) (bank : Fin 16) (owner : Nat),
    mget (fun _ => none) s.hop.heir bank = some (owner, true) → owner < 6 →
    ∃ t, exec (.handoverComplete bank) s = .next t ∧ t.hopOwner bank = owner ∧ t.bit F.HOP_STATUS_scrubbing bank = true ∧
      (∀ a, mget (fun _ => 0) t.hop.mem a = if a / 2 ^ 22 = bank.val then 0 else mget (fun _ => 0) s.hop.mem a) ∧
      RegsBut [R.HOP_STATUS, R.HOP_BANK bank] s t ∧ { t with regs := s.regs, hop := s.hop, millers := s.millers } = s) ∧
  (∀ (s : State) (bank : Fin 16),
    mget (fun _ => none) s.hop.heir bank = none →
    ∃ t, exec (.handoverComplete bank) s = .next t ∧ t.bit F.HOP_STATUS_scrubbing bank = false ∧ RegsBut [R.HOP_STATUS] s t ∧ OnlyRegs s t) ∧
  (∀ (s : State),
    s.on F.HOP_CTRL_test_en = true → s.get F.HOP_TEST_region < 262143 →
    ∃ t, exec (.hopperTestRegion false) s = .next t ∧ t.get F.HOP_TEST_region = s.get F.HOP_TEST_region + 1 ∧ RegsBut [R.HOP_TEST] s t ∧ OnlyRegs s t) ∧
  (∀ (s : State),
    let r := s.get F.HOP_TEST_region
    s.on F.HOP_CTRL_test_en = true → r < 262143 → s.get (F.HOP_BANK_spares_used (r / 16384)) < 16 →
    ∃ t, exec (.hopperTestRegion true) s = .next t ∧ t.get F.HOP_TEST_region = r + 1 ∧
      t.get (F.HOP_BANK_spares_used (r / 16384)) = s.get (F.HOP_BANK_spares_used (r / 16384)) + 1 ∧
      RaisedOne s t 0x300E 0xFF [r, 1, s.get (F.HOP_BANK_spares_used (r / 16384)) + 1] ∧ t.hop = s.hop ∧
      RegsBut ([R.HOP_TEST, R.HOP_TESTFAIL, R.HOP_BANK (r / 16384)] ++ evtRegs 0x300E 0xFF) s t ∧ OnlyEvents s t)

/-- R304, R305, R306, R307, R309, R310, R312, R323, R301, R297, R302: reading the enqueue status with a good descriptor and room puts its item at the
end of the ready pool, or with a delay into the delay pool; a full pool refuses it, and is counted. A tick counts. The best ready item goes to the
lowest idle core it may run on, where DISPATCH is pending. An item's end takes it off the core. The first watchdog expiry is counted and interrupts,
the second resets the core and raises MILLER_RESET. A kick restarts it. MSIP follows its register. A flush of all empties the D-cache. A release
starts the core at the boot ROM in machine mode. -/
def Obligations.Scheduling : Prop :=
  (∀ (s : State) (k : Core) (full : Bool),
    let i : WItem := { w0 := s.portWord k 0, w1 := s.portWord k 1, w2 := s.portWord k 2, w3 := s.portWord k 3 }
    let seq := ((Config.freeBits 10 0).toNat + s.sched.count) % 2 ^ 32
    i.valid (s.userCtx k) = true → i.delay = 0 → s.sched.ready.length < 4096 →
    ∃ t, exec (.enqueue k full) s = .next t ∧ t.portData = enqStatus 0 seq ∧ t.sched.count = s.sched.count + 1 ∧
      t.sched.ready.map (·.item) = s.sched.ready.map (·.item) ++ [{ i with seq := seq }] ∧ t.sched.delayed = s.sched.delayed ∧
      RegsBut [R.SCHED_CANCELCNT] s t ∧ { t with regs := s.regs, sched := s.sched, portData := s.portData } = s) ∧
  (∀ (s : State) (k : Core),
    let i : WItem := { w0 := s.portWord k 0, w1 := s.portWord k 1, w2 := s.portWord k 2, w3 := s.portWord k 3 }
    let seq := ((Config.freeBits 10 0).toNat + s.sched.count) % 2 ^ 32
    i.valid (s.userCtx k) = true → i.delay ≠ 0 → s.sched.delayed.length < 4096 →
    ∃ t, exec (.enqueue k false) s = .next t ∧ t.portData = enqStatus 0 seq ∧ t.sched.delayed.length = s.sched.delayed.length + 1 ∧
      ⟨{ i with seq := seq }, i.list, s.sched.ticks + i.delay⟩ ∈ t.sched.delayed ∧ t.sched.ready = s.sched.ready ∧ RegsSame s t ∧
      { t with sched := s.sched, portData := s.portData } = s) ∧
  (∀ (s : State) (k : Core) (full : Bool),
    let i : WItem := { w0 := s.portWord k 0, w1 := s.portWord k 1, w2 := s.portWord k 2, w3 := s.portWord k 3 }
    i.valid (s.userCtx k) = true → i.delay = 0 → 4096 ≤ s.sched.ready.length →
    ∃ t, exec (.enqueue k full) s = .next t ∧ t.portData = enqStatus 1 0 ∧ t.sched = s.sched ∧
      t.get F.SCHED_REFCNT_count = min (s.get F.SCHED_REFCNT_count + 1) (2 ^ F.SCHED_REFCNT_count.width - 1) ∧
      RegsBut [R.SCHED_REFCNT] s t ∧ { t with regs := s.regs, portData := s.portData } = s) ∧
  (∀ (s : State),
    (∀ d, d ∈ s.sched.delayed → s.sched.ticks + 1 < d.due) →
    ∃ t, exec .delayTick s = .next t ∧ t.sched = { s.sched with ticks := s.sched.ticks + 1 } ∧ { t with sched := s.sched } = s) ∧
  (∀ (s : State) (d : DelayItem),
    s.sched.delayed = [d] → d.list < 4 → d.due ≤ s.sched.ticks + 1 → s.sched.ready.length < 4096 →
    ∃ t, exec .delayTick s = .next t ∧ t.sched.delayed = [] ∧ t.sched.ready.map (·.item) = s.sched.ready.map (·.item) ++ [d.item] ∧
      t.sched.ticks = s.sched.ticks + 1 ∧ RegsBut [R.SCHED_CANCELCNT] s t ∧ { t with regs := s.regs, sched := s.sched } = s) ∧
  (∀ (s : State) (k : Core) (r : ReadyItem),
    s.on F.SCHED_CTRL_en = true → s.readyOrder.head? = some r → s.placeItem r.item = some k.val → s.coreIdle k = true → s.traced k = false →
    ∃ t, exec (.dispatch none) s = .next t ∧ (t.schedCore k).waiting = some r.item ∧ (t.schedCore k).shown = some r.item ∧
      (∀ j, j ≠ k.val → t.schedCore j = s.schedCore j) ∧ t.sched.ready.map (·.item) = (s.sched.ready.map (·.item)).filter (fun i => i.seq != r.item.seq) ∧
      (mget (fun _ => 0) t.mlipend k).testBit 0 = true ∧
      t.get F.SCHED_DISPCNT_count = (s.get F.SCHED_DISPCNT_count + 1) % 2 ^ F.SCHED_DISPCNT_count.width ∧
      RegsBut [R.SCHED_DISPCNT, R.SCHED_CANCELCNT] s t ∧ { t with regs := s.regs, sched := s.sched, mlipend := s.mlipend } = s) ∧
  (∀ (s : State) (k : Core) (e : WItem),
    (s.schedCore k).stack = [e] → s.slotItem k = none → s.traced k = false →
    ∃ t, exec (.itemEnd k) s = .next t ∧ (t.schedCore k).stack = [] ∧ (t.miller k).resv = none ∧ { t.miller k with resv := (s.miller k).resv } = s.miller k ∧
      RegsSame s t ∧ { t with sched := s.sched, millers := s.millers } = s) ∧
  (∀ (s : State) (k : Core),
    s.wdogOn k = true → (s.schedCore k).expired = false →
    ∃ t, exec (.watchdogFirstExpiry k) s = .next t ∧ (t.schedCore k).expired = true ∧ (mget (fun _ => 0) t.mlipend k).testBit 1 = true ∧
      t.get (F.MLR_STATUS_expiries k) = min (s.get (F.MLR_STATUS_expiries k) + 1) (2 ^ (F.MLR_STATUS_expiries k).width - 1) ∧
      RegsBut [R.MLR_STATUS k] s t ∧ { t with regs := s.regs, sched := s.sched, mlipend := s.mlipend } = s) ∧
  (∀ (s : State) (k : Core),
    let seqs := (s.schedCore k).stack.map (·.seq)
    s.wdogOn k = true → (s.schedCore k).expired = true → s.traced k = false →
    ∃ t, exec (.millerWatchdog k) s = .next t ∧ (t.schedCore k).stack = [] ∧ (t.schedCore k).expired = false ∧ (t.miller k).pc = 0 ∧
      (t.miller k).machine = true ∧ (t.miller k).x = [] ∧ (∀ j, j ≠ k.val → t.miller j = s.miller j) ∧
      RaisedOne s t 0xB003 0xFF ([k.val, seqs.length] ++ seqs.take 4) ∧ RegsBut (R.MLR_STATUS k :: evtRegs 0xB003 0xFF) s t ∧
      { t with regs := s.regs, sched := s.sched, millers := s.millers, evt := s.evt, mlipend := s.mlipend } = s) ∧
  (∀ (s : State) (k : Core),
    ∃ t, exec (.watchdogKick k) s = .next t ∧ t.schedCore k = { s.schedCore k with expired := false } ∧ (∀ j, j ≠ k.val → t.schedCore j = s.schedCore j) ∧
      { t with sched := s.sched } = s) ∧
  (∀ (s : State) (k : Core),
    (s.miller k).wfi = true → s.wakes k = true →
    ∃ t, exec (.mtimecmpExpiry k) s = .next t ∧ (t.miller k).wfi = false ∧ (t.miller k).pc = (s.miller k).pc + 4 ∧
      (∀ j, j ≠ k.val → t.miller j = s.miller j) ∧ RegsSame s t ∧ { t with millers := s.millers } = s) ∧
  (∀ (s : State) (k : Core), (s.miller k).wfi = false → exec (.mtimecmpExpiry k) s = .next s) ∧
  (∀ (s : State) (k : Core) (v : Word),
    (s.miller k).wfi = false →
    ∃ t, exec (.msipWrite k v) s = .next t ∧ t.miller k = { s.miller k with msip := v.getLsbD 0 } ∧ (∀ j, j ≠ k.val → t.miller j = s.miller j) ∧
      { t with millers := s.millers } = s) ∧
  (∀ (s : State) (k : Core) (addr : BitVec 64),
    ∃ t, exec (.mdflush k addr) s = .next t ∧ (addr = BitVec.allOnes 64 → (t.miller k).dcache = []) ∧ mget (fun _ => none) (t.miller k).dcache (addr.toNat / 64) = none ∧
      (addr ≠ BitVec.allOnes 64 → ∀ l, l ≠ addr.toNat / 64 → mget (fun _ => none) (t.miller k).dcache l = mget (fun _ => none) (s.miller k).dcache l) ∧
      { t.miller k with dcache := (s.miller k).dcache } = s.miller k ∧ (∀ j, j ≠ k.val → t.miller j = s.miller j) ∧ { t with millers := s.millers } = s) ∧
  (∀ (s : State) (k : Core),
    s.on (F.MLR_CTRL_hold k) = true →
    ∃ t, exec (.millerRelease k) s = .next t ∧ t.get (F.MLR_CTRL_hold k) = 0 ∧ (t.miller k).pc = 0 ∧ (t.miller k).machine = true ∧ (t.miller k).x = [] ∧
      (t.miller k).icache = [] ∧ (t.miller k).dcache = [] ∧ t.mpreempt k = s.on (F.MLR_CTRL_preempt k) ∧ (∀ j, j ≠ k.val → t.miller j = s.miller j) ∧
      RegsBut [R.MLR_CTRL k] s t ∧ { t with regs := s.regs, millers := s.millers } = s)

/-! ## Millers -/

/-- R296, R298, R299, R301, R317: a miller executes the RV64IMAC instruction at its pc: an operation between registers or with an immediate writes rd
and no memory; a branch goes on at its target; a load of the hopper writes rd, a store its bytes and no others; an environment call traps with cause
11. LR reserves its granule, SC stores only with the reservation, an AMO reads and writes at once. A write through the bit-set or bit-clear alias
sets or clears the bits given. A core that is held executes nothing. -/
def Obligations.Millers : Prop :=
  (∀ (s : State) (k : Core) (n : Nat) (v : BitVec 64),
    let i := leNat (s.hopRead ((s.miller k).pc.toNat % 2 ^ 26) 4)
    s.Fetches k i → i % 128 = 0x33 → opResult false (fld i 25 7) (fld i 12 3) (s.x k (fld i 15 5)) (s.x k (fld i 20 5)) = some v →
    ∃ t, exec (.millerInstruction k { cycles := n }) s = .next t ∧ XIs s t k (fld i 7 5) v ∧ Retired s t k n ((s.miller k).pc + 4) ∧ RegsSame s t ∧
      { t with regs := s.regs, millers := s.millers } = s) ∧
  (∀ (s : State) (k : Core) (n : Nat) (v : BitVec 64),
    let i := leNat (s.hopRead ((s.miller k).pc.toNat % 2 ^ 26) 4)
    s.Fetches k i → i % 128 = 0x13 → immResult false i (s.x k (fld i 15 5)) = some v →
    ∃ t, exec (.millerInstruction k { cycles := n }) s = .next t ∧ XIs s t k (fld i 7 5) v ∧ Retired s t k n ((s.miller k).pc + 4) ∧ RegsSame s t ∧
      { t with regs := s.regs, millers := s.millers } = s) ∧
  (∀ (s : State) (k : Core) (n : Nat) (taken : Bool),
    let i := leNat (s.hopRead ((s.miller k).pc.toNat % 2 ^ 26) 4)
    s.Fetches k i → i % 128 = 0x63 → branchOp (fld i 12 3) (s.x k (fld i 15 5)) (s.x k (fld i 20 5)) = some taken →
    ∃ t, exec (.millerInstruction k { cycles := n }) s = .next t ∧ (∀ r, t.x k r = s.x k r) ∧
      Retired s t k n ((s.miller k).pc + if taken then immB i else 4) ∧ RegsSame s t ∧ { t with regs := s.regs, millers := s.millers } = s) ∧
  (∀ (s : State) (k : Core) (n : Nat),
    let i := leNat (s.hopRead ((s.miller k).pc.toNat % 2 ^ 26) 4)
    let a := (s.x k (fld i 15 5) + immI i).toNat
    let w := 2 ^ (fld i 12 3 % 4)
    let v := leNat (s.hopRead (a % 2 ^ 26) w)
    s.Fetches k i → i % 128 = 0x03 → fld i 12 3 ≠ 7 → s.dataMode k = true → 0x10000000 ≤ a → a < 0x14000000 → a % 64 + w ≤ 64 →
    s.pmpOk k true a w 0 = true → s.hopBusy (a % 2 ^ 26) = false → s.hopBad (a % 2 ^ 26) w = false →
    ∃ t, exec (.millerInstruction k { cycles := n }) s = .next t ∧
      XIs s t k (fld i 7 5) (if fld i 12 3 < 3 then sxt (8 * w) v else BitVec.ofNat 64 v) ∧ Retired s t k n ((s.miller k).pc + 4) ∧ RegsSame s t ∧
      { t with regs := s.regs, millers := s.millers } = s) ∧
  (∀ (s : State) (k : Core) (n : Nat),
    let i := leNat (s.hopRead ((s.miller k).pc.toNat % 2 ^ 26) 4)
    let a := (s.x k (fld i 15 5) + immS i).toNat
    let w := 2 ^ fld i 12 3
    s.Fetches k i → i % 128 = 0x23 → fld i 12 3 ≤ 3 → s.dataMode k = true → 0x10000000 ≤ a → a < 0x14000000 → a % 64 + w ≤ 64 →
    s.pmpOk k true a w 1 = true → s.hopBusy (a % 2 ^ 26) = false → s.line k false (a / 64) = none →
    ∃ t, exec (.millerInstruction k { cycles := n }) s = .next t ∧ t.hopRead (a % 2 ^ 26) w = natLe w (s.x k (fld i 20 5)).toNat ∧ HopBut (a % 2 ^ 26) w s t ∧
      (t.miller k).pc = (s.miller k).pc + 4 ∧ (∀ j r, t.x j r = s.x j r) ∧ RegsSame s t ∧ { t with regs := s.regs, millers := s.millers, hop := s.hop } = s) ∧
  (∀ (s : State) (k : Core) (n : Nat),
    s.Fetches k 0x73 →
    ∃ t, exec (.millerInstruction k { cycles := n }) s = .next t ∧ (t.miller k).pc = s.csrRaw k 0x305 &&& ~~~3#64 ∧ (t.miller k).machine = true ∧
      t.csrRaw k 0x341 = (s.miller k).pc ∧ t.csrRaw k 0x342 = 11 ∧ t.csrRaw k 0x343 = 0 ∧ (t.csrRaw k 0x300).getLsbD 3 = false ∧
      (t.csrRaw k 0x300).getLsbD 7 = (s.csrRaw k 0x300).getLsbD 3 ∧ (t.miller k).resv = none ∧ (t.miller k).x = (s.miller k).x ∧
      (∀ j, j ≠ k.val → t.miller j = s.miller j) ∧ RegsSame s t ∧ { t with regs := s.regs, millers := s.millers } = s) ∧
  (∀ (s : State) (k : Core) (obs : MilObs), s.on (F.MLR_CTRL_hold k) = true → exec (.millerInstruction k obs) s = .next s) ∧
  (∀ (s : State) (k : Core) (wide : Bool) (rd : Fin 32) (addr src : BitVec 64),
    let a := addr.toNat
    let w := if wide then 8 else 4
    let v := BitVec.ofNat 64 (leNat (s.hopRead (a % 2 ^ 26) w))
    s.coreRuns k = true → s.dataMode k = true → 0x10000000 ≤ a → a < 0x14000000 → a % w = 0 → s.pmpOk k true a w 0 = true →
    s.hopBusy (a % 2 ^ 26) = false → s.hopBad (a % 2 ^ 26) w = false →
    ∃ t, exec (.amo k 2 wide rd addr src) s = .next t ∧ XIs s t k rd (if wide then v else (v.truncate 32).signExtend 64) ∧
      (t.miller k).resv = some (a % 2 ^ 26 / 64) ∧ { t.miller k with x := (s.miller k).x, resv := (s.miller k).resv } = s.miller k ∧
      (∀ j, j ≠ k.val → t.miller j = s.miller j) ∧ { t with millers := s.millers } = s) ∧
  (∀ (s : State) (k : Core) (wide : Bool) (rd : Fin 32) (addr src : BitVec 64),
    let a := addr.toNat
    let w := if wide then 8 else 4
    s.coreRuns k = true → s.dataMode k = true → 0x10000000 ≤ a → a < 0x14000000 → a % w = 0 → s.pmpOk k true a w 1 = true →
    s.hopBusy (a % 2 ^ 26) = false → (s.miller k).resv = some (a % 2 ^ 26 / 64) →
    ∃ t, exec (.amo k 3 wide rd addr src) s = .next t ∧ XIs s t k rd 0 ∧ (t.miller k).resv = none ∧ t.hopRead (a % 2 ^ 26) w = natLe w src.toNat ∧
      HopBut (a % 2 ^ 26) w s t ∧ (∀ j, (t.miller j).resv ≠ some (a % 2 ^ 26 / 64)) ∧ { t with millers := s.millers, hop := s.hop } = s) ∧
  (∀ (s : State) (k : Core) (wide : Bool) (rd : Fin 32) (addr src : BitVec 64),
    let a := addr.toNat
    let w := if wide then 8 else 4
    s.coreRuns k = true → s.dataMode k = true → 0x10000000 ≤ a → a < 0x14000000 → a % w = 0 → s.pmpOk k true a w 1 = true →
    s.hopBusy (a % 2 ^ 26) = false → (s.miller k).resv ≠ some (a % 2 ^ 26 / 64) →
    ∃ t, exec (.amo k 3 wide rd addr src) s = .next t ∧ XIs s t k rd 1 ∧ (t.miller k).resv = none ∧ (∀ j, j ≠ k.val → t.miller j = s.miller j) ∧
      { t with millers := s.millers } = s) ∧
  (∀ (s : State) (k : Core) (f5 : Fin 32) (rd : Fin 32) (addr src : BitVec 64),
    let a := addr.toNat
    let v := BitVec.ofNat 64 (leNat (s.hopRead (a % 2 ^ 26) 8))
    s.coreRuns k = true → s.dataMode k = true → f5.val ∈ [0, 1, 4, 8, 12, 16, 20, 24, 28] → 0x10000000 ≤ a → a < 0x14000000 → a % 8 = 0 →
    s.pmpOk k true a 8 0 = true → s.pmpOk k true a 8 1 = true → s.hopBusy (a % 2 ^ 26) = false → s.hopBad (a % 2 ^ 26) 8 = false →
    ∃ t, exec (.amo k f5 true rd addr src) s = .next t ∧ XIs s t k rd v ∧ t.hopRead (a % 2 ^ 26) 8 = natLe 8 (amoResult f5 v src).toNat ∧
      HopBut (a % 2 ^ 26) 8 s t ∧ (∀ j, (t.miller j).resv ≠ some (a % 2 ^ 26 / 64)) ∧ { t with millers := s.millers, hop := s.hop } = s) ∧
  (∀ (s : State) (k : Core) (wide : Bool) (rd : Fin 32) (addr src : BitVec 64),
    s.coreRuns k = true → s.traced k = false → addr.toNat % 8 = 0 → addr.toNat < 0x10000000 ∨ 0x14000000 ≤ addr.toNat →
    ∃ t, exec (.amo k 2 wide rd addr src) s = .next t ∧ t.csrRaw k 0x342 = 7 ∧ t.csrRaw k 0x343 = addr ∧ t.csrRaw k 0x341 = (s.miller k).pc ∧
      (t.miller k).resv = none ∧ { t with millers := s.millers } = s) ∧
  (∀ (s : State) (k : Core) (clear : Bool) (off : BitVec 26) (size : Fin 4) (data : BitVec 64),
    let o := off.toNat
    let a := (if clear then 0x18000000 else 0x14000000) + o
    let w := 2 ^ size.val
    s.coreRuns k = true → o % 8 + w ≤ 8 → s.pmpOk k (s.dataMode k) a w 1 = true → s.hopMay k (s.dataMode k) o = true → s.hopBusy o = false → s.hopBad o w = false →
    ∃ t, exec (.hopperAliasWrite k clear off size data) s = .next t ∧
      t.hopRead o w = List.zipWith (fun m d => if clear then m &&& ~~~d else m ||| d) (s.hopRead o w) (natLe w data.toNat) ∧
      HopBut o w s t ∧ (∀ j, (t.miller j).resv ≠ some (o / 64)) ∧ { t with millers := s.millers, hop := s.hop } = s)

/-! ## Sessions of the debug ports -/

/-- R324, R325, R327, R328, R329, R330, R331: a request for a level that has a key draws a challenge and shows it ready; without a key it fails; a
locked port refuses. The response that is the HMAC of the message opens the session; one without a pending challenge fails, and is counted; the
fourth failure in a run locks the port. A close, an idle timeout of a running timer and a TAP reset close an open session, release all that it held
and raise SESSION_CLOSED; where none is open they do nothing to it. -/
def Obligations.Sessions : Prop :=
  (∀ (s : State) (who : Requester) (value : Word) (port : Nat),
    let level := F.AUTH_CTRL_level.of value
    s.dbgPort who = some port → 1 ≤ port → port ≤ 3 → level = 1 ∨ level = 2 → s.bit F.AUTH_STATUS_locked (port - 1) = false →
    (levelSlots level).any (fun n => (s.key n).isSome) = true →
    ∃ t, exec (.authOpen who value) s = .next t ∧ (t.authPort port).chal.isSome = true ∧
      { t.authPort port with chal := none } = { s.authPort port with chal := none, level := level, scope := s.get F.AUTH_STATUS_req_scope, resp := [] } ∧
      t.bit F.AUTH_STATUS_chal_ready (port - 1) = true ∧ t.get F.AUTH_CTRL_level = level ∧ (∀ j, j ≠ port → t.authPort j = s.authPort j) ∧
      RegsBut [R.AUTH_CTRL, R.AUTH_STATUS] s t ∧ { t with regs := s.regs, free := s.free, dbg := { t.dbg with ports := s.dbg.ports } } = s) ∧
  (∀ (s : State) (who : Requester) (value : Word) (port : Nat),
    s.dbgPort who = some port → 1 ≤ port → port ≤ 3 → s.bit F.AUTH_STATUS_locked (port - 1) = true →
    ∃ t, exec (.authOpen who value) s = .next t ∧ RegsBut [R.AUTH_CTRL] s t ∧ OnlyRegs s t) ∧
  (∀ (s : State) (who : Requester) (value : Word) (port : Nat),
    let level := F.AUTH_CTRL_level.of value
    s.dbgPort who = some port → 1 ≤ port → port ≤ 3 → level = 1 ∨ level = 2 → s.bit F.AUTH_STATUS_locked (port - 1) = false →
    (levelSlots level).any (fun n => (s.key n).isSome) = false → s.get (runFld port) < 3 →
    ∃ t, exec (.authOpen who value) s = .next t ∧ RaisedOne s t 0x7001 0xFF [port, 3] ∧ t.get (runFld port) = s.get (runFld port) + 1 ∧
      t.get F.AUTH_FAILCNT_total = min (s.get F.AUTH_FAILCNT_total + 1) (2 ^ F.AUTH_FAILCNT_total.width - 1) ∧ (t.authPort port).chal = none ∧
      (∀ j, j ≠ port → t.authPort j = s.authPort j) ∧ RegsBut ([R.AUTH_CTRL, R.AUTH_STATUS, R.AUTH_FAILCNT] ++ evtRegs 0x7001 0xFF) s t) ∧
  (∀ (s : State) (who : Requester) (value : Word) (port n : Nat) (c k : BitVec 256),
    let x := (s.writeResp port 7 value).authPort port
    s.dbgPort who = some port → 1 ≤ port → port ≤ 3 → x.chal = some c → n ∈ levelSlots x.level → x.level = 1 ∨ x.level = 2 → x.scope < 32 →
    s.key n = some k → Config.hmac k (authMessage c port x.level x.scope) = x.response → s.sessLevel port = 0 →
    ∃ t, exec (.authResponseSubmit who value) s = .next t ∧ t.sessLevel port = x.level ∧ t.sessScope port = x.scope ∧ RaisedOne s t 0x7003 0xFF [port, x.level, x.scope] ∧
      t.get (runFld port) = 0 ∧ (t.authPort port).chal = none ∧ (t.authPort port).lock = 0 ∧ t.bit F.AUTH_STATUS_chal_ready (port - 1) = false ∧
      (∀ j, j ≠ port → t.authPort j = s.authPort j) ∧ RegsBut ([sessReg port, R.AUTH_STATUS, R.AUTH_FAILCNT] ++ evtRegs 0x7003 0xFF) s t ∧
      { t with regs := s.regs, evt := s.evt, mlipend := s.mlipend, dbg := { t.dbg with ports := s.dbg.ports } } = s) ∧
  (∀ (s : State) (who : Requester) (value : Word) (port : Nat),
    s.dbgPort who = some port → 1 ≤ port → port ≤ 3 → (s.authPort port).chal = none → s.get (runFld port) < 3 →
    ∃ t, exec (.authResponseSubmit who value) s = .next t ∧ RaisedOne s t 0x7001 0xFF [port, 2] ∧ t.get (runFld port) = s.get (runFld port) + 1 ∧
      t.get F.AUTH_FAILCNT_total = min (s.get F.AUTH_FAILCNT_total + 1) (2 ^ F.AUTH_FAILCNT_total.width - 1) ∧
      RegsBut ([R.AUTH_STATUS, R.AUTH_FAILCNT] ++ evtRegs 0x7001 0xFF) s t) ∧
  (∀ (s : State) (who : Requester) (value : Word) (port : Nat),
    s.dbgPort who = some port → 1 ≤ port → port ≤ 3 → (s.authPort port).chal = none → s.get (runFld port) = 3 → (s.authPort port).lock = 0 →
    1 ≤ s.get F.AUTH_LOCKOUT_base → s.get F.AUTH_LOCKOUT_base ≤ 1024 → s.bit F.AUTH_STATUS_locked (port - 1) = false →
    ∃ t, exec (.authResponseSubmit who value) s = .next t ∧ t.bit F.AUTH_STATUS_locked (port - 1) = true ∧ (t.authPort port).lock = s.get F.AUTH_LOCKOUT_base ∧
      s.get F.AUTH_LOCKOUT_base ≤ t.get F.AUTH_LOCKOUT_left ∧ t.get F.EVT_RAISED_count = (s.get F.EVT_RAISED_count + 2) % 2 ^ 32 ∧
      (t.reg R.EVT_LAST).toNat = 0xFF7002 ∧ ∀ j, j < 3 → j ≠ port - 1 → t.bit F.AUTH_STATUS_locked j = s.bit F.AUTH_STATUS_locked j) ∧
  (∀ (s : State) (port : Fin 3),
    ∃ t, exec (.authLockoutEnd port) s = .next t ∧ t.bit F.AUTH_STATUS_locked port = false ∧
      (∀ j, j < 3 → j ≠ port.val → t.bit F.AUTH_STATUS_locked j = s.bit F.AUTH_STATUS_locked j) ∧ RegsBut [R.AUTH_STATUS, R.AUTH_LOCKOUT] s t ∧ OnlyRegs s t) ∧
  (∀ (s : State) (port : Fin 3),
    ∃ t, exec (.challengeExpiry port) s = .next t ∧ (t.authPort (port + 1)).chal = none ∧ t.bit F.AUTH_STATUS_chal_ready port = false ∧
      (∀ j, j ≠ port.val + 1 → t.authPort j = s.authPort j) ∧ RegsBut [R.AUTH_STATUS] s t ∧
      { t with regs := s.regs, dbg := { t.dbg with ports := s.dbg.ports } } = s) ∧
  (∀ (s : State) (who : Requester) (ended : Bool) (port : Nat),
    s.dbgPort who = some port → 1 ≤ port → port ≤ 3 → s.sessLevel port ≠ 0 →
    ∃ t, exec (.authClose who ended) s = .next t ∧ SessionClosed s t port (if ended = true ∧ port = 2 then 6 else 1)) ∧
  (∀ (s : State) (who : Requester) (ended : Bool) (port : Nat),
    s.dbgPort who = some port → port ≤ 3 → port = 0 ∨ s.sessLevel port = 0 → exec (.authClose who ended) s = .next s) ∧
  (∀ (s : State) (port : Fin 3),
    s.get F.AUTH_IDLE_seconds ≠ 0 → s.sessLevel (port + 1) ≠ 0 →
    ∃ t, exec (.sessionIdleTimeout port) s = .next t ∧ SessionClosed s t (port + 1) 2) ∧
  (∀ (s : State) (port : Fin 3), s.get F.AUTH_IDLE_seconds = 0 → exec (.sessionIdleTimeout port) s = .next s) ∧
  (∀ (s : State),
    s.sessLevel 1 ≠ 0 →
    ∃ t, exec .tapReset s = .next t ∧ SessionClosed s t 1 3 ∧ t.pins.scan = [] ∧ { t.pins with scan := s.pins.scan } = s.pins) ∧
  (∀ (s : State), s.sessLevel 1 = 0 → exec .tapReset s = .next { s with pins := { s.pins with scan := [] } })

/-! ## Debug -/

/-- R326, R331, R333, R334, R337, R339, R342: a session at FULL with the partition in scope halts it at the end of its turn, or arms a run of
DBG_RUNLEFT turns or a step, whose start is then pending; below FULL it is denied. A change of a BREAK enable acts at once on a partition that is
not RUNNING. Enabling a watch unit takes it; one of another port is denied. A rearm zeroes the counts and arms of the partition's units. -/
def Obligations.DebugOfPartitions : Prop :=
  (∀ (s : State) (who : Requester) (port : Nat) (p : Part),
    s.mayDebug who port 2 (some p.val) → s.running p = true → s.multi p = false →
    ∃ t, exec (.dbgHaltreqHalt who p) s = .next t ∧
      t.part p = { s.part p with causes := (s.part p).causes ||| 2 ^ 1, causeTurn := if (s.part p).causes = 0 then s.turns p else (s.part p).causeTurn } ∧
      OnlyPart p s t ∧ { t with parts := s.parts } = s) ∧
  (∀ (s : State) (who : Requester) (port : Nat) (p : Part),
    s.dbgPort who = some port → s.sessLevel port < 2 →
    ∃ t, exec (.dbgHaltreqHalt who p) s = .next t ∧ DeniedOne s t port (some p.val) R.DBG_HALTREQ 1) ∧
  (∀ (s : State) (who : Requester) (port : Nat) (p : Part),
    s.dbgPort who = some port → s.inScope port (some p.val) = false → 2 ≤ s.sessLevel port →
    ∃ t, exec (.dbgHaltreqStep who p) s = .next t ∧ DeniedOne s t port (some p.val) R.DBG_HALTREQ 2) ∧
  (∀ (s : State) (who : Requester) (port : Nat) (p : Part),
    s.mayDebug who port 2 (some p.val) → s.pstate p = 4 → s.multi p = false → s.loaderHas p = false → (s.part p).startPend = false → (s.part p).contextLost = false →
    s.govFrozen = true →
    ∃ t, exec (.dbgHaltreqRun who p) s = .next t ∧
      t.part p = { s.part p with armed := some (s.get64 (R.DBG_RUNLEFT_LO p) (R.DBG_RUNLEFT_HI p)), startPend := true, dbgReq := reqRun } ∧
      OnlyPart p s t ∧ { t with parts := s.parts } = s) ∧
  (∀ (s : State) (who : Requester) (port : Nat) (p : Part),
    s.mayDebug who port 2 (some p.val) → s.pstate p = 4 → s.multi p = false → s.loaderHas p = false → (s.part p).startPend = false → (s.part p).contextLost = false →
    s.govFrozen = true →
    ∃ t, exec (.dbgHaltreqStep who p) s = .next t ∧ t.part p = { s.part p with armed := some 1, startPend := true, dbgReq := reqStep } ∧ OnlyPart p s t ∧
      { t with parts := s.parts } = s) ∧
  (∀ (s : State) (who : Requester) (port : Nat) (p : Part),
    s.mayDebug who port 2 (some p.val) → s.pstate p = 0 →
    ∃ t, exec (.dbgHaltreqRun who p) s = .next t ∧ RaisedOne s t 0x2005 p.val [reqRun, 0, 0] ∧ RegsBut (evtRegs 0x2005 p.val) s t ∧ OnlyEvents s t) ∧
  (∀ (s : State) (who : Requester) (port : Nat) (value : BitVec 4),
    s.mayDebug who port 2 none → (∀ p, p < 4 → s.inScope port (some p) = true) →
    ∃ t, exec (.dbgBreakenWrite who value) s = .next t ∧ (∀ p, p < 4 → t.bit F.DBG_BREAKEN_en p = value.getLsbD p) ∧
      (∀ p, p < 4 → value.getLsbD p ≠ s.bit F.DBG_BREAKEN_en p → s.running p = false → (t.part p).breakEn = value.getLsbD p) ∧
      (∀ p, s.running p = true → t.part p = s.part p) ∧ (∀ p, { t.part p with breakEn := (s.part p).breakEn } = s.part p) ∧
      RegsBut [R.DBG_BREAKEN] s t ∧ { t with regs := s.regs, parts := s.parts } = s) ∧
  (∀ (s : State) (who : Requester) (port : Nat) (value : Word),
    let p := s.get F.DBG_WSEL_part
    let u := s.get F.DBG_WSEL_unit
    let n := watchIdx p u
    s.mayDebug who port (if F.DBG_WCFG_action.of value % 2 = 1 then 2 else 1) (some p) → 1 ≤ port → s.sessLevel port ≠ 0 →
    s.watchOwner p u = 0 ∨ s.watchOwner p u = port → F.DBG_WCFG_kind.of value ≠ 3 → u ≠ 0 ∨ F.DBG_WCFG_link.of value = 0 →
    ∃ t, exec (.watchUnitEnable who value) s = .next t ∧ t.reg (selAddr R.DBG_WCFG n) = (value ||| 0x80000000) &&& 0xFFFFC1FF ∧ t.watchOwner p u = port ∧
      (∀ v, v < 16 → v ≠ u → t.watchOwner p v = s.watchOwner p v) ∧ RegsBut [selAddr R.DBG_WCFG n, R.DBG_WOWNER p] s t ∧ OnlyRegs s t) ∧
  (∀ (s : State) (who : Requester) (port : Nat) (value : Word),
    let p := s.get F.DBG_WSEL_part
    let u := s.get F.DBG_WSEL_unit
    s.dbgPort who = some port → 1 ≤ port → s.sessLevel port ≠ 0 → s.watchOwner p u ≠ 0 → s.watchOwner p u ≠ port →
    ∃ t, exec (.watchUnitEnable who value) s = .next t ∧ DeniedOne s t port (some p) R.DBG_WCFG 3) ∧
  (∀ (s : State) (who : Requester) (port : Nat),
    let p := s.get F.DBG_WSEL_part
    s.mayDebug who port 1 (some p) →
    ∃ t, exec (.rearm who) s = .next t ∧ (∀ u, u < 16 → t.get (F.DBG_WCOUNT_count.sel (watchIdx p u)) = 0 ∧ mget (fun _ => none) t.watchFirst (watchIdx p u) = none) ∧
      (∀ k, k / 16 ≠ p → mget (fun _ => none) t.watchFirst k = mget (fun _ => none) s.watchFirst k) ∧
      RegsBut ((List.range 16).map (fun u => selAddr R.DBG_WCOUNT (watchIdx p u))) s t ∧ { t with regs := s.regs, watchFirst := s.watchFirst } = s)

/-- R331, R345, R346, R347, R326: a halted miller shows it, loses its reservation, gives up its wait and its held item, belongs to the port, and
MILLER_DEBUG_HALT is raised; a resume releases it, a step lets it execute one instruction, and both restart its watchdog. Enabling a range takes the
core and disarms the range. EXTEST drives the pins given while every partition is EMPTY, and is denied otherwise. -/
def Obligations.DebugOfMillers : Prop :=
  (∀ (s : State) (who : Requester) (port : Nat),
    let k := s.get F.DBG_MSEL_core
    let m := s.miller k
    s.mayDebug who port 2 none → s.coreOwner k = 0 ∨ s.coreOwner k = port → 1 ≤ port → m.halted = false → s.traced k = false →
    ∃ t, exec (.millerHalt who) s = .next t ∧ t.miller k = { m with halted := true, stepping := false, resv := none, wfi := false, getWait := false } ∧
      (∀ j, j ≠ k → t.miller j = s.miller j) ∧ t.get (F.DBG_MSTATUS_halted.sel k) = 1 ∧ t.get (F.DBG_MSTATUS_cause.sel k) = 1 ∧
      (t.get (F.DBG_MSTATUS_resv_cleared.sel k) = 1 ↔ m.resv ≠ none) ∧ (t.get (F.DBG_MSTATUS_wait_abandoned.sel k) = 1 ↔ m.wfi = true ∨ m.getWait = true) ∧
      t.bit F.DBG_MHALTED_cores k = true ∧ t.coreOwner k = port ∧ t.slotItem k = none ∧ t.sched.ready.map (·.item) = s.sched.ready.map (·.item) ∧
      RaisedOne s t 0x9002 0xFF [k, 1, (s.reg (selAddr R.DBG_MHIT k)).toNat] ∧
      RegsBut ([selAddr R.DBG_MSTATUS k, R.DBG_MHALTED, (coreOwnerFld k).addr, R.SCHED_CANCELCNT] ++ evtRegs 0x9002 0xFF) s t ∧
      { t with regs := s.regs, millers := s.millers, sched := s.sched, evt := s.evt, mlipend := s.mlipend } = s) ∧
  (∀ (s : State) (who : Requester) (port : Nat),
    let k := s.get F.DBG_MSEL_core
    s.dbgPort who = some port → 2 ≤ s.sessLevel port → s.inScope port none = true → 1 ≤ port → s.coreOwner k ≠ 0 → s.coreOwner k ≠ port →
    ∃ t, exec (.millerHalt who) s = .next t ∧ DeniedOne s t port none R.DBG_MCTRL 3) ∧
  (∀ (s : State) (who : Requester) (port : Nat),
    let k := s.get F.DBG_MSEL_core
    s.mayDebug who port 2 none → s.coreOwner k = 0 ∨ s.coreOwner k = port → (s.miller k).halted = true → s.traced k = false → (s.trc k).stopped = none →
    (∀ n, n ∈ rangesOf k → s.get (F.DBG_MRCFG_en.sel n) = 0) →
    ∃ t, exec (.millerResume who) s = .next t ∧ t.miller k = { s.miller k with halted := false } ∧ (∀ j, j ≠ k → t.miller j = s.miller j) ∧
      (t.schedCore k).expired = false ∧ t.reg (selAddr R.DBG_MSTATUS k) = 0 ∧ t.bit F.DBG_MHALTED_cores k = false ∧ t.coreOwner k = 0 ∧
      RegsBut [selAddr R.DBG_MSTATUS k, R.DBG_MHALTED, (coreOwnerFld k).addr] s t ∧ { t with regs := s.regs, millers := s.millers, sched := s.sched } = s) ∧
  (∀ (s : State) (who : Requester) (port : Nat),
    let k := s.get F.DBG_MSEL_core
    s.mayDebug who port 2 none → s.coreOwner k = 0 ∨ s.coreOwner k = port → (s.miller k).halted = true →
    ∃ t, exec (.millerStep who) s = .next t ∧ t.miller k = { s.miller k with stepping := true } ∧ (∀ j, j ≠ k → t.miller j = s.miller j) ∧
      t.schedCore k = { s.schedCore k with expired := false } ∧ { t with millers := s.millers, sched := s.sched } = s) ∧
  (∀ (s : State) (who : Requester) (port n : Nat) (value : Word),
    let k := s.get F.DBG_MSEL_core
    s.mayDebug who port 2 none → s.coreOwner k = 0 ∨ s.coreOwner k = port → 1 ≤ port → s.selRange = some n →
    ∃ t, exec (.millerRangeEnable who value) s = .next t ∧ t.reg (selAddr R.DBG_MRCFG n) = (value ||| 0x80000000) &&& 0xFF000000 ∧ t.coreOwner k = port ∧
      mget (fun _ => false) t.dbg.rangeHit n = false ∧ (∀ j, j ≠ n → mget (fun _ => false) t.dbg.rangeHit j = mget (fun _ => false) s.dbg.rangeHit j) ∧
      RegsBut [selAddr R.DBG_MRCFG n, (coreOwnerFld k).addr] s t ∧ { t with regs := s.regs, dbg := { t.dbg with rangeHit := s.dbg.rangeHit } } = s) ∧
  (∀ (s : State) (drive : List (Nat × Bool)),
    (∀ p, p < 4 → s.pstate p = 0) → 2 ≤ s.sessLevel 1 → s.inScope 1 none = true → (drive.map (·.1)).Nodup →
    ∃ t, exec (.jtagExtest drive) s = .next t ∧ (∀ e, e ∈ drive → mget (fun _ => none) t.pins.scan e.1 = some e.2) ∧
      (∀ n, n ∉ drive.map (·.1) → mget (fun _ => none) t.pins.scan n = none) ∧ { t.pins with scan := s.pins.scan } = s.pins ∧ { t with pins := s.pins } = s) ∧
  (∀ (s : State) (drive : List (Nat × Bool)) (p : Part),
    s.pstate p ≠ 0 → ∃ t, exec (.jtagExtest drive) s = .next t ∧ DeniedOne s t 1 none 0 2)

/-- R332, R326, R343, R344, R208, R142: a debugger's read of a register shows it with no effect, at a register that a read clears it shows 0 and raises
DEBUG_SIDE_EFFECT; a write through the register port is an ordinary write. A back-door access reads or writes 16 bytes of DRAM, reads mill memory or
the head item of a sluice; outside the scope it is DENIED. A row of a halted partition is shown with no change to it. -/
def Obligations.DebugAccesses : Prop :=
  (∀ (s : State) (who : Requester) (port : Nat) (x : Word),
    let a := s.raddr
    s.dbgPort who = some port → 1 ≤ s.sessLevel port → s.inScope port (s.regScope a) = true → readClears a = false →
    a ∉ loRegs → a ∉ coreRegs → a ∉ [R.DBG_RDATA, R.FLM_RBDATA, R.SCHED_ENQSTAT] → s.held true a = none →
    ∃ t, exec (.dbgRdataRead who x) s = .next t ∧ t.readData = s.peekReg port a x ∧ { t with readData := s.readData } = s) ∧
  (∀ (s : State) (who : Requester) (port : Nat) (x : Word),
    let a := s.raddr
    s.dbgPort who = some port → 1 ≤ s.sessLevel port → s.inScope port (s.regScope a) = true → readClears a = true →
    ∃ t, exec (.dbgRdataRead who x) s = .next t ∧ t.readData = 0 ∧ RaisedOne s t 0x9001 ((s.regScope a).getD 0xFF) [port, a] ∧
      t.get F.DBG_DENYCNT_side_effect = min (s.get F.DBG_DENYCNT_side_effect + 1) (2 ^ F.DBG_DENYCNT_side_effect.width - 1) ∧
      RegsBut (R.DBG_DENYCNT :: evtRegs 0x9001 ((s.regScope a).getD 0xFF)) s t ∧
      { t with regs := s.regs, evt := s.evt, mlipend := s.mlipend, readData := s.readData } = s) ∧
  (∀ (s : State) (who : Requester) (port : Nat) (v : Word) (p : Part),
    s.raddr = R.TURN_CTRL p → s.mayDebug who port 2 (some p.val) → s.partExists p = true → v.getLsbD 31 = false →
    ∃ t, exec (.dbgRdataWrite who v {}) s = .next t ∧ t.get (F.TURN_CTRL_brake_limit p) = v.toNat % 65536 ∧ RegsBut [R.TURN_CTRL p] s t ∧ OnlyRegs s t) ∧
  (∀ (s : State) (who : Requester) (port : Nat) (v : Word),
    s.dbgPort who = some port → s.sessLevel port < 2 → s.raddr ≠ R.PCIE_BAR4CTL →
    ∃ t, exec (.dbgRdataWrite who v {}) s = .next t ∧ DeniedOne s t port (s.regScope s.raddr) s.raddr 1) ∧
  (∀ (s : State) (who : Requester) (port : Nat) (v : Word),
    let c := F.DBG_BDCTRL_target.of v % 16
    let a := s.get F.DBG_BDADDR_LO_addr * 16 + s.get F.DBG_BDADDR_HI_addr_hi * 2 ^ 32
    s.dbgPort who = some port → 1 ≤ s.sessLevel port → F.DBG_BDCTRL_write.of v = 0 → F.DBG_BDCTRL_kind.of v = 0 →
    s.doorScope port 0 (F.DBG_BDCTRL_target.of v) a = true → s.race.lost = [] → s.cstate c ≠ 7 → s.busBlocked c a 6 = false → s.lineBad c (a / 64) = false →
    ∃ t, exec (.backdoorAccess who v {}) s = .next t ∧ t.get F.DBG_BDSTAT_status = 0 ∧
      (∀ w, w < 4 → t.reg (R.DBG_BDDATA w) = BitVec.ofNat 32 (leNat (s.dramRead c (a + 4 * w) 4))) ∧ t.dram = s.dram ∧
      RegsBut ([R.DBG_BDCTRL, R.DBG_BDSTAT, R.RACE_UNITS_LO, R.RACE_UNITS_HI] ++ (List.range 4).map R.DBG_BDDATA) s t ∧
      { t with regs := s.regs, race := s.race, free := s.free } = s) ∧
  (∀ (s : State) (who : Requester) (port : Nat) (v : Word),
    let c := F.DBG_BDCTRL_target.of v % 16
    let a := s.get F.DBG_BDADDR_LO_addr * 16 + s.get F.DBG_BDADDR_HI_addr_hi * 2 ^ 32
    s.dbgPort who = some port → s.sessLevel port = 2 → F.DBG_BDCTRL_write.of v = 1 → F.DBG_BDCTRL_kind.of v = 0 →
    s.doorScope port 0 (F.DBG_BDCTRL_target.of v) a = true → s.race.lost = [] → s.cstate c ≠ 7 → s.busBlocked c a 6 = false → s.stageLocked c a 16 = false →
    ∃ t, exec (.backdoorAccess who v {}) s = .next t ∧ t.get F.DBG_BDSTAT_status = 0 ∧
      (∀ w, w < 4 → t.dramRead c (a + 4 * w) 4 = natLe 4 (s.reg (R.DBG_BDDATA w)).toNat) ∧
      (∀ b, b < dramKey c a ∨ dramKey c a + 16 ≤ b → mget dramByte t.dram.mem b = mget dramByte s.dram.mem b) ∧
      RegsBut [R.DBG_BDCTRL, R.DBG_BDSTAT, R.RACE_UNITS_LO, R.RACE_UNITS_HI, R.MPORT_PFDISC] s t ∧
      { t with regs := s.regs, race := s.race, dram := s.dram, free := s.free } = s) ∧
  (∀ (s : State) (who : Requester) (port p : Nat) (v : Word),
    let m := F.DBG_BDCTRL_target.of v
    let a := s.get F.DBG_BDADDR_LO_addr * 16 + s.get F.DBG_BDADDR_HI_addr_hi * 2 ^ 32
    let step := s.doorStep m
    s.dbgPort who = some port → 1 ≤ s.sessLevel port → F.DBG_BDCTRL_write.of v = 0 → F.DBG_BDCTRL_kind.of v = 1 → s.millOwner m = some p →
    (s.sessScope port).testBit p = true → a + 16 ≤ 2 ^ 20 → s.quadEnabled (m / 64) = true → s.isolated (targetKey false m) = false →
    s.dstate (m / 8) = 0 ∨ (s.dstate (m / 8) < 4 ∧ s.on (F.PWR_DOM_force_en (m / 8)) = false) → s.Unwatched p → (s.cap p).items = [] →
    (∀ j, j < 2 → s.mmBad m (a / 64) (a % 64 / 8 + j) step = false) →
    ∃ t, exec (.backdoorAccess who v {}) s = .next t ∧ t.get F.DBG_BDSTAT_status = 0 ∧
      (∀ w, w < 4 → t.reg (R.DBG_BDDATA w) = (s.mmRow m (a / 64) step).extractLsb' (a % 64 * 8 + 32 * w) 32) ∧ t.dm = s.dm) ∧
  (∀ (s : State) (who : Requester) (port : Nat) (v : Word) (i : SlItem),
    let k := F.DBG_BDCTRL_target.of v
    let a := s.get F.DBG_BDADDR_LO_addr * 16 + s.get F.DBG_BDADDR_HI_addr_hi * 2 ^ 32
    s.dbgPort who = some port → 1 ≤ s.sessLevel port → F.DBG_BDCTRL_write.of v = 0 → F.DBG_BDCTRL_kind.of v = 2 → s.doorScope port 2 k a = true →
    s.slHead k = some i → a + 16 ≤ i.data.length →
    ∃ t, exec (.backdoorAccess who v {}) s = .next t ∧ t.get F.DBG_BDSTAT_status = 0 ∧
      (∀ w, w < 4 → t.reg (R.DBG_BDDATA w) = BitVec.ofNat 32 (leNat ((i.data.drop (a + 4 * w)).take 4))) ∧
      RegsBut ([R.DBG_BDCTRL, R.DBG_BDSTAT] ++ (List.range 4).map R.DBG_BDDATA) s t ∧ OnlyRegs s t) ∧
  (∀ (s : State) (who : Requester) (port : Nat) (v : Word) (e : RowEcc),
    let k := F.DBG_BDCTRL_target.of v
    let a := s.get F.DBG_BDADDR_LO_addr * 16 + s.get F.DBG_BDADDR_HI_addr_hi * 2 ^ 32
    s.dbgPort who = some port → 1 ≤ s.sessLevel port → F.DBG_BDCTRL_write.of v = 0 → F.DBG_BDCTRL_kind.of v = 0 ∨ F.DBG_BDCTRL_kind.of v = 2 →
    s.doorScope port (F.DBG_BDCTRL_kind.of v) k a = false →
    ∃ t, exec (.backdoorAccess who v e) s = .next t ∧ t.get F.DBG_BDSTAT_status = 3 ∧ RaisedOne s t 0x7005 0xFF [port, R.DBG_BDCTRL, 2] ∧
      RegsBut ([R.DBG_BDCTRL, R.DBG_BDSTAT, R.DBG_DENYCNT] ++ evtRegs 0x7005 0xFF) s t ∧ OnlyEvents s t) ∧
  (∀ (s : State) (who : Requester) (port p : Nat),
    let m := s.get F.DBG_SRSEL_mill
    let row := s.get F.DBG_SRSEL_row
    let v : Row := if row = 0xE01 then BitVec.allOnes 64 else if 0xE00 ≤ row ∧ row < 0xF00 then 0
      else s.baseRow (m * 16 + s.get F.DBG_SRSEL_stone) (physRow (s.part p).bank row)
    s.millOwner m = some p → s.mayDebug who port 1 (some p) → s.pstate p = 4 →
    ∃ t, exec (.srdataRead who) s = .next t ∧ t.readData = v.extractLsb' 0 32 ∧ t.reg R.DBG_SRDATA_HI = v.extractLsb' 32 32 ∧
      RegsBut [R.DBG_SRDATA_HI] s t ∧ { t with regs := s.regs, readData := s.readData } = s) ∧
  (∀ (s : State) (who : Requester) (port p : Nat),
    s.millOwner (s.get F.DBG_SRSEL_mill) = some p → s.mayDebug who port 1 (some p) → s.pstate p ≠ 4 →
    ∃ t, exec (.srdataRead who) s = .next t ∧ t.readData = 0 ∧ t.get F.DBG_SRSEL_refused = 1 ∧ RegsBut [R.DBG_SRSEL] s t ∧
      { t with regs := s.regs, readData := s.readData } = s)

/-! ## Capture -/

/-- R353, R354, R358, R363, R369: an enable whose ring and host area are in order resets positions, record numbers and counters and writes a start
record of the 64 bytes R353 and R354 give; one whose ring is not is refused. A disable writes a stop record with reason 1 and ends the capture. A
software trigger marks the turn in progress of each partition it names, or with drive_x starts a pulse on TRIG_X. R352, R355, R364, R366, R68, R71:
the words of a mill join the turn they belong to; with the last of them the turn's record is written. A chunk of the ring goes to the host area, its
descriptor and phase follow, and the ring's occupancy falls. A failed check of a lossless capture is a CAPTURE vote K steps on; a check that passes
ends the re-checks. -/
def Obligations.Capture : Prop :=
  (∀ (s : State) (p : Part) (value : Word),
    let ring := s.reg (R.ACQ_P_RING p)
    let area := s.get (F.ACQ_P_HBUF_LO_size p)
    let ch := s.get (F.ACQ_P_RING_channel p)
    let base := s.get (F.ACQ_P_RING_base p) * 2 ^ 20
    s.on (F.ACQ_P_CTRL_en p) = false → s.partExists p = true → s.capRingOk ring = true → s.capRingFree p ring = true → area ≤ 10 →
    s.get64 (R.ACQ_P_HBUF_LO p) (R.ACQ_P_HBUF_HI p) / 2 ^ 20 % 2 ^ area = 0 → s.race.lost = [] → s.cstate ch ≠ 7 →
    s.busBlocked ch base 7 = false → s.stageLocked ch base 64 = false →
    ∃ t, exec (.captureEnable p value) s = .next t ∧ t.reg (R.ACQ_P_CTRL p) = value &&& 0x7E00FFFF ||| 0x80000000 ∧
      t.cap p = { seq := 1, written := 64, recs := [(0, 5, s.turns p)] } ∧ (∀ q, q ≠ p.val → t.cap q = s.cap q) ∧
      (∀ c, c < 8 → t.get (F.ACQ_CNTDATA_count.sel (p * 8 + c)) = if c = 0 then 1 else 0) ∧
      t.dramRead ch base 64 = natLe 1 5 ++ natLe 1 (if s.on (F.TBK_STATUS_anchored 0) then 2 else 0) ++ natLe 1 p ++ natLe 1 (s.get (F.PART_QMASK_binding p)) ++
        natLe 4 1 ++ natLe 8 (s.turns p) ++ natLe 8 s.tb0 ++ natLe 8 0 ++ natLe 4 (t.reg (R.ACQ_P_CTRL p)).toNat ++ List.replicate 28 0 ∧
      RegsBut ([R.ACQ_P_CTRL p, R.RACE_UNITS_LO, R.RACE_UNITS_HI, R.MPORT_PFDISC] ++ (List.range 8).map (fun c => selAddr R.ACQ_CNTDATA (p * 8 + c))) s t ∧
      { t with regs := s.regs, acq := s.acq, dram := s.dram, race := s.race, free := s.free } = s) ∧
  (∀ (s : State) (p : Part) (value : Word),
    s.on (F.ACQ_P_CTRL_en p) = false → s.partExists p = true → s.capRingOk (s.reg (R.ACQ_P_RING p)) = false ∨ s.capRingFree p (s.reg (R.ACQ_P_RING p)) = false →
    ∃ t, exec (.captureEnable p value) s = .next t ∧ t.get F.ACQ_STATUS_refused = 1 ∧ t.get (F.ACQ_P_CTRL_en p) = 0 ∧
      RegsBut [R.ACQ_P_CTRL p, R.ACQ_STATUS] s t ∧ OnlyRegs s t) ∧
  (∀ (s : State) (p : Part),
    let x := s.cap p
    let ch := s.get (F.ACQ_P_RING_channel p)
    let a := s.get (F.ACQ_P_RING_base p) * 2 ^ 20 + x.written % s.capSize p
    s.on (F.ACQ_P_CTRL_en p) = true → x.items = [] → x.iTurns = 0 → x.gap = none → x.staged = [] → x.written % 64 = 0 → s.capUsed p + 64 ≤ s.capSize p →
    s.race.lost = [] → s.cstate ch ≠ 7 → s.busBlocked ch a 7 = false → s.stageLocked ch a 64 = false →
    ∃ t, exec (.captureDisable p) s = .next t ∧ t.get (F.ACQ_P_CTRL_en p) = 0 ∧
      t.cap p = { x with marks := 0, units := 0, post := none, seq := x.seq + 1, written := x.written + 64, recs := x.recs ++ [(x.written, 6, s.turns p)] } ∧
      (∀ q, q ≠ p.val → t.cap q = s.cap q) ∧ (t.dramRead ch a 64).take 1 = [6] ∧ ((t.dramRead ch a 64).drop 32).take 1 = [1] ∧
      RegsBut [R.ACQ_P_CTRL p, R.RACE_UNITS_LO, R.RACE_UNITS_HI, R.MPORT_PFDISC, selAddr R.ACQ_CNTDATA (p * 8)] s t ∧
      { t with regs := s.regs, acq := s.acq, dram := s.dram, race := s.race, free := s.free } = s) ∧
  (∀ (s : State) (p : Part), s.on (F.ACQ_P_CTRL_en p) = false → exec (.captureDisable p) s = .next s) ∧
  (∀ (s : State) (parts : BitVec 4),
    (∀ p, p < 4 → parts.getLsbD p = true → s.on (F.ACQ_P_CTRL_en p) = true ∧ s.running p = true ∧ s.on (F.ACQ_P_CTRL_drive_x p) = false ∧ (s.cap p).items = []) →
    ∃ t, exec (.acqSwtrig parts) s = .next t ∧
      (∀ p, p < 4 → t.cap p = if parts.getLsbD p then { s.cap p with marks := (s.cap p).marks ||| 8, step := if (s.cap p).units = 0 then 0 else (s.cap p).step } else s.cap p) ∧
      { t with acq := s.acq } = s) ∧
  (∀ (s : State) (p : Part),
    s.on (F.ACQ_P_CTRL_en p) = true → s.on (F.ACQ_P_CTRL_drive_x p) = true → s.lines.trigXPulse = false → s.lines.trigXPending = false → (s.cap p).items = [] →
    ∃ t, exec (.acqSwtrig (BitVec.twoPow 4 p)) s = .next t ∧ t.lines = { s.lines with trigXPulse := true, trigXOwn := true } ∧ { t with lines := s.lines } = s) ∧
  (∀ (s : State) (m : Mill) (p : Part) (i : CapItem),
    (s.cap p).items = [i] → i.kind = 1 → m.val ∈ i.missing → i.missing.erase m.val ≠ [] →
    (∀ q, q < p.val → (s.cap q).items = []) →
    ∃ t, exec (.captureWordsArrival m) s = .next t ∧ t.cap p = { s.cap p with items := [{ i with missing := i.missing.erase m.val }] } ∧
      (∀ q, q ≠ p.val → t.cap q = s.cap q) ∧
      t.get64 R.RACE_UNITS_LO R.RACE_UNITS_HI = (s.get64 R.RACE_UNITS_LO R.RACE_UNITS_HI + 9) % 2 ^ 64 ∧ RegsBut [R.RACE_UNITS_LO, R.RACE_UNITS_HI] s t ∧
      { t with regs := s.regs, acq := s.acq, race := s.race } = s) ∧
  (∀ (s : State) (m : Mill) (p : Part) (i : CapItem),
    let x := s.cap p
    let n := 1 + 2 * i.mills.length
    let ch := s.get (F.ACQ_P_RING_channel p)
    let base := s.get (F.ACQ_P_RING_base p) * 2 ^ 20
    x.items = [i] → i.kind = 1 → i.missing = [m.val] → (∀ q, q < p.val → (s.cap q).items = []) → s.get (F.ACQ_P_CTRL_interval p) = 0 → x.gap = none → x.staged = [] →
    x.written % 64 = 0 → i.mills.length ≤ 256 → s.capUsed p + 64 * n ≤ s.capSize p - 2048 →
    s.race.lost = [] → s.cstate ch ≠ 7 → (∀ k, k < n → s.busBlocked ch (base + (x.written + 64 * k) % s.capSize p) 7 = false ∧ s.stageLocked ch (base + (x.written + 64 * k) % s.capSize p) 64 = false) →
    ∃ t, exec (.captureWordsArrival m) s = .next t ∧
      t.cap p = { x with items := [], seq := x.seq + 1, written := x.written + 64 * n, recs := x.recs ++ [(x.written, 1, i.turn)] } ∧
      (∀ q, q ≠ p.val → t.cap q = s.cap q) ∧
      t.get (F.ACQ_CNTDATA_count.sel (p * 8)) = min (s.get (F.ACQ_CNTDATA_count.sel (p * 8)) + 1) (2 ^ F.ACQ_CNTDATA_count.width - 1) ∧
      RegsBut [R.RACE_UNITS_LO, R.RACE_UNITS_HI, R.MPORT_PFDISC, selAddr R.ACQ_CNTDATA (p * 8), selAddr R.ACQ_CNTDATA (p * 8 + 6), selAddr R.ACQ_CNTDATA (p * 8 + 7)] s t ∧
      { t with regs := s.regs, acq := s.acq, dram := s.dram, race := s.race, free := s.free } = s) ∧
  (∀ (s : State) (m : Mill), (∀ p, p < 4 → (s.cap p).items = []) → exec (.captureWordsArrival m) s = .next s) ∧
  (∀ (s : State) (p : Part) (ecc : RowEcc),
    let n := 9 + p.val
    let x := s.cap p
    let area := s.capArea p
    let len := min (min 65536 (s.capUsed p)) (area - x.copied % area)
    let ch := s.get (F.ACQ_P_RING_channel p)
    let lines := (List.range (len / 64)).map (fun i => s.get (F.ACQ_P_RING_base p) * 2 ^ 20 + (x.copied + 64 * i) % s.capSize p)
    let haddr := s.get64 (R.ACQ_P_HBUF_LO p) (R.ACQ_P_HBUF_HI p) / 2 ^ 20 * 2 ^ 20 + x.copied % area
    let a := s.ringAddr n (s.ring n).dev
    let mine := x.recs.filter (fun r => decide (r.1 < x.copied + len))
    len ≠ 0 → s.ringRoom n = true → s.capHeld p + len ≤ area → s.race.lost = [] → s.cstate ch ≠ 7 → ecc.ue = [] →
    lines.all (fun l => !s.busBlocked ch l 7) = true →     lines.all (fun l => !s.lineBad ch (l / 64)) = true → x.staged = [] → mine ≠ [] →
    ∃ t, exec (.captureChunkPost p ecc) s = .next t ∧ (t.cap p).copied = x.copied + len ∧ (t.cap p).written = x.written ∧
      (t.cap p).recs = x.recs.filter (fun r => decide (x.copied + len ≤ r.1)) ∧ (t.ring n).dev = ((s.ring n).dev + 1) % countMod n ∧
      t.host.writes.drop 2 = ⟨haddr, lines.flatMap (fun l => s.dramRead ch l 64)⟩ :: s.host.writes ∧
      t.host.writes.head? = some ⟨a + 60, natLe 4 (phaseOf (s.ringSize n) (s.ring n).dev * 2 ^ 31)⟩ ∧
      (t.host.writes.drop 1).head? = some ⟨a, natLe 2 1 ++ natLe 1 p ++
        natLe 1 (s.anchorFlag + (if mine.any (fun r => r.2.1 == 3) then 2 else 0) + if mine.any (fun r => r.2.1 == 4) then 4 else 0) ++ natLe 4 (len / 64) ++
        natLe 8 x.copied ++ natLe 8 s.tb0 ++ natLe 8 haddr ++ natLe 4 (((mine.map (·.1)).headD 0 - x.copied) / 64) ++ natLe 4 mine.length ++
        natLe 8 ((mine.map (·.2.2)).getLastD 0) ++ natLe 12 0⟩ ∧
      (∀ q, q ≠ p.val → t.cap q = s.cap q) ∧ RegsBut [R.RACE_UNITS_LO, R.RACE_UNITS_HI, R.DDRC_CE ch, selAddr R.ACQ_CNTDATA (p * 8 + 5)] s t ∧
      { t with regs := s.regs, acq := s.acq, race := s.race, host := s.host, free := s.free } = s) ∧
  (∀ (s : State) (p : Part) (n : Step),
    let h := n.val + s.horizon p
    let hold := if h < s.depth p then h else h - s.depth p
    let next := !decide (h < s.depth p)
    s.running p = true → s.multi p = false → (s.part p).lossless = true → s.on (F.ACQ_P_CTRL_en p) = true → (s.part p).limitSteps = [] →
    max 1 (s.get F.ACQ_HWM_level) * s.capSize p ≤ 16 * s.capUsed p → (s.part p).rechecks.find? (fun r => r.ref == capRef) = none →
    ∃ t, exec (.captureCheck p n) s = .next t ∧
      t.part p = { s.part p with votes := (s.part p).votes ++ [{ hold := hold, next := next, round := 0, cause := 5 }],
                                 rechecks := (s.part p).rechecks ++ [⟨hold, next, 0, 5, s.cycleOf p n, capRef⟩] } ∧
      t.bit F.ACQ_STATUS_braking p = true ∧ OnlyPart p s t ∧
      t.get (F.ACQ_CNTDATA_count.sel (p * 8 + 4)) = min (s.get (F.ACQ_CNTDATA_count.sel (p * 8 + 4)) + 1) (2 ^ F.ACQ_CNTDATA_count.width - 1) ∧
      RegsBut [R.ACQ_STATUS, selAddr R.ACQ_CNTDATA (p * 8 + 4)] s t ∧ { t with regs := s.regs, parts := s.parts } = s) ∧
  (∀ (s : State) (p : Part) (n : Step),
    s.running p = true → (s.part p).lossless = true → s.on (F.ACQ_P_CTRL_en p) = true →
    16 * s.capUsed p < max 1 (s.get F.ACQ_HWM_level) * s.capSize p → (∀ i, i ∈ (s.cap p).items → i.missing = []) →
    ∃ t, exec (.captureCheck p n) s = .next t ∧ t.bit F.ACQ_STATUS_braking p = false ∧
      t.part p = { s.part p with rechecks := (s.part p).rechecks.filter (fun r => r.ref != capRef) } ∧ OnlyPart p s t ∧
      RegsBut [R.ACQ_STATUS] s t ∧ { t with regs := s.regs, parts := s.parts } = s)

/-! ## Miller trace -/

/-- R370, R371, R373, R375, R376: an enable with a ring in order starts a trace at position 0 with nothing held; full_auth is taken only from a FULL
session with the shell bit. The first trigger of a trace is recorded with TB0 and put into each traced core's packets. A flush writes the packets a
core holds as a block, filled with PAD. The sync period gives each running traced core TIME and SYNC. When the delay after the trigger has passed
the trace writes STOP and what it holds, ends, and raises TRACE_STOPPED. -/
def Obligations.MillerTrace : Prop :=
  (∀ (s : State) (who : Requester) (value : Word),
    s.on F.TRC_CTRL_en = false → F.TRC_CTRL_full_auth.of value = 0 → s.capRingOk (s.reg R.TRC_RING) = true → s.capRingFree 4 (s.reg R.TRC_RING) = true →
    ∃ t, exec (.traceEnable who value) s = .next t ∧ t.get F.TRC_CTRL_en = 1 ∧ t.get F.TRC_CTRL_ctx_mask = F.TRC_CTRL_ctx_mask.of value ∧
      t.get F.TRC_CTRL_full_auth = 0 ∧ t.trace.auth = 0 ∧ t.get F.TRC_WPOS_blocks = 0 ∧ t.get F.TRC_STATUS_triggered = 0 ∧ t.get F.TRC_STATUS_stopped = 0 ∧
      t.get F.TRC_STATUS_wrapped = 0 ∧ (∀ k, k < 32 → t.trc k = { since := s.uptime } ∧ t.get (F.TRC_CORE_excluded k) = 0 ∧ t.get (F.TRC_CORE_en k) = s.get (F.TRC_CORE_en k)) ∧
      RegsBut ([R.TRC_CTRL, R.TRC_WPOS, R.TRC_STATUS] ++ (List.range 32).map R.TRC_CORE) s t ∧ { t with regs := s.regs, trace := s.trace } = s) ∧
  (∀ (s : State) (who : Requester) (port : Nat) (value : Word),
    s.on F.TRC_CTRL_en = true → F.TRC_CTRL_full_auth.of value = 1 → sessOf who = some port → 1 ≤ port → s.sessLevel port = 2 → (s.sessScope port).testBit 4 = true →
    ∃ t, exec (.traceEnable who value) s = .next t ∧ t.get F.TRC_CTRL_full_auth = 1 ∧ t.trace = { s.trace with auth := port } ∧ t.get F.TRC_CTRL_en = 1 ∧
      RegsBut [R.TRC_CTRL] s t ∧ { t with regs := s.regs, trace := s.trace } = s) ∧
  (∀ (s : State) (who : Requester) (value : Word),
    s.on F.TRC_CTRL_en = true → F.TRC_CTRL_full_auth.of value = 1 → sessOf who = none ∨ sessOf who = some 0 →
    ∃ t, exec (.traceEnable who value) s = .next t ∧ t.get F.TRC_CTRL_full_auth = s.get F.TRC_CTRL_full_auth ∧ RegsBut [R.TRC_CTRL] s t ∧ OnlyRegs s t) ∧
  (∀ (s : State) (who : Requester) (value : Word),
    s.on F.TRC_CTRL_en = false → F.TRC_CTRL_full_auth.of value = 0 → s.capRingOk (s.reg R.TRC_RING) = false ∨ s.capRingFree 4 (s.reg R.TRC_RING) = false →
    ∃ t, exec (.traceEnable who value) s = .next t ∧ t.get F.TRC_CTRL_en = 0 ∧ t.get F.TRC_STATUS_refused = 1 ∧ RegsBut [R.TRC_CTRL, R.TRC_STATUS] s t) ∧
  (∀ (s : State),
    s.on F.TRC_CTRL_en = true → s.on F.TRC_STATUS_triggered = false → s.get F.TRC_STOPDLY_cycles ≠ 0 →
    (∀ k, k ∈ s.tracedCores → (s.trc k).held = 0 ∧ (s.trc k).repeats = 0 ∧ (s.trc k).lost = 0 ∧ (s.trc k).buf.length < 256 ∧ s.trcDelta k ≤ 8191) →
    ∃ t, exec .traceSwTrigger s = .next t ∧ t.get F.TRC_STATUS_triggered = 1 ∧ t.get F.TRC_STATUS_trig_src = 3 ∧ t.get F.TRC_STATUS_trig_core = 0 ∧
      t.get64 R.TRC_TRIGREC_LO R.TRC_TRIGREC_HI = s.tb0 % 2 ^ 64 ∧
      (∀ k, k < 32 → (t.trc k).buf = (s.trc k).buf ++ if s.traced k then [k * 2 ^ 59 + 9 * 2 ^ 55 + s.trcDelta k * 2 ^ 42 + 3 * 2 ^ 40] else []) ∧
      RegsBut [R.TRC_STATUS, R.TRC_TRIGREC_LO, R.TRC_TRIGREC_HI] s t ∧ { t with regs := s.regs, trace := s.trace } = s) ∧
  (∀ (s : State), s.on F.TRC_CTRL_en = false ∨ s.on F.TRC_STATUS_triggered = true → exec .traceSwTrigger s = .next s) ∧
  (∀ (s : State) (k : Core),
    let buf := (s.trc k).buf
    let ch := s.trcRing.1
    let size := s.trcRing.2.2
    let a := s.trcRing.2.1 + 64 * (s.get F.TRC_WPOS_blocks % (size / 64))
    s.tracedCores = [k.val] → buf ≠ [] → buf.length ≤ 8 → s.race.lost = [] → s.cstate ch ≠ 7 → s.busBlocked ch a 7 = false →
    s.stageLocked ch a 64 = false →
    ∃ t, exec .traceFlush s = .next t ∧ t.trc k = { s.trc k with buf := [] } ∧
      t.dramRead ch a 64 = (buf ++ List.replicate (8 - buf.length) (2 ^ 64 - 1)).flatMap (natLe 8) ∧
      t.get F.TRC_WPOS_blocks = (s.get F.TRC_WPOS_blocks + 1) % 2 ^ F.TRC_WPOS_blocks.width ∧
      t.get F.TRC_PKTCNT_count = (s.get F.TRC_PKTCNT_count + buf.length) % 2 ^ F.TRC_PKTCNT_count.width ∧ (∀ j, j ≠ k.val → t.trc j = s.trc j) ∧
      RegsBut [R.TRC_WPOS, R.TRC_STATUS, R.TRC_PKTCNT, R.RACE_UNITS_LO, R.RACE_UNITS_HI, R.MPORT_PFDISC] s t ∧
      { t with regs := s.regs, trace := s.trace, dram := s.dram, race := s.race, free := s.free } = s) ∧
  (∀ (s : State) (k : Core),
    let buf := (s.trc k).buf
    let ch := s.trcRing.1
    let size := s.trcRing.2.2
    let a := s.trcRing.2.1 + 64 * (s.get F.TRC_WPOS_blocks % (size / 64))
    s.traced k = true → buf ≠ [] → buf.length ≤ 8 → s.race.lost = [] → s.cstate ch ≠ 7 → s.busBlocked ch a 7 = false →
    s.stageLocked ch a 64 = false →
    ∃ t, exec (.traceFlushTimeout k) s = .next t ∧ t.trc k = { s.trc k with buf := [] } ∧
      t.dramRead ch a 64 = (buf ++ List.replicate (8 - buf.length) (2 ^ 64 - 1)).flatMap (natLe 8) ∧
      t.get F.TRC_WPOS_blocks = (s.get F.TRC_WPOS_blocks + 1) % 2 ^ F.TRC_WPOS_blocks.width ∧
      t.get F.TRC_PKTCNT_count = (s.get F.TRC_PKTCNT_count + buf.length) % 2 ^ F.TRC_PKTCNT_count.width ∧ (∀ j, j ≠ k.val → t.trc j = s.trc j) ∧
      RegsBut [R.TRC_WPOS, R.TRC_STATUS, R.TRC_PKTCNT, R.RACE_UNITS_LO, R.RACE_UNITS_HI, R.MPORT_PFDISC] s t ∧
      { t with regs := s.regs, trace := s.trace, dram := s.dram, race := s.race, free := s.free } = s) ∧
  (∀ (s : State) (k : Core), s.traced k = false → exec (.traceFlushTimeout k) s = .next s) ∧
  (∀ (s : State),
    s.get F.TRC_SYNC_period ≠ 0 →
    (∀ k, k ∈ s.tracedCores → (s.trc k).stopped = none → (s.trc k).held = 0 ∧ (s.trc k).repeats = 0 ∧ (s.trc k).lost = 0 ∧ (s.trc k).buf.length < 255 ∧ (s.trc k).resync = false) →
    (∀ k, k ∈ s.tracedCores → ∀ c, s.trcCtx k = some c → s.trcSel c (s.miller k).machine = true) →
    ∃ t, exec .traceSyncPeriod s = .next t ∧
      (∀ k, k < 32 → (t.trc k).buf = (s.trc k).buf ++
        if s.traced k = true ∧ (s.trc k).stopped = none ∧ s.trcCtx k ≠ none then [k * 2 ^ 59 + 12 * 2 ^ 55 + s.tb0 % 2 ^ 55, k * 2 ^ 59 + s.trcPc k] else []) ∧
      RegsSame s t ∧ { t with regs := s.regs, trace := s.trace } = s) ∧
  (∀ (s : State), s.get F.TRC_SYNC_period = 0 → exec .traceSyncPeriod s = .next s) ∧
  (∀ (s : State) (k : Core),
    let x := s.trc k
    let buf := x.buf ++ [k.val * 2 ^ 59 + 14 * 2 ^ 55 + s.trcDelta k * 2 ^ 42]
    let ch := s.trcRing.1
    let size := s.trcRing.2.2
    let pos := (s.get F.TRC_WPOS_blocks + 1) % 2 ^ F.TRC_WPOS_blocks.width
    let a := s.trcRing.2.1 + 64 * (s.get F.TRC_WPOS_blocks % (size / 64))
    s.on F.TRC_STATUS_triggered = true → s.tracedCores = [k.val] → x.held = 0 → x.repeats = 0 → x.lost = 0 → x.buf.length ≤ 7 → s.trcDelta k ≤ 8191 →
    s.race.lost = [] → s.cstate ch ≠ 7 → s.busBlocked ch a 7 = false →
    s.stageLocked ch a 64 = false →
    ∃ t, exec .traceStopped s = .next t ∧ (t.trc k).buf = [] ∧
      t.dramRead ch a 64 = (buf ++ List.replicate (8 - buf.length) (2 ^ 64 - 1)).flatMap (natLe 8) ∧
      t.get F.TRC_CTRL_en = 0 ∧ t.get F.TRC_STATUS_stopped = 1 ∧ t.get F.TRC_LASTSTOP_blocks = pos ∧ t.get F.TRC_WPOS_blocks = pos ∧
      RaisedOne s t 0x9006 0xFF [pos, s.get F.TRC_STATUS_trig_src] ∧
      RegsBut ([R.TRC_CTRL, R.TRC_STATUS, R.TRC_LASTSTOP, R.TRC_WPOS, R.TRC_PKTCNT, R.RACE_UNITS_LO, R.RACE_UNITS_HI, R.MPORT_PFDISC] ++ evtRegs 0x9006 0xFF) s t ∧
      { t with regs := s.regs, trace := s.trace, dram := s.dram, race := s.race, free := s.free, evt := s.evt, mlipend := s.mlipend } = s) ∧
  (∀ (s : State), s.on F.TRC_CTRL_en = false ∨ s.on F.TRC_STATUS_triggered = false → exec .traceStopped s = .next s)

/-! ## Time -/

/-- R379, R380, R382, R383, R384, R385, R388, R389, R391: the first step of a base moves it by the offset, anchors it and raises TIME_ANCHORED; a later
one joins the slew still outstanding, or is refused beyond TB_JUMPTHR. A rate is taken, limited to ±500 ppm. A writer that R385 does not name
changes nothing. A slew that completes has moved its base by what was outstanding. A generator whose compare passes fires: its bit, its pulse, its
miller and its count; a one-shot stops. An edge on a capture input records its base's nanoseconds of two cycles before; one more before it is read
is an overrun. R392, R393: an event message the filter takes is stamped with TB0, corrected by the path's latency, and queued in its direction; one
of another domain is counted; a full queue loses the stamp only. A pop shows the oldest stamp of its direction, or that there is none. -/
def Obligations.TimeBasesAndStamps : Prop :=
  (∀ (s : State) (who : Requester) (k : Fin 3) (hi : Word),
    let raw := (s.reg (R.TBK_STEP_LO k)).toNat + 2 ^ 32 * hi.toNat
    s.tbAllowed who k = true → s.on (F.TBK_STATUS_anchored k) = false → (∀ g, g < 8 → s.on (F.TB_PGCFG_en.sel g) = false) →
    ∃ t, exec (.tbStepSubmit who k hi) s = .next t ∧
      (t.baseCount k : Int) = ((s.baseCount k : Int) + (BitVec.ofNat 64 raw).toInt * 2 ^ 32) % 2 ^ 96 ∧ (∀ j, j ≠ k.val → t.baseCount j = s.baseCount j) ∧
      t.get (F.TBK_STATUS_anchored k) = 1 ∧ t.reg (R.TBK_STEP_HI k) = hi ∧
      RaisedOne s t 0xA001 0xFF [if k.val = 0 then 0 else k.val + 1, raw % 2 ^ 32, raw / 2 ^ 32] ∧
      RegsBut ([R.TBK_STEP_HI k, R.TBK_STATUS k] ++ evtRegs 0xA001 0xFF) s t ∧
      { t with regs := s.regs, evt := s.evt, mlipend := s.mlipend, time := { t.time with ns := s.time.ns, frac := s.time.frac } } = s) ∧
  (∀ (s : State) (who : Requester) (k : Fin 3) (hi : Word),
    let off := (BitVec.ofNat 64 ((s.reg (R.TBK_STEP_LO k)).toNat + 2 ^ 32 * hi.toNat)).toInt
    s.tbAllowed who k = true → s.on (F.TBK_STATUS_anchored k) = true → s.get F.TB_JUMPTHR_us ≠ 0 →
    off.natAbs * 2 ^ 32 + (s.slewOf k).natAbs ≤ s.get F.TB_JUMPTHR_us * 1000 * 2 ^ 32 →
    ∃ t, exec (.tbStepSubmit who k hi) s = .next t ∧ t.slewOf k = s.slewOf k + off * 2 ^ 32 ∧ (∀ j, j ≠ k.val → t.slewOf j = s.slewOf j) ∧
      (∀ j, t.baseCount j = s.baseCount j) ∧ RegsBut [R.TBK_STEP_HI k] s t ∧ { t with regs := s.regs, time := { t.time with slew := s.time.slew } } = s) ∧
  (∀ (s : State) (who : Requester) (k : Fin 3) (hi : Word),
    let raw := (s.reg (R.TBK_STEP_LO k)).toNat + 2 ^ 32 * hi.toNat
    let off := (BitVec.ofNat 64 raw).toInt
    s.tbAllowed who k = true → s.on (F.TBK_STATUS_anchored k) = true →
    s.get F.TB_JUMPTHR_us = 0 ∨ s.get F.TB_JUMPTHR_us * 1000 * 2 ^ 32 < off.natAbs * 2 ^ 32 + (s.slewOf k).natAbs →
    ∃ t, exec (.tbStepSubmit who k hi) s = .next t ∧ RaisedOne s t 0xA002 0xFF [if k.val = 0 then 0 else k.val + 1, raw % 2 ^ 32, raw / 2 ^ 32] ∧ t.time = s.time ∧
      t.get F.TB_STATUS_refused = min (s.get F.TB_STATUS_refused + 1) (2 ^ F.TB_STATUS_refused.width - 1) ∧
      RegsBut ([R.TBK_STEP_HI k, R.TB_STATUS] ++ evtRegs 0xA002 0xFF) s t ∧ OnlyEvents s t) ∧
  (∀ (s : State) (who : Requester) (k : Fin 3) (hi : Word), s.tbAllowed who k = false → exec (.tbStepSubmit who k hi) s = .next s) ∧
  (∀ (s : State), s.on (F.TBK_CFG_source 0) = false → s.tbAllowed .host 0 = false ∧ s.tbAllowed .host 1 = true ∧ ∀ k, k < 3 → s.tbAllowed (.shell 0) k = true) ∧
  (∀ (s : State) (who : Requester) (k : Fin 3),
    s.tbAllowed who k = true →
    ∃ t, exec (.tbUnanchor who k) s = .next t ∧ t.get (F.TBK_STATUS_anchored k) = 0 ∧ RegsBut [R.TBK_STATUS k] s t ∧ OnlyRegs s t) ∧
  (∀ (s : State) (who : Requester) (k : Fin 3) (v : Word),
    s.tbAllowed who k = true → -549755814 ≤ v.toInt → v.toInt ≤ 549755814 →
    ∃ t, exec (.tbRateWrite who k v) s = .next t ∧ t.reg (R.TBK_RATE k) = v ∧ t.get (F.TBK_STATUS_clamped k) = 0 ∧
      RegsBut [R.TBK_RATE k, R.TBK_STATUS k] s t ∧ OnlyRegs s t) ∧
  (∀ (s : State) (who : Requester) (k : Fin 3) (v : Word),
    s.tbAllowed who k = true → v.toInt < -549755814 ∨ 549755814 < v.toInt →
    ∃ t, exec (.tbRateWrite who k v) s = .next t ∧ (t.reg (R.TBK_RATE k)).toInt = (if v.toInt < 0 then -549755814 else 549755814) ∧
      t.get (F.TBK_STATUS_clamped k) = 1 ∧ RegsBut [R.TBK_RATE k, R.TBK_STATUS k] s t ∧ OnlyRegs s t) ∧
  (∀ (s : State) (k : Fin 3),
    s.on (F.TBK_CFG_follow 1) = false → s.on (F.TBK_CFG_follow 2) = false →
    ∃ t, exec (.slewComplete k) s = .next t ∧ (t.baseCount k : Int) = ((s.baseCount k : Int) + s.slewOf k) % 2 ^ 96 ∧ t.slewOf k = 0 ∧
      (∀ j, j ≠ k.val → t.baseCount j = s.baseCount j ∧ t.slewOf j = s.slewOf j) ∧
      { t with time := { t.time with ns := s.time.ns, frac := s.time.frac, slew := s.time.slew } } = s) ∧
  (∀ (s : State) (g : Fin 8),
    let core := s.get (F.TB_PGCFG_core.sel g)
    let n := s.get (F.TB_PGCOUNT_count.sel g)
    let target := mget (fun _ => 0) s.time.next g
    let value := if s.get (F.TB_PGCFG_tb.sel g) = 3 then s.turns (s.get (F.TB_PGCFG_part.sel g)) else s.baseNs (s.get (F.TB_PGCFG_tb.sel g))
    s.on (F.TB_PGCFG_en.sel g) = true →
    (value + 2 ^ 64 - target % 2 ^ 64) % 2 ^ 64 < 2 ^ 63 →
    ∃ t, exec (.pgFire g) s = .next t ∧ t.bit F.TB_EVSTAT_pg_fired g = true ∧ t.time.pulse.testBit g = true ∧
      (s.on (F.TB_PGCFG_irq.sel g) = true → mget (fun _ => 0) t.mlipend core = mget (fun _ => 0) s.mlipend core ||| 8) ∧
      (s.on (F.TB_PGCFG_irq.sel g) = false → t.mlipend = s.mlipend) ∧ t.get (F.TB_PGCOUNT_count.sel g) = n - 1 ∧
      mget (fun _ => 0) t.time.next g = (target + s.pgPeriod g) % 2 ^ 64 ∧
      t.get (F.TB_PGCFG_en.sel g) = (if s.pgPeriod g = 0 ∨ n = 1 then 0 else 1) ∧
      RegsBut [R.TB_EVSTAT, selAddr R.TB_PGCOUNT g, selAddr R.TB_PGCFG g] s t ∧
      { t with regs := s.regs, mlipend := s.mlipend, time := { t.time with pulse := s.time.pulse, next := s.time.next } } = s) ∧
  (∀ (s : State) (g : Fin 8),
    s.on (F.TB_PGCFG_en.sel g) = false ∨ s.pgPeriod g = 0 ∨ s.get (F.TB_PGCFG_tb.sel g) = 3 ∨ max 1 (s.get (F.TB_PGCFG_width.sel g)) * 100 < s.pgPeriod g →
    ∃ t, exec (.pulseWidthEnd g) s = .next t ∧ t.time.pulse.testBit g = false ∧
      (∀ j, j < 8 → j ≠ g.val → t.time.pulse.testBit j = s.time.pulse.testBit j) ∧ { t with time := { t.time with pulse := s.time.pulse } } = s) ∧
  (∀ (s : State) (i : Fin 8) (rising : Bool),
    let cfg := s.get F.TB_CAPCFG_inputs / 16 ^ i.val % 16
    s.tcapPin i = true → cfg / 4 ≠ 3 → (cfg % 4).testBit (if rising then 0 else 1) = true → s.bit F.TB_EVSTAT_captured i = false →
    ∃ t, exec (.tcapEdge i rising) s = .next t ∧ t.bit F.TB_EVSTAT_captured i = true ∧
      (t.get64 (R.TB_CAP_LO i) (R.TB_CAP_HI i) : Int) = ((s.baseCount (cfg / 4) : Int) - 5 * 2 ^ 31) % 2 ^ 96 / 2 ^ 32 ∧
      RegsBut [R.TB_EVSTAT, R.TB_CAP_LO i, R.TB_CAP_HI i] s t ∧ { t with regs := s.regs, time := { t.time with overran := s.time.overran } } = s) ∧
  (∀ (s : State) (i : Fin 8) (rising : Bool),
    let cfg := s.get F.TB_CAPCFG_inputs / 16 ^ i.val % 16
    s.tcapPin i = true → cfg / 4 ≠ 3 → (cfg % 4).testBit (if rising then 0 else 1) = true → s.bit F.TB_EVSTAT_captured i = true → s.time.overran.testBit i = false →
    ∃ t, exec (.tcapEdge i rising) s = .next t ∧ t.bit F.TB_EVSTAT_cap_overrun i = true ∧ RaisedOne s t 0xA003 0xFF [i] ∧ t.time.overran.testBit i = true ∧
      RegsBut (R.TB_EVSTAT :: evtRegs 0xA003 0xFF) s t ∧
      { t with regs := s.regs, evt := s.evt, mlipend := s.mlipend, time := { t.time with overran := s.time.overran } } = s) ∧
  (∀ (s : State) (i : Fin 8) (rising : Bool),
    (s.get F.TB_CAPCFG_inputs / 16 ^ i.val % 4).testBit (if rising then 0 else 1) = false ∨ s.get F.TB_CAPCFG_inputs / 16 ^ i.val % 16 / 4 = 3 ∨ s.tcapPin i = false → exec (.tcapEdge i rising) s = .next s) ∧
  (∀ (s : State) (m : PtpMsg),
    let at_ := (((s.baseCount 0 : Int) - (s.get F.PTP_RXLAT_ps * 2 ^ 32 / 1000 : Nat)) % 2 ^ 96).toNat
    let e : PtpStamp := ⟨at_, BitVec.ofNat 32 (m.mtype.val * 2 ^ 28 + m.domain.toNat * 2 ^ 20 + m.seq.toNat), m.clockId, m.port⟩
    s.on F.PTP_CTRL_en = true → s.on F.PTP_CTRL_ts_rx_en = true → s.bit F.PTP_FILTER_transports (2 - m.transport.val) = true →
    s.on F.PTP_FILTER_any_domain = true ∨ s.get F.PTP_FILTER_domain = m.domain.toNat → s.time.rx.length < 64 →
    ∃ t, exec (.ptpRxEventMessage m) s = .next t ∧ t.time = { s.time with rx := s.time.rx ++ [e] } ∧
      t.get F.PTP_RXEVENTS_count = min (s.get F.PTP_RXEVENTS_count + 1) (2 ^ F.PTP_RXEVENTS_count.width - 1) ∧
      t.get F.PTP_RXFRAMES_count = min (s.get F.PTP_RXFRAMES_count + 1) (2 ^ F.PTP_RXFRAMES_count.width - 1) ∧
      (m.mtype.val = 0 → t.get64 R.PTP_LASTSYNC_LO R.PTP_LASTSYNC_HI = at_ / 2 ^ 32 ∧
        t.get F.PTP_RXSYNC_count = min (s.get F.PTP_RXSYNC_count + 1) (2 ^ F.PTP_RXSYNC_count.width - 1)) ∧
      RegsBut [R.PTP_RXFRAMES, R.PTP_RXEVENTS, R.PTP_LASTSYNC_LO, R.PTP_LASTSYNC_HI, R.PTP_RXSYNC] s t ∧ { t with regs := s.regs, time := s.time } = s) ∧
  (∀ (s : State) (m : PtpMsg),
    let at_ := (((s.baseCount 0 : Int) + (s.get F.PTP_TXLAT_ps * 2 ^ 32 / 1000 : Nat)) % 2 ^ 96).toNat
    let e : PtpStamp := ⟨at_, BitVec.ofNat 32 (m.mtype.val * 2 ^ 28 + m.domain.toNat * 2 ^ 20 + m.seq.toNat), m.clockId, m.port⟩
    s.on F.PTP_CTRL_en = true → s.on F.PTP_CTRL_ts_tx_en = true → s.bit F.PTP_FILTER_transports (2 - m.transport.val) = true →
    s.on F.PTP_FILTER_any_domain = true ∨ s.get F.PTP_FILTER_domain = m.domain.toNat → s.time.tx.length < 64 →
    ∃ t, exec (.ptpTxEventMessage m) s = .next t ∧ t.time = { s.time with tx := s.time.tx ++ [e] } ∧
      t.get F.PTP_TXEVENTS_count = min (s.get F.PTP_TXEVENTS_count + 1) (2 ^ F.PTP_TXEVENTS_count.width - 1) ∧
      RegsBut [R.PTP_TXFRAMES, R.PTP_TXEVENTS, R.PTP_LASTSYNC_LO, R.PTP_LASTSYNC_HI] s t ∧ { t with regs := s.regs, time := s.time } = s) ∧
  (∀ (s : State) (m : PtpMsg),
    s.on F.PTP_CTRL_en = true → s.on F.PTP_CTRL_ts_rx_en = true → s.bit F.PTP_FILTER_transports (2 - m.transport.val) = true →
    s.on F.PTP_FILTER_any_domain = false → s.get F.PTP_FILTER_domain ≠ m.domain.toNat →
    ∃ t, exec (.ptpRxEventMessage m) s = .next t ∧ t.get F.PTP_DOMAINDROP_count = min (s.get F.PTP_DOMAINDROP_count + 1) (2 ^ F.PTP_DOMAINDROP_count.width - 1) ∧
      RegsBut [R.PTP_RXFRAMES, R.PTP_DOMAINDROP] s t ∧ OnlyRegs s t) ∧
  (∀ (s : State) (m : PtpMsg),
    s.on F.PTP_CTRL_en = true → s.on F.PTP_CTRL_ts_rx_en = true → s.bit F.PTP_FILTER_transports (2 - m.transport.val) = true →
    s.on F.PTP_FILTER_any_domain = true → 64 ≤ s.time.rx.length →
    ∃ t, exec (.ptpRxEventMessage m) s = .next t ∧ t.get F.PTP_TSLOST_count = min (s.get F.PTP_TSLOST_count + 1) (2 ^ F.PTP_TSLOST_count.width - 1) ∧
      t.time = s.time ∧ OnlyRegs s t) ∧
  (∀ (s : State) (dir : Bool) (e : PtpStamp) (rest : List PtpStamp),
    (if dir then s.time.tx else s.time.rx) = e :: rest →
    ∃ t, exec (.ptpTspop dir) s = .next t ∧ t.get F.PTP_TSPOP_valid = 1 ∧ t.get F.PTP_TSPOP_dir = (if dir then 1 else 0) ∧
      t.get64 R.PTP_TS_NS_LO R.PTP_TS_NS_HI = e.at_ / 2 ^ 32 % 2 ^ 64 ∧ (t.reg R.PTP_TS_FRAC).toNat = e.at_ % 2 ^ 32 ∧ t.reg R.PTP_TS_ID = e.id ∧
      t.get64 R.PTP_TS_SRC0 R.PTP_TS_SRC1 = e.clockId.toNat ∧ t.get F.PTP_TS_SRC2_port_num = e.port.toNat ∧
      t.time = (if dir then { s.time with tx := rest } else { s.time with rx := rest }) ∧
      RegsBut [R.PTP_TSPOP, R.PTP_TS_NS_LO, R.PTP_TS_NS_HI, R.PTP_TS_FRAC, R.PTP_TS_ID, R.PTP_TS_SRC0, R.PTP_TS_SRC1, R.PTP_TS_SRC2] s t ∧
      { t with regs := s.regs, time := s.time } = s) ∧
  (∀ (s : State) (dir : Bool),
    (if dir then s.time.tx else s.time.rx) = [] →
    ∃ t, exec (.ptpTspop dir) s = .next t ∧ t.get F.PTP_TSPOP_valid = 0 ∧ RegsBut [R.PTP_TSPOP] s t ∧ OnlyRegs s t)

/-! ## Pins -/

/-- R420, R421, R422, R423, R425, R426, R430: a writer of a pin changes its fields, a change of function running the sequence, in which a keeper holds
the level last driven and further writes wait; others are refused and counted, the owner field being a shell writer's. A masked write of OUT or OE
changes the bits of its mask. An edge a pin selects sets its flag. A bank is enabled only while its supply reads as declared, and not disabled under
a partition. A target I/O pin of a partition that is not EMPTY is frozen. -/
def Obligations.Pins : Prop :=
  (∀ (s : State) (who : Requester) (n : Fin 48) (v : Word),
    let f := v.toNat % 16
    s.shellWriter who = true → v.toNat / 2 ^ 24 % 8 < 6 → funcOk n f = true → f ≠ s.get (F.GPIO_PIN_func n) → s.pinSeq n = 0 →
    ∃ t, exec (.pinFunctionChange who n v) s = .next t ∧ t.reg (R.GPIO_PIN n) = s.reg (R.GPIO_PIN n) &&& ~~~0xFF3FF00F ||| v &&& 0xFF3FF00F ∧ t.pinSeq n = 4 ∧
      mget (fun _ => none) t.pins.keep n = s.gpioDrive n ∧ (∀ k, k ≠ n.val → t.pinSeq k = s.pinSeq k ∧ mget (fun _ => none) t.pins.keep k = mget (fun _ => none) s.pins.keep k) ∧
      RegsBut [R.GPIO_PIN n] s t ∧ { t with regs := s.regs, pins := { t.pins with seq := s.pins.seq, keep := s.pins.keep } } = s) ∧
  (∀ (s : State) (who : Requester) (n : Fin 48) (v : Word),
    s.shellWriter who = true → v.toNat / 2 ^ 24 % 8 < 6 → v.toNat % 16 = s.get (F.GPIO_PIN_func n) → funcOk n (v.toNat % 16) = true → s.pinSeq n = 0 →
    ∃ t, exec (.pinFunctionChange who n v) s = .next t ∧ t.reg (R.GPIO_PIN n) = s.reg (R.GPIO_PIN n) &&& ~~~0xFF3FF00F ||| v &&& 0xFF3FF00F ∧
      RegsBut [R.GPIO_PIN n] s t ∧ OnlyRegs s t) ∧
  (∀ (s : State) (who : Requester) (n : Fin 48) (v : Word),
    s.pinSeq n = 0 → s.shellWriter who = false → v.toNat / 2 ^ 24 % 8 < 6 → v.toNat / 2 ^ 24 ≠ (s.reg (R.GPIO_PIN n)).toNat / 2 ^ 24 →
    ∃ t, exec (.pinFunctionChange who n v) s = .next t ∧ t.get F.GPIO_DENY_owner = min (s.get F.GPIO_DENY_owner + 1) (2 ^ F.GPIO_DENY_owner.width - 1) ∧
      t.get F.GPIO_DENY_pin = s.get F.GPIO_DENY_pin ∧ RegsBut [R.GPIO_DENY] s t ∧ OnlyRegs s t) ∧
  (∀ (s : State) (who : Requester) (n : Fin 48) (v : Word),
    s.pinSeq n = 0 → v.toNat / 2 ^ 24 % 8 < 6 → s.shellWriter who = true ∨ v.toNat / 2 ^ 24 = (s.reg (R.GPIO_PIN n)).toNat / 2 ^ 24 →
    s.gpioWriter who n = false ∨ 10 ≤ v.toNat % 16 →
    ∃ t, exec (.pinFunctionChange who n v) s = .next t ∧ t.get F.GPIO_DENY_pin = min (s.get F.GPIO_DENY_pin + 1) (2 ^ F.GPIO_DENY_pin.width - 1) ∧
      t.get F.GPIO_DENY_owner = s.get F.GPIO_DENY_owner ∧ RegsBut [R.GPIO_DENY] s t ∧ OnlyRegs s t) ∧
  (∀ (s : State) (who : Requester) (n : Fin 48) (v : Word),
    s.pinSeq n ≠ 0 →
    exec (.pinFunctionChange who n v) s = .next { s with pins := { s.pins with later := s.pins.later ++ [⟨who, 0, n, v⟩] } }) ∧
  (∀ (s : State) (who : Requester) (oe : Bool) (g : Fin 3) (mask value : BitVec 16),
    (∀ j, j < 16 → mask.getLsbD j = true → s.gpioWriter who (16 * g + j) = true ∧ s.pinSeq (16 * g + j) = 0) →
    ∃ t, exec (.gpioOutWrite who oe g mask value) s = .next t ∧
      (∀ j, j < 16 → t.bit (if oe then F.GPIO_OE_value g else F.GPIO_OUT_value g) j =
        if mask.getLsbD j then value.getLsbD j else s.bit (if oe then F.GPIO_OE_value g else F.GPIO_OUT_value g) j) ∧
      RegsBut [if oe then R.GPIO_OE g else R.GPIO_OUT g] s t ∧ OnlyRegs s t) ∧
  (∀ (s : State) (who : Requester) (oe : Bool) (g : Fin 3) (j : Fin 16) (value : BitVec 16),
    s.gpioWriter who (16 * g + j) = false → s.pinSeq (16 * g + j) = 0 →
    ∃ t, exec (.gpioOutWrite who oe g (BitVec.twoPow 16 j) value) s = .next t ∧
      t.get F.GPIO_DENY_pin = min (s.get F.GPIO_DENY_pin + 1) (2 ^ F.GPIO_DENY_pin.width - 1) ∧ RegsBut [R.GPIO_DENY] s t ∧ OnlyRegs s t) ∧
  (∀ (s : State) (n : Fin 48) (rising : Bool),
    let flag := if n.val < 32 then F.GPIO_EDGE0_flag else F.GPIO_EDGE1_flag
    let v := (s.gpioDrive n).getD rising
    let hit := mget padDefault s.pins.seen n != v && (s.get (F.GPIO_PIN_edge n)).testBit (if v then 0 else 1)
    ∃ t, exec (.gpioEdge n rising) s = .next t ∧ mget padDefault t.pins.pad n = rising ∧ mget padDefault t.pins.seen n = v ∧ (∀ k, k ≠ n.val → mget padDefault t.pins.pad k = mget padDefault s.pins.pad k) ∧
      t.bit flag (n % 32) = (s.bit flag (n % 32) || hit) ∧ (∀ k, k ≠ n.val → mget padDefault t.pins.seen k = mget padDefault s.pins.seen k) ∧
      RegsBut [flag.addr] s t ∧ { t with regs := s.regs, pins := { t.pins with pad := s.pins.pad, seen := s.pins.seen } } = s) ∧
  (∀ (s : State) (b : Fin 5) (v : Word),
    let volt := v.toNat / 2 ^ 28 % 4
    let mv := s.get (F.SENS_VMON_mv (10 + b))
    let want := if volt = 0 then 1200 else if volt = 1 then 1800 else 3300
    s.on (F.TIO_BANK_en b) = false → v.getLsbD 31 = true → volt ≠ 3 →
    want ≤ mv + want * s.get F.SENS_VTOL_permille / 1000 → mv ≤ want + want * s.get F.SENS_VTOL_permille / 1000 →
    ∃ t, exec (.tioBankEnable b v) s = .next t ∧ t.get (F.TIO_BANK_en b) = 1 ∧ t.get (F.TIO_BANK_volt b) = volt ∧ RegsBut [R.TIO_BANK b] s t ∧ OnlyRegs s t) ∧
  (∀ (s : State) (b : Fin 5) (v : Word),
    let volt := v.toNat / 2 ^ 28 % 4
    let mv := s.get (F.SENS_VMON_mv (10 + b))
    let want := if volt = 0 then 1200 else if volt = 1 then 1800 else 3300
    s.on (F.TIO_BANK_en b) = false → v.getLsbD 31 = true → volt ≠ 3 → s.get F.SENS_VTOL_permille ≠ 0 → s.on F.TIO_ERR_flag = false →
    mv + want * s.get F.SENS_VTOL_permille / 1000 < want ∨ want + want * s.get F.SENS_VTOL_permille / 1000 < mv →
    ∃ t, exec (.tioBankEnable b v) s = .next t ∧ t.get (F.TIO_BANK_en b) = 0 ∧ t.get F.TIO_ERR_flag = 1 ∧ t.get F.TIO_ERR_kind = 1 ∧ t.get F.TIO_ERR_unit = b.val ∧
      RegsBut [R.TIO_BANK b, R.TIO_ERR] s t ∧ OnlyRegs s t) ∧
  (∀ (s : State) (b : Fin 5) (v : Word),
    s.on (F.TIO_BANK_en b) = true → v.getLsbD 31 = false → v.toNat / 2 ^ 28 % 4 ≠ 3 →
    (∀ j, j < 32 → s.tioOwner (32 * b + j) = 0 ∨ s.pstate (s.tioOwner (32 * b + j) - 1) = 0) →
    ∃ t, exec (.tioBankEnable b v) s = .next t ∧ t.get (F.TIO_BANK_en b) = 0 ∧ t.get (F.TIO_BANK_volt b) = s.get (F.TIO_BANK_volt b) ∧
      RegsBut [R.TIO_BANK b] s t ∧ OnlyRegs s t) ∧
  (∀ (s : State) (who : Requester) (p : Fin 160) (v : Word),
    let a := selAddr R.TIO_PINCFG p
    let old := s.tioMode p
    s.shellWriter who = true → s.pinSeq (64 + p) = 0 → v.toNat / 2 ^ 28 % 8 < 5 → s.tioOwner p = 0 ∨ s.pstate (s.tioOwner p - 1) = 0 →
    v.toNat / 2 ^ 26 % 4 = old ∨ (old ≠ 1 ∧ old ≠ 2) →
    ∃ t, exec (.tioModeChange who p v) s = .next t ∧ t.reg a = s.reg a &&& ~~~0x7FFC0000 ||| v &&& 0x7FFC0000 ∧ RegsBut [a] s t ∧ OnlyRegs s t) ∧
  (∀ (s : State) (who : Requester) (p : Fin 160) (v : Word),
    let a := selAddr R.TIO_PINCFG p
    s.shellWriter who = true → s.pinSeq (64 + p) = 0 → v.toNat / 2 ^ 28 % 8 < 5 → s.tioOwner p = 0 ∨ s.pstate (s.tioOwner p - 1) = 0 →
    v.toNat / 2 ^ 26 % 4 ≠ s.tioMode p → s.tioMode p = 1 ∨ s.tioMode p = 2 →
    ∃ t, exec (.tioModeChange who p v) s = .next t ∧ t.reg a = s.reg a &&& ~~~0x7FFC0000 ||| v &&& 0x7FFC0000 ∧ t.pinSeq (64 + p) = 4 ∧
      mget (fun _ => none) t.pins.keep (64 + p) = s.tioDrive p ∧ RegsBut [a] s t ∧
      { t with regs := s.regs, pins := { t.pins with seq := s.pins.seq, keep := s.pins.keep } } = s) ∧
  (∀ (s : State) (who : Requester) (p : Fin 160) (v : Word),
    s.pinSeq (64 + p) = 0 → v.toNat / 2 ^ 28 % 8 < 5 → s.tioOwner p ≠ 0 → s.pstate (s.tioOwner p - 1) ≠ 0 →
    v.toNat / 2 ^ 24 % 128 ≠ (s.reg (selAddr R.TIO_PINCFG p)).toNat / 2 ^ 24 % 128 →
    ∃ t, exec (.tioModeChange who p v) s = .next t ∧ t.get F.TIO_DENY_frozen = min (s.get F.TIO_DENY_frozen + 1) (2 ^ F.TIO_DENY_frozen.width - 1) ∧
      t.get F.TIO_DENY_other = s.get F.TIO_DENY_other ∧ RegsBut [R.TIO_DENY] s t ∧ OnlyRegs s t)

/-! ## Events and registers -/

/-- R452: machine-mode code puts data into EVT_RDATA0 to EVT_RDATA5 and a write of EVT_RAISE that names a code of the table which is not status only
raises that code with them; any other write, of another writer or another code, changes nothing but EVT_RAISEDENY, which counts it. -/
def Obligations.RaiseByFirmware : Prop :=
  (∀ (s : State) (k : Core) (j : Fin 6) (v : Word) (env : RegEnv),
    ∃ t, exec (.registerWrite (.shell k) (BitVec.ofNat 26 (R.EVT_RDATA j)) v env) s = .next t ∧ t.reg (R.EVT_RDATA j) = v ∧
      RegsBut [R.EVT_RDATA j] s t ∧ OnlyRegs s t) ∧
  (∀ (s : State) (who : Requester) (v : Word) (env : RegEnv),
    who = .host ∨ isShell who = true → exec (.registerWrite who (BitVec.ofNat 26 R.EVT_RAISE) v env) s = exec (.evtRaise who v) s) ∧
  (∀ (s : State) (k : Core) (v : Word),
    let code := v.toNat % 65536
    let part := v.toNat / 65536 % 256
    code ∈ eventCodes → code ∉ statusOnly →
    ∃ t, exec (.evtRaise (.shell k) v) s = .next t ∧ RaisedOne s t code part ((List.range 6).map (fun j => (s.reg (R.EVT_RDATA j)).toNat)) ∧
      t.reg R.EVT_RAISEDENY = s.reg R.EVT_RAISEDENY ∧ RegsBut (evtRegs code part) s t ∧ OnlyEvents s t) ∧
  (∀ (s : State) (who : Requester) (v : Word),
    (∀ k, who ≠ .shell k) ∨ v.toNat % 65536 ∉ eventCodes ∨ v.toNat % 65536 ∈ statusOnly →
    ∃ t, exec (.evtRaise who v) s = .next t ∧ t.get F.EVT_RAISEDENY_count = min (s.get F.EVT_RAISEDENY_count + 1) (2 ^ 32 - 1) ∧
      RegsBut [R.EVT_RAISEDENY] s t ∧ OnlyRegs s t)

/-- R450, R454, R455, R278, R279, R301: a raised event forms a record that carries TB0 and, for a partition, its turn count; its class, its partition
and its code are counted, the first of class 1 or above is shown in EVT_FIRST until that is cleared, the cores that take events are interrupted, and
the record joins the queue of the ring unless it is masked, where it is counted, or the queue is full, where it is lost. -/
def Obligations.EventRecords : Prop :=
  ∀ (s : State) (code part : Nat) (data : List Nat),
    let cls := code / 0x1000
    let t := s.raise code part data
    let r : EvRec := { code := code, part := part, anchored := s.on (F.TBK_STATUS_anchored 0), tb0 := s.tb0, tb1 := if part < 4 then s.turns part else 0,
                       data := (data ++ [0, 0, 0, 0, 0, 0]).take 6, num := (s.get F.EVT_RAISED_count + 1) % 2 ^ 32 }
    let hit := (List.range 32).filter (fun k => s.on (F.MLR_CTRL_events k))
    cls < 12 → code < 65536 → part < 256 →
    RaisedOne s t code part data ∧ RegsBut (evtRegs code part) s t ∧ OnlyEvents s t ∧
    t.get (F.EVT_CLASSCNT_count cls) = min (s.get (F.EVT_CLASSCNT_count cls) + 1) (2 ^ 32 - 1) ∧
    (part < 4 → t.get (F.EVT_PARTCNT_count part) = min (s.get (F.EVT_PARTCNT_count part) + 1) (2 ^ 32 - 1)) ∧
    (4 ≤ part → t.get F.EVT_DEVCNT_count = min (s.get F.EVT_DEVCNT_count + 1) (2 ^ 32 - 1)) ∧
    mget (fun _ => 0) t.evt.codeCnt code = min (mget (fun _ => 0) s.evt.codeCnt code + 1) 0xFFFFFFFF ∧
    (∀ c, c ≠ code → mget (fun _ => 0) t.evt.codeCnt c = mget (fun _ => 0) s.evt.codeCnt c) ∧
    (s.on F.EVT_CTRL_hist_freeze = true → t.evt.hist = s.evt.hist) ∧ (s.on F.EVT_CTRL_hist_freeze = false → t.evt.hist = (r :: s.evt.hist).take 64) ∧
    (1 ≤ cls → s.get F.EVT_FIRST_flag = 0 →
      (t.reg R.EVT_FIRST).toNat = 0x80000000 + part * 0x10000 + code ∧ t.get64 R.EVT_FIRSTTB_LO R.EVT_FIRSTTB_HI = s.tb0 % 2 ^ 64) ∧
    (cls = 0 ∨ s.get F.EVT_FIRST_flag = 1 → t.reg R.EVT_FIRST = s.reg R.EVT_FIRST) ∧
    (s.bit F.EVT_MASK_classes cls = true → t.evt.queue = s.evt.queue ∧ t.get F.EVT_MASKED_count = min (s.get F.EVT_MASKED_count + 1) (2 ^ 32 - 1)) ∧
    (s.bit F.EVT_MASK_classes cls = false → s.evt.queue.length < 512 → t.evt.queue = s.evt.queue ++ [r] ∧ t.evt.lost = s.evt.lost) ∧
    (s.bit F.EVT_MASK_classes cls = false → 512 ≤ s.evt.queue.length → t.evt.queue = s.evt.queue ∧ t.evt.lost = s.evt.lost + 1 ∧
      t.get F.RING_EVLOST_count = min (s.get F.RING_EVLOST_count + 1) (2 ^ F.RING_EVLOST_count.width - 1)) ∧
    (∀ k, mget (fun _ => 0) t.mlipend k =
      if s.bit F.EVT_MLRMASK_classes cls = true ∧ k ∈ hit then mget (fun _ => 0) s.mlipend k ||| 4 else mget (fun _ => 0) s.mlipend k) ∧
    (s.bit F.EVT_MLRMASK_classes cls = true → hit ≠ [] → t.get F.EVT_MLRCNT_count = min (s.get F.EVT_MLRCNT_count + 1) (2 ^ 32 - 1))

/-- R445: an offset that no register holds, or that lies in an instance this part lacks, reads 0 and takes no write: nothing but the word read, and what
a later read of a _HI register returns, can differ. -/
def Obligations.AbsentRegisters : Prop :=
  (∀ (s : State) (who : Requester) (a : BitVec 26) (env : RegEnv),
    who = .host ∨ (isShell who = true ∧ inDbg a.toNat = false) →
    (locateReg a.toNat = none ∧ s.msixRead a.toNat = none) ∨ (s.regAbsent a.toNat = true ∧ inDbg a.toNat = false) → s.held false a.toNat = none →
    ∃ t, exec (.registerRead who a env) s = .next t ∧ t.readData = 0 ∧
      { t with readData := s.readData, dbg := { t.dbg with hold := s.dbg.hold } } = s) ∧
  (∀ (s : State) (who : Requester) (a : BitVec 26) (v : Word) (env : RegEnv),
    who = .host ∨ (isShell who = true ∧ inDbg a.toNat = false) →
    (locateReg a.toNat = none ∧ s.msixRead a.toNat = none) ∨ (s.regAbsent a.toNat = true ∧ inDbg a.toNat = false) →
    exec (.registerWrite who a v env) s = .next s)

/-- R81: a read of a _LO register copies the matching _HI register into the reader's holding register, and the next read of the _HI register returns the
copy, whatever it holds by then; a debugger's holding registers are others than the driver's, so neither disturbs the other. -/
def Obligations.HoldingRegisters : Prop :=
  (∀ (s : State) (who : Requester) (a : BitVec 26) (env : RegEnv),
    who = .host ∨ isShell who = true → a.toNat ∈ loRegs → inDbg a.toNat = false → s.held false a.toNat = none →
    ∃ t, exec (.registerRead who a env) s = .next t ∧ t.readData = s.peekReg 0 a.toNat env.sampled ∧
      t.held false (a.toNat + 4) = some (s.peekReg 0 (a.toNat + 4) env.sampled) ∧ (∀ b, t.held true b = s.held true b) ∧ RegsSame s t ∧
      { t with readData := s.readData, dbg := { t.dbg with hold := s.dbg.hold } } = s) ∧
  (∀ (s : State) (who : Requester) (a : BitVec 26) (w : Word) (env : RegEnv),
    who = .host ∨ isShell who = true → inAuth a.toNat = false → inDbg a.toNat = false → s.held false a.toNat = some w →
    ∃ t, exec (.registerRead who a env) s = .next t ∧ t.readData = w ∧ t.held false a.toNat = none ∧
      (∀ b, b ≠ a.toNat → b / 2 ^ 28 = 0 → t.held false b = s.held false b) ∧ (∀ b, b / 2 ^ 28 = 0 → t.held true b = s.held true b) ∧ RegsSame s t) ∧
  (∀ (s : State) (who : Requester) (port : Nat) (x : Word),
    let a := s.raddr
    s.dbgPort who = some port → 1 ≤ s.sessLevel port → s.inScope port (s.regScope a) = true → readClears a = false →
    a ∈ loRegs → a ∉ coreRegs → a ≠ R.DBG_SRDATA_LO → s.held true a = none →
    ∃ t, exec (.dbgRdataRead who x) s = .next t ∧ t.readData = s.peekReg port a x ∧ t.held true (a + 4) = some (s.peekReg port (a + 4) x) ∧
      (∀ b, b / 2 ^ 28 = 0 → t.held false b = s.held false b) ∧ RegsSame s t)

/-- R10, R80, R82, R279, R325, R326, R421: a write through BAR0 takes the writable bits of a register and clears or sets those that writing 1 clears or
sets; a read shows a register but for its write-only bits, and RING_EVLOST is cleared by the read that returns it. The host reads 0 from the AUTH
and DBG blocks and writes nothing there; a handler reaches no register, and a debug port outside these blocks none by itself. -/
def Obligations.RegisterAccess : Prop :=
  (∀ (s : State) (p : Part) (v : Word) (env : RegEnv),
    s.partExists p = true → v.getLsbD 31 = false →
    ∃ t, exec (.registerWrite .host (BitVec.ofNat 26 (R.TURN_CTRL p)) v env) s = .next t ∧ t.get (F.TURN_CTRL_brake_limit p) = v.toNat % 65536 ∧
      RegsBut [R.TURN_CTRL p] s t ∧ OnlyRegs s t) ∧
  (∀ (s : State) (a : BitVec 26) (r : RegRow) (b c : Nat) (v : Word) (env : RegEnv),
    locateReg a.toNat = some (r, b, c) → a.toNat / 0x10000 = 5 → a.toNat ≠ R.SENS_CTRL → a.toNat ≠ R.SENS_LIMITS →
    ∃ t, exec (.registerWrite .host a v env) s = .next t ∧
      (∀ j, j < 32 → (t.reg a.toNat).getLsbD j =
        (if r.w1s.testBit j && v.getLsbD j then true else if r.w1c.testBit j && v.getLsbD j then false
         else if r.rw.testBit j || r.wo.testBit j then v.getLsbD j else (s.reg a.toNat).getLsbD j)) ∧
      RegsBut [a.toNat] s t ∧ OnlyRegs s t) ∧
  (∀ (s : State) (a : BitVec 26) (r : RegRow) (b c : Nat) (env : RegEnv),
    locateReg a.toNat = some (r, b, c) → a.toNat / 0x10000 = 5 → a.toNat < R.SENS_VMON 0 ∨ R.SENS_VMON 16 ≤ a.toNat → s.held false a.toNat = none →
    ∃ t, exec (.registerRead .host a env) s = .next t ∧ t.readData = s.reg a.toNat &&& ~~~(BitVec.ofNat 32 r.wo) ∧ { t with readData := s.readData } = s) ∧
  (∀ (s : State) (n : Fin 16) (env : RegEnv),
    s.held false (R.SENS_VMON n) = none →
    ∃ t, exec (.registerRead .host (BitVec.ofNat 26 (R.SENS_VMON n)) env) s = .next t ∧ (F.SENS_VMON_mv n).of t.readData = s.get (F.SENS_VMON_mv n) ∧
      (F.SENS_VMON_target n).of t.readData = s.vmonTarget n % 2 ^ (F.SENS_VMON_target n).width ∧ { t with readData := s.readData } = s) ∧
  (∀ (s : State) (env : RegEnv),
    s.held false R.RING_EVLOST = none →
    ∃ t, exec (.registerRead .host (BitVec.ofNat 26 R.RING_EVLOST) env) s = .next t ∧ t.readData = s.reg R.RING_EVLOST ∧ t.reg R.RING_EVLOST = 0 ∧
      RegsBut [R.RING_EVLOST] s t ∧ { t with regs := s.regs, readData := s.readData } = s) ∧
  (∀ (s : State) (a : BitVec 26) (v : Word) (env : RegEnv),
    inAuth a.toNat = true ∨ inDbg a.toNat = true →
    exec (.registerWrite .host a v env) s = .next s ∧ exec (.registerRead .host a env) s = .next { s with readData := 0 }) ∧
  (∀ (s : State) (k : Core) (a : BitVec 26) (v : Word) (env : RegEnv),
    exec (.registerWrite (.handler k) a v env) s = .next s ∧ exec (.registerRead (.handler k) a env) s = .next { s with readData := 0 }) ∧
  (∀ (s : State) (a : BitVec 26) (v : Word) (env : RegEnv),
    inAuth a.toNat = false → inDbg a.toNat = false → 0x28 ≤ a.toNat →
    exec (.registerWrite .jtag a v env) s = .next s ∧ exec (.registerRead .jtag a env) s = .next { s with readData := 0 })

/-! ## The block -/

/-- The model's choice (log entry 6): a step takes the command at the front of the queue and runs it with the rest of the queue. -/
def Obligations.StepRunsFront : Prop :=
  ∀ (c : Instr) (s : State) (rest : List Instr), step { s with pending := c :: rest } = exec c { s with pending := rest }

/-- The model's choice (log entry 6), with R380: with no command waiting a step is one control cycle: the uptime counts, and a base with no correction,
no slew and no spread counts on by 1.25 ns; with no pin in a switching sequence, no level at a pin other than the one seen last and no traced core
and no event waiting it changes nothing else. A GPIO pin whose level is another has made an edge, flagged as the pin selects (R430). An event that
waits goes onto the event ring while that has room (R278, R279). -/
def Obligations.IdleStep : Prop :=
  (∀ (s : State) (k : Fin 3),
    s.pending = [] → s.get F.TB_CTRL_spread = 0 → s.rateOf k = 0 → s.slewOf k = 0 → s.on (F.TBK_CFG_follow k) = false →
    ∃ t, step s = .next t ∧ t.uptime = s.uptime + 1 ∧ t.baseCount k = (s.baseCount k + 5 * 2 ^ 30) % 2 ^ 96 ∧ t.slewOf k = 0) ∧
  (∀ (s : State),
    s.pending = [] → s.pins.seq = [] → s.tracedCores = [] → s.evt.queue = [] → s.evt.lost = 0 →
    (∀ n, n < 48 → s.gpioLevel n = mget padDefault s.pins.seen n) →
    ∃ t, step s = .next t ∧ { t with time := s.time, uptime := s.uptime } = s ∧ { t.time with ns := s.time.ns, frac := s.time.frac, slew := s.time.slew } = s.time) ∧
  (∀ (s : State) (n : Fin 48),
    let v := s.gpioLevel n
    let flag := if n.val < 32 then F.GPIO_EDGE0_flag else F.GPIO_EDGE1_flag
    s.pending = [] → s.pins.seq = [] → s.tracedCores = [] → s.evt.queue = [] → s.evt.lost = 0 →
    ∃ t, step s = .next t ∧ mget padDefault t.pins.seen n = v ∧ t.pins.pad = s.pins.pad ∧
      t.bit flag (n % 32) = (s.bit flag (n % 32) || (mget padDefault s.pins.seen n != v && (s.get (F.GPIO_PIN_edge n)).testBit (if v then 0 else 1))) ∧
      RegsBut [R.GPIO_EDGE0, R.GPIO_EDGE1] s t) ∧
  (∀ (s : State) (r : EvRec),
    let seq := s.get F.RING_EVSEQ_seq
    let now := if seq = 0xFFFFFFFF then 1 else seq + 1
    let a := s.ringAddr 8 (s.ring 8).dev
    s.pending = [] → s.pins.seq = [] → s.tracedCores = [] → s.evt.queue = [r] → s.evt.lost = 0 → s.ringRoom 8 = true →
    ∃ t, step s = .next t ∧ t.evt.queue = [] ∧ (t.ring 8).dev = ((s.ring 8).dev + 1) % 2 ^ 32 ∧ t.get F.RING_EVSEQ_seq = now ∧
      t.host.writes = ⟨a + 60, natLe 4 (phaseOf (s.ringSize 8) (s.ring 8).dev * 2 ^ 31)⟩ :: ⟨a, evBytes r now⟩ :: s.host.writes)

/-- R411, R80, R430, R455, R418: after reset no command waits, no partition holds a design, the registers read as their tables give them at reset, and
the state is sound. -/
def Obligations.ResetState : Prop :=
  State.reset.Sound ∧ State.reset.pending = [] ∧ (∀ p, p < 4 → State.reset.pstate p = 0 ∧ State.reset.get (F.TURN_CTRL_brake_limit p) = 0x7A12 ∧
    State.reset.get (F.TURN_CONFIG_depth p) = 3 ∧ State.reset.get (F.TURN_CONFIG_k p) = 0) ∧
  State.reset.get F.EVT_MLRMASK_classes = 0xFFF ∧ State.reset.get F.EVT_MASK_classes = 0 ∧ State.reset.get F.GPIO_SYSFILT_halt_n = 50 ∧
  State.reset.get (F.GPIO_PIN_func 47) = 9 ∧ State.reset.get (F.GPIO_PIN_func 46) = 0 ∧ (∀ port, port < 4 → 1 ≤ port → State.reset.sessLevel port = 0) ∧
  (∀ k, k < 32 → State.reset.get (F.DBG_MSTATUS_halted.sel k) = 0 ∧ State.reset.slEn k = false) ∧
  (∀ a, mget (fun _ => (0 : Byte)) State.reset.hop.mem a = 0)

/-- Every step keeps the state sound: the register store, the hopper's memory and the DRAM keep their one canonical form, so that equal contents are
equal data. -/
def Obligations.StepKeepsSound : Prop :=
  ∀ (s t : State), s.Sound → step s = .next t → t.Sound

/-- Every command completes from every state, and so does every step: nothing the surroundings send the block ends in a fault or a refusal. -/
def Obligations.StepsComplete : Prop :=
  (∀ (c : Instr) (s : State), ∃ t, exec c s = .next t) ∧ ∀ (s : State), ∃ t, step s = .next t

end
end

