-- ==== Sys2Proof/Laws/Headers.lean ====
section
/-!
SUPPORT. Laws/Headers.lean: what each field of a header unit reads that was built from its fields.
-/
namespace Sys2Proof.Machine

open Sys2Proof

variable (cmd len urg status init tag dq drow dcol dport ctx pf peek tail addr : Nat)

theorem hcmd_mkHdr : hcmd (mkHdr cmd len urg status init tag dq drow dcol dport ctx pf peek tail addr) = cmd % 16 := by
  unfold hcmd mkHdr
  rw [BitVec.extractLsb'_toNat, BitVec.toNat_ofNat, Nat.shiftRight_eq_div_pow]
  omega

theorem hlen_mkHdr : hlen (mkHdr cmd len urg status init tag dq drow dcol dport ctx pf peek tail addr) = len % 64 := by
  unfold hlen mkHdr
  rw [BitVec.extractLsb'_toNat, BitVec.toNat_ofNat, Nat.shiftRight_eq_div_pow]
  omega

theorem hurg_mkHdr : hurg (mkHdr cmd len urg status init tag dq drow dcol dport ctx pf peek tail addr) = urg % 8 := by
  unfold hurg mkHdr
  rw [BitVec.extractLsb'_toNat, BitVec.toNat_ofNat, Nat.shiftRight_eq_div_pow]
  omega

theorem hstatus_mkHdr : hstatus (mkHdr cmd len urg status init tag dq drow dcol dport ctx pf peek tail addr) = status % 8 := by
  unfold hstatus mkHdr
  rw [BitVec.extractLsb'_toNat, BitVec.toNat_ofNat, Nat.shiftRight_eq_div_pow]
  omega

theorem hinit_mkHdr : hinit (mkHdr cmd len urg status init tag dq drow dcol dport ctx pf peek tail addr) = init % 1024 := by
  unfold hinit mkHdr
  rw [BitVec.extractLsb'_toNat, BitVec.toNat_ofNat, Nat.shiftRight_eq_div_pow]
  omega

theorem htag_mkHdr : htag (mkHdr cmd len urg status init tag dq drow dcol dport ctx pf peek tail addr) = tag % 4096 := by
  unfold htag mkHdr
  rw [BitVec.extractLsb'_toNat, BitVec.toNat_ofNat, Nat.shiftRight_eq_div_pow]
  omega

theorem hdq_mkHdr : hdq (mkHdr cmd len urg status init tag dq drow dcol dport ctx pf peek tail addr) = dq % 4 := by
  unfold hdq mkHdr
  rw [BitVec.extractLsb'_toNat, BitVec.toNat_ofNat, Nat.shiftRight_eq_div_pow]
  omega

theorem hdrow_mkHdr : hdrow (mkHdr cmd len urg status init tag dq drow dcol dport ctx pf peek tail addr) = drow % 8 := by
  unfold hdrow mkHdr
  rw [BitVec.extractLsb'_toNat, BitVec.toNat_ofNat, Nat.shiftRight_eq_div_pow]
  omega

theorem hdcol_mkHdr : hdcol (mkHdr cmd len urg status init tag dq drow dcol dport ctx pf peek tail addr) = dcol % 8 := by
  unfold hdcol mkHdr
  rw [BitVec.extractLsb'_toNat, BitVec.toNat_ofNat, Nat.shiftRight_eq_div_pow]
  omega

theorem hdport_mkHdr : hdport (mkHdr cmd len urg status init tag dq drow dcol dport ctx pf peek tail addr) = dport % 16 := by
  unfold hdport mkHdr
  rw [BitVec.extractLsb'_toNat, BitVec.toNat_ofNat, Nat.shiftRight_eq_div_pow]
  omega

theorem hctx_mkHdr : hctx (mkHdr cmd len urg status init tag dq drow dcol dport ctx pf peek tail addr) = ctx % 16 := by
  unfold hctx mkHdr
  rw [BitVec.extractLsb'_toNat, BitVec.toNat_ofNat, Nat.shiftRight_eq_div_pow]
  omega

theorem hresv_mkHdr : hresv (mkHdr cmd len urg status init tag dq drow dcol dport ctx pf peek tail addr) = 0 := by
  unfold hresv mkHdr
  rw [BitVec.extractLsb'_toNat, BitVec.toNat_ofNat, Nat.shiftRight_eq_div_pow]
  omega

theorem htail_mkHdr : htail (mkHdr cmd len urg status init tag dq drow dcol dport ctx pf peek tail addr) = tail % 16 := by
  unfold htail mkHdr
  rw [BitVec.extractLsb'_toNat, BitVec.toNat_ofNat, Nat.shiftRight_eq_div_pow]
  omega

theorem haddr_mkHdr : haddr (mkHdr cmd len urg status init tag dq drow dcol dport ctx pf peek tail addr) = addr % 2 ^ 48 := by
  unfold haddr mkHdr
  rw [BitVec.extractLsb'_toNat, BitVec.toNat_ofNat, Nat.shiftRight_eq_div_pow]
  omega

theorem hpf_mkHdr : hpf (mkHdr cmd len urg status init tag dq drow dcol dport ctx pf peek tail addr) = decide (pf % 2 = 1) := by
  unfold hpf mkHdr
  rw [BitVec.getLsbD_ofNat, Nat.testBit_eq_decide_div_mod_eq]
  rw [show decide (73 < 128) = true from rfl, Bool.true_and]
  congr 1
  apply propext
  omega

theorem hpeek_mkHdr : hpeek (mkHdr cmd len urg status init tag dq drow dcol dport ctx pf peek tail addr) = decide (peek % 2 = 1) := by
  unfold hpeek mkHdr
  rw [BitVec.getLsbD_ofNat, Nat.testBit_eq_decide_div_mod_eq]
  rw [show decide (72 < 128) = true from rfl, Bool.true_and]
  congr 1
  apply propext
  omega

end Sys2Proof.Machine
end

