-- ==== Sys2Proof/Laws/SMap.lean ====
section
/-!
SUPPORT. Laws/SMap.lean: reading after writing a sparse store, and that every operation keeps its canonical form.
-/
namespace Sys2Proof.Machine

variable {α : Type}

/-- A store reads what was last written to a key, and every other key as before. -/
theorem mget_mset [DecidableEq α] (d : Nat → α) (m : SMap α) (k j : Nat) (v : α) :
    mget d (mset d m k v) j = if j = k then v else mget d m j := by
  induction m with
  | nil => grind [mset, mget]
  | cons e t ih =>
    obtain ⟨k', v'⟩ := e
    grind [mset, mget]

@[simp] theorem mget_mset_same [DecidableEq α] (d : Nat → α) (m : SMap α) (k : Nat) (v : α) :
    mget d (mset d m k v) k = v := by simp [mget_mset]

theorem mget_mset_ne [DecidableEq α] (d : Nat → α) (m : SMap α) {k j : Nat} (v : α) (h : j ≠ k) :
    mget d (mset d m k v) j = mget d m j := by simp [mget_mset, h]

/-- Changing every listed value: a change that leaves the unlisted value alone is seen at every key. -/
theorem mget_mmap [DecidableEq α] (d : Nat → α) (f : Nat → α → α) (m : SMap α) (j : Nat) (h : f j (d j) = d j) :
    mget d (mmap d f m) j = f j (mget d m j) := by
  induction m with
  | nil => simp [mmap, mget, h]
  | cons e t ih =>
    obtain ⟨k', v'⟩ := e
    show mget d (mset d (mmap d f t) k' (f k' v')) j = _
    rw [mget_mset, mget, ih]
    split <;> simp_all

/-- Dropping keys: they read as unlisted. -/
theorem mget_mdrop (d : Nat → α) (f : Nat → Bool) (m : SMap α) (j : Nat) :
    mget d (mdrop f m) j = if f j then d j else mget d m j := by
  unfold mdrop
  induction m with
  | nil => simp [mget]
  | cons e t ih =>
    obtain ⟨k', v'⟩ := e
    grind [mget]

theorem mabove_iff (b : Nat) (m : SMap α) : mabove b m = true ↔ ∀ e ∈ m, b < e.1 := by
  induction m with
  | nil => simp [mabove]
  | cons e t ih => simp [mabove, ih]

theorem mwf_cons [DecidableEq α] (d : Nat → α) (e : Nat × α) (t : SMap α) :
    mwf d (e :: t) = true ↔ e.2 ≠ d e.1 ∧ (∀ x ∈ t, e.1 < x.1) ∧ mwf d t = true := by
  simp [mwf, mabove_iff, and_assoc]

/-- Leaving entries out keeps the canonical form. -/
theorem mwf_filter [DecidableEq α] (d : Nat → α) (f : Nat × α → Bool) (m : SMap α) (h : mwf d m = true) :
    mwf d (m.filter f) = true := by
  induction m with
  | nil => exact h
  | cons e t ih =>
    rw [mwf_cons] at h
    by_cases hf : f e
    · rw [List.filter_cons_of_pos hf, mwf_cons]
      exact ⟨h.1, fun x hx => h.2.1 x ((List.mem_filter.1 hx).1), ih h.2.2⟩
    · rw [List.filter_cons_of_neg hf]; exact ih h.2.2

theorem mwf_mdrop [DecidableEq α] (d : Nat → α) (f : Nat → Bool) (m : SMap α) (h : mwf d m = true) :
    mwf d (mdrop f m) = true := mwf_filter d _ m h

theorem mem_mset [DecidableEq α] (d : Nat → α) (k : Nat) (v : α) (m : SMap α) (x : Nat × α) (h : x ∈ mset d m k v) :
    x = (k, v) ∨ x ∈ m := by
  induction m with
  | nil => grind [mset]
  | cons e t ih =>
    obtain ⟨k', v'⟩ := e
    grind [mset]

theorem mem_mset_ne [DecidableEq α] (d : Nat → α) (k : Nat) (v : α) (m : SMap α) (x : Nat × α) (hv : v = d k)
    (h : x ∈ mset d m k v) : x ∈ m := by
  induction m with
  | nil => grind [mset]
  | cons e t ih =>
    obtain ⟨k', v'⟩ := e
    grind [mset]

/-- Writing keeps the canonical form. -/
theorem mwf_mset [DecidableEq α] (d : Nat → α) (m : SMap α) (k : Nat) (v : α) (h : mwf d m = true) :
    mwf d (mset d m k v) = true := by
  induction m with
  | nil => grind [mset, mwf, mabove]
  | cons e t ih =>
    obtain ⟨k', v'⟩ := e
    have h' := (mwf_cons d _ t).1 h
    have i := ih h'.2.2
    simp only [mset]
    split
    · rename_i hv
      split
      · exact i
      · rw [mwf_cons]; exact ⟨h'.1, fun x hx => h'.2.1 x (mem_mset_ne d k v t x hv hx), i⟩
    · rename_i hv
      split
      · rename_i hk
        rw [mwf_cons]
        refine ⟨hv, ?_, h⟩
        intro x hx
        rcases List.mem_cons.1 hx with rfl | hx
        · exact hk
        · exact Nat.lt_trans hk (h'.2.1 x hx)
      · split
        · rename_i hk; subst hk
          rw [mwf_cons]; exact ⟨hv, h'.2.1, h'.2.2⟩
        · rename_i h1 h2
          rw [mwf_cons]
          refine ⟨h'.1, ?_, i⟩
          intro x hx
          rcases mem_mset d k v t x hx with rfl | hx
          · simp only; omega
          · exact h'.2.1 x hx

/-- Changing every listed value gives the canonical form. -/
theorem mwf_mmap [DecidableEq α] (d : Nat → α) (f : Nat → α → α) (m : SMap α) : mwf d (mmap d f m) = true := by
  induction m with
  | nil => rfl
  | cons e t ih => exact mwf_mset d _ _ _ ih

/-- Storing bytes keeps the canonical form. -/
theorem mwf_mputBytes (d : Nat → BitVec 8) (bs : List (BitVec 8)) (m : SMap (BitVec 8)) (a : Nat) (h : mwf d m = true) :
    mwf d (mputBytes d m a bs) = true := by
  induction bs generalizing m a with
  | nil => exact h
  | cons b t ih => exact ih _ _ (mwf_mset d m a b h)

/-- Storing bytes from a upward changes the bytes at a, a + 1, … and no other. -/
theorem mget_mputBytes (d : Nat → BitVec 8) (bs : List (BitVec 8)) (m : SMap (BitVec 8)) (a j : Nat) :
    mget d (mputBytes d m a bs) j = if a ≤ j ∧ j < a + bs.length then bs.getD (j - a) 0 else mget d m j := by
  induction bs generalizing m a with
  | nil => rw [mputBytes, if_neg (by simp only [List.length_nil]; omega)]
  | cons b t ih =>
    rw [mputBytes, ih, mget_mset, List.length_cons]
    by_cases h1 : j = a
    · subst h1
      rw [if_neg (by omega), if_pos rfl, if_pos (by omega), Nat.sub_self]; rfl
    · by_cases h2 : a + 1 ≤ j ∧ j < a + 1 + t.length
      · have : j - a = (j - (a + 1)) + 1 := by omega
        rw [if_pos h2, if_pos (by omega), this]; rfl
      · rw [if_neg h2, if_neg h1, if_neg (by omega)]

end Sys2Proof.Machine
end

