-- ==== Sys2Proof/Laws/Regs.lean ====
section
/-!
SUPPORT. Laws/Regs.lean: what reading a register or a field gives after one has been written, and what writing one leaves alone.
-/
namespace Sys2Proof.Machine

open Sys2Proof

/-! ## Fields of a word -/

theorem Fld.of_lt (f : Fld) (w : Word) : f.of w < 2 ^ f.width := Nat.mod_lt _ (Nat.two_pow_pos _)

/-- A field of a word, bit by bit. -/
theorem Fld.of_testBit (f : Fld) (w : Word) (i : Nat) :
    (f.of w).testBit i = (decide (i < f.width) && w.toNat.testBit (f.lsb + i)) := by
  rw [Fld.of, Nat.testBit_mod_two_pow, Nat.testBit_div_two_pow, Nat.add_comm]

/-- A word with a field replaced, as a number. -/
theorem Fld.into_toNat (f : Fld) (w : Word) (v : Nat) (hf : f.lsb + f.width ≤ 32) :
    (f.into w v).toNat = 2 ^ f.lsb * (2 ^ f.width * (w.toNat / 2 ^ f.lsb / 2 ^ f.width) + v % 2 ^ f.width) + w.toNat % 2 ^ f.lsb := by
  have hw := w.isLt
  have hv : v % 2 ^ f.width < 2 ^ f.width := Nat.mod_lt _ (Nat.two_pow_pos _)
  unfold Fld.into Fld.of
  rw [BitVec.toNat_ofNat]
  generalize f.lsb = l at *
  generalize f.width = d at *
  have e1 : w.toNat = 2 ^ l * (w.toNat / 2 ^ l) + w.toNat % 2 ^ l := (Nat.div_add_mod _ _).symm
  have e2 : w.toNat / 2 ^ l = 2 ^ d * (w.toNat / 2 ^ l / 2 ^ d) + w.toNat / 2 ^ l % 2 ^ d := (Nat.div_add_mod _ _).symm
  have hlo : w.toNat % 2 ^ l < 2 ^ l := Nat.mod_lt _ (Nat.two_pow_pos _)
  have hhi : w.toNat / 2 ^ l / 2 ^ d < 2 ^ (32 - l - d) := by
    rw [Nat.div_div_eq_div_mul, ← Nat.pow_add]
    apply Nat.div_lt_of_lt_mul
    rw [← Nat.pow_add]
    have : l + d + (32 - l - d) = 32 := by omega
    rw [this]; exact hw
  have h32 : 2 ^ 32 = 2 ^ l * (2 ^ d * 2 ^ (32 - l - d)) := by
    rw [← Nat.pow_add, ← Nat.pow_add]; congr 1; omega
  generalize w.toNat / 2 ^ l / 2 ^ d = hi at *
  generalize w.toNat / 2 ^ l % 2 ^ d = mid at *
  generalize v % 2 ^ d = nv at *
  generalize w.toNat % 2 ^ l = lo at *
  have : w.toNat - mid * 2 ^ l + nv * 2 ^ l = 2 ^ l * (2 ^ d * hi + nv) + lo := by
    rw [e1, e2, Nat.mul_add, Nat.mul_add, Nat.mul_comm mid, Nat.mul_comm nv]
    omega
  rw [this]
  apply Nat.mod_eq_of_lt
  rw [h32]
  calc 2 ^ l * (2 ^ d * hi + nv) + lo < 2 ^ l * (2 ^ d * hi + nv + 1) := by rw [Nat.mul_add (2 ^ l) _ 1]; omega
    _ ≤ 2 ^ l * (2 ^ d * 2 ^ (32 - l - d)) := by
        apply Nat.mul_le_mul_left
        calc 2 ^ d * hi + nv + 1 ≤ 2 ^ d * (hi + 1) := by rw [Nat.mul_add]; omega
          _ ≤ _ := Nat.mul_le_mul_left _ hhi

/-- A word with a field replaced, bit by bit. -/
theorem Fld.into_testBit (f : Fld) (w : Word) (v i : Nat) (hf : f.lsb + f.width ≤ 32) :
    (f.into w v).toNat.testBit i =
      if f.lsb ≤ i ∧ i < f.lsb + f.width then v.testBit (i - f.lsb) else w.toNat.testBit i := by
  rw [Fld.into_toNat f w v hf, Nat.testBit_two_pow_mul_add _ (Nat.mod_lt _ (Nat.two_pow_pos _))]
  have hv : v % 2 ^ f.width < 2 ^ f.width := Nat.mod_lt _ (Nat.two_pow_pos _)
  by_cases h1 : i < f.lsb
  · rw [if_pos h1, if_neg (by omega), Nat.testBit_mod_two_pow]; simp [h1]
  · rw [if_neg h1, Nat.testBit_two_pow_mul_add _ hv]
    by_cases h2 : i - f.lsb < f.width
    · rw [if_pos h2, if_pos (by omega), Nat.testBit_mod_two_pow]; simp [h2]
    · rw [if_neg h2, if_neg (by omega), Nat.testBit_div_two_pow, Nat.testBit_div_two_pow]
      congr 1; omega

/-- The field written reads the value written, modulo its width. -/
theorem Fld.of_into_same (f : Fld) (w : Word) (v : Nat) (hf : f.lsb + f.width ≤ 32) : f.of (f.into w v) = v % 2 ^ f.width := by
  apply Nat.eq_of_testBit_eq
  intro i
  rw [Fld.of_testBit, Fld.into_testBit _ _ _ _ hf, Nat.testBit_mod_two_pow]
  by_cases h : i < f.width
  · rw [if_pos (by omega)]; simp [h]
  · simp [h]

/-- A field of other bits reads as before. -/
theorem Fld.of_into_other (f g : Fld) (w : Word) (v : Nat) (hf : f.lsb + f.width ≤ 32)
    (h : f.lsb + f.width ≤ g.lsb ∨ g.lsb + g.width ≤ f.lsb) : g.of (f.into w v) = g.of w := by
  apply Nat.eq_of_testBit_eq
  intro i
  rw [Fld.of_testBit, Fld.of_testBit, Fld.into_testBit _ _ _ _ hf]
  by_cases hi : i < g.width
  · rw [if_neg (by omega)]
  · simp [hi]

/-! ## Registers and fields of a state -/

/-- A register reads what was last stored in it, every other one as before. -/
theorem State.reg_setReg (s : State) (a b : Nat) (v : Word) : (s.setReg a v).reg b = if b = a then v else s.reg b :=
  mget_mset resetWord s.regs a b v

@[simp] theorem State.reg_setReg_same (s : State) (a : Nat) (v : Word) : (s.setReg a v).reg a = v := by
  simp [State.reg_setReg]

theorem State.reg_setReg_ne (s : State) {a b : Nat} (v : Word) (h : b ≠ a) : (s.setReg a v).reg b = s.reg b := by
  simp [State.reg_setReg, h]

theorem State.reg_put (s : State) (f : Fld) (v b : Nat) :
    (s.put f v).reg b = if b = f.addr then f.into (s.reg f.addr) v else s.reg b := State.reg_setReg ..

theorem State.reg_put_ne (s : State) {f : Fld} {b : Nat} (v : Nat) (h : b ≠ f.addr) : (s.put f v).reg b = s.reg b := by
  simp [State.reg_put, h]

/-- A field reads what was put into it, modulo its width. -/
theorem State.get_put_same (s : State) (f : Fld) (v : Nat) (hf : f.lsb + f.width ≤ 32) : (s.put f v).get f = v % 2 ^ f.width := by
  rw [State.get, State.reg_put, if_pos rfl, Fld.of_into_same f _ v hf]

/-- A field of another register reads as before. -/
theorem State.get_put_ne (s : State) {f g : Fld} (v : Nat) (h : g.addr ≠ f.addr) : (s.put f v).get g = s.get g := by
  rw [State.get, State.reg_put_ne s v h, State.get]

/-- A field of other bits of the same register reads as before. -/
theorem State.get_put_bits (s : State) {f g : Fld} (v : Nat) (hf : f.lsb + f.width ≤ 32)
    (h : f.lsb + f.width ≤ g.lsb ∨ g.lsb + g.width ≤ f.lsb) : (s.put f v).get g = s.get g := by
  rw [State.get, State.get, State.reg_put]
  split
  · rename_i ha; rw [ha, Fld.of_into_other f g _ v hf h]
  · rfl

/-- Storing a register changes no field of another one. -/
theorem State.get_setReg_ne (s : State) {g : Fld} {a : Nat} (v : Word) (h : g.addr ≠ a) : (s.setReg a v).get g = s.get g := by
  rw [State.get, State.reg_setReg_ne s v h, State.get]

theorem State.get_lt (s : State) (f : Fld) : s.get f < 2 ^ f.width := Fld.of_lt f _

/-- Writing a field changes the registers only. -/
theorem State.put_rest (s : State) (f : Fld) (v : Nat) : { s.put f v with regs := s.regs } = s := rfl

theorem State.setReg_rest (s : State) (a : Nat) (v : Word) : { s.setReg a v with regs := s.regs } = s := rfl

end Sys2Proof.Machine
end

