-- ==== Sys2Proof/Laws/State.lean ====
section
/-!
SUPPORT. Laws/State.lean: what each elementary change of the state leaves as it was, field by field.
-/
namespace Sys2Proof.Machine

open Sys2Proof

set_option Elab.async false

/-! ## setReg -/

@[simp] theorem State.setReg_parts (s : State) (a : Nat) (v : Word) : (s.setReg a v).parts = s.parts := rfl
@[simp] theorem State.setReg_stones (s : State) (a : Nat) (v : Word) : (s.setReg a v).stones = s.stones := rfl
@[simp] theorem State.setReg_race (s : State) (a : Nat) (v : Word) : (s.setReg a v).race = s.race := rfl
@[simp] theorem State.setReg_flume (s : State) (a : Nat) (v : Word) : (s.setReg a v).flume = s.flume := rfl
@[simp] theorem State.setReg_dm (s : State) (a : Nat) (v : Word) : (s.setReg a v).dm = s.dm := rfl
@[simp] theorem State.setReg_evt (s : State) (a : Nat) (v : Word) : (s.setReg a v).evt = s.evt := rfl
@[simp] theorem State.setReg_lines (s : State) (a : Nat) (v : Word) : (s.setReg a v).lines = s.lines := rfl
@[simp] theorem State.setReg_gov (s : State) (a : Nat) (v : Word) : (s.setReg a v).gov = s.gov := rfl
@[simp] theorem State.setReg_clk (s : State) (a : Nat) (v : Word) : (s.setReg a v).clk = s.clk := rfl
@[simp] theorem State.setReg_acq (s : State) (a : Nat) (v : Word) : (s.setReg a v).acq = s.acq := rfl
@[simp] theorem State.setReg_time (s : State) (a : Nat) (v : Word) : (s.setReg a v).time = s.time := rfl
@[simp] theorem State.setReg_mlipend (s : State) (a : Nat) (v : Word) : (s.setReg a v).mlipend = s.mlipend := rfl
@[simp] theorem State.setReg_spokes (s : State) (a : Nat) (v : Word) : (s.setReg a v).spokes = s.spokes := rfl
@[simp] theorem State.setReg_spokeRx (s : State) (a : Nat) (v : Word) : (s.setReg a v).spokeRx = s.spokeRx := rfl
@[simp] theorem State.setReg_watchFirst (s : State) (a : Nat) (v : Word) : (s.setReg a v).watchFirst = s.watchFirst := rfl
@[simp] theorem State.setReg_hostWins (s : State) (a : Nat) (v : Word) : (s.setReg a v).hostWins = s.hostWins := rfl
@[simp] theorem State.setReg_readData (s : State) (a : Nat) (v : Word) : (s.setReg a v).readData = s.readData := rfl
@[simp] theorem State.setReg_dram (s : State) (a : Nat) (v : Word) : (s.setReg a v).dram = s.dram := rfl
@[simp] theorem State.setReg_host (s : State) (a : Nat) (v : Word) : (s.setReg a v).host = s.host := rfl
@[simp] theorem State.setReg_sluices (s : State) (a : Nat) (v : Word) : (s.setReg a v).sluices = s.sluices := rfl
@[simp] theorem State.setReg_loader (s : State) (a : Nat) (v : Word) : (s.setReg a v).loader = s.loader := rfl
@[simp] theorem State.setReg_keys (s : State) (a : Nat) (v : Word) : (s.setReg a v).keys = s.keys := rfl
@[simp] theorem State.setReg_boot (s : State) (a : Nat) (v : Word) : (s.setReg a v).boot = s.boot := rfl
@[simp] theorem State.setReg_hop (s : State) (a : Nat) (v : Word) : (s.setReg a v).hop = s.hop := rfl
@[simp] theorem State.setReg_sched (s : State) (a : Nat) (v : Word) : (s.setReg a v).sched = s.sched := rfl
@[simp] theorem State.setReg_millers (s : State) (a : Nat) (v : Word) : (s.setReg a v).millers = s.millers := rfl
@[simp] theorem State.setReg_portData (s : State) (a : Nat) (v : Word) : (s.setReg a v).portData = s.portData := rfl
@[simp] theorem State.setReg_dbg (s : State) (a : Nat) (v : Word) : (s.setReg a v).dbg = s.dbg := rfl
@[simp] theorem State.setReg_pins (s : State) (a : Nat) (v : Word) : (s.setReg a v).pins = s.pins := rfl
@[simp] theorem State.setReg_trace (s : State) (a : Nat) (v : Word) : (s.setReg a v).trace = s.trace := rfl
@[simp] theorem State.setReg_uptime (s : State) (a : Nat) (v : Word) : (s.setReg a v).uptime = s.uptime := rfl
@[simp] theorem State.setReg_power (s : State) (a : Nat) (v : Word) : (s.setReg a v).power = s.power := rfl
@[simp] theorem State.setReg_free (s : State) (a : Nat) (v : Word) : (s.setReg a v).free = s.free := rfl
@[simp] theorem State.setReg_pending (s : State) (a : Nat) (v : Word) : (s.setReg a v).pending = s.pending := rfl

/-! ## put -/

@[simp] theorem State.put_parts (s : State) (f : Fld) (v : Nat) : (s.put f v).parts = s.parts := rfl
@[simp] theorem State.put_stones (s : State) (f : Fld) (v : Nat) : (s.put f v).stones = s.stones := rfl
@[simp] theorem State.put_race (s : State) (f : Fld) (v : Nat) : (s.put f v).race = s.race := rfl
@[simp] theorem State.put_flume (s : State) (f : Fld) (v : Nat) : (s.put f v).flume = s.flume := rfl
@[simp] theorem State.put_dm (s : State) (f : Fld) (v : Nat) : (s.put f v).dm = s.dm := rfl
@[simp] theorem State.put_evt (s : State) (f : Fld) (v : Nat) : (s.put f v).evt = s.evt := rfl
@[simp] theorem State.put_lines (s : State) (f : Fld) (v : Nat) : (s.put f v).lines = s.lines := rfl
@[simp] theorem State.put_gov (s : State) (f : Fld) (v : Nat) : (s.put f v).gov = s.gov := rfl
@[simp] theorem State.put_clk (s : State) (f : Fld) (v : Nat) : (s.put f v).clk = s.clk := rfl
@[simp] theorem State.put_acq (s : State) (f : Fld) (v : Nat) : (s.put f v).acq = s.acq := rfl
@[simp] theorem State.put_time (s : State) (f : Fld) (v : Nat) : (s.put f v).time = s.time := rfl
@[simp] theorem State.put_mlipend (s : State) (f : Fld) (v : Nat) : (s.put f v).mlipend = s.mlipend := rfl
@[simp] theorem State.put_spokes (s : State) (f : Fld) (v : Nat) : (s.put f v).spokes = s.spokes := rfl
@[simp] theorem State.put_spokeRx (s : State) (f : Fld) (v : Nat) : (s.put f v).spokeRx = s.spokeRx := rfl
@[simp] theorem State.put_watchFirst (s : State) (f : Fld) (v : Nat) : (s.put f v).watchFirst = s.watchFirst := rfl
@[simp] theorem State.put_hostWins (s : State) (f : Fld) (v : Nat) : (s.put f v).hostWins = s.hostWins := rfl
@[simp] theorem State.put_readData (s : State) (f : Fld) (v : Nat) : (s.put f v).readData = s.readData := rfl
@[simp] theorem State.put_dram (s : State) (f : Fld) (v : Nat) : (s.put f v).dram = s.dram := rfl
@[simp] theorem State.put_host (s : State) (f : Fld) (v : Nat) : (s.put f v).host = s.host := rfl
@[simp] theorem State.put_sluices (s : State) (f : Fld) (v : Nat) : (s.put f v).sluices = s.sluices := rfl
@[simp] theorem State.put_loader (s : State) (f : Fld) (v : Nat) : (s.put f v).loader = s.loader := rfl
@[simp] theorem State.put_keys (s : State) (f : Fld) (v : Nat) : (s.put f v).keys = s.keys := rfl
@[simp] theorem State.put_boot (s : State) (f : Fld) (v : Nat) : (s.put f v).boot = s.boot := rfl
@[simp] theorem State.put_hop (s : State) (f : Fld) (v : Nat) : (s.put f v).hop = s.hop := rfl
@[simp] theorem State.put_sched (s : State) (f : Fld) (v : Nat) : (s.put f v).sched = s.sched := rfl
@[simp] theorem State.put_millers (s : State) (f : Fld) (v : Nat) : (s.put f v).millers = s.millers := rfl
@[simp] theorem State.put_portData (s : State) (f : Fld) (v : Nat) : (s.put f v).portData = s.portData := rfl
@[simp] theorem State.put_dbg (s : State) (f : Fld) (v : Nat) : (s.put f v).dbg = s.dbg := rfl
@[simp] theorem State.put_pins (s : State) (f : Fld) (v : Nat) : (s.put f v).pins = s.pins := rfl
@[simp] theorem State.put_trace (s : State) (f : Fld) (v : Nat) : (s.put f v).trace = s.trace := rfl
@[simp] theorem State.put_uptime (s : State) (f : Fld) (v : Nat) : (s.put f v).uptime = s.uptime := rfl
@[simp] theorem State.put_power (s : State) (f : Fld) (v : Nat) : (s.put f v).power = s.power := rfl
@[simp] theorem State.put_free (s : State) (f : Fld) (v : Nat) : (s.put f v).free = s.free := rfl
@[simp] theorem State.put_pending (s : State) (f : Fld) (v : Nat) : (s.put f v).pending = s.pending := rfl

/-! ## flag -/

@[simp] theorem State.flag_parts (s : State) (f : Fld) (b : Bool) : (s.flag f b).parts = s.parts := rfl
@[simp] theorem State.flag_stones (s : State) (f : Fld) (b : Bool) : (s.flag f b).stones = s.stones := rfl
@[simp] theorem State.flag_race (s : State) (f : Fld) (b : Bool) : (s.flag f b).race = s.race := rfl
@[simp] theorem State.flag_flume (s : State) (f : Fld) (b : Bool) : (s.flag f b).flume = s.flume := rfl
@[simp] theorem State.flag_dm (s : State) (f : Fld) (b : Bool) : (s.flag f b).dm = s.dm := rfl
@[simp] theorem State.flag_evt (s : State) (f : Fld) (b : Bool) : (s.flag f b).evt = s.evt := rfl
@[simp] theorem State.flag_lines (s : State) (f : Fld) (b : Bool) : (s.flag f b).lines = s.lines := rfl
@[simp] theorem State.flag_gov (s : State) (f : Fld) (b : Bool) : (s.flag f b).gov = s.gov := rfl
@[simp] theorem State.flag_clk (s : State) (f : Fld) (b : Bool) : (s.flag f b).clk = s.clk := rfl
@[simp] theorem State.flag_acq (s : State) (f : Fld) (b : Bool) : (s.flag f b).acq = s.acq := rfl
@[simp] theorem State.flag_time (s : State) (f : Fld) (b : Bool) : (s.flag f b).time = s.time := rfl
@[simp] theorem State.flag_mlipend (s : State) (f : Fld) (b : Bool) : (s.flag f b).mlipend = s.mlipend := rfl
@[simp] theorem State.flag_spokes (s : State) (f : Fld) (b : Bool) : (s.flag f b).spokes = s.spokes := rfl
@[simp] theorem State.flag_spokeRx (s : State) (f : Fld) (b : Bool) : (s.flag f b).spokeRx = s.spokeRx := rfl
@[simp] theorem State.flag_watchFirst (s : State) (f : Fld) (b : Bool) : (s.flag f b).watchFirst = s.watchFirst := rfl
@[simp] theorem State.flag_hostWins (s : State) (f : Fld) (b : Bool) : (s.flag f b).hostWins = s.hostWins := rfl
@[simp] theorem State.flag_readData (s : State) (f : Fld) (b : Bool) : (s.flag f b).readData = s.readData := rfl
@[simp] theorem State.flag_dram (s : State) (f : Fld) (b : Bool) : (s.flag f b).dram = s.dram := rfl
@[simp] theorem State.flag_host (s : State) (f : Fld) (b : Bool) : (s.flag f b).host = s.host := rfl
@[simp] theorem State.flag_sluices (s : State) (f : Fld) (b : Bool) : (s.flag f b).sluices = s.sluices := rfl
@[simp] theorem State.flag_loader (s : State) (f : Fld) (b : Bool) : (s.flag f b).loader = s.loader := rfl
@[simp] theorem State.flag_keys (s : State) (f : Fld) (b : Bool) : (s.flag f b).keys = s.keys := rfl
@[simp] theorem State.flag_boot (s : State) (f : Fld) (b : Bool) : (s.flag f b).boot = s.boot := rfl
@[simp] theorem State.flag_hop (s : State) (f : Fld) (b : Bool) : (s.flag f b).hop = s.hop := rfl
@[simp] theorem State.flag_sched (s : State) (f : Fld) (b : Bool) : (s.flag f b).sched = s.sched := rfl
@[simp] theorem State.flag_millers (s : State) (f : Fld) (b : Bool) : (s.flag f b).millers = s.millers := rfl
@[simp] theorem State.flag_portData (s : State) (f : Fld) (b : Bool) : (s.flag f b).portData = s.portData := rfl
@[simp] theorem State.flag_dbg (s : State) (f : Fld) (b : Bool) : (s.flag f b).dbg = s.dbg := rfl
@[simp] theorem State.flag_pins (s : State) (f : Fld) (b : Bool) : (s.flag f b).pins = s.pins := rfl
@[simp] theorem State.flag_trace (s : State) (f : Fld) (b : Bool) : (s.flag f b).trace = s.trace := rfl
@[simp] theorem State.flag_uptime (s : State) (f : Fld) (b : Bool) : (s.flag f b).uptime = s.uptime := rfl
@[simp] theorem State.flag_power (s : State) (f : Fld) (b : Bool) : (s.flag f b).power = s.power := rfl
@[simp] theorem State.flag_free (s : State) (f : Fld) (b : Bool) : (s.flag f b).free = s.free := rfl
@[simp] theorem State.flag_pending (s : State) (f : Fld) (b : Bool) : (s.flag f b).pending = s.pending := rfl

/-! ## setBit -/

@[simp] theorem State.setBit_parts (s : State) (f : Fld) (i : Nat) (b : Bool) : (s.setBit f i b).parts = s.parts := rfl
@[simp] theorem State.setBit_stones (s : State) (f : Fld) (i : Nat) (b : Bool) : (s.setBit f i b).stones = s.stones := rfl
@[simp] theorem State.setBit_race (s : State) (f : Fld) (i : Nat) (b : Bool) : (s.setBit f i b).race = s.race := rfl
@[simp] theorem State.setBit_flume (s : State) (f : Fld) (i : Nat) (b : Bool) : (s.setBit f i b).flume = s.flume := rfl
@[simp] theorem State.setBit_dm (s : State) (f : Fld) (i : Nat) (b : Bool) : (s.setBit f i b).dm = s.dm := rfl
@[simp] theorem State.setBit_evt (s : State) (f : Fld) (i : Nat) (b : Bool) : (s.setBit f i b).evt = s.evt := rfl
@[simp] theorem State.setBit_lines (s : State) (f : Fld) (i : Nat) (b : Bool) : (s.setBit f i b).lines = s.lines := rfl
@[simp] theorem State.setBit_gov (s : State) (f : Fld) (i : Nat) (b : Bool) : (s.setBit f i b).gov = s.gov := rfl
@[simp] theorem State.setBit_clk (s : State) (f : Fld) (i : Nat) (b : Bool) : (s.setBit f i b).clk = s.clk := rfl
@[simp] theorem State.setBit_acq (s : State) (f : Fld) (i : Nat) (b : Bool) : (s.setBit f i b).acq = s.acq := rfl
@[simp] theorem State.setBit_time (s : State) (f : Fld) (i : Nat) (b : Bool) : (s.setBit f i b).time = s.time := rfl
@[simp] theorem State.setBit_mlipend (s : State) (f : Fld) (i : Nat) (b : Bool) : (s.setBit f i b).mlipend = s.mlipend := rfl
@[simp] theorem State.setBit_spokes (s : State) (f : Fld) (i : Nat) (b : Bool) : (s.setBit f i b).spokes = s.spokes := rfl
@[simp] theorem State.setBit_spokeRx (s : State) (f : Fld) (i : Nat) (b : Bool) : (s.setBit f i b).spokeRx = s.spokeRx := rfl
@[simp] theorem State.setBit_watchFirst (s : State) (f : Fld) (i : Nat) (b : Bool) : (s.setBit f i b).watchFirst = s.watchFirst := rfl
@[simp] theorem State.setBit_hostWins (s : State) (f : Fld) (i : Nat) (b : Bool) : (s.setBit f i b).hostWins = s.hostWins := rfl
@[simp] theorem State.setBit_readData (s : State) (f : Fld) (i : Nat) (b : Bool) : (s.setBit f i b).readData = s.readData := rfl
@[simp] theorem State.setBit_dram (s : State) (f : Fld) (i : Nat) (b : Bool) : (s.setBit f i b).dram = s.dram := rfl
@[simp] theorem State.setBit_host (s : State) (f : Fld) (i : Nat) (b : Bool) : (s.setBit f i b).host = s.host := rfl
@[simp] theorem State.setBit_sluices (s : State) (f : Fld) (i : Nat) (b : Bool) : (s.setBit f i b).sluices = s.sluices := rfl
@[simp] theorem State.setBit_loader (s : State) (f : Fld) (i : Nat) (b : Bool) : (s.setBit f i b).loader = s.loader := rfl
@[simp] theorem State.setBit_keys (s : State) (f : Fld) (i : Nat) (b : Bool) : (s.setBit f i b).keys = s.keys := rfl
@[simp] theorem State.setBit_boot (s : State) (f : Fld) (i : Nat) (b : Bool) : (s.setBit f i b).boot = s.boot := rfl
@[simp] theorem State.setBit_hop (s : State) (f : Fld) (i : Nat) (b : Bool) : (s.setBit f i b).hop = s.hop := rfl
@[simp] theorem State.setBit_sched (s : State) (f : Fld) (i : Nat) (b : Bool) : (s.setBit f i b).sched = s.sched := rfl
@[simp] theorem State.setBit_millers (s : State) (f : Fld) (i : Nat) (b : Bool) : (s.setBit f i b).millers = s.millers := rfl
@[simp] theorem State.setBit_portData (s : State) (f : Fld) (i : Nat) (b : Bool) : (s.setBit f i b).portData = s.portData := rfl
@[simp] theorem State.setBit_dbg (s : State) (f : Fld) (i : Nat) (b : Bool) : (s.setBit f i b).dbg = s.dbg := rfl
@[simp] theorem State.setBit_pins (s : State) (f : Fld) (i : Nat) (b : Bool) : (s.setBit f i b).pins = s.pins := rfl
@[simp] theorem State.setBit_trace (s : State) (f : Fld) (i : Nat) (b : Bool) : (s.setBit f i b).trace = s.trace := rfl
@[simp] theorem State.setBit_uptime (s : State) (f : Fld) (i : Nat) (b : Bool) : (s.setBit f i b).uptime = s.uptime := rfl
@[simp] theorem State.setBit_power (s : State) (f : Fld) (i : Nat) (b : Bool) : (s.setBit f i b).power = s.power := rfl
@[simp] theorem State.setBit_free (s : State) (f : Fld) (i : Nat) (b : Bool) : (s.setBit f i b).free = s.free := rfl
@[simp] theorem State.setBit_pending (s : State) (f : Fld) (i : Nat) (b : Bool) : (s.setBit f i b).pending = s.pending := rfl

/-! ## bump -/

@[simp] theorem State.bump_parts (s : State) (f : Fld) (n : Nat) : (s.bump f n).parts = s.parts := rfl
@[simp] theorem State.bump_stones (s : State) (f : Fld) (n : Nat) : (s.bump f n).stones = s.stones := rfl
@[simp] theorem State.bump_race (s : State) (f : Fld) (n : Nat) : (s.bump f n).race = s.race := rfl
@[simp] theorem State.bump_flume (s : State) (f : Fld) (n : Nat) : (s.bump f n).flume = s.flume := rfl
@[simp] theorem State.bump_dm (s : State) (f : Fld) (n : Nat) : (s.bump f n).dm = s.dm := rfl
@[simp] theorem State.bump_evt (s : State) (f : Fld) (n : Nat) : (s.bump f n).evt = s.evt := rfl
@[simp] theorem State.bump_lines (s : State) (f : Fld) (n : Nat) : (s.bump f n).lines = s.lines := rfl
@[simp] theorem State.bump_gov (s : State) (f : Fld) (n : Nat) : (s.bump f n).gov = s.gov := rfl
@[simp] theorem State.bump_clk (s : State) (f : Fld) (n : Nat) : (s.bump f n).clk = s.clk := rfl
@[simp] theorem State.bump_acq (s : State) (f : Fld) (n : Nat) : (s.bump f n).acq = s.acq := rfl
@[simp] theorem State.bump_time (s : State) (f : Fld) (n : Nat) : (s.bump f n).time = s.time := rfl
@[simp] theorem State.bump_mlipend (s : State) (f : Fld) (n : Nat) : (s.bump f n).mlipend = s.mlipend := rfl
@[simp] theorem State.bump_spokes (s : State) (f : Fld) (n : Nat) : (s.bump f n).spokes = s.spokes := rfl
@[simp] theorem State.bump_spokeRx (s : State) (f : Fld) (n : Nat) : (s.bump f n).spokeRx = s.spokeRx := rfl
@[simp] theorem State.bump_watchFirst (s : State) (f : Fld) (n : Nat) : (s.bump f n).watchFirst = s.watchFirst := rfl
@[simp] theorem State.bump_hostWins (s : State) (f : Fld) (n : Nat) : (s.bump f n).hostWins = s.hostWins := rfl
@[simp] theorem State.bump_readData (s : State) (f : Fld) (n : Nat) : (s.bump f n).readData = s.readData := rfl
@[simp] theorem State.bump_dram (s : State) (f : Fld) (n : Nat) : (s.bump f n).dram = s.dram := rfl
@[simp] theorem State.bump_host (s : State) (f : Fld) (n : Nat) : (s.bump f n).host = s.host := rfl
@[simp] theorem State.bump_sluices (s : State) (f : Fld) (n : Nat) : (s.bump f n).sluices = s.sluices := rfl
@[simp] theorem State.bump_loader (s : State) (f : Fld) (n : Nat) : (s.bump f n).loader = s.loader := rfl
@[simp] theorem State.bump_keys (s : State) (f : Fld) (n : Nat) : (s.bump f n).keys = s.keys := rfl
@[simp] theorem State.bump_boot (s : State) (f : Fld) (n : Nat) : (s.bump f n).boot = s.boot := rfl
@[simp] theorem State.bump_hop (s : State) (f : Fld) (n : Nat) : (s.bump f n).hop = s.hop := rfl
@[simp] theorem State.bump_sched (s : State) (f : Fld) (n : Nat) : (s.bump f n).sched = s.sched := rfl
@[simp] theorem State.bump_millers (s : State) (f : Fld) (n : Nat) : (s.bump f n).millers = s.millers := rfl
@[simp] theorem State.bump_portData (s : State) (f : Fld) (n : Nat) : (s.bump f n).portData = s.portData := rfl
@[simp] theorem State.bump_dbg (s : State) (f : Fld) (n : Nat) : (s.bump f n).dbg = s.dbg := rfl
@[simp] theorem State.bump_pins (s : State) (f : Fld) (n : Nat) : (s.bump f n).pins = s.pins := rfl
@[simp] theorem State.bump_trace (s : State) (f : Fld) (n : Nat) : (s.bump f n).trace = s.trace := rfl
@[simp] theorem State.bump_uptime (s : State) (f : Fld) (n : Nat) : (s.bump f n).uptime = s.uptime := rfl
@[simp] theorem State.bump_power (s : State) (f : Fld) (n : Nat) : (s.bump f n).power = s.power := rfl
@[simp] theorem State.bump_free (s : State) (f : Fld) (n : Nat) : (s.bump f n).free = s.free := rfl
@[simp] theorem State.bump_pending (s : State) (f : Fld) (n : Nat) : (s.bump f n).pending = s.pending := rfl

/-! ## bumpWrap -/

@[simp] theorem State.bumpWrap_parts (s : State) (f : Fld) (n : Nat) : (s.bumpWrap f n).parts = s.parts := rfl
@[simp] theorem State.bumpWrap_stones (s : State) (f : Fld) (n : Nat) : (s.bumpWrap f n).stones = s.stones := rfl
@[simp] theorem State.bumpWrap_race (s : State) (f : Fld) (n : Nat) : (s.bumpWrap f n).race = s.race := rfl
@[simp] theorem State.bumpWrap_flume (s : State) (f : Fld) (n : Nat) : (s.bumpWrap f n).flume = s.flume := rfl
@[simp] theorem State.bumpWrap_dm (s : State) (f : Fld) (n : Nat) : (s.bumpWrap f n).dm = s.dm := rfl
@[simp] theorem State.bumpWrap_evt (s : State) (f : Fld) (n : Nat) : (s.bumpWrap f n).evt = s.evt := rfl
@[simp] theorem State.bumpWrap_lines (s : State) (f : Fld) (n : Nat) : (s.bumpWrap f n).lines = s.lines := rfl
@[simp] theorem State.bumpWrap_gov (s : State) (f : Fld) (n : Nat) : (s.bumpWrap f n).gov = s.gov := rfl
@[simp] theorem State.bumpWrap_clk (s : State) (f : Fld) (n : Nat) : (s.bumpWrap f n).clk = s.clk := rfl
@[simp] theorem State.bumpWrap_acq (s : State) (f : Fld) (n : Nat) : (s.bumpWrap f n).acq = s.acq := rfl
@[simp] theorem State.bumpWrap_time (s : State) (f : Fld) (n : Nat) : (s.bumpWrap f n).time = s.time := rfl
@[simp] theorem State.bumpWrap_mlipend (s : State) (f : Fld) (n : Nat) : (s.bumpWrap f n).mlipend = s.mlipend := rfl
@[simp] theorem State.bumpWrap_spokes (s : State) (f : Fld) (n : Nat) : (s.bumpWrap f n).spokes = s.spokes := rfl
@[simp] theorem State.bumpWrap_spokeRx (s : State) (f : Fld) (n : Nat) : (s.bumpWrap f n).spokeRx = s.spokeRx := rfl
@[simp] theorem State.bumpWrap_watchFirst (s : State) (f : Fld) (n : Nat) : (s.bumpWrap f n).watchFirst = s.watchFirst := rfl
@[simp] theorem State.bumpWrap_hostWins (s : State) (f : Fld) (n : Nat) : (s.bumpWrap f n).hostWins = s.hostWins := rfl
@[simp] theorem State.bumpWrap_readData (s : State) (f : Fld) (n : Nat) : (s.bumpWrap f n).readData = s.readData := rfl
@[simp] theorem State.bumpWrap_dram (s : State) (f : Fld) (n : Nat) : (s.bumpWrap f n).dram = s.dram := rfl
@[simp] theorem State.bumpWrap_host (s : State) (f : Fld) (n : Nat) : (s.bumpWrap f n).host = s.host := rfl
@[simp] theorem State.bumpWrap_sluices (s : State) (f : Fld) (n : Nat) : (s.bumpWrap f n).sluices = s.sluices := rfl
@[simp] theorem State.bumpWrap_loader (s : State) (f : Fld) (n : Nat) : (s.bumpWrap f n).loader = s.loader := rfl
@[simp] theorem State.bumpWrap_keys (s : State) (f : Fld) (n : Nat) : (s.bumpWrap f n).keys = s.keys := rfl
@[simp] theorem State.bumpWrap_boot (s : State) (f : Fld) (n : Nat) : (s.bumpWrap f n).boot = s.boot := rfl
@[simp] theorem State.bumpWrap_hop (s : State) (f : Fld) (n : Nat) : (s.bumpWrap f n).hop = s.hop := rfl
@[simp] theorem State.bumpWrap_sched (s : State) (f : Fld) (n : Nat) : (s.bumpWrap f n).sched = s.sched := rfl
@[simp] theorem State.bumpWrap_millers (s : State) (f : Fld) (n : Nat) : (s.bumpWrap f n).millers = s.millers := rfl
@[simp] theorem State.bumpWrap_portData (s : State) (f : Fld) (n : Nat) : (s.bumpWrap f n).portData = s.portData := rfl
@[simp] theorem State.bumpWrap_dbg (s : State) (f : Fld) (n : Nat) : (s.bumpWrap f n).dbg = s.dbg := rfl
@[simp] theorem State.bumpWrap_pins (s : State) (f : Fld) (n : Nat) : (s.bumpWrap f n).pins = s.pins := rfl
@[simp] theorem State.bumpWrap_trace (s : State) (f : Fld) (n : Nat) : (s.bumpWrap f n).trace = s.trace := rfl
@[simp] theorem State.bumpWrap_uptime (s : State) (f : Fld) (n : Nat) : (s.bumpWrap f n).uptime = s.uptime := rfl
@[simp] theorem State.bumpWrap_power (s : State) (f : Fld) (n : Nat) : (s.bumpWrap f n).power = s.power := rfl
@[simp] theorem State.bumpWrap_free (s : State) (f : Fld) (n : Nat) : (s.bumpWrap f n).free = s.free := rfl
@[simp] theorem State.bumpWrap_pending (s : State) (f : Fld) (n : Nat) : (s.bumpWrap f n).pending = s.pending := rfl

/-! ## put64 -/

@[simp] theorem State.put64_parts (s : State) (lo hi v : Nat) : (s.put64 lo hi v).parts = s.parts := rfl
@[simp] theorem State.put64_stones (s : State) (lo hi v : Nat) : (s.put64 lo hi v).stones = s.stones := rfl
@[simp] theorem State.put64_race (s : State) (lo hi v : Nat) : (s.put64 lo hi v).race = s.race := rfl
@[simp] theorem State.put64_flume (s : State) (lo hi v : Nat) : (s.put64 lo hi v).flume = s.flume := rfl
@[simp] theorem State.put64_dm (s : State) (lo hi v : Nat) : (s.put64 lo hi v).dm = s.dm := rfl
@[simp] theorem State.put64_evt (s : State) (lo hi v : Nat) : (s.put64 lo hi v).evt = s.evt := rfl
@[simp] theorem State.put64_lines (s : State) (lo hi v : Nat) : (s.put64 lo hi v).lines = s.lines := rfl
@[simp] theorem State.put64_gov (s : State) (lo hi v : Nat) : (s.put64 lo hi v).gov = s.gov := rfl
@[simp] theorem State.put64_clk (s : State) (lo hi v : Nat) : (s.put64 lo hi v).clk = s.clk := rfl
@[simp] theorem State.put64_acq (s : State) (lo hi v : Nat) : (s.put64 lo hi v).acq = s.acq := rfl
@[simp] theorem State.put64_time (s : State) (lo hi v : Nat) : (s.put64 lo hi v).time = s.time := rfl
@[simp] theorem State.put64_mlipend (s : State) (lo hi v : Nat) : (s.put64 lo hi v).mlipend = s.mlipend := rfl
@[simp] theorem State.put64_spokes (s : State) (lo hi v : Nat) : (s.put64 lo hi v).spokes = s.spokes := rfl
@[simp] theorem State.put64_spokeRx (s : State) (lo hi v : Nat) : (s.put64 lo hi v).spokeRx = s.spokeRx := rfl
@[simp] theorem State.put64_watchFirst (s : State) (lo hi v : Nat) : (s.put64 lo hi v).watchFirst = s.watchFirst := rfl
@[simp] theorem State.put64_hostWins (s : State) (lo hi v : Nat) : (s.put64 lo hi v).hostWins = s.hostWins := rfl
@[simp] theorem State.put64_readData (s : State) (lo hi v : Nat) : (s.put64 lo hi v).readData = s.readData := rfl
@[simp] theorem State.put64_dram (s : State) (lo hi v : Nat) : (s.put64 lo hi v).dram = s.dram := rfl
@[simp] theorem State.put64_host (s : State) (lo hi v : Nat) : (s.put64 lo hi v).host = s.host := rfl
@[simp] theorem State.put64_sluices (s : State) (lo hi v : Nat) : (s.put64 lo hi v).sluices = s.sluices := rfl
@[simp] theorem State.put64_loader (s : State) (lo hi v : Nat) : (s.put64 lo hi v).loader = s.loader := rfl
@[simp] theorem State.put64_keys (s : State) (lo hi v : Nat) : (s.put64 lo hi v).keys = s.keys := rfl
@[simp] theorem State.put64_boot (s : State) (lo hi v : Nat) : (s.put64 lo hi v).boot = s.boot := rfl
@[simp] theorem State.put64_hop (s : State) (lo hi v : Nat) : (s.put64 lo hi v).hop = s.hop := rfl
@[simp] theorem State.put64_sched (s : State) (lo hi v : Nat) : (s.put64 lo hi v).sched = s.sched := rfl
@[simp] theorem State.put64_millers (s : State) (lo hi v : Nat) : (s.put64 lo hi v).millers = s.millers := rfl
@[simp] theorem State.put64_portData (s : State) (lo hi v : Nat) : (s.put64 lo hi v).portData = s.portData := rfl
@[simp] theorem State.put64_dbg (s : State) (lo hi v : Nat) : (s.put64 lo hi v).dbg = s.dbg := rfl
@[simp] theorem State.put64_pins (s : State) (lo hi v : Nat) : (s.put64 lo hi v).pins = s.pins := rfl
@[simp] theorem State.put64_trace (s : State) (lo hi v : Nat) : (s.put64 lo hi v).trace = s.trace := rfl
@[simp] theorem State.put64_uptime (s : State) (lo hi v : Nat) : (s.put64 lo hi v).uptime = s.uptime := rfl
@[simp] theorem State.put64_power (s : State) (lo hi v : Nat) : (s.put64 lo hi v).power = s.power := rfl
@[simp] theorem State.put64_free (s : State) (lo hi v : Nat) : (s.put64 lo hi v).free = s.free := rfl
@[simp] theorem State.put64_pending (s : State) (lo hi v : Nat) : (s.put64 lo hi v).pending = s.pending := rfl

/-! ## setPart -/

@[simp] theorem State.setPart_regs (s : State) (p : Nat) (x : PartSt) : (s.setPart p x).regs = s.regs := rfl
@[simp] theorem State.setPart_stones (s : State) (p : Nat) (x : PartSt) : (s.setPart p x).stones = s.stones := rfl
@[simp] theorem State.setPart_race (s : State) (p : Nat) (x : PartSt) : (s.setPart p x).race = s.race := rfl
@[simp] theorem State.setPart_flume (s : State) (p : Nat) (x : PartSt) : (s.setPart p x).flume = s.flume := rfl
@[simp] theorem State.setPart_dm (s : State) (p : Nat) (x : PartSt) : (s.setPart p x).dm = s.dm := rfl
@[simp] theorem State.setPart_evt (s : State) (p : Nat) (x : PartSt) : (s.setPart p x).evt = s.evt := rfl
@[simp] theorem State.setPart_lines (s : State) (p : Nat) (x : PartSt) : (s.setPart p x).lines = s.lines := rfl
@[simp] theorem State.setPart_gov (s : State) (p : Nat) (x : PartSt) : (s.setPart p x).gov = s.gov := rfl
@[simp] theorem State.setPart_clk (s : State) (p : Nat) (x : PartSt) : (s.setPart p x).clk = s.clk := rfl
@[simp] theorem State.setPart_acq (s : State) (p : Nat) (x : PartSt) : (s.setPart p x).acq = s.acq := rfl
@[simp] theorem State.setPart_time (s : State) (p : Nat) (x : PartSt) : (s.setPart p x).time = s.time := rfl
@[simp] theorem State.setPart_mlipend (s : State) (p : Nat) (x : PartSt) : (s.setPart p x).mlipend = s.mlipend := rfl
@[simp] theorem State.setPart_spokes (s : State) (p : Nat) (x : PartSt) : (s.setPart p x).spokes = s.spokes := rfl
@[simp] theorem State.setPart_spokeRx (s : State) (p : Nat) (x : PartSt) : (s.setPart p x).spokeRx = s.spokeRx := rfl
@[simp] theorem State.setPart_watchFirst (s : State) (p : Nat) (x : PartSt) : (s.setPart p x).watchFirst = s.watchFirst := rfl
@[simp] theorem State.setPart_hostWins (s : State) (p : Nat) (x : PartSt) : (s.setPart p x).hostWins = s.hostWins := rfl
@[simp] theorem State.setPart_readData (s : State) (p : Nat) (x : PartSt) : (s.setPart p x).readData = s.readData := rfl
@[simp] theorem State.setPart_dram (s : State) (p : Nat) (x : PartSt) : (s.setPart p x).dram = s.dram := rfl
@[simp] theorem State.setPart_host (s : State) (p : Nat) (x : PartSt) : (s.setPart p x).host = s.host := rfl
@[simp] theorem State.setPart_sluices (s : State) (p : Nat) (x : PartSt) : (s.setPart p x).sluices = s.sluices := rfl
@[simp] theorem State.setPart_loader (s : State) (p : Nat) (x : PartSt) : (s.setPart p x).loader = s.loader := rfl
@[simp] theorem State.setPart_keys (s : State) (p : Nat) (x : PartSt) : (s.setPart p x).keys = s.keys := rfl
@[simp] theorem State.setPart_boot (s : State) (p : Nat) (x : PartSt) : (s.setPart p x).boot = s.boot := rfl
@[simp] theorem State.setPart_hop (s : State) (p : Nat) (x : PartSt) : (s.setPart p x).hop = s.hop := rfl
@[simp] theorem State.setPart_sched (s : State) (p : Nat) (x : PartSt) : (s.setPart p x).sched = s.sched := rfl
@[simp] theorem State.setPart_millers (s : State) (p : Nat) (x : PartSt) : (s.setPart p x).millers = s.millers := rfl
@[simp] theorem State.setPart_portData (s : State) (p : Nat) (x : PartSt) : (s.setPart p x).portData = s.portData := rfl
@[simp] theorem State.setPart_dbg (s : State) (p : Nat) (x : PartSt) : (s.setPart p x).dbg = s.dbg := rfl
@[simp] theorem State.setPart_pins (s : State) (p : Nat) (x : PartSt) : (s.setPart p x).pins = s.pins := rfl
@[simp] theorem State.setPart_trace (s : State) (p : Nat) (x : PartSt) : (s.setPart p x).trace = s.trace := rfl
@[simp] theorem State.setPart_uptime (s : State) (p : Nat) (x : PartSt) : (s.setPart p x).uptime = s.uptime := rfl
@[simp] theorem State.setPart_power (s : State) (p : Nat) (x : PartSt) : (s.setPart p x).power = s.power := rfl
@[simp] theorem State.setPart_free (s : State) (p : Nat) (x : PartSt) : (s.setPart p x).free = s.free := rfl
@[simp] theorem State.setPart_pending (s : State) (p : Nat) (x : PartSt) : (s.setPart p x).pending = s.pending := rfl
@[simp] theorem State.setPart_reg (s : State) (p : Nat) (x : PartSt) (a0 : Nat) : (s.setPart p x).reg a0 = s.reg a0 := rfl
@[simp] theorem State.setPart_get (s : State) (p : Nat) (x : PartSt) (g0 : Fld) : (s.setPart p x).get g0 = s.get g0 := rfl

/-! ## modPart -/

@[simp] theorem State.modPart_regs (s : State) (p : Nat) (f : PartSt → PartSt) : (s.modPart p f).regs = s.regs := rfl
@[simp] theorem State.modPart_stones (s : State) (p : Nat) (f : PartSt → PartSt) : (s.modPart p f).stones = s.stones := rfl
@[simp] theorem State.modPart_race (s : State) (p : Nat) (f : PartSt → PartSt) : (s.modPart p f).race = s.race := rfl
@[simp] theorem State.modPart_flume (s : State) (p : Nat) (f : PartSt → PartSt) : (s.modPart p f).flume = s.flume := rfl
@[simp] theorem State.modPart_dm (s : State) (p : Nat) (f : PartSt → PartSt) : (s.modPart p f).dm = s.dm := rfl
@[simp] theorem State.modPart_evt (s : State) (p : Nat) (f : PartSt → PartSt) : (s.modPart p f).evt = s.evt := rfl
@[simp] theorem State.modPart_lines (s : State) (p : Nat) (f : PartSt → PartSt) : (s.modPart p f).lines = s.lines := rfl
@[simp] theorem State.modPart_gov (s : State) (p : Nat) (f : PartSt → PartSt) : (s.modPart p f).gov = s.gov := rfl
@[simp] theorem State.modPart_clk (s : State) (p : Nat) (f : PartSt → PartSt) : (s.modPart p f).clk = s.clk := rfl
@[simp] theorem State.modPart_acq (s : State) (p : Nat) (f : PartSt → PartSt) : (s.modPart p f).acq = s.acq := rfl
@[simp] theorem State.modPart_time (s : State) (p : Nat) (f : PartSt → PartSt) : (s.modPart p f).time = s.time := rfl
@[simp] theorem State.modPart_mlipend (s : State) (p : Nat) (f : PartSt → PartSt) : (s.modPart p f).mlipend = s.mlipend := rfl
@[simp] theorem State.modPart_spokes (s : State) (p : Nat) (f : PartSt → PartSt) : (s.modPart p f).spokes = s.spokes := rfl
@[simp] theorem State.modPart_spokeRx (s : State) (p : Nat) (f : PartSt → PartSt) : (s.modPart p f).spokeRx = s.spokeRx := rfl
@[simp] theorem State.modPart_watchFirst (s : State) (p : Nat) (f : PartSt → PartSt) : (s.modPart p f).watchFirst = s.watchFirst := rfl
@[simp] theorem State.modPart_hostWins (s : State) (p : Nat) (f : PartSt → PartSt) : (s.modPart p f).hostWins = s.hostWins := rfl
@[simp] theorem State.modPart_readData (s : State) (p : Nat) (f : PartSt → PartSt) : (s.modPart p f).readData = s.readData := rfl
@[simp] theorem State.modPart_dram (s : State) (p : Nat) (f : PartSt → PartSt) : (s.modPart p f).dram = s.dram := rfl
@[simp] theorem State.modPart_host (s : State) (p : Nat) (f : PartSt → PartSt) : (s.modPart p f).host = s.host := rfl
@[simp] theorem State.modPart_sluices (s : State) (p : Nat) (f : PartSt → PartSt) : (s.modPart p f).sluices = s.sluices := rfl
@[simp] theorem State.modPart_loader (s : State) (p : Nat) (f : PartSt → PartSt) : (s.modPart p f).loader = s.loader := rfl
@[simp] theorem State.modPart_keys (s : State) (p : Nat) (f : PartSt → PartSt) : (s.modPart p f).keys = s.keys := rfl
@[simp] theorem State.modPart_boot (s : State) (p : Nat) (f : PartSt → PartSt) : (s.modPart p f).boot = s.boot := rfl
@[simp] theorem State.modPart_hop (s : State) (p : Nat) (f : PartSt → PartSt) : (s.modPart p f).hop = s.hop := rfl
@[simp] theorem State.modPart_sched (s : State) (p : Nat) (f : PartSt → PartSt) : (s.modPart p f).sched = s.sched := rfl
@[simp] theorem State.modPart_millers (s : State) (p : Nat) (f : PartSt → PartSt) : (s.modPart p f).millers = s.millers := rfl
@[simp] theorem State.modPart_portData (s : State) (p : Nat) (f : PartSt → PartSt) : (s.modPart p f).portData = s.portData := rfl
@[simp] theorem State.modPart_dbg (s : State) (p : Nat) (f : PartSt → PartSt) : (s.modPart p f).dbg = s.dbg := rfl
@[simp] theorem State.modPart_pins (s : State) (p : Nat) (f : PartSt → PartSt) : (s.modPart p f).pins = s.pins := rfl
@[simp] theorem State.modPart_trace (s : State) (p : Nat) (f : PartSt → PartSt) : (s.modPart p f).trace = s.trace := rfl
@[simp] theorem State.modPart_uptime (s : State) (p : Nat) (f : PartSt → PartSt) : (s.modPart p f).uptime = s.uptime := rfl
@[simp] theorem State.modPart_power (s : State) (p : Nat) (f : PartSt → PartSt) : (s.modPart p f).power = s.power := rfl
@[simp] theorem State.modPart_free (s : State) (p : Nat) (f : PartSt → PartSt) : (s.modPart p f).free = s.free := rfl
@[simp] theorem State.modPart_pending (s : State) (p : Nat) (f : PartSt → PartSt) : (s.modPart p f).pending = s.pending := rfl
@[simp] theorem State.modPart_reg (s : State) (p : Nat) (f : PartSt → PartSt) (a0 : Nat) : (s.modPart p f).reg a0 = s.reg a0 := rfl
@[simp] theorem State.modPart_get (s : State) (p : Nat) (f : PartSt → PartSt) (g0 : Fld) : (s.modPart p f).get g0 = s.get g0 := rfl

/-! ## raiseIrq -/

@[simp] theorem State.raiseIrq_regs (s : State) (k c : Nat) : (s.raiseIrq k c).regs = s.regs := rfl
@[simp] theorem State.raiseIrq_parts (s : State) (k c : Nat) : (s.raiseIrq k c).parts = s.parts := rfl
@[simp] theorem State.raiseIrq_stones (s : State) (k c : Nat) : (s.raiseIrq k c).stones = s.stones := rfl
@[simp] theorem State.raiseIrq_race (s : State) (k c : Nat) : (s.raiseIrq k c).race = s.race := rfl
@[simp] theorem State.raiseIrq_flume (s : State) (k c : Nat) : (s.raiseIrq k c).flume = s.flume := rfl
@[simp] theorem State.raiseIrq_dm (s : State) (k c : Nat) : (s.raiseIrq k c).dm = s.dm := rfl
@[simp] theorem State.raiseIrq_evt (s : State) (k c : Nat) : (s.raiseIrq k c).evt = s.evt := rfl
@[simp] theorem State.raiseIrq_lines (s : State) (k c : Nat) : (s.raiseIrq k c).lines = s.lines := rfl
@[simp] theorem State.raiseIrq_gov (s : State) (k c : Nat) : (s.raiseIrq k c).gov = s.gov := rfl
@[simp] theorem State.raiseIrq_clk (s : State) (k c : Nat) : (s.raiseIrq k c).clk = s.clk := rfl
@[simp] theorem State.raiseIrq_acq (s : State) (k c : Nat) : (s.raiseIrq k c).acq = s.acq := rfl
@[simp] theorem State.raiseIrq_time (s : State) (k c : Nat) : (s.raiseIrq k c).time = s.time := rfl
@[simp] theorem State.raiseIrq_spokes (s : State) (k c : Nat) : (s.raiseIrq k c).spokes = s.spokes := rfl
@[simp] theorem State.raiseIrq_spokeRx (s : State) (k c : Nat) : (s.raiseIrq k c).spokeRx = s.spokeRx := rfl
@[simp] theorem State.raiseIrq_watchFirst (s : State) (k c : Nat) : (s.raiseIrq k c).watchFirst = s.watchFirst := rfl
@[simp] theorem State.raiseIrq_hostWins (s : State) (k c : Nat) : (s.raiseIrq k c).hostWins = s.hostWins := rfl
@[simp] theorem State.raiseIrq_readData (s : State) (k c : Nat) : (s.raiseIrq k c).readData = s.readData := rfl
@[simp] theorem State.raiseIrq_dram (s : State) (k c : Nat) : (s.raiseIrq k c).dram = s.dram := rfl
@[simp] theorem State.raiseIrq_host (s : State) (k c : Nat) : (s.raiseIrq k c).host = s.host := rfl
@[simp] theorem State.raiseIrq_sluices (s : State) (k c : Nat) : (s.raiseIrq k c).sluices = s.sluices := rfl
@[simp] theorem State.raiseIrq_loader (s : State) (k c : Nat) : (s.raiseIrq k c).loader = s.loader := rfl
@[simp] theorem State.raiseIrq_keys (s : State) (k c : Nat) : (s.raiseIrq k c).keys = s.keys := rfl
@[simp] theorem State.raiseIrq_boot (s : State) (k c : Nat) : (s.raiseIrq k c).boot = s.boot := rfl
@[simp] theorem State.raiseIrq_hop (s : State) (k c : Nat) : (s.raiseIrq k c).hop = s.hop := rfl
@[simp] theorem State.raiseIrq_sched (s : State) (k c : Nat) : (s.raiseIrq k c).sched = s.sched := rfl
@[simp] theorem State.raiseIrq_millers (s : State) (k c : Nat) : (s.raiseIrq k c).millers = s.millers := rfl
@[simp] theorem State.raiseIrq_portData (s : State) (k c : Nat) : (s.raiseIrq k c).portData = s.portData := rfl
@[simp] theorem State.raiseIrq_dbg (s : State) (k c : Nat) : (s.raiseIrq k c).dbg = s.dbg := rfl
@[simp] theorem State.raiseIrq_pins (s : State) (k c : Nat) : (s.raiseIrq k c).pins = s.pins := rfl
@[simp] theorem State.raiseIrq_trace (s : State) (k c : Nat) : (s.raiseIrq k c).trace = s.trace := rfl
@[simp] theorem State.raiseIrq_uptime (s : State) (k c : Nat) : (s.raiseIrq k c).uptime = s.uptime := rfl
@[simp] theorem State.raiseIrq_power (s : State) (k c : Nat) : (s.raiseIrq k c).power = s.power := rfl
@[simp] theorem State.raiseIrq_free (s : State) (k c : Nat) : (s.raiseIrq k c).free = s.free := rfl
@[simp] theorem State.raiseIrq_pending (s : State) (k c : Nat) : (s.raiseIrq k c).pending = s.pending := rfl
@[simp] theorem State.raiseIrq_reg (s : State) (k c : Nat) (a0 : Nat) : (s.raiseIrq k c).reg a0 = s.reg a0 := rfl
@[simp] theorem State.raiseIrq_get (s : State) (k c : Nat) (g0 : Fld) : (s.raiseIrq k c).get g0 = s.get g0 := rfl

/-! ## setRow -/

@[simp] theorem State.setRow_regs (s : State) (site r : Nat) (v : Row) : (s.setRow site r v).regs = s.regs := rfl
@[simp] theorem State.setRow_parts (s : State) (site r : Nat) (v : Row) : (s.setRow site r v).parts = s.parts := rfl
@[simp] theorem State.setRow_race (s : State) (site r : Nat) (v : Row) : (s.setRow site r v).race = s.race := rfl
@[simp] theorem State.setRow_flume (s : State) (site r : Nat) (v : Row) : (s.setRow site r v).flume = s.flume := rfl
@[simp] theorem State.setRow_dm (s : State) (site r : Nat) (v : Row) : (s.setRow site r v).dm = s.dm := rfl
@[simp] theorem State.setRow_evt (s : State) (site r : Nat) (v : Row) : (s.setRow site r v).evt = s.evt := rfl
@[simp] theorem State.setRow_lines (s : State) (site r : Nat) (v : Row) : (s.setRow site r v).lines = s.lines := rfl
@[simp] theorem State.setRow_gov (s : State) (site r : Nat) (v : Row) : (s.setRow site r v).gov = s.gov := rfl
@[simp] theorem State.setRow_clk (s : State) (site r : Nat) (v : Row) : (s.setRow site r v).clk = s.clk := rfl
@[simp] theorem State.setRow_acq (s : State) (site r : Nat) (v : Row) : (s.setRow site r v).acq = s.acq := rfl
@[simp] theorem State.setRow_time (s : State) (site r : Nat) (v : Row) : (s.setRow site r v).time = s.time := rfl
@[simp] theorem State.setRow_mlipend (s : State) (site r : Nat) (v : Row) : (s.setRow site r v).mlipend = s.mlipend := rfl
@[simp] theorem State.setRow_spokes (s : State) (site r : Nat) (v : Row) : (s.setRow site r v).spokes = s.spokes := rfl
@[simp] theorem State.setRow_spokeRx (s : State) (site r : Nat) (v : Row) : (s.setRow site r v).spokeRx = s.spokeRx := rfl
@[simp] theorem State.setRow_watchFirst (s : State) (site r : Nat) (v : Row) : (s.setRow site r v).watchFirst = s.watchFirst := rfl
@[simp] theorem State.setRow_hostWins (s : State) (site r : Nat) (v : Row) : (s.setRow site r v).hostWins = s.hostWins := rfl
@[simp] theorem State.setRow_readData (s : State) (site r : Nat) (v : Row) : (s.setRow site r v).readData = s.readData := rfl
@[simp] theorem State.setRow_dram (s : State) (site r : Nat) (v : Row) : (s.setRow site r v).dram = s.dram := rfl
@[simp] theorem State.setRow_host (s : State) (site r : Nat) (v : Row) : (s.setRow site r v).host = s.host := rfl
@[simp] theorem State.setRow_sluices (s : State) (site r : Nat) (v : Row) : (s.setRow site r v).sluices = s.sluices := rfl
@[simp] theorem State.setRow_loader (s : State) (site r : Nat) (v : Row) : (s.setRow site r v).loader = s.loader := rfl
@[simp] theorem State.setRow_keys (s : State) (site r : Nat) (v : Row) : (s.setRow site r v).keys = s.keys := rfl
@[simp] theorem State.setRow_boot (s : State) (site r : Nat) (v : Row) : (s.setRow site r v).boot = s.boot := rfl
@[simp] theorem State.setRow_hop (s : State) (site r : Nat) (v : Row) : (s.setRow site r v).hop = s.hop := rfl
@[simp] theorem State.setRow_sched (s : State) (site r : Nat) (v : Row) : (s.setRow site r v).sched = s.sched := rfl
@[simp] theorem State.setRow_millers (s : State) (site r : Nat) (v : Row) : (s.setRow site r v).millers = s.millers := rfl
@[simp] theorem State.setRow_portData (s : State) (site r : Nat) (v : Row) : (s.setRow site r v).portData = s.portData := rfl
@[simp] theorem State.setRow_dbg (s : State) (site r : Nat) (v : Row) : (s.setRow site r v).dbg = s.dbg := rfl
@[simp] theorem State.setRow_pins (s : State) (site r : Nat) (v : Row) : (s.setRow site r v).pins = s.pins := rfl
@[simp] theorem State.setRow_trace (s : State) (site r : Nat) (v : Row) : (s.setRow site r v).trace = s.trace := rfl
@[simp] theorem State.setRow_uptime (s : State) (site r : Nat) (v : Row) : (s.setRow site r v).uptime = s.uptime := rfl
@[simp] theorem State.setRow_power (s : State) (site r : Nat) (v : Row) : (s.setRow site r v).power = s.power := rfl
@[simp] theorem State.setRow_free (s : State) (site r : Nat) (v : Row) : (s.setRow site r v).free = s.free := rfl
@[simp] theorem State.setRow_pending (s : State) (site r : Nat) (v : Row) : (s.setRow site r v).pending = s.pending := rfl
@[simp] theorem State.setRow_reg (s : State) (site r : Nat) (v : Row) (a0 : Nat) : (s.setRow site r v).reg a0 = s.reg a0 := rfl
@[simp] theorem State.setRow_get (s : State) (site r : Nat) (v : Row) (g0 : Fld) : (s.setRow site r v).get g0 = s.get g0 := rfl

/-! ## markRow -/

@[simp] theorem State.markRow_regs (s : State) (site r f : Nat) : (s.markRow site r f).regs = s.regs := rfl
@[simp] theorem State.markRow_parts (s : State) (site r f : Nat) : (s.markRow site r f).parts = s.parts := rfl
@[simp] theorem State.markRow_race (s : State) (site r f : Nat) : (s.markRow site r f).race = s.race := rfl
@[simp] theorem State.markRow_flume (s : State) (site r f : Nat) : (s.markRow site r f).flume = s.flume := rfl
@[simp] theorem State.markRow_dm (s : State) (site r f : Nat) : (s.markRow site r f).dm = s.dm := rfl
@[simp] theorem State.markRow_evt (s : State) (site r f : Nat) : (s.markRow site r f).evt = s.evt := rfl
@[simp] theorem State.markRow_lines (s : State) (site r f : Nat) : (s.markRow site r f).lines = s.lines := rfl
@[simp] theorem State.markRow_gov (s : State) (site r f : Nat) : (s.markRow site r f).gov = s.gov := rfl
@[simp] theorem State.markRow_clk (s : State) (site r f : Nat) : (s.markRow site r f).clk = s.clk := rfl
@[simp] theorem State.markRow_acq (s : State) (site r f : Nat) : (s.markRow site r f).acq = s.acq := rfl
@[simp] theorem State.markRow_time (s : State) (site r f : Nat) : (s.markRow site r f).time = s.time := rfl
@[simp] theorem State.markRow_mlipend (s : State) (site r f : Nat) : (s.markRow site r f).mlipend = s.mlipend := rfl
@[simp] theorem State.markRow_spokes (s : State) (site r f : Nat) : (s.markRow site r f).spokes = s.spokes := rfl
@[simp] theorem State.markRow_spokeRx (s : State) (site r f : Nat) : (s.markRow site r f).spokeRx = s.spokeRx := rfl
@[simp] theorem State.markRow_watchFirst (s : State) (site r f : Nat) : (s.markRow site r f).watchFirst = s.watchFirst := rfl
@[simp] theorem State.markRow_hostWins (s : State) (site r f : Nat) : (s.markRow site r f).hostWins = s.hostWins := rfl
@[simp] theorem State.markRow_readData (s : State) (site r f : Nat) : (s.markRow site r f).readData = s.readData := rfl
@[simp] theorem State.markRow_dram (s : State) (site r f : Nat) : (s.markRow site r f).dram = s.dram := rfl
@[simp] theorem State.markRow_host (s : State) (site r f : Nat) : (s.markRow site r f).host = s.host := rfl
@[simp] theorem State.markRow_sluices (s : State) (site r f : Nat) : (s.markRow site r f).sluices = s.sluices := rfl
@[simp] theorem State.markRow_loader (s : State) (site r f : Nat) : (s.markRow site r f).loader = s.loader := rfl
@[simp] theorem State.markRow_keys (s : State) (site r f : Nat) : (s.markRow site r f).keys = s.keys := rfl
@[simp] theorem State.markRow_boot (s : State) (site r f : Nat) : (s.markRow site r f).boot = s.boot := rfl
@[simp] theorem State.markRow_hop (s : State) (site r f : Nat) : (s.markRow site r f).hop = s.hop := rfl
@[simp] theorem State.markRow_sched (s : State) (site r f : Nat) : (s.markRow site r f).sched = s.sched := rfl
@[simp] theorem State.markRow_millers (s : State) (site r f : Nat) : (s.markRow site r f).millers = s.millers := rfl
@[simp] theorem State.markRow_portData (s : State) (site r f : Nat) : (s.markRow site r f).portData = s.portData := rfl
@[simp] theorem State.markRow_dbg (s : State) (site r f : Nat) : (s.markRow site r f).dbg = s.dbg := rfl
@[simp] theorem State.markRow_pins (s : State) (site r f : Nat) : (s.markRow site r f).pins = s.pins := rfl
@[simp] theorem State.markRow_trace (s : State) (site r f : Nat) : (s.markRow site r f).trace = s.trace := rfl
@[simp] theorem State.markRow_uptime (s : State) (site r f : Nat) : (s.markRow site r f).uptime = s.uptime := rfl
@[simp] theorem State.markRow_power (s : State) (site r f : Nat) : (s.markRow site r f).power = s.power := rfl
@[simp] theorem State.markRow_free (s : State) (site r f : Nat) : (s.markRow site r f).free = s.free := rfl
@[simp] theorem State.markRow_pending (s : State) (site r f : Nat) : (s.markRow site r f).pending = s.pending := rfl
@[simp] theorem State.markRow_reg (s : State) (site r f : Nat) (a0 : Nat) : (s.markRow site r f).reg a0 = s.reg a0 := rfl
@[simp] theorem State.markRow_get (s : State) (site r f : Nat) (g0 : Fld) : (s.markRow site r f).get g0 = s.get g0 := rfl

/-! ## writeLane -/

@[simp] theorem State.writeLane_regs (s : State) (site r l n : Nat) (v : Bool) : (s.writeLane site r l n v).regs = s.regs := rfl
@[simp] theorem State.writeLane_parts (s : State) (site r l n : Nat) (v : Bool) : (s.writeLane site r l n v).parts = s.parts := rfl
@[simp] theorem State.writeLane_race (s : State) (site r l n : Nat) (v : Bool) : (s.writeLane site r l n v).race = s.race := rfl
@[simp] theorem State.writeLane_flume (s : State) (site r l n : Nat) (v : Bool) : (s.writeLane site r l n v).flume = s.flume := rfl
@[simp] theorem State.writeLane_dm (s : State) (site r l n : Nat) (v : Bool) : (s.writeLane site r l n v).dm = s.dm := rfl
@[simp] theorem State.writeLane_evt (s : State) (site r l n : Nat) (v : Bool) : (s.writeLane site r l n v).evt = s.evt := rfl
@[simp] theorem State.writeLane_lines (s : State) (site r l n : Nat) (v : Bool) : (s.writeLane site r l n v).lines = s.lines := rfl
@[simp] theorem State.writeLane_gov (s : State) (site r l n : Nat) (v : Bool) : (s.writeLane site r l n v).gov = s.gov := rfl
@[simp] theorem State.writeLane_clk (s : State) (site r l n : Nat) (v : Bool) : (s.writeLane site r l n v).clk = s.clk := rfl
@[simp] theorem State.writeLane_acq (s : State) (site r l n : Nat) (v : Bool) : (s.writeLane site r l n v).acq = s.acq := rfl
@[simp] theorem State.writeLane_time (s : State) (site r l n : Nat) (v : Bool) : (s.writeLane site r l n v).time = s.time := rfl
@[simp] theorem State.writeLane_mlipend (s : State) (site r l n : Nat) (v : Bool) : (s.writeLane site r l n v).mlipend = s.mlipend := rfl
@[simp] theorem State.writeLane_spokes (s : State) (site r l n : Nat) (v : Bool) : (s.writeLane site r l n v).spokes = s.spokes := rfl
@[simp] theorem State.writeLane_spokeRx (s : State) (site r l n : Nat) (v : Bool) : (s.writeLane site r l n v).spokeRx = s.spokeRx := rfl
@[simp] theorem State.writeLane_watchFirst (s : State) (site r l n : Nat) (v : Bool) : (s.writeLane site r l n v).watchFirst = s.watchFirst := rfl
@[simp] theorem State.writeLane_hostWins (s : State) (site r l n : Nat) (v : Bool) : (s.writeLane site r l n v).hostWins = s.hostWins := rfl
@[simp] theorem State.writeLane_readData (s : State) (site r l n : Nat) (v : Bool) : (s.writeLane site r l n v).readData = s.readData := rfl
@[simp] theorem State.writeLane_dram (s : State) (site r l n : Nat) (v : Bool) : (s.writeLane site r l n v).dram = s.dram := rfl
@[simp] theorem State.writeLane_host (s : State) (site r l n : Nat) (v : Bool) : (s.writeLane site r l n v).host = s.host := rfl
@[simp] theorem State.writeLane_sluices (s : State) (site r l n : Nat) (v : Bool) : (s.writeLane site r l n v).sluices = s.sluices := rfl
@[simp] theorem State.writeLane_loader (s : State) (site r l n : Nat) (v : Bool) : (s.writeLane site r l n v).loader = s.loader := rfl
@[simp] theorem State.writeLane_keys (s : State) (site r l n : Nat) (v : Bool) : (s.writeLane site r l n v).keys = s.keys := rfl
@[simp] theorem State.writeLane_boot (s : State) (site r l n : Nat) (v : Bool) : (s.writeLane site r l n v).boot = s.boot := rfl
@[simp] theorem State.writeLane_hop (s : State) (site r l n : Nat) (v : Bool) : (s.writeLane site r l n v).hop = s.hop := rfl
@[simp] theorem State.writeLane_sched (s : State) (site r l n : Nat) (v : Bool) : (s.writeLane site r l n v).sched = s.sched := rfl
@[simp] theorem State.writeLane_millers (s : State) (site r l n : Nat) (v : Bool) : (s.writeLane site r l n v).millers = s.millers := rfl
@[simp] theorem State.writeLane_portData (s : State) (site r l n : Nat) (v : Bool) : (s.writeLane site r l n v).portData = s.portData := rfl
@[simp] theorem State.writeLane_dbg (s : State) (site r l n : Nat) (v : Bool) : (s.writeLane site r l n v).dbg = s.dbg := rfl
@[simp] theorem State.writeLane_pins (s : State) (site r l n : Nat) (v : Bool) : (s.writeLane site r l n v).pins = s.pins := rfl
@[simp] theorem State.writeLane_trace (s : State) (site r l n : Nat) (v : Bool) : (s.writeLane site r l n v).trace = s.trace := rfl
@[simp] theorem State.writeLane_uptime (s : State) (site r l n : Nat) (v : Bool) : (s.writeLane site r l n v).uptime = s.uptime := rfl
@[simp] theorem State.writeLane_power (s : State) (site r l n : Nat) (v : Bool) : (s.writeLane site r l n v).power = s.power := rfl
@[simp] theorem State.writeLane_free (s : State) (site r l n : Nat) (v : Bool) : (s.writeLane site r l n v).free = s.free := rfl
@[simp] theorem State.writeLane_pending (s : State) (site r l n : Nat) (v : Bool) : (s.writeLane site r l n v).pending = s.pending := rfl
@[simp] theorem State.writeLane_reg (s : State) (site r l n : Nat) (v : Bool) (a0 : Nat) : (s.writeLane site r l n v).reg a0 = s.reg a0 := rfl
@[simp] theorem State.writeLane_get (s : State) (site r l n : Nat) (v : Bool) (g0 : Fld) : (s.writeLane site r l n v).get g0 = s.get g0 := rfl

/-! ## emit -/

@[simp] theorem State.emit_regs (s : State) (pk : Pkt) (source : Nat) (marked : Bool) : (s.emit pk source marked).regs = s.regs := rfl
@[simp] theorem State.emit_parts (s : State) (pk : Pkt) (source : Nat) (marked : Bool) : (s.emit pk source marked).parts = s.parts := rfl
@[simp] theorem State.emit_stones (s : State) (pk : Pkt) (source : Nat) (marked : Bool) : (s.emit pk source marked).stones = s.stones := rfl
@[simp] theorem State.emit_flume (s : State) (pk : Pkt) (source : Nat) (marked : Bool) : (s.emit pk source marked).flume = s.flume := rfl
@[simp] theorem State.emit_dm (s : State) (pk : Pkt) (source : Nat) (marked : Bool) : (s.emit pk source marked).dm = s.dm := rfl
@[simp] theorem State.emit_evt (s : State) (pk : Pkt) (source : Nat) (marked : Bool) : (s.emit pk source marked).evt = s.evt := rfl
@[simp] theorem State.emit_lines (s : State) (pk : Pkt) (source : Nat) (marked : Bool) : (s.emit pk source marked).lines = s.lines := rfl
@[simp] theorem State.emit_gov (s : State) (pk : Pkt) (source : Nat) (marked : Bool) : (s.emit pk source marked).gov = s.gov := rfl
@[simp] theorem State.emit_clk (s : State) (pk : Pkt) (source : Nat) (marked : Bool) : (s.emit pk source marked).clk = s.clk := rfl
@[simp] theorem State.emit_acq (s : State) (pk : Pkt) (source : Nat) (marked : Bool) : (s.emit pk source marked).acq = s.acq := rfl
@[simp] theorem State.emit_time (s : State) (pk : Pkt) (source : Nat) (marked : Bool) : (s.emit pk source marked).time = s.time := rfl
@[simp] theorem State.emit_mlipend (s : State) (pk : Pkt) (source : Nat) (marked : Bool) : (s.emit pk source marked).mlipend = s.mlipend := rfl
@[simp] theorem State.emit_spokes (s : State) (pk : Pkt) (source : Nat) (marked : Bool) : (s.emit pk source marked).spokes = s.spokes := rfl
@[simp] theorem State.emit_spokeRx (s : State) (pk : Pkt) (source : Nat) (marked : Bool) : (s.emit pk source marked).spokeRx = s.spokeRx := rfl
@[simp] theorem State.emit_watchFirst (s : State) (pk : Pkt) (source : Nat) (marked : Bool) : (s.emit pk source marked).watchFirst = s.watchFirst := rfl
@[simp] theorem State.emit_hostWins (s : State) (pk : Pkt) (source : Nat) (marked : Bool) : (s.emit pk source marked).hostWins = s.hostWins := rfl
@[simp] theorem State.emit_readData (s : State) (pk : Pkt) (source : Nat) (marked : Bool) : (s.emit pk source marked).readData = s.readData := rfl
@[simp] theorem State.emit_dram (s : State) (pk : Pkt) (source : Nat) (marked : Bool) : (s.emit pk source marked).dram = s.dram := rfl
@[simp] theorem State.emit_host (s : State) (pk : Pkt) (source : Nat) (marked : Bool) : (s.emit pk source marked).host = s.host := rfl
@[simp] theorem State.emit_sluices (s : State) (pk : Pkt) (source : Nat) (marked : Bool) : (s.emit pk source marked).sluices = s.sluices := rfl
@[simp] theorem State.emit_loader (s : State) (pk : Pkt) (source : Nat) (marked : Bool) : (s.emit pk source marked).loader = s.loader := rfl
@[simp] theorem State.emit_keys (s : State) (pk : Pkt) (source : Nat) (marked : Bool) : (s.emit pk source marked).keys = s.keys := rfl
@[simp] theorem State.emit_boot (s : State) (pk : Pkt) (source : Nat) (marked : Bool) : (s.emit pk source marked).boot = s.boot := rfl
@[simp] theorem State.emit_hop (s : State) (pk : Pkt) (source : Nat) (marked : Bool) : (s.emit pk source marked).hop = s.hop := rfl
@[simp] theorem State.emit_sched (s : State) (pk : Pkt) (source : Nat) (marked : Bool) : (s.emit pk source marked).sched = s.sched := rfl
@[simp] theorem State.emit_millers (s : State) (pk : Pkt) (source : Nat) (marked : Bool) : (s.emit pk source marked).millers = s.millers := rfl
@[simp] theorem State.emit_portData (s : State) (pk : Pkt) (source : Nat) (marked : Bool) : (s.emit pk source marked).portData = s.portData := rfl
@[simp] theorem State.emit_dbg (s : State) (pk : Pkt) (source : Nat) (marked : Bool) : (s.emit pk source marked).dbg = s.dbg := rfl
@[simp] theorem State.emit_pins (s : State) (pk : Pkt) (source : Nat) (marked : Bool) : (s.emit pk source marked).pins = s.pins := rfl
@[simp] theorem State.emit_trace (s : State) (pk : Pkt) (source : Nat) (marked : Bool) : (s.emit pk source marked).trace = s.trace := rfl
@[simp] theorem State.emit_uptime (s : State) (pk : Pkt) (source : Nat) (marked : Bool) : (s.emit pk source marked).uptime = s.uptime := rfl
@[simp] theorem State.emit_power (s : State) (pk : Pkt) (source : Nat) (marked : Bool) : (s.emit pk source marked).power = s.power := rfl
@[simp] theorem State.emit_free (s : State) (pk : Pkt) (source : Nat) (marked : Bool) : (s.emit pk source marked).free = s.free := rfl
@[simp] theorem State.emit_pending (s : State) (pk : Pkt) (source : Nat) (marked : Bool) : (s.emit pk source marked).pending = s.pending := rfl
@[simp] theorem State.emit_reg (s : State) (pk : Pkt) (source : Nat) (marked : Bool) (a0 : Nat) : (s.emit pk source marked).reg a0 = s.reg a0 := rfl
@[simp] theorem State.emit_get (s : State) (pk : Pkt) (source : Nat) (marked : Bool) (g0 : Fld) : (s.emit pk source marked).get g0 = s.get g0 := rfl

/-! ## reqDone -/

@[simp] theorem State.reqDone_regs (s : State) (i t : Nat) : (s.reqDone i t).regs = s.regs := rfl
@[simp] theorem State.reqDone_parts (s : State) (i t : Nat) : (s.reqDone i t).parts = s.parts := rfl
@[simp] theorem State.reqDone_stones (s : State) (i t : Nat) : (s.reqDone i t).stones = s.stones := rfl
@[simp] theorem State.reqDone_flume (s : State) (i t : Nat) : (s.reqDone i t).flume = s.flume := rfl
@[simp] theorem State.reqDone_dm (s : State) (i t : Nat) : (s.reqDone i t).dm = s.dm := rfl
@[simp] theorem State.reqDone_evt (s : State) (i t : Nat) : (s.reqDone i t).evt = s.evt := rfl
@[simp] theorem State.reqDone_lines (s : State) (i t : Nat) : (s.reqDone i t).lines = s.lines := rfl
@[simp] theorem State.reqDone_gov (s : State) (i t : Nat) : (s.reqDone i t).gov = s.gov := rfl
@[simp] theorem State.reqDone_clk (s : State) (i t : Nat) : (s.reqDone i t).clk = s.clk := rfl
@[simp] theorem State.reqDone_acq (s : State) (i t : Nat) : (s.reqDone i t).acq = s.acq := rfl
@[simp] theorem State.reqDone_time (s : State) (i t : Nat) : (s.reqDone i t).time = s.time := rfl
@[simp] theorem State.reqDone_mlipend (s : State) (i t : Nat) : (s.reqDone i t).mlipend = s.mlipend := rfl
@[simp] theorem State.reqDone_spokes (s : State) (i t : Nat) : (s.reqDone i t).spokes = s.spokes := rfl
@[simp] theorem State.reqDone_spokeRx (s : State) (i t : Nat) : (s.reqDone i t).spokeRx = s.spokeRx := rfl
@[simp] theorem State.reqDone_watchFirst (s : State) (i t : Nat) : (s.reqDone i t).watchFirst = s.watchFirst := rfl
@[simp] theorem State.reqDone_hostWins (s : State) (i t : Nat) : (s.reqDone i t).hostWins = s.hostWins := rfl
@[simp] theorem State.reqDone_readData (s : State) (i t : Nat) : (s.reqDone i t).readData = s.readData := rfl
@[simp] theorem State.reqDone_dram (s : State) (i t : Nat) : (s.reqDone i t).dram = s.dram := rfl
@[simp] theorem State.reqDone_host (s : State) (i t : Nat) : (s.reqDone i t).host = s.host := rfl
@[simp] theorem State.reqDone_sluices (s : State) (i t : Nat) : (s.reqDone i t).sluices = s.sluices := rfl
@[simp] theorem State.reqDone_loader (s : State) (i t : Nat) : (s.reqDone i t).loader = s.loader := rfl
@[simp] theorem State.reqDone_keys (s : State) (i t : Nat) : (s.reqDone i t).keys = s.keys := rfl
@[simp] theorem State.reqDone_boot (s : State) (i t : Nat) : (s.reqDone i t).boot = s.boot := rfl
@[simp] theorem State.reqDone_hop (s : State) (i t : Nat) : (s.reqDone i t).hop = s.hop := rfl
@[simp] theorem State.reqDone_sched (s : State) (i t : Nat) : (s.reqDone i t).sched = s.sched := rfl
@[simp] theorem State.reqDone_millers (s : State) (i t : Nat) : (s.reqDone i t).millers = s.millers := rfl
@[simp] theorem State.reqDone_portData (s : State) (i t : Nat) : (s.reqDone i t).portData = s.portData := rfl
@[simp] theorem State.reqDone_dbg (s : State) (i t : Nat) : (s.reqDone i t).dbg = s.dbg := rfl
@[simp] theorem State.reqDone_pins (s : State) (i t : Nat) : (s.reqDone i t).pins = s.pins := rfl
@[simp] theorem State.reqDone_trace (s : State) (i t : Nat) : (s.reqDone i t).trace = s.trace := rfl
@[simp] theorem State.reqDone_uptime (s : State) (i t : Nat) : (s.reqDone i t).uptime = s.uptime := rfl
@[simp] theorem State.reqDone_power (s : State) (i t : Nat) : (s.reqDone i t).power = s.power := rfl
@[simp] theorem State.reqDone_free (s : State) (i t : Nat) : (s.reqDone i t).free = s.free := rfl
@[simp] theorem State.reqDone_pending (s : State) (i t : Nat) : (s.reqDone i t).pending = s.pending := rfl
@[simp] theorem State.reqDone_reg (s : State) (i t : Nat) (a0 : Nat) : (s.reqDone i t).reg a0 = s.reg a0 := rfl
@[simp] theorem State.reqDone_get (s : State) (i t : Nat) (g0 : Fld) : (s.reqDone i t).get g0 = s.get g0 := rfl

/-! ## reqDelivered -/

@[simp] theorem State.reqDelivered_regs (s : State) (h : Unit128) : (s.reqDelivered h).regs = s.regs := rfl
@[simp] theorem State.reqDelivered_parts (s : State) (h : Unit128) : (s.reqDelivered h).parts = s.parts := rfl
@[simp] theorem State.reqDelivered_stones (s : State) (h : Unit128) : (s.reqDelivered h).stones = s.stones := rfl
@[simp] theorem State.reqDelivered_flume (s : State) (h : Unit128) : (s.reqDelivered h).flume = s.flume := rfl
@[simp] theorem State.reqDelivered_dm (s : State) (h : Unit128) : (s.reqDelivered h).dm = s.dm := rfl
@[simp] theorem State.reqDelivered_evt (s : State) (h : Unit128) : (s.reqDelivered h).evt = s.evt := rfl
@[simp] theorem State.reqDelivered_lines (s : State) (h : Unit128) : (s.reqDelivered h).lines = s.lines := rfl
@[simp] theorem State.reqDelivered_gov (s : State) (h : Unit128) : (s.reqDelivered h).gov = s.gov := rfl
@[simp] theorem State.reqDelivered_clk (s : State) (h : Unit128) : (s.reqDelivered h).clk = s.clk := rfl
@[simp] theorem State.reqDelivered_acq (s : State) (h : Unit128) : (s.reqDelivered h).acq = s.acq := rfl
@[simp] theorem State.reqDelivered_time (s : State) (h : Unit128) : (s.reqDelivered h).time = s.time := rfl
@[simp] theorem State.reqDelivered_mlipend (s : State) (h : Unit128) : (s.reqDelivered h).mlipend = s.mlipend := rfl
@[simp] theorem State.reqDelivered_spokes (s : State) (h : Unit128) : (s.reqDelivered h).spokes = s.spokes := rfl
@[simp] theorem State.reqDelivered_spokeRx (s : State) (h : Unit128) : (s.reqDelivered h).spokeRx = s.spokeRx := rfl
@[simp] theorem State.reqDelivered_watchFirst (s : State) (h : Unit128) : (s.reqDelivered h).watchFirst = s.watchFirst := rfl
@[simp] theorem State.reqDelivered_hostWins (s : State) (h : Unit128) : (s.reqDelivered h).hostWins = s.hostWins := rfl
@[simp] theorem State.reqDelivered_readData (s : State) (h : Unit128) : (s.reqDelivered h).readData = s.readData := rfl
@[simp] theorem State.reqDelivered_dram (s : State) (h : Unit128) : (s.reqDelivered h).dram = s.dram := rfl
@[simp] theorem State.reqDelivered_host (s : State) (h : Unit128) : (s.reqDelivered h).host = s.host := rfl
@[simp] theorem State.reqDelivered_sluices (s : State) (h : Unit128) : (s.reqDelivered h).sluices = s.sluices := rfl
@[simp] theorem State.reqDelivered_loader (s : State) (h : Unit128) : (s.reqDelivered h).loader = s.loader := rfl
@[simp] theorem State.reqDelivered_keys (s : State) (h : Unit128) : (s.reqDelivered h).keys = s.keys := rfl
@[simp] theorem State.reqDelivered_boot (s : State) (h : Unit128) : (s.reqDelivered h).boot = s.boot := rfl
@[simp] theorem State.reqDelivered_hop (s : State) (h : Unit128) : (s.reqDelivered h).hop = s.hop := rfl
@[simp] theorem State.reqDelivered_sched (s : State) (h : Unit128) : (s.reqDelivered h).sched = s.sched := rfl
@[simp] theorem State.reqDelivered_millers (s : State) (h : Unit128) : (s.reqDelivered h).millers = s.millers := rfl
@[simp] theorem State.reqDelivered_portData (s : State) (h : Unit128) : (s.reqDelivered h).portData = s.portData := rfl
@[simp] theorem State.reqDelivered_dbg (s : State) (h : Unit128) : (s.reqDelivered h).dbg = s.dbg := rfl
@[simp] theorem State.reqDelivered_pins (s : State) (h : Unit128) : (s.reqDelivered h).pins = s.pins := rfl
@[simp] theorem State.reqDelivered_trace (s : State) (h : Unit128) : (s.reqDelivered h).trace = s.trace := rfl
@[simp] theorem State.reqDelivered_uptime (s : State) (h : Unit128) : (s.reqDelivered h).uptime = s.uptime := rfl
@[simp] theorem State.reqDelivered_power (s : State) (h : Unit128) : (s.reqDelivered h).power = s.power := rfl
@[simp] theorem State.reqDelivered_free (s : State) (h : Unit128) : (s.reqDelivered h).free = s.free := rfl
@[simp] theorem State.reqDelivered_pending (s : State) (h : Unit128) : (s.reqDelivered h).pending = s.pending := rfl
@[simp] theorem State.reqDelivered_reg (s : State) (h : Unit128) (a0 : Nat) : (s.reqDelivered h).reg a0 = s.reg a0 := rfl
@[simp] theorem State.reqDelivered_get (s : State) (h : Unit128) (g0 : Fld) : (s.reqDelivered h).get g0 = s.get g0 := rfl

/-! ## setCap -/

@[simp] theorem State.setCap_regs (s : State) (p : Nat) (x : CapPart) : (s.setCap p x).regs = s.regs := rfl
@[simp] theorem State.setCap_parts (s : State) (p : Nat) (x : CapPart) : (s.setCap p x).parts = s.parts := rfl
@[simp] theorem State.setCap_stones (s : State) (p : Nat) (x : CapPart) : (s.setCap p x).stones = s.stones := rfl
@[simp] theorem State.setCap_race (s : State) (p : Nat) (x : CapPart) : (s.setCap p x).race = s.race := rfl
@[simp] theorem State.setCap_flume (s : State) (p : Nat) (x : CapPart) : (s.setCap p x).flume = s.flume := rfl
@[simp] theorem State.setCap_dm (s : State) (p : Nat) (x : CapPart) : (s.setCap p x).dm = s.dm := rfl
@[simp] theorem State.setCap_evt (s : State) (p : Nat) (x : CapPart) : (s.setCap p x).evt = s.evt := rfl
@[simp] theorem State.setCap_lines (s : State) (p : Nat) (x : CapPart) : (s.setCap p x).lines = s.lines := rfl
@[simp] theorem State.setCap_gov (s : State) (p : Nat) (x : CapPart) : (s.setCap p x).gov = s.gov := rfl
@[simp] theorem State.setCap_clk (s : State) (p : Nat) (x : CapPart) : (s.setCap p x).clk = s.clk := rfl
@[simp] theorem State.setCap_time (s : State) (p : Nat) (x : CapPart) : (s.setCap p x).time = s.time := rfl
@[simp] theorem State.setCap_mlipend (s : State) (p : Nat) (x : CapPart) : (s.setCap p x).mlipend = s.mlipend := rfl
@[simp] theorem State.setCap_spokes (s : State) (p : Nat) (x : CapPart) : (s.setCap p x).spokes = s.spokes := rfl
@[simp] theorem State.setCap_spokeRx (s : State) (p : Nat) (x : CapPart) : (s.setCap p x).spokeRx = s.spokeRx := rfl
@[simp] theorem State.setCap_watchFirst (s : State) (p : Nat) (x : CapPart) : (s.setCap p x).watchFirst = s.watchFirst := rfl
@[simp] theorem State.setCap_hostWins (s : State) (p : Nat) (x : CapPart) : (s.setCap p x).hostWins = s.hostWins := rfl
@[simp] theorem State.setCap_readData (s : State) (p : Nat) (x : CapPart) : (s.setCap p x).readData = s.readData := rfl
@[simp] theorem State.setCap_dram (s : State) (p : Nat) (x : CapPart) : (s.setCap p x).dram = s.dram := rfl
@[simp] theorem State.setCap_host (s : State) (p : Nat) (x : CapPart) : (s.setCap p x).host = s.host := rfl
@[simp] theorem State.setCap_sluices (s : State) (p : Nat) (x : CapPart) : (s.setCap p x).sluices = s.sluices := rfl
@[simp] theorem State.setCap_loader (s : State) (p : Nat) (x : CapPart) : (s.setCap p x).loader = s.loader := rfl
@[simp] theorem State.setCap_keys (s : State) (p : Nat) (x : CapPart) : (s.setCap p x).keys = s.keys := rfl
@[simp] theorem State.setCap_boot (s : State) (p : Nat) (x : CapPart) : (s.setCap p x).boot = s.boot := rfl
@[simp] theorem State.setCap_hop (s : State) (p : Nat) (x : CapPart) : (s.setCap p x).hop = s.hop := rfl
@[simp] theorem State.setCap_sched (s : State) (p : Nat) (x : CapPart) : (s.setCap p x).sched = s.sched := rfl
@[simp] theorem State.setCap_millers (s : State) (p : Nat) (x : CapPart) : (s.setCap p x).millers = s.millers := rfl
@[simp] theorem State.setCap_portData (s : State) (p : Nat) (x : CapPart) : (s.setCap p x).portData = s.portData := rfl
@[simp] theorem State.setCap_dbg (s : State) (p : Nat) (x : CapPart) : (s.setCap p x).dbg = s.dbg := rfl
@[simp] theorem State.setCap_pins (s : State) (p : Nat) (x : CapPart) : (s.setCap p x).pins = s.pins := rfl
@[simp] theorem State.setCap_trace (s : State) (p : Nat) (x : CapPart) : (s.setCap p x).trace = s.trace := rfl
@[simp] theorem State.setCap_uptime (s : State) (p : Nat) (x : CapPart) : (s.setCap p x).uptime = s.uptime := rfl
@[simp] theorem State.setCap_power (s : State) (p : Nat) (x : CapPart) : (s.setCap p x).power = s.power := rfl
@[simp] theorem State.setCap_free (s : State) (p : Nat) (x : CapPart) : (s.setCap p x).free = s.free := rfl
@[simp] theorem State.setCap_pending (s : State) (p : Nat) (x : CapPart) : (s.setCap p x).pending = s.pending := rfl
@[simp] theorem State.setCap_reg (s : State) (p : Nat) (x : CapPart) (a0 : Nat) : (s.setCap p x).reg a0 = s.reg a0 := rfl
@[simp] theorem State.setCap_get (s : State) (p : Nat) (x : CapPart) (g0 : Fld) : (s.setCap p x).get g0 = s.get g0 := rfl

/-! ## mmWrite -/

@[simp] theorem State.mmWrite_regs (s : State) (w : MmWrite) : (s.mmWrite w).regs = s.regs := rfl
@[simp] theorem State.mmWrite_parts (s : State) (w : MmWrite) : (s.mmWrite w).parts = s.parts := rfl
@[simp] theorem State.mmWrite_stones (s : State) (w : MmWrite) : (s.mmWrite w).stones = s.stones := rfl
@[simp] theorem State.mmWrite_race (s : State) (w : MmWrite) : (s.mmWrite w).race = s.race := rfl
@[simp] theorem State.mmWrite_flume (s : State) (w : MmWrite) : (s.mmWrite w).flume = s.flume := rfl
@[simp] theorem State.mmWrite_evt (s : State) (w : MmWrite) : (s.mmWrite w).evt = s.evt := rfl
@[simp] theorem State.mmWrite_lines (s : State) (w : MmWrite) : (s.mmWrite w).lines = s.lines := rfl
@[simp] theorem State.mmWrite_gov (s : State) (w : MmWrite) : (s.mmWrite w).gov = s.gov := rfl
@[simp] theorem State.mmWrite_clk (s : State) (w : MmWrite) : (s.mmWrite w).clk = s.clk := rfl
@[simp] theorem State.mmWrite_acq (s : State) (w : MmWrite) : (s.mmWrite w).acq = s.acq := rfl
@[simp] theorem State.mmWrite_time (s : State) (w : MmWrite) : (s.mmWrite w).time = s.time := rfl
@[simp] theorem State.mmWrite_mlipend (s : State) (w : MmWrite) : (s.mmWrite w).mlipend = s.mlipend := rfl
@[simp] theorem State.mmWrite_spokes (s : State) (w : MmWrite) : (s.mmWrite w).spokes = s.spokes := rfl
@[simp] theorem State.mmWrite_spokeRx (s : State) (w : MmWrite) : (s.mmWrite w).spokeRx = s.spokeRx := rfl
@[simp] theorem State.mmWrite_watchFirst (s : State) (w : MmWrite) : (s.mmWrite w).watchFirst = s.watchFirst := rfl
@[simp] theorem State.mmWrite_hostWins (s : State) (w : MmWrite) : (s.mmWrite w).hostWins = s.hostWins := rfl
@[simp] theorem State.mmWrite_readData (s : State) (w : MmWrite) : (s.mmWrite w).readData = s.readData := rfl
@[simp] theorem State.mmWrite_dram (s : State) (w : MmWrite) : (s.mmWrite w).dram = s.dram := rfl
@[simp] theorem State.mmWrite_host (s : State) (w : MmWrite) : (s.mmWrite w).host = s.host := rfl
@[simp] theorem State.mmWrite_sluices (s : State) (w : MmWrite) : (s.mmWrite w).sluices = s.sluices := rfl
@[simp] theorem State.mmWrite_loader (s : State) (w : MmWrite) : (s.mmWrite w).loader = s.loader := rfl
@[simp] theorem State.mmWrite_keys (s : State) (w : MmWrite) : (s.mmWrite w).keys = s.keys := rfl
@[simp] theorem State.mmWrite_boot (s : State) (w : MmWrite) : (s.mmWrite w).boot = s.boot := rfl
@[simp] theorem State.mmWrite_hop (s : State) (w : MmWrite) : (s.mmWrite w).hop = s.hop := rfl
@[simp] theorem State.mmWrite_sched (s : State) (w : MmWrite) : (s.mmWrite w).sched = s.sched := rfl
@[simp] theorem State.mmWrite_millers (s : State) (w : MmWrite) : (s.mmWrite w).millers = s.millers := rfl
@[simp] theorem State.mmWrite_portData (s : State) (w : MmWrite) : (s.mmWrite w).portData = s.portData := rfl
@[simp] theorem State.mmWrite_dbg (s : State) (w : MmWrite) : (s.mmWrite w).dbg = s.dbg := rfl
@[simp] theorem State.mmWrite_pins (s : State) (w : MmWrite) : (s.mmWrite w).pins = s.pins := rfl
@[simp] theorem State.mmWrite_trace (s : State) (w : MmWrite) : (s.mmWrite w).trace = s.trace := rfl
@[simp] theorem State.mmWrite_uptime (s : State) (w : MmWrite) : (s.mmWrite w).uptime = s.uptime := rfl
@[simp] theorem State.mmWrite_power (s : State) (w : MmWrite) : (s.mmWrite w).power = s.power := rfl
@[simp] theorem State.mmWrite_free (s : State) (w : MmWrite) : (s.mmWrite w).free = s.free := rfl
@[simp] theorem State.mmWrite_pending (s : State) (w : MmWrite) : (s.mmWrite w).pending = s.pending := rfl
@[simp] theorem State.mmWrite_reg (s : State) (w : MmWrite) (a0 : Nat) : (s.mmWrite w).reg a0 = s.reg a0 := rfl
@[simp] theorem State.mmWrite_get (s : State) (w : MmWrite) (g0 : Fld) : (s.mmWrite w).get g0 = s.get g0 := rfl

/-! ## setFarPort -/

@[simp] theorem State.setFarPort_regs (s : State) (id : Nat) (x : FarPort) : (s.setFarPort id x).regs = s.regs := rfl
@[simp] theorem State.setFarPort_parts (s : State) (id : Nat) (x : FarPort) : (s.setFarPort id x).parts = s.parts := rfl
@[simp] theorem State.setFarPort_stones (s : State) (id : Nat) (x : FarPort) : (s.setFarPort id x).stones = s.stones := rfl
@[simp] theorem State.setFarPort_race (s : State) (id : Nat) (x : FarPort) : (s.setFarPort id x).race = s.race := rfl
@[simp] theorem State.setFarPort_flume (s : State) (id : Nat) (x : FarPort) : (s.setFarPort id x).flume = s.flume := rfl
@[simp] theorem State.setFarPort_evt (s : State) (id : Nat) (x : FarPort) : (s.setFarPort id x).evt = s.evt := rfl
@[simp] theorem State.setFarPort_lines (s : State) (id : Nat) (x : FarPort) : (s.setFarPort id x).lines = s.lines := rfl
@[simp] theorem State.setFarPort_gov (s : State) (id : Nat) (x : FarPort) : (s.setFarPort id x).gov = s.gov := rfl
@[simp] theorem State.setFarPort_clk (s : State) (id : Nat) (x : FarPort) : (s.setFarPort id x).clk = s.clk := rfl
@[simp] theorem State.setFarPort_acq (s : State) (id : Nat) (x : FarPort) : (s.setFarPort id x).acq = s.acq := rfl
@[simp] theorem State.setFarPort_time (s : State) (id : Nat) (x : FarPort) : (s.setFarPort id x).time = s.time := rfl
@[simp] theorem State.setFarPort_mlipend (s : State) (id : Nat) (x : FarPort) : (s.setFarPort id x).mlipend = s.mlipend := rfl
@[simp] theorem State.setFarPort_spokes (s : State) (id : Nat) (x : FarPort) : (s.setFarPort id x).spokes = s.spokes := rfl
@[simp] theorem State.setFarPort_spokeRx (s : State) (id : Nat) (x : FarPort) : (s.setFarPort id x).spokeRx = s.spokeRx := rfl
@[simp] theorem State.setFarPort_watchFirst (s : State) (id : Nat) (x : FarPort) : (s.setFarPort id x).watchFirst = s.watchFirst := rfl
@[simp] theorem State.setFarPort_hostWins (s : State) (id : Nat) (x : FarPort) : (s.setFarPort id x).hostWins = s.hostWins := rfl
@[simp] theorem State.setFarPort_readData (s : State) (id : Nat) (x : FarPort) : (s.setFarPort id x).readData = s.readData := rfl
@[simp] theorem State.setFarPort_dram (s : State) (id : Nat) (x : FarPort) : (s.setFarPort id x).dram = s.dram := rfl
@[simp] theorem State.setFarPort_host (s : State) (id : Nat) (x : FarPort) : (s.setFarPort id x).host = s.host := rfl
@[simp] theorem State.setFarPort_sluices (s : State) (id : Nat) (x : FarPort) : (s.setFarPort id x).sluices = s.sluices := rfl
@[simp] theorem State.setFarPort_loader (s : State) (id : Nat) (x : FarPort) : (s.setFarPort id x).loader = s.loader := rfl
@[simp] theorem State.setFarPort_keys (s : State) (id : Nat) (x : FarPort) : (s.setFarPort id x).keys = s.keys := rfl
@[simp] theorem State.setFarPort_boot (s : State) (id : Nat) (x : FarPort) : (s.setFarPort id x).boot = s.boot := rfl
@[simp] theorem State.setFarPort_hop (s : State) (id : Nat) (x : FarPort) : (s.setFarPort id x).hop = s.hop := rfl
@[simp] theorem State.setFarPort_sched (s : State) (id : Nat) (x : FarPort) : (s.setFarPort id x).sched = s.sched := rfl
@[simp] theorem State.setFarPort_millers (s : State) (id : Nat) (x : FarPort) : (s.setFarPort id x).millers = s.millers := rfl
@[simp] theorem State.setFarPort_portData (s : State) (id : Nat) (x : FarPort) : (s.setFarPort id x).portData = s.portData := rfl
@[simp] theorem State.setFarPort_dbg (s : State) (id : Nat) (x : FarPort) : (s.setFarPort id x).dbg = s.dbg := rfl
@[simp] theorem State.setFarPort_pins (s : State) (id : Nat) (x : FarPort) : (s.setFarPort id x).pins = s.pins := rfl
@[simp] theorem State.setFarPort_trace (s : State) (id : Nat) (x : FarPort) : (s.setFarPort id x).trace = s.trace := rfl
@[simp] theorem State.setFarPort_uptime (s : State) (id : Nat) (x : FarPort) : (s.setFarPort id x).uptime = s.uptime := rfl
@[simp] theorem State.setFarPort_power (s : State) (id : Nat) (x : FarPort) : (s.setFarPort id x).power = s.power := rfl
@[simp] theorem State.setFarPort_free (s : State) (id : Nat) (x : FarPort) : (s.setFarPort id x).free = s.free := rfl
@[simp] theorem State.setFarPort_pending (s : State) (id : Nat) (x : FarPort) : (s.setFarPort id x).pending = s.pending := rfl
@[simp] theorem State.setFarPort_reg (s : State) (id : Nat) (x : FarPort) (a0 : Nat) : (s.setFarPort id x).reg a0 = s.reg a0 := rfl
@[simp] theorem State.setFarPort_get (s : State) (id : Nat) (x : FarPort) (g0 : Fld) : (s.setFarPort id x).get g0 = s.get g0 := rfl

/-! ## setMmMark -/

@[simp] theorem State.setMmMark_regs (s : State) (key f : Nat) : (s.setMmMark key f).regs = s.regs := rfl
@[simp] theorem State.setMmMark_parts (s : State) (key f : Nat) : (s.setMmMark key f).parts = s.parts := rfl
@[simp] theorem State.setMmMark_stones (s : State) (key f : Nat) : (s.setMmMark key f).stones = s.stones := rfl
@[simp] theorem State.setMmMark_race (s : State) (key f : Nat) : (s.setMmMark key f).race = s.race := rfl
@[simp] theorem State.setMmMark_flume (s : State) (key f : Nat) : (s.setMmMark key f).flume = s.flume := rfl
@[simp] theorem State.setMmMark_evt (s : State) (key f : Nat) : (s.setMmMark key f).evt = s.evt := rfl
@[simp] theorem State.setMmMark_lines (s : State) (key f : Nat) : (s.setMmMark key f).lines = s.lines := rfl
@[simp] theorem State.setMmMark_gov (s : State) (key f : Nat) : (s.setMmMark key f).gov = s.gov := rfl
@[simp] theorem State.setMmMark_clk (s : State) (key f : Nat) : (s.setMmMark key f).clk = s.clk := rfl
@[simp] theorem State.setMmMark_acq (s : State) (key f : Nat) : (s.setMmMark key f).acq = s.acq := rfl
@[simp] theorem State.setMmMark_time (s : State) (key f : Nat) : (s.setMmMark key f).time = s.time := rfl
@[simp] theorem State.setMmMark_mlipend (s : State) (key f : Nat) : (s.setMmMark key f).mlipend = s.mlipend := rfl
@[simp] theorem State.setMmMark_spokes (s : State) (key f : Nat) : (s.setMmMark key f).spokes = s.spokes := rfl
@[simp] theorem State.setMmMark_spokeRx (s : State) (key f : Nat) : (s.setMmMark key f).spokeRx = s.spokeRx := rfl
@[simp] theorem State.setMmMark_watchFirst (s : State) (key f : Nat) : (s.setMmMark key f).watchFirst = s.watchFirst := rfl
@[simp] theorem State.setMmMark_hostWins (s : State) (key f : Nat) : (s.setMmMark key f).hostWins = s.hostWins := rfl
@[simp] theorem State.setMmMark_readData (s : State) (key f : Nat) : (s.setMmMark key f).readData = s.readData := rfl
@[simp] theorem State.setMmMark_dram (s : State) (key f : Nat) : (s.setMmMark key f).dram = s.dram := rfl
@[simp] theorem State.setMmMark_host (s : State) (key f : Nat) : (s.setMmMark key f).host = s.host := rfl
@[simp] theorem State.setMmMark_sluices (s : State) (key f : Nat) : (s.setMmMark key f).sluices = s.sluices := rfl
@[simp] theorem State.setMmMark_loader (s : State) (key f : Nat) : (s.setMmMark key f).loader = s.loader := rfl
@[simp] theorem State.setMmMark_keys (s : State) (key f : Nat) : (s.setMmMark key f).keys = s.keys := rfl
@[simp] theorem State.setMmMark_boot (s : State) (key f : Nat) : (s.setMmMark key f).boot = s.boot := rfl
@[simp] theorem State.setMmMark_hop (s : State) (key f : Nat) : (s.setMmMark key f).hop = s.hop := rfl
@[simp] theorem State.setMmMark_sched (s : State) (key f : Nat) : (s.setMmMark key f).sched = s.sched := rfl
@[simp] theorem State.setMmMark_millers (s : State) (key f : Nat) : (s.setMmMark key f).millers = s.millers := rfl
@[simp] theorem State.setMmMark_portData (s : State) (key f : Nat) : (s.setMmMark key f).portData = s.portData := rfl
@[simp] theorem State.setMmMark_dbg (s : State) (key f : Nat) : (s.setMmMark key f).dbg = s.dbg := rfl
@[simp] theorem State.setMmMark_pins (s : State) (key f : Nat) : (s.setMmMark key f).pins = s.pins := rfl
@[simp] theorem State.setMmMark_trace (s : State) (key f : Nat) : (s.setMmMark key f).trace = s.trace := rfl
@[simp] theorem State.setMmMark_uptime (s : State) (key f : Nat) : (s.setMmMark key f).uptime = s.uptime := rfl
@[simp] theorem State.setMmMark_power (s : State) (key f : Nat) : (s.setMmMark key f).power = s.power := rfl
@[simp] theorem State.setMmMark_free (s : State) (key f : Nat) : (s.setMmMark key f).free = s.free := rfl
@[simp] theorem State.setMmMark_pending (s : State) (key f : Nat) : (s.setMmMark key f).pending = s.pending := rfl
@[simp] theorem State.setMmMark_reg (s : State) (key f : Nat) (a0 : Nat) : (s.setMmMark key f).reg a0 = s.reg a0 := rfl
@[simp] theorem State.setMmMark_get (s : State) (key f : Nat) (g0 : Fld) : (s.setMmMark key f).get g0 = s.get g0 := rfl

/-! ## setSlot -/

@[simp] theorem State.setSlot_regs (s : State) (id j : Nat) (x : RSlot) : (s.setSlot id j x).regs = s.regs := rfl
@[simp] theorem State.setSlot_parts (s : State) (id j : Nat) (x : RSlot) : (s.setSlot id j x).parts = s.parts := rfl
@[simp] theorem State.setSlot_stones (s : State) (id j : Nat) (x : RSlot) : (s.setSlot id j x).stones = s.stones := rfl
@[simp] theorem State.setSlot_race (s : State) (id j : Nat) (x : RSlot) : (s.setSlot id j x).race = s.race := rfl
@[simp] theorem State.setSlot_flume (s : State) (id j : Nat) (x : RSlot) : (s.setSlot id j x).flume = s.flume := rfl
@[simp] theorem State.setSlot_evt (s : State) (id j : Nat) (x : RSlot) : (s.setSlot id j x).evt = s.evt := rfl
@[simp] theorem State.setSlot_lines (s : State) (id j : Nat) (x : RSlot) : (s.setSlot id j x).lines = s.lines := rfl
@[simp] theorem State.setSlot_gov (s : State) (id j : Nat) (x : RSlot) : (s.setSlot id j x).gov = s.gov := rfl
@[simp] theorem State.setSlot_clk (s : State) (id j : Nat) (x : RSlot) : (s.setSlot id j x).clk = s.clk := rfl
@[simp] theorem State.setSlot_acq (s : State) (id j : Nat) (x : RSlot) : (s.setSlot id j x).acq = s.acq := rfl
@[simp] theorem State.setSlot_time (s : State) (id j : Nat) (x : RSlot) : (s.setSlot id j x).time = s.time := rfl
@[simp] theorem State.setSlot_mlipend (s : State) (id j : Nat) (x : RSlot) : (s.setSlot id j x).mlipend = s.mlipend := rfl
@[simp] theorem State.setSlot_spokes (s : State) (id j : Nat) (x : RSlot) : (s.setSlot id j x).spokes = s.spokes := rfl
@[simp] theorem State.setSlot_spokeRx (s : State) (id j : Nat) (x : RSlot) : (s.setSlot id j x).spokeRx = s.spokeRx := rfl
@[simp] theorem State.setSlot_watchFirst (s : State) (id j : Nat) (x : RSlot) : (s.setSlot id j x).watchFirst = s.watchFirst := rfl
@[simp] theorem State.setSlot_hostWins (s : State) (id j : Nat) (x : RSlot) : (s.setSlot id j x).hostWins = s.hostWins := rfl
@[simp] theorem State.setSlot_readData (s : State) (id j : Nat) (x : RSlot) : (s.setSlot id j x).readData = s.readData := rfl
@[simp] theorem State.setSlot_dram (s : State) (id j : Nat) (x : RSlot) : (s.setSlot id j x).dram = s.dram := rfl
@[simp] theorem State.setSlot_host (s : State) (id j : Nat) (x : RSlot) : (s.setSlot id j x).host = s.host := rfl
@[simp] theorem State.setSlot_sluices (s : State) (id j : Nat) (x : RSlot) : (s.setSlot id j x).sluices = s.sluices := rfl
@[simp] theorem State.setSlot_loader (s : State) (id j : Nat) (x : RSlot) : (s.setSlot id j x).loader = s.loader := rfl
@[simp] theorem State.setSlot_keys (s : State) (id j : Nat) (x : RSlot) : (s.setSlot id j x).keys = s.keys := rfl
@[simp] theorem State.setSlot_boot (s : State) (id j : Nat) (x : RSlot) : (s.setSlot id j x).boot = s.boot := rfl
@[simp] theorem State.setSlot_hop (s : State) (id j : Nat) (x : RSlot) : (s.setSlot id j x).hop = s.hop := rfl
@[simp] theorem State.setSlot_sched (s : State) (id j : Nat) (x : RSlot) : (s.setSlot id j x).sched = s.sched := rfl
@[simp] theorem State.setSlot_millers (s : State) (id j : Nat) (x : RSlot) : (s.setSlot id j x).millers = s.millers := rfl
@[simp] theorem State.setSlot_portData (s : State) (id j : Nat) (x : RSlot) : (s.setSlot id j x).portData = s.portData := rfl
@[simp] theorem State.setSlot_dbg (s : State) (id j : Nat) (x : RSlot) : (s.setSlot id j x).dbg = s.dbg := rfl
@[simp] theorem State.setSlot_pins (s : State) (id j : Nat) (x : RSlot) : (s.setSlot id j x).pins = s.pins := rfl
@[simp] theorem State.setSlot_trace (s : State) (id j : Nat) (x : RSlot) : (s.setSlot id j x).trace = s.trace := rfl
@[simp] theorem State.setSlot_uptime (s : State) (id j : Nat) (x : RSlot) : (s.setSlot id j x).uptime = s.uptime := rfl
@[simp] theorem State.setSlot_power (s : State) (id j : Nat) (x : RSlot) : (s.setSlot id j x).power = s.power := rfl
@[simp] theorem State.setSlot_free (s : State) (id j : Nat) (x : RSlot) : (s.setSlot id j x).free = s.free := rfl
@[simp] theorem State.setSlot_pending (s : State) (id j : Nat) (x : RSlot) : (s.setSlot id j x).pending = s.pending := rfl
@[simp] theorem State.setSlot_reg (s : State) (id j : Nat) (x : RSlot) (a0 : Nat) : (s.setSlot id j x).reg a0 = s.reg a0 := rfl
@[simp] theorem State.setSlot_get (s : State) (id j : Nat) (x : RSlot) (g0 : Fld) : (s.setSlot id j x).get g0 = s.get g0 := rfl

/-! ## setChan -/

@[simp] theorem State.setChan_regs (s : State) (c : Nat) (x : Channel) : (s.setChan c x).regs = s.regs := rfl
@[simp] theorem State.setChan_parts (s : State) (c : Nat) (x : Channel) : (s.setChan c x).parts = s.parts := rfl
@[simp] theorem State.setChan_stones (s : State) (c : Nat) (x : Channel) : (s.setChan c x).stones = s.stones := rfl
@[simp] theorem State.setChan_race (s : State) (c : Nat) (x : Channel) : (s.setChan c x).race = s.race := rfl
@[simp] theorem State.setChan_flume (s : State) (c : Nat) (x : Channel) : (s.setChan c x).flume = s.flume := rfl
@[simp] theorem State.setChan_dm (s : State) (c : Nat) (x : Channel) : (s.setChan c x).dm = s.dm := rfl
@[simp] theorem State.setChan_evt (s : State) (c : Nat) (x : Channel) : (s.setChan c x).evt = s.evt := rfl
@[simp] theorem State.setChan_lines (s : State) (c : Nat) (x : Channel) : (s.setChan c x).lines = s.lines := rfl
@[simp] theorem State.setChan_gov (s : State) (c : Nat) (x : Channel) : (s.setChan c x).gov = s.gov := rfl
@[simp] theorem State.setChan_clk (s : State) (c : Nat) (x : Channel) : (s.setChan c x).clk = s.clk := rfl
@[simp] theorem State.setChan_acq (s : State) (c : Nat) (x : Channel) : (s.setChan c x).acq = s.acq := rfl
@[simp] theorem State.setChan_time (s : State) (c : Nat) (x : Channel) : (s.setChan c x).time = s.time := rfl
@[simp] theorem State.setChan_mlipend (s : State) (c : Nat) (x : Channel) : (s.setChan c x).mlipend = s.mlipend := rfl
@[simp] theorem State.setChan_spokes (s : State) (c : Nat) (x : Channel) : (s.setChan c x).spokes = s.spokes := rfl
@[simp] theorem State.setChan_spokeRx (s : State) (c : Nat) (x : Channel) : (s.setChan c x).spokeRx = s.spokeRx := rfl
@[simp] theorem State.setChan_watchFirst (s : State) (c : Nat) (x : Channel) : (s.setChan c x).watchFirst = s.watchFirst := rfl
@[simp] theorem State.setChan_hostWins (s : State) (c : Nat) (x : Channel) : (s.setChan c x).hostWins = s.hostWins := rfl
@[simp] theorem State.setChan_readData (s : State) (c : Nat) (x : Channel) : (s.setChan c x).readData = s.readData := rfl
@[simp] theorem State.setChan_host (s : State) (c : Nat) (x : Channel) : (s.setChan c x).host = s.host := rfl
@[simp] theorem State.setChan_sluices (s : State) (c : Nat) (x : Channel) : (s.setChan c x).sluices = s.sluices := rfl
@[simp] theorem State.setChan_loader (s : State) (c : Nat) (x : Channel) : (s.setChan c x).loader = s.loader := rfl
@[simp] theorem State.setChan_keys (s : State) (c : Nat) (x : Channel) : (s.setChan c x).keys = s.keys := rfl
@[simp] theorem State.setChan_boot (s : State) (c : Nat) (x : Channel) : (s.setChan c x).boot = s.boot := rfl
@[simp] theorem State.setChan_hop (s : State) (c : Nat) (x : Channel) : (s.setChan c x).hop = s.hop := rfl
@[simp] theorem State.setChan_sched (s : State) (c : Nat) (x : Channel) : (s.setChan c x).sched = s.sched := rfl
@[simp] theorem State.setChan_millers (s : State) (c : Nat) (x : Channel) : (s.setChan c x).millers = s.millers := rfl
@[simp] theorem State.setChan_portData (s : State) (c : Nat) (x : Channel) : (s.setChan c x).portData = s.portData := rfl
@[simp] theorem State.setChan_dbg (s : State) (c : Nat) (x : Channel) : (s.setChan c x).dbg = s.dbg := rfl
@[simp] theorem State.setChan_pins (s : State) (c : Nat) (x : Channel) : (s.setChan c x).pins = s.pins := rfl
@[simp] theorem State.setChan_trace (s : State) (c : Nat) (x : Channel) : (s.setChan c x).trace = s.trace := rfl
@[simp] theorem State.setChan_uptime (s : State) (c : Nat) (x : Channel) : (s.setChan c x).uptime = s.uptime := rfl
@[simp] theorem State.setChan_power (s : State) (c : Nat) (x : Channel) : (s.setChan c x).power = s.power := rfl
@[simp] theorem State.setChan_free (s : State) (c : Nat) (x : Channel) : (s.setChan c x).free = s.free := rfl
@[simp] theorem State.setChan_pending (s : State) (c : Nat) (x : Channel) : (s.setChan c x).pending = s.pending := rfl
@[simp] theorem State.setChan_reg (s : State) (c : Nat) (x : Channel) (a0 : Nat) : (s.setChan c x).reg a0 = s.reg a0 := rfl
@[simp] theorem State.setChan_get (s : State) (c : Nat) (x : Channel) (g0 : Fld) : (s.setChan c x).get g0 = s.get g0 := rfl

/-! ## setLineBad -/

@[simp] theorem State.setLineBad_regs (s : State) (c l : Nat) (b : Bool) : (s.setLineBad c l b).regs = s.regs := rfl
@[simp] theorem State.setLineBad_parts (s : State) (c l : Nat) (b : Bool) : (s.setLineBad c l b).parts = s.parts := rfl
@[simp] theorem State.setLineBad_stones (s : State) (c l : Nat) (b : Bool) : (s.setLineBad c l b).stones = s.stones := rfl
@[simp] theorem State.setLineBad_race (s : State) (c l : Nat) (b : Bool) : (s.setLineBad c l b).race = s.race := rfl
@[simp] theorem State.setLineBad_flume (s : State) (c l : Nat) (b : Bool) : (s.setLineBad c l b).flume = s.flume := rfl
@[simp] theorem State.setLineBad_dm (s : State) (c l : Nat) (b : Bool) : (s.setLineBad c l b).dm = s.dm := rfl
@[simp] theorem State.setLineBad_evt (s : State) (c l : Nat) (b : Bool) : (s.setLineBad c l b).evt = s.evt := rfl
@[simp] theorem State.setLineBad_lines (s : State) (c l : Nat) (b : Bool) : (s.setLineBad c l b).lines = s.lines := rfl
@[simp] theorem State.setLineBad_gov (s : State) (c l : Nat) (b : Bool) : (s.setLineBad c l b).gov = s.gov := rfl
@[simp] theorem State.setLineBad_clk (s : State) (c l : Nat) (b : Bool) : (s.setLineBad c l b).clk = s.clk := rfl
@[simp] theorem State.setLineBad_acq (s : State) (c l : Nat) (b : Bool) : (s.setLineBad c l b).acq = s.acq := rfl
@[simp] theorem State.setLineBad_time (s : State) (c l : Nat) (b : Bool) : (s.setLineBad c l b).time = s.time := rfl
@[simp] theorem State.setLineBad_mlipend (s : State) (c l : Nat) (b : Bool) : (s.setLineBad c l b).mlipend = s.mlipend := rfl
@[simp] theorem State.setLineBad_spokes (s : State) (c l : Nat) (b : Bool) : (s.setLineBad c l b).spokes = s.spokes := rfl
@[simp] theorem State.setLineBad_spokeRx (s : State) (c l : Nat) (b : Bool) : (s.setLineBad c l b).spokeRx = s.spokeRx := rfl
@[simp] theorem State.setLineBad_watchFirst (s : State) (c l : Nat) (b : Bool) : (s.setLineBad c l b).watchFirst = s.watchFirst := rfl
@[simp] theorem State.setLineBad_hostWins (s : State) (c l : Nat) (b : Bool) : (s.setLineBad c l b).hostWins = s.hostWins := rfl
@[simp] theorem State.setLineBad_readData (s : State) (c l : Nat) (b : Bool) : (s.setLineBad c l b).readData = s.readData := rfl
@[simp] theorem State.setLineBad_host (s : State) (c l : Nat) (b : Bool) : (s.setLineBad c l b).host = s.host := rfl
@[simp] theorem State.setLineBad_sluices (s : State) (c l : Nat) (b : Bool) : (s.setLineBad c l b).sluices = s.sluices := rfl
@[simp] theorem State.setLineBad_loader (s : State) (c l : Nat) (b : Bool) : (s.setLineBad c l b).loader = s.loader := rfl
@[simp] theorem State.setLineBad_keys (s : State) (c l : Nat) (b : Bool) : (s.setLineBad c l b).keys = s.keys := rfl
@[simp] theorem State.setLineBad_boot (s : State) (c l : Nat) (b : Bool) : (s.setLineBad c l b).boot = s.boot := rfl
@[simp] theorem State.setLineBad_hop (s : State) (c l : Nat) (b : Bool) : (s.setLineBad c l b).hop = s.hop := rfl
@[simp] theorem State.setLineBad_sched (s : State) (c l : Nat) (b : Bool) : (s.setLineBad c l b).sched = s.sched := rfl
@[simp] theorem State.setLineBad_millers (s : State) (c l : Nat) (b : Bool) : (s.setLineBad c l b).millers = s.millers := rfl
@[simp] theorem State.setLineBad_portData (s : State) (c l : Nat) (b : Bool) : (s.setLineBad c l b).portData = s.portData := rfl
@[simp] theorem State.setLineBad_dbg (s : State) (c l : Nat) (b : Bool) : (s.setLineBad c l b).dbg = s.dbg := rfl
@[simp] theorem State.setLineBad_pins (s : State) (c l : Nat) (b : Bool) : (s.setLineBad c l b).pins = s.pins := rfl
@[simp] theorem State.setLineBad_trace (s : State) (c l : Nat) (b : Bool) : (s.setLineBad c l b).trace = s.trace := rfl
@[simp] theorem State.setLineBad_uptime (s : State) (c l : Nat) (b : Bool) : (s.setLineBad c l b).uptime = s.uptime := rfl
@[simp] theorem State.setLineBad_power (s : State) (c l : Nat) (b : Bool) : (s.setLineBad c l b).power = s.power := rfl
@[simp] theorem State.setLineBad_free (s : State) (c l : Nat) (b : Bool) : (s.setLineBad c l b).free = s.free := rfl
@[simp] theorem State.setLineBad_pending (s : State) (c l : Nat) (b : Bool) : (s.setLineBad c l b).pending = s.pending := rfl
@[simp] theorem State.setLineBad_reg (s : State) (c l : Nat) (b : Bool) (a0 : Nat) : (s.setLineBad c l b).reg a0 = s.reg a0 := rfl
@[simp] theorem State.setLineBad_get (s : State) (c l : Nat) (b : Bool) (g0 : Fld) : (s.setLineBad c l b).get g0 = s.get g0 := rfl

/-! ## setLaunchPort -/

@[simp] theorem State.setLaunchPort_regs (s : State) (m j : Nat) (x : LaunchPort) : (s.setLaunchPort m j x).regs = s.regs := rfl
@[simp] theorem State.setLaunchPort_parts (s : State) (m j : Nat) (x : LaunchPort) : (s.setLaunchPort m j x).parts = s.parts := rfl
@[simp] theorem State.setLaunchPort_stones (s : State) (m j : Nat) (x : LaunchPort) : (s.setLaunchPort m j x).stones = s.stones := rfl
@[simp] theorem State.setLaunchPort_race (s : State) (m j : Nat) (x : LaunchPort) : (s.setLaunchPort m j x).race = s.race := rfl
@[simp] theorem State.setLaunchPort_dm (s : State) (m j : Nat) (x : LaunchPort) : (s.setLaunchPort m j x).dm = s.dm := rfl
@[simp] theorem State.setLaunchPort_evt (s : State) (m j : Nat) (x : LaunchPort) : (s.setLaunchPort m j x).evt = s.evt := rfl
@[simp] theorem State.setLaunchPort_lines (s : State) (m j : Nat) (x : LaunchPort) : (s.setLaunchPort m j x).lines = s.lines := rfl
@[simp] theorem State.setLaunchPort_gov (s : State) (m j : Nat) (x : LaunchPort) : (s.setLaunchPort m j x).gov = s.gov := rfl
@[simp] theorem State.setLaunchPort_clk (s : State) (m j : Nat) (x : LaunchPort) : (s.setLaunchPort m j x).clk = s.clk := rfl
@[simp] theorem State.setLaunchPort_acq (s : State) (m j : Nat) (x : LaunchPort) : (s.setLaunchPort m j x).acq = s.acq := rfl
@[simp] theorem State.setLaunchPort_time (s : State) (m j : Nat) (x : LaunchPort) : (s.setLaunchPort m j x).time = s.time := rfl
@[simp] theorem State.setLaunchPort_mlipend (s : State) (m j : Nat) (x : LaunchPort) : (s.setLaunchPort m j x).mlipend = s.mlipend := rfl
@[simp] theorem State.setLaunchPort_spokes (s : State) (m j : Nat) (x : LaunchPort) : (s.setLaunchPort m j x).spokes = s.spokes := rfl
@[simp] theorem State.setLaunchPort_spokeRx (s : State) (m j : Nat) (x : LaunchPort) : (s.setLaunchPort m j x).spokeRx = s.spokeRx := rfl
@[simp] theorem State.setLaunchPort_watchFirst (s : State) (m j : Nat) (x : LaunchPort) : (s.setLaunchPort m j x).watchFirst = s.watchFirst := rfl
@[simp] theorem State.setLaunchPort_hostWins (s : State) (m j : Nat) (x : LaunchPort) : (s.setLaunchPort m j x).hostWins = s.hostWins := rfl
@[simp] theorem State.setLaunchPort_readData (s : State) (m j : Nat) (x : LaunchPort) : (s.setLaunchPort m j x).readData = s.readData := rfl
@[simp] theorem State.setLaunchPort_dram (s : State) (m j : Nat) (x : LaunchPort) : (s.setLaunchPort m j x).dram = s.dram := rfl
@[simp] theorem State.setLaunchPort_host (s : State) (m j : Nat) (x : LaunchPort) : (s.setLaunchPort m j x).host = s.host := rfl
@[simp] theorem State.setLaunchPort_sluices (s : State) (m j : Nat) (x : LaunchPort) : (s.setLaunchPort m j x).sluices = s.sluices := rfl
@[simp] theorem State.setLaunchPort_loader (s : State) (m j : Nat) (x : LaunchPort) : (s.setLaunchPort m j x).loader = s.loader := rfl
@[simp] theorem State.setLaunchPort_keys (s : State) (m j : Nat) (x : LaunchPort) : (s.setLaunchPort m j x).keys = s.keys := rfl
@[simp] theorem State.setLaunchPort_boot (s : State) (m j : Nat) (x : LaunchPort) : (s.setLaunchPort m j x).boot = s.boot := rfl
@[simp] theorem State.setLaunchPort_hop (s : State) (m j : Nat) (x : LaunchPort) : (s.setLaunchPort m j x).hop = s.hop := rfl
@[simp] theorem State.setLaunchPort_sched (s : State) (m j : Nat) (x : LaunchPort) : (s.setLaunchPort m j x).sched = s.sched := rfl
@[simp] theorem State.setLaunchPort_millers (s : State) (m j : Nat) (x : LaunchPort) : (s.setLaunchPort m j x).millers = s.millers := rfl
@[simp] theorem State.setLaunchPort_portData (s : State) (m j : Nat) (x : LaunchPort) : (s.setLaunchPort m j x).portData = s.portData := rfl
@[simp] theorem State.setLaunchPort_dbg (s : State) (m j : Nat) (x : LaunchPort) : (s.setLaunchPort m j x).dbg = s.dbg := rfl
@[simp] theorem State.setLaunchPort_pins (s : State) (m j : Nat) (x : LaunchPort) : (s.setLaunchPort m j x).pins = s.pins := rfl
@[simp] theorem State.setLaunchPort_trace (s : State) (m j : Nat) (x : LaunchPort) : (s.setLaunchPort m j x).trace = s.trace := rfl
@[simp] theorem State.setLaunchPort_uptime (s : State) (m j : Nat) (x : LaunchPort) : (s.setLaunchPort m j x).uptime = s.uptime := rfl
@[simp] theorem State.setLaunchPort_power (s : State) (m j : Nat) (x : LaunchPort) : (s.setLaunchPort m j x).power = s.power := rfl
@[simp] theorem State.setLaunchPort_free (s : State) (m j : Nat) (x : LaunchPort) : (s.setLaunchPort m j x).free = s.free := rfl
@[simp] theorem State.setLaunchPort_pending (s : State) (m j : Nat) (x : LaunchPort) : (s.setLaunchPort m j x).pending = s.pending := rfl
@[simp] theorem State.setLaunchPort_reg (s : State) (m j : Nat) (x : LaunchPort) (a0 : Nat) : (s.setLaunchPort m j x).reg a0 = s.reg a0 := rfl
@[simp] theorem State.setLaunchPort_get (s : State) (m j : Nat) (x : LaunchPort) (g0 : Fld) : (s.setLaunchPort m j x).get g0 = s.get g0 := rfl

/-! ## setLandPort -/

@[simp] theorem State.setLandPort_regs (s : State) (m j : Nat) (x : LandPort) : (s.setLandPort m j x).regs = s.regs := rfl
@[simp] theorem State.setLandPort_parts (s : State) (m j : Nat) (x : LandPort) : (s.setLandPort m j x).parts = s.parts := rfl
@[simp] theorem State.setLandPort_stones (s : State) (m j : Nat) (x : LandPort) : (s.setLandPort m j x).stones = s.stones := rfl
@[simp] theorem State.setLandPort_race (s : State) (m j : Nat) (x : LandPort) : (s.setLandPort m j x).race = s.race := rfl
@[simp] theorem State.setLandPort_dm (s : State) (m j : Nat) (x : LandPort) : (s.setLandPort m j x).dm = s.dm := rfl
@[simp] theorem State.setLandPort_evt (s : State) (m j : Nat) (x : LandPort) : (s.setLandPort m j x).evt = s.evt := rfl
@[simp] theorem State.setLandPort_lines (s : State) (m j : Nat) (x : LandPort) : (s.setLandPort m j x).lines = s.lines := rfl
@[simp] theorem State.setLandPort_gov (s : State) (m j : Nat) (x : LandPort) : (s.setLandPort m j x).gov = s.gov := rfl
@[simp] theorem State.setLandPort_clk (s : State) (m j : Nat) (x : LandPort) : (s.setLandPort m j x).clk = s.clk := rfl
@[simp] theorem State.setLandPort_acq (s : State) (m j : Nat) (x : LandPort) : (s.setLandPort m j x).acq = s.acq := rfl
@[simp] theorem State.setLandPort_time (s : State) (m j : Nat) (x : LandPort) : (s.setLandPort m j x).time = s.time := rfl
@[simp] theorem State.setLandPort_mlipend (s : State) (m j : Nat) (x : LandPort) : (s.setLandPort m j x).mlipend = s.mlipend := rfl
@[simp] theorem State.setLandPort_spokes (s : State) (m j : Nat) (x : LandPort) : (s.setLandPort m j x).spokes = s.spokes := rfl
@[simp] theorem State.setLandPort_spokeRx (s : State) (m j : Nat) (x : LandPort) : (s.setLandPort m j x).spokeRx = s.spokeRx := rfl
@[simp] theorem State.setLandPort_watchFirst (s : State) (m j : Nat) (x : LandPort) : (s.setLandPort m j x).watchFirst = s.watchFirst := rfl
@[simp] theorem State.setLandPort_hostWins (s : State) (m j : Nat) (x : LandPort) : (s.setLandPort m j x).hostWins = s.hostWins := rfl
@[simp] theorem State.setLandPort_readData (s : State) (m j : Nat) (x : LandPort) : (s.setLandPort m j x).readData = s.readData := rfl
@[simp] theorem State.setLandPort_dram (s : State) (m j : Nat) (x : LandPort) : (s.setLandPort m j x).dram = s.dram := rfl
@[simp] theorem State.setLandPort_host (s : State) (m j : Nat) (x : LandPort) : (s.setLandPort m j x).host = s.host := rfl
@[simp] theorem State.setLandPort_sluices (s : State) (m j : Nat) (x : LandPort) : (s.setLandPort m j x).sluices = s.sluices := rfl
@[simp] theorem State.setLandPort_loader (s : State) (m j : Nat) (x : LandPort) : (s.setLandPort m j x).loader = s.loader := rfl
@[simp] theorem State.setLandPort_keys (s : State) (m j : Nat) (x : LandPort) : (s.setLandPort m j x).keys = s.keys := rfl
@[simp] theorem State.setLandPort_boot (s : State) (m j : Nat) (x : LandPort) : (s.setLandPort m j x).boot = s.boot := rfl
@[simp] theorem State.setLandPort_hop (s : State) (m j : Nat) (x : LandPort) : (s.setLandPort m j x).hop = s.hop := rfl
@[simp] theorem State.setLandPort_sched (s : State) (m j : Nat) (x : LandPort) : (s.setLandPort m j x).sched = s.sched := rfl
@[simp] theorem State.setLandPort_millers (s : State) (m j : Nat) (x : LandPort) : (s.setLandPort m j x).millers = s.millers := rfl
@[simp] theorem State.setLandPort_portData (s : State) (m j : Nat) (x : LandPort) : (s.setLandPort m j x).portData = s.portData := rfl
@[simp] theorem State.setLandPort_dbg (s : State) (m j : Nat) (x : LandPort) : (s.setLandPort m j x).dbg = s.dbg := rfl
@[simp] theorem State.setLandPort_pins (s : State) (m j : Nat) (x : LandPort) : (s.setLandPort m j x).pins = s.pins := rfl
@[simp] theorem State.setLandPort_trace (s : State) (m j : Nat) (x : LandPort) : (s.setLandPort m j x).trace = s.trace := rfl
@[simp] theorem State.setLandPort_uptime (s : State) (m j : Nat) (x : LandPort) : (s.setLandPort m j x).uptime = s.uptime := rfl
@[simp] theorem State.setLandPort_power (s : State) (m j : Nat) (x : LandPort) : (s.setLandPort m j x).power = s.power := rfl
@[simp] theorem State.setLandPort_free (s : State) (m j : Nat) (x : LandPort) : (s.setLandPort m j x).free = s.free := rfl
@[simp] theorem State.setLandPort_pending (s : State) (m j : Nat) (x : LandPort) : (s.setLandPort m j x).pending = s.pending := rfl
@[simp] theorem State.setLandPort_reg (s : State) (m j : Nat) (x : LandPort) (a0 : Nat) : (s.setLandPort m j x).reg a0 = s.reg a0 := rfl
@[simp] theorem State.setLandPort_get (s : State) (m j : Nat) (x : LandPort) (g0 : Fld) : (s.setLandPort m j x).get g0 = s.get g0 := rfl

/-! ## setLandRow -/

@[simp] theorem State.setLandRow_regs (s : State) (m : Nat) (v : Row) : (s.setLandRow m v).regs = s.regs := rfl
@[simp] theorem State.setLandRow_parts (s : State) (m : Nat) (v : Row) : (s.setLandRow m v).parts = s.parts := rfl
@[simp] theorem State.setLandRow_stones (s : State) (m : Nat) (v : Row) : (s.setLandRow m v).stones = s.stones := rfl
@[simp] theorem State.setLandRow_race (s : State) (m : Nat) (v : Row) : (s.setLandRow m v).race = s.race := rfl
@[simp] theorem State.setLandRow_dm (s : State) (m : Nat) (v : Row) : (s.setLandRow m v).dm = s.dm := rfl
@[simp] theorem State.setLandRow_evt (s : State) (m : Nat) (v : Row) : (s.setLandRow m v).evt = s.evt := rfl
@[simp] theorem State.setLandRow_lines (s : State) (m : Nat) (v : Row) : (s.setLandRow m v).lines = s.lines := rfl
@[simp] theorem State.setLandRow_gov (s : State) (m : Nat) (v : Row) : (s.setLandRow m v).gov = s.gov := rfl
@[simp] theorem State.setLandRow_clk (s : State) (m : Nat) (v : Row) : (s.setLandRow m v).clk = s.clk := rfl
@[simp] theorem State.setLandRow_acq (s : State) (m : Nat) (v : Row) : (s.setLandRow m v).acq = s.acq := rfl
@[simp] theorem State.setLandRow_time (s : State) (m : Nat) (v : Row) : (s.setLandRow m v).time = s.time := rfl
@[simp] theorem State.setLandRow_mlipend (s : State) (m : Nat) (v : Row) : (s.setLandRow m v).mlipend = s.mlipend := rfl
@[simp] theorem State.setLandRow_spokes (s : State) (m : Nat) (v : Row) : (s.setLandRow m v).spokes = s.spokes := rfl
@[simp] theorem State.setLandRow_spokeRx (s : State) (m : Nat) (v : Row) : (s.setLandRow m v).spokeRx = s.spokeRx := rfl
@[simp] theorem State.setLandRow_watchFirst (s : State) (m : Nat) (v : Row) : (s.setLandRow m v).watchFirst = s.watchFirst := rfl
@[simp] theorem State.setLandRow_hostWins (s : State) (m : Nat) (v : Row) : (s.setLandRow m v).hostWins = s.hostWins := rfl
@[simp] theorem State.setLandRow_readData (s : State) (m : Nat) (v : Row) : (s.setLandRow m v).readData = s.readData := rfl
@[simp] theorem State.setLandRow_dram (s : State) (m : Nat) (v : Row) : (s.setLandRow m v).dram = s.dram := rfl
@[simp] theorem State.setLandRow_host (s : State) (m : Nat) (v : Row) : (s.setLandRow m v).host = s.host := rfl
@[simp] theorem State.setLandRow_sluices (s : State) (m : Nat) (v : Row) : (s.setLandRow m v).sluices = s.sluices := rfl
@[simp] theorem State.setLandRow_loader (s : State) (m : Nat) (v : Row) : (s.setLandRow m v).loader = s.loader := rfl
@[simp] theorem State.setLandRow_keys (s : State) (m : Nat) (v : Row) : (s.setLandRow m v).keys = s.keys := rfl
@[simp] theorem State.setLandRow_boot (s : State) (m : Nat) (v : Row) : (s.setLandRow m v).boot = s.boot := rfl
@[simp] theorem State.setLandRow_hop (s : State) (m : Nat) (v : Row) : (s.setLandRow m v).hop = s.hop := rfl
@[simp] theorem State.setLandRow_sched (s : State) (m : Nat) (v : Row) : (s.setLandRow m v).sched = s.sched := rfl
@[simp] theorem State.setLandRow_millers (s : State) (m : Nat) (v : Row) : (s.setLandRow m v).millers = s.millers := rfl
@[simp] theorem State.setLandRow_portData (s : State) (m : Nat) (v : Row) : (s.setLandRow m v).portData = s.portData := rfl
@[simp] theorem State.setLandRow_dbg (s : State) (m : Nat) (v : Row) : (s.setLandRow m v).dbg = s.dbg := rfl
@[simp] theorem State.setLandRow_pins (s : State) (m : Nat) (v : Row) : (s.setLandRow m v).pins = s.pins := rfl
@[simp] theorem State.setLandRow_trace (s : State) (m : Nat) (v : Row) : (s.setLandRow m v).trace = s.trace := rfl
@[simp] theorem State.setLandRow_uptime (s : State) (m : Nat) (v : Row) : (s.setLandRow m v).uptime = s.uptime := rfl
@[simp] theorem State.setLandRow_power (s : State) (m : Nat) (v : Row) : (s.setLandRow m v).power = s.power := rfl
@[simp] theorem State.setLandRow_free (s : State) (m : Nat) (v : Row) : (s.setLandRow m v).free = s.free := rfl
@[simp] theorem State.setLandRow_pending (s : State) (m : Nat) (v : Row) : (s.setLandRow m v).pending = s.pending := rfl
@[simp] theorem State.setLandRow_reg (s : State) (m : Nat) (v : Row) (a0 : Nat) : (s.setLandRow m v).reg a0 = s.reg a0 := rfl
@[simp] theorem State.setLandRow_get (s : State) (m : Nat) (v : Row) (g0 : Fld) : (s.setLandRow m v).get g0 = s.get g0 := rfl

/-! ## setPinPort -/

@[simp] theorem State.setPinPort_regs (s : State) (k : Nat) (x : PinPort) : (s.setPinPort k x).regs = s.regs := rfl
@[simp] theorem State.setPinPort_parts (s : State) (k : Nat) (x : PinPort) : (s.setPinPort k x).parts = s.parts := rfl
@[simp] theorem State.setPinPort_stones (s : State) (k : Nat) (x : PinPort) : (s.setPinPort k x).stones = s.stones := rfl
@[simp] theorem State.setPinPort_race (s : State) (k : Nat) (x : PinPort) : (s.setPinPort k x).race = s.race := rfl
@[simp] theorem State.setPinPort_dm (s : State) (k : Nat) (x : PinPort) : (s.setPinPort k x).dm = s.dm := rfl
@[simp] theorem State.setPinPort_evt (s : State) (k : Nat) (x : PinPort) : (s.setPinPort k x).evt = s.evt := rfl
@[simp] theorem State.setPinPort_lines (s : State) (k : Nat) (x : PinPort) : (s.setPinPort k x).lines = s.lines := rfl
@[simp] theorem State.setPinPort_gov (s : State) (k : Nat) (x : PinPort) : (s.setPinPort k x).gov = s.gov := rfl
@[simp] theorem State.setPinPort_clk (s : State) (k : Nat) (x : PinPort) : (s.setPinPort k x).clk = s.clk := rfl
@[simp] theorem State.setPinPort_acq (s : State) (k : Nat) (x : PinPort) : (s.setPinPort k x).acq = s.acq := rfl
@[simp] theorem State.setPinPort_time (s : State) (k : Nat) (x : PinPort) : (s.setPinPort k x).time = s.time := rfl
@[simp] theorem State.setPinPort_mlipend (s : State) (k : Nat) (x : PinPort) : (s.setPinPort k x).mlipend = s.mlipend := rfl
@[simp] theorem State.setPinPort_spokes (s : State) (k : Nat) (x : PinPort) : (s.setPinPort k x).spokes = s.spokes := rfl
@[simp] theorem State.setPinPort_spokeRx (s : State) (k : Nat) (x : PinPort) : (s.setPinPort k x).spokeRx = s.spokeRx := rfl
@[simp] theorem State.setPinPort_watchFirst (s : State) (k : Nat) (x : PinPort) : (s.setPinPort k x).watchFirst = s.watchFirst := rfl
@[simp] theorem State.setPinPort_hostWins (s : State) (k : Nat) (x : PinPort) : (s.setPinPort k x).hostWins = s.hostWins := rfl
@[simp] theorem State.setPinPort_readData (s : State) (k : Nat) (x : PinPort) : (s.setPinPort k x).readData = s.readData := rfl
@[simp] theorem State.setPinPort_dram (s : State) (k : Nat) (x : PinPort) : (s.setPinPort k x).dram = s.dram := rfl
@[simp] theorem State.setPinPort_host (s : State) (k : Nat) (x : PinPort) : (s.setPinPort k x).host = s.host := rfl
@[simp] theorem State.setPinPort_sluices (s : State) (k : Nat) (x : PinPort) : (s.setPinPort k x).sluices = s.sluices := rfl
@[simp] theorem State.setPinPort_loader (s : State) (k : Nat) (x : PinPort) : (s.setPinPort k x).loader = s.loader := rfl
@[simp] theorem State.setPinPort_keys (s : State) (k : Nat) (x : PinPort) : (s.setPinPort k x).keys = s.keys := rfl
@[simp] theorem State.setPinPort_boot (s : State) (k : Nat) (x : PinPort) : (s.setPinPort k x).boot = s.boot := rfl
@[simp] theorem State.setPinPort_hop (s : State) (k : Nat) (x : PinPort) : (s.setPinPort k x).hop = s.hop := rfl
@[simp] theorem State.setPinPort_sched (s : State) (k : Nat) (x : PinPort) : (s.setPinPort k x).sched = s.sched := rfl
@[simp] theorem State.setPinPort_millers (s : State) (k : Nat) (x : PinPort) : (s.setPinPort k x).millers = s.millers := rfl
@[simp] theorem State.setPinPort_portData (s : State) (k : Nat) (x : PinPort) : (s.setPinPort k x).portData = s.portData := rfl
@[simp] theorem State.setPinPort_dbg (s : State) (k : Nat) (x : PinPort) : (s.setPinPort k x).dbg = s.dbg := rfl
@[simp] theorem State.setPinPort_pins (s : State) (k : Nat) (x : PinPort) : (s.setPinPort k x).pins = s.pins := rfl
@[simp] theorem State.setPinPort_trace (s : State) (k : Nat) (x : PinPort) : (s.setPinPort k x).trace = s.trace := rfl
@[simp] theorem State.setPinPort_uptime (s : State) (k : Nat) (x : PinPort) : (s.setPinPort k x).uptime = s.uptime := rfl
@[simp] theorem State.setPinPort_power (s : State) (k : Nat) (x : PinPort) : (s.setPinPort k x).power = s.power := rfl
@[simp] theorem State.setPinPort_free (s : State) (k : Nat) (x : PinPort) : (s.setPinPort k x).free = s.free := rfl
@[simp] theorem State.setPinPort_pending (s : State) (k : Nat) (x : PinPort) : (s.setPinPort k x).pending = s.pending := rfl
@[simp] theorem State.setPinPort_reg (s : State) (k : Nat) (x : PinPort) (a0 : Nat) : (s.setPinPort k x).reg a0 = s.reg a0 := rfl
@[simp] theorem State.setPinPort_get (s : State) (k : Nat) (x : PinPort) (g0 : Fld) : (s.setPinPort k x).get g0 = s.get g0 := rfl

/-! ## setRegion -/

@[simp] theorem State.setRegion_regs (s : State) (r : Nat) (x : Region) : (s.setRegion r x).regs = s.regs := rfl
@[simp] theorem State.setRegion_parts (s : State) (r : Nat) (x : Region) : (s.setRegion r x).parts = s.parts := rfl
@[simp] theorem State.setRegion_stones (s : State) (r : Nat) (x : Region) : (s.setRegion r x).stones = s.stones := rfl
@[simp] theorem State.setRegion_race (s : State) (r : Nat) (x : Region) : (s.setRegion r x).race = s.race := rfl
@[simp] theorem State.setRegion_dm (s : State) (r : Nat) (x : Region) : (s.setRegion r x).dm = s.dm := rfl
@[simp] theorem State.setRegion_evt (s : State) (r : Nat) (x : Region) : (s.setRegion r x).evt = s.evt := rfl
@[simp] theorem State.setRegion_lines (s : State) (r : Nat) (x : Region) : (s.setRegion r x).lines = s.lines := rfl
@[simp] theorem State.setRegion_gov (s : State) (r : Nat) (x : Region) : (s.setRegion r x).gov = s.gov := rfl
@[simp] theorem State.setRegion_clk (s : State) (r : Nat) (x : Region) : (s.setRegion r x).clk = s.clk := rfl
@[simp] theorem State.setRegion_acq (s : State) (r : Nat) (x : Region) : (s.setRegion r x).acq = s.acq := rfl
@[simp] theorem State.setRegion_time (s : State) (r : Nat) (x : Region) : (s.setRegion r x).time = s.time := rfl
@[simp] theorem State.setRegion_mlipend (s : State) (r : Nat) (x : Region) : (s.setRegion r x).mlipend = s.mlipend := rfl
@[simp] theorem State.setRegion_spokes (s : State) (r : Nat) (x : Region) : (s.setRegion r x).spokes = s.spokes := rfl
@[simp] theorem State.setRegion_spokeRx (s : State) (r : Nat) (x : Region) : (s.setRegion r x).spokeRx = s.spokeRx := rfl
@[simp] theorem State.setRegion_watchFirst (s : State) (r : Nat) (x : Region) : (s.setRegion r x).watchFirst = s.watchFirst := rfl
@[simp] theorem State.setRegion_hostWins (s : State) (r : Nat) (x : Region) : (s.setRegion r x).hostWins = s.hostWins := rfl
@[simp] theorem State.setRegion_readData (s : State) (r : Nat) (x : Region) : (s.setRegion r x).readData = s.readData := rfl
@[simp] theorem State.setRegion_dram (s : State) (r : Nat) (x : Region) : (s.setRegion r x).dram = s.dram := rfl
@[simp] theorem State.setRegion_host (s : State) (r : Nat) (x : Region) : (s.setRegion r x).host = s.host := rfl
@[simp] theorem State.setRegion_sluices (s : State) (r : Nat) (x : Region) : (s.setRegion r x).sluices = s.sluices := rfl
@[simp] theorem State.setRegion_loader (s : State) (r : Nat) (x : Region) : (s.setRegion r x).loader = s.loader := rfl
@[simp] theorem State.setRegion_keys (s : State) (r : Nat) (x : Region) : (s.setRegion r x).keys = s.keys := rfl
@[simp] theorem State.setRegion_boot (s : State) (r : Nat) (x : Region) : (s.setRegion r x).boot = s.boot := rfl
@[simp] theorem State.setRegion_hop (s : State) (r : Nat) (x : Region) : (s.setRegion r x).hop = s.hop := rfl
@[simp] theorem State.setRegion_sched (s : State) (r : Nat) (x : Region) : (s.setRegion r x).sched = s.sched := rfl
@[simp] theorem State.setRegion_millers (s : State) (r : Nat) (x : Region) : (s.setRegion r x).millers = s.millers := rfl
@[simp] theorem State.setRegion_portData (s : State) (r : Nat) (x : Region) : (s.setRegion r x).portData = s.portData := rfl
@[simp] theorem State.setRegion_dbg (s : State) (r : Nat) (x : Region) : (s.setRegion r x).dbg = s.dbg := rfl
@[simp] theorem State.setRegion_pins (s : State) (r : Nat) (x : Region) : (s.setRegion r x).pins = s.pins := rfl
@[simp] theorem State.setRegion_trace (s : State) (r : Nat) (x : Region) : (s.setRegion r x).trace = s.trace := rfl
@[simp] theorem State.setRegion_uptime (s : State) (r : Nat) (x : Region) : (s.setRegion r x).uptime = s.uptime := rfl
@[simp] theorem State.setRegion_power (s : State) (r : Nat) (x : Region) : (s.setRegion r x).power = s.power := rfl
@[simp] theorem State.setRegion_free (s : State) (r : Nat) (x : Region) : (s.setRegion r x).free = s.free := rfl
@[simp] theorem State.setRegion_pending (s : State) (r : Nat) (x : Region) : (s.setRegion r x).pending = s.pending := rfl
@[simp] theorem State.setRegion_reg (s : State) (r : Nat) (x : Region) (a0 : Nat) : (s.setRegion r x).reg a0 = s.reg a0 := rfl
@[simp] theorem State.setRegion_get (s : State) (r : Nat) (x : Region) (g0 : Fld) : (s.setRegion r x).get g0 = s.get g0 := rfl

/-! ## setCell -/

@[simp] theorem State.setCell_regs (s : State) (k : Nat) (x : Cell) : (s.setCell k x).regs = s.regs := rfl
@[simp] theorem State.setCell_parts (s : State) (k : Nat) (x : Cell) : (s.setCell k x).parts = s.parts := rfl
@[simp] theorem State.setCell_stones (s : State) (k : Nat) (x : Cell) : (s.setCell k x).stones = s.stones := rfl
@[simp] theorem State.setCell_race (s : State) (k : Nat) (x : Cell) : (s.setCell k x).race = s.race := rfl
@[simp] theorem State.setCell_dm (s : State) (k : Nat) (x : Cell) : (s.setCell k x).dm = s.dm := rfl
@[simp] theorem State.setCell_evt (s : State) (k : Nat) (x : Cell) : (s.setCell k x).evt = s.evt := rfl
@[simp] theorem State.setCell_lines (s : State) (k : Nat) (x : Cell) : (s.setCell k x).lines = s.lines := rfl
@[simp] theorem State.setCell_gov (s : State) (k : Nat) (x : Cell) : (s.setCell k x).gov = s.gov := rfl
@[simp] theorem State.setCell_clk (s : State) (k : Nat) (x : Cell) : (s.setCell k x).clk = s.clk := rfl
@[simp] theorem State.setCell_acq (s : State) (k : Nat) (x : Cell) : (s.setCell k x).acq = s.acq := rfl
@[simp] theorem State.setCell_time (s : State) (k : Nat) (x : Cell) : (s.setCell k x).time = s.time := rfl
@[simp] theorem State.setCell_mlipend (s : State) (k : Nat) (x : Cell) : (s.setCell k x).mlipend = s.mlipend := rfl
@[simp] theorem State.setCell_spokes (s : State) (k : Nat) (x : Cell) : (s.setCell k x).spokes = s.spokes := rfl
@[simp] theorem State.setCell_spokeRx (s : State) (k : Nat) (x : Cell) : (s.setCell k x).spokeRx = s.spokeRx := rfl
@[simp] theorem State.setCell_watchFirst (s : State) (k : Nat) (x : Cell) : (s.setCell k x).watchFirst = s.watchFirst := rfl
@[simp] theorem State.setCell_hostWins (s : State) (k : Nat) (x : Cell) : (s.setCell k x).hostWins = s.hostWins := rfl
@[simp] theorem State.setCell_readData (s : State) (k : Nat) (x : Cell) : (s.setCell k x).readData = s.readData := rfl
@[simp] theorem State.setCell_dram (s : State) (k : Nat) (x : Cell) : (s.setCell k x).dram = s.dram := rfl
@[simp] theorem State.setCell_host (s : State) (k : Nat) (x : Cell) : (s.setCell k x).host = s.host := rfl
@[simp] theorem State.setCell_sluices (s : State) (k : Nat) (x : Cell) : (s.setCell k x).sluices = s.sluices := rfl
@[simp] theorem State.setCell_loader (s : State) (k : Nat) (x : Cell) : (s.setCell k x).loader = s.loader := rfl
@[simp] theorem State.setCell_keys (s : State) (k : Nat) (x : Cell) : (s.setCell k x).keys = s.keys := rfl
@[simp] theorem State.setCell_boot (s : State) (k : Nat) (x : Cell) : (s.setCell k x).boot = s.boot := rfl
@[simp] theorem State.setCell_hop (s : State) (k : Nat) (x : Cell) : (s.setCell k x).hop = s.hop := rfl
@[simp] theorem State.setCell_sched (s : State) (k : Nat) (x : Cell) : (s.setCell k x).sched = s.sched := rfl
@[simp] theorem State.setCell_millers (s : State) (k : Nat) (x : Cell) : (s.setCell k x).millers = s.millers := rfl
@[simp] theorem State.setCell_portData (s : State) (k : Nat) (x : Cell) : (s.setCell k x).portData = s.portData := rfl
@[simp] theorem State.setCell_dbg (s : State) (k : Nat) (x : Cell) : (s.setCell k x).dbg = s.dbg := rfl
@[simp] theorem State.setCell_pins (s : State) (k : Nat) (x : Cell) : (s.setCell k x).pins = s.pins := rfl
@[simp] theorem State.setCell_trace (s : State) (k : Nat) (x : Cell) : (s.setCell k x).trace = s.trace := rfl
@[simp] theorem State.setCell_uptime (s : State) (k : Nat) (x : Cell) : (s.setCell k x).uptime = s.uptime := rfl
@[simp] theorem State.setCell_power (s : State) (k : Nat) (x : Cell) : (s.setCell k x).power = s.power := rfl
@[simp] theorem State.setCell_free (s : State) (k : Nat) (x : Cell) : (s.setCell k x).free = s.free := rfl
@[simp] theorem State.setCell_pending (s : State) (k : Nat) (x : Cell) : (s.setCell k x).pending = s.pending := rfl
@[simp] theorem State.setCell_reg (s : State) (k : Nat) (x : Cell) (a0 : Nat) : (s.setCell k x).reg a0 = s.reg a0 := rfl
@[simp] theorem State.setCell_get (s : State) (k : Nat) (x : Cell) (g0 : Fld) : (s.setCell k x).get g0 = s.get g0 := rfl

/-! ## setBlock -/

@[simp] theorem State.setBlock_regs (s : State) (q k : Nat) (x : MemBlock) : (s.setBlock q k x).regs = s.regs := rfl
@[simp] theorem State.setBlock_parts (s : State) (q k : Nat) (x : MemBlock) : (s.setBlock q k x).parts = s.parts := rfl
@[simp] theorem State.setBlock_stones (s : State) (q k : Nat) (x : MemBlock) : (s.setBlock q k x).stones = s.stones := rfl
@[simp] theorem State.setBlock_race (s : State) (q k : Nat) (x : MemBlock) : (s.setBlock q k x).race = s.race := rfl
@[simp] theorem State.setBlock_dm (s : State) (q k : Nat) (x : MemBlock) : (s.setBlock q k x).dm = s.dm := rfl
@[simp] theorem State.setBlock_evt (s : State) (q k : Nat) (x : MemBlock) : (s.setBlock q k x).evt = s.evt := rfl
@[simp] theorem State.setBlock_lines (s : State) (q k : Nat) (x : MemBlock) : (s.setBlock q k x).lines = s.lines := rfl
@[simp] theorem State.setBlock_gov (s : State) (q k : Nat) (x : MemBlock) : (s.setBlock q k x).gov = s.gov := rfl
@[simp] theorem State.setBlock_clk (s : State) (q k : Nat) (x : MemBlock) : (s.setBlock q k x).clk = s.clk := rfl
@[simp] theorem State.setBlock_acq (s : State) (q k : Nat) (x : MemBlock) : (s.setBlock q k x).acq = s.acq := rfl
@[simp] theorem State.setBlock_time (s : State) (q k : Nat) (x : MemBlock) : (s.setBlock q k x).time = s.time := rfl
@[simp] theorem State.setBlock_mlipend (s : State) (q k : Nat) (x : MemBlock) : (s.setBlock q k x).mlipend = s.mlipend := rfl
@[simp] theorem State.setBlock_spokes (s : State) (q k : Nat) (x : MemBlock) : (s.setBlock q k x).spokes = s.spokes := rfl
@[simp] theorem State.setBlock_spokeRx (s : State) (q k : Nat) (x : MemBlock) : (s.setBlock q k x).spokeRx = s.spokeRx := rfl
@[simp] theorem State.setBlock_watchFirst (s : State) (q k : Nat) (x : MemBlock) : (s.setBlock q k x).watchFirst = s.watchFirst := rfl
@[simp] theorem State.setBlock_hostWins (s : State) (q k : Nat) (x : MemBlock) : (s.setBlock q k x).hostWins = s.hostWins := rfl
@[simp] theorem State.setBlock_readData (s : State) (q k : Nat) (x : MemBlock) : (s.setBlock q k x).readData = s.readData := rfl
@[simp] theorem State.setBlock_dram (s : State) (q k : Nat) (x : MemBlock) : (s.setBlock q k x).dram = s.dram := rfl
@[simp] theorem State.setBlock_host (s : State) (q k : Nat) (x : MemBlock) : (s.setBlock q k x).host = s.host := rfl
@[simp] theorem State.setBlock_sluices (s : State) (q k : Nat) (x : MemBlock) : (s.setBlock q k x).sluices = s.sluices := rfl
@[simp] theorem State.setBlock_loader (s : State) (q k : Nat) (x : MemBlock) : (s.setBlock q k x).loader = s.loader := rfl
@[simp] theorem State.setBlock_keys (s : State) (q k : Nat) (x : MemBlock) : (s.setBlock q k x).keys = s.keys := rfl
@[simp] theorem State.setBlock_boot (s : State) (q k : Nat) (x : MemBlock) : (s.setBlock q k x).boot = s.boot := rfl
@[simp] theorem State.setBlock_hop (s : State) (q k : Nat) (x : MemBlock) : (s.setBlock q k x).hop = s.hop := rfl
@[simp] theorem State.setBlock_sched (s : State) (q k : Nat) (x : MemBlock) : (s.setBlock q k x).sched = s.sched := rfl
@[simp] theorem State.setBlock_millers (s : State) (q k : Nat) (x : MemBlock) : (s.setBlock q k x).millers = s.millers := rfl
@[simp] theorem State.setBlock_portData (s : State) (q k : Nat) (x : MemBlock) : (s.setBlock q k x).portData = s.portData := rfl
@[simp] theorem State.setBlock_dbg (s : State) (q k : Nat) (x : MemBlock) : (s.setBlock q k x).dbg = s.dbg := rfl
@[simp] theorem State.setBlock_pins (s : State) (q k : Nat) (x : MemBlock) : (s.setBlock q k x).pins = s.pins := rfl
@[simp] theorem State.setBlock_trace (s : State) (q k : Nat) (x : MemBlock) : (s.setBlock q k x).trace = s.trace := rfl
@[simp] theorem State.setBlock_uptime (s : State) (q k : Nat) (x : MemBlock) : (s.setBlock q k x).uptime = s.uptime := rfl
@[simp] theorem State.setBlock_power (s : State) (q k : Nat) (x : MemBlock) : (s.setBlock q k x).power = s.power := rfl
@[simp] theorem State.setBlock_free (s : State) (q k : Nat) (x : MemBlock) : (s.setBlock q k x).free = s.free := rfl
@[simp] theorem State.setBlock_pending (s : State) (q k : Nat) (x : MemBlock) : (s.setBlock q k x).pending = s.pending := rfl
@[simp] theorem State.setBlock_reg (s : State) (q k : Nat) (x : MemBlock) (a0 : Nat) : (s.setBlock q k x).reg a0 = s.reg a0 := rfl
@[simp] theorem State.setBlock_get (s : State) (q k : Nat) (x : MemBlock) (g0 : Fld) : (s.setBlock q k x).get g0 = s.get g0 := rfl

/-! ## setSpoke -/

@[simp] theorem State.setSpoke_regs (s : State) (k : Nat) (x : SpokeSt) : (s.setSpoke k x).regs = s.regs := rfl
@[simp] theorem State.setSpoke_parts (s : State) (k : Nat) (x : SpokeSt) : (s.setSpoke k x).parts = s.parts := rfl
@[simp] theorem State.setSpoke_stones (s : State) (k : Nat) (x : SpokeSt) : (s.setSpoke k x).stones = s.stones := rfl
@[simp] theorem State.setSpoke_race (s : State) (k : Nat) (x : SpokeSt) : (s.setSpoke k x).race = s.race := rfl
@[simp] theorem State.setSpoke_flume (s : State) (k : Nat) (x : SpokeSt) : (s.setSpoke k x).flume = s.flume := rfl
@[simp] theorem State.setSpoke_dm (s : State) (k : Nat) (x : SpokeSt) : (s.setSpoke k x).dm = s.dm := rfl
@[simp] theorem State.setSpoke_evt (s : State) (k : Nat) (x : SpokeSt) : (s.setSpoke k x).evt = s.evt := rfl
@[simp] theorem State.setSpoke_lines (s : State) (k : Nat) (x : SpokeSt) : (s.setSpoke k x).lines = s.lines := rfl
@[simp] theorem State.setSpoke_gov (s : State) (k : Nat) (x : SpokeSt) : (s.setSpoke k x).gov = s.gov := rfl
@[simp] theorem State.setSpoke_clk (s : State) (k : Nat) (x : SpokeSt) : (s.setSpoke k x).clk = s.clk := rfl
@[simp] theorem State.setSpoke_acq (s : State) (k : Nat) (x : SpokeSt) : (s.setSpoke k x).acq = s.acq := rfl
@[simp] theorem State.setSpoke_time (s : State) (k : Nat) (x : SpokeSt) : (s.setSpoke k x).time = s.time := rfl
@[simp] theorem State.setSpoke_mlipend (s : State) (k : Nat) (x : SpokeSt) : (s.setSpoke k x).mlipend = s.mlipend := rfl
@[simp] theorem State.setSpoke_spokeRx (s : State) (k : Nat) (x : SpokeSt) : (s.setSpoke k x).spokeRx = s.spokeRx := rfl
@[simp] theorem State.setSpoke_watchFirst (s : State) (k : Nat) (x : SpokeSt) : (s.setSpoke k x).watchFirst = s.watchFirst := rfl
@[simp] theorem State.setSpoke_hostWins (s : State) (k : Nat) (x : SpokeSt) : (s.setSpoke k x).hostWins = s.hostWins := rfl
@[simp] theorem State.setSpoke_readData (s : State) (k : Nat) (x : SpokeSt) : (s.setSpoke k x).readData = s.readData := rfl
@[simp] theorem State.setSpoke_dram (s : State) (k : Nat) (x : SpokeSt) : (s.setSpoke k x).dram = s.dram := rfl
@[simp] theorem State.setSpoke_host (s : State) (k : Nat) (x : SpokeSt) : (s.setSpoke k x).host = s.host := rfl
@[simp] theorem State.setSpoke_sluices (s : State) (k : Nat) (x : SpokeSt) : (s.setSpoke k x).sluices = s.sluices := rfl
@[simp] theorem State.setSpoke_loader (s : State) (k : Nat) (x : SpokeSt) : (s.setSpoke k x).loader = s.loader := rfl
@[simp] theorem State.setSpoke_keys (s : State) (k : Nat) (x : SpokeSt) : (s.setSpoke k x).keys = s.keys := rfl
@[simp] theorem State.setSpoke_boot (s : State) (k : Nat) (x : SpokeSt) : (s.setSpoke k x).boot = s.boot := rfl
@[simp] theorem State.setSpoke_hop (s : State) (k : Nat) (x : SpokeSt) : (s.setSpoke k x).hop = s.hop := rfl
@[simp] theorem State.setSpoke_sched (s : State) (k : Nat) (x : SpokeSt) : (s.setSpoke k x).sched = s.sched := rfl
@[simp] theorem State.setSpoke_millers (s : State) (k : Nat) (x : SpokeSt) : (s.setSpoke k x).millers = s.millers := rfl
@[simp] theorem State.setSpoke_portData (s : State) (k : Nat) (x : SpokeSt) : (s.setSpoke k x).portData = s.portData := rfl
@[simp] theorem State.setSpoke_dbg (s : State) (k : Nat) (x : SpokeSt) : (s.setSpoke k x).dbg = s.dbg := rfl
@[simp] theorem State.setSpoke_pins (s : State) (k : Nat) (x : SpokeSt) : (s.setSpoke k x).pins = s.pins := rfl
@[simp] theorem State.setSpoke_trace (s : State) (k : Nat) (x : SpokeSt) : (s.setSpoke k x).trace = s.trace := rfl
@[simp] theorem State.setSpoke_uptime (s : State) (k : Nat) (x : SpokeSt) : (s.setSpoke k x).uptime = s.uptime := rfl
@[simp] theorem State.setSpoke_power (s : State) (k : Nat) (x : SpokeSt) : (s.setSpoke k x).power = s.power := rfl
@[simp] theorem State.setSpoke_free (s : State) (k : Nat) (x : SpokeSt) : (s.setSpoke k x).free = s.free := rfl
@[simp] theorem State.setSpoke_pending (s : State) (k : Nat) (x : SpokeSt) : (s.setSpoke k x).pending = s.pending := rfl
@[simp] theorem State.setSpoke_reg (s : State) (k : Nat) (x : SpokeSt) (a0 : Nat) : (s.setSpoke k x).reg a0 = s.reg a0 := rfl
@[simp] theorem State.setSpoke_get (s : State) (k : Nat) (x : SpokeSt) (g0 : Fld) : (s.setSpoke k x).get g0 = s.get g0 := rfl

/-! ## setLaneSt -/

@[simp] theorem State.setLaneSt_regs (s : State) (sp l : Nat) (x : LaneSt) : (s.setLaneSt sp l x).regs = s.regs := rfl
@[simp] theorem State.setLaneSt_parts (s : State) (sp l : Nat) (x : LaneSt) : (s.setLaneSt sp l x).parts = s.parts := rfl
@[simp] theorem State.setLaneSt_stones (s : State) (sp l : Nat) (x : LaneSt) : (s.setLaneSt sp l x).stones = s.stones := rfl
@[simp] theorem State.setLaneSt_race (s : State) (sp l : Nat) (x : LaneSt) : (s.setLaneSt sp l x).race = s.race := rfl
@[simp] theorem State.setLaneSt_flume (s : State) (sp l : Nat) (x : LaneSt) : (s.setLaneSt sp l x).flume = s.flume := rfl
@[simp] theorem State.setLaneSt_dm (s : State) (sp l : Nat) (x : LaneSt) : (s.setLaneSt sp l x).dm = s.dm := rfl
@[simp] theorem State.setLaneSt_evt (s : State) (sp l : Nat) (x : LaneSt) : (s.setLaneSt sp l x).evt = s.evt := rfl
@[simp] theorem State.setLaneSt_lines (s : State) (sp l : Nat) (x : LaneSt) : (s.setLaneSt sp l x).lines = s.lines := rfl
@[simp] theorem State.setLaneSt_gov (s : State) (sp l : Nat) (x : LaneSt) : (s.setLaneSt sp l x).gov = s.gov := rfl
@[simp] theorem State.setLaneSt_clk (s : State) (sp l : Nat) (x : LaneSt) : (s.setLaneSt sp l x).clk = s.clk := rfl
@[simp] theorem State.setLaneSt_acq (s : State) (sp l : Nat) (x : LaneSt) : (s.setLaneSt sp l x).acq = s.acq := rfl
@[simp] theorem State.setLaneSt_time (s : State) (sp l : Nat) (x : LaneSt) : (s.setLaneSt sp l x).time = s.time := rfl
@[simp] theorem State.setLaneSt_mlipend (s : State) (sp l : Nat) (x : LaneSt) : (s.setLaneSt sp l x).mlipend = s.mlipend := rfl
@[simp] theorem State.setLaneSt_spokeRx (s : State) (sp l : Nat) (x : LaneSt) : (s.setLaneSt sp l x).spokeRx = s.spokeRx := rfl
@[simp] theorem State.setLaneSt_watchFirst (s : State) (sp l : Nat) (x : LaneSt) : (s.setLaneSt sp l x).watchFirst = s.watchFirst := rfl
@[simp] theorem State.setLaneSt_hostWins (s : State) (sp l : Nat) (x : LaneSt) : (s.setLaneSt sp l x).hostWins = s.hostWins := rfl
@[simp] theorem State.setLaneSt_readData (s : State) (sp l : Nat) (x : LaneSt) : (s.setLaneSt sp l x).readData = s.readData := rfl
@[simp] theorem State.setLaneSt_dram (s : State) (sp l : Nat) (x : LaneSt) : (s.setLaneSt sp l x).dram = s.dram := rfl
@[simp] theorem State.setLaneSt_host (s : State) (sp l : Nat) (x : LaneSt) : (s.setLaneSt sp l x).host = s.host := rfl
@[simp] theorem State.setLaneSt_sluices (s : State) (sp l : Nat) (x : LaneSt) : (s.setLaneSt sp l x).sluices = s.sluices := rfl
@[simp] theorem State.setLaneSt_loader (s : State) (sp l : Nat) (x : LaneSt) : (s.setLaneSt sp l x).loader = s.loader := rfl
@[simp] theorem State.setLaneSt_keys (s : State) (sp l : Nat) (x : LaneSt) : (s.setLaneSt sp l x).keys = s.keys := rfl
@[simp] theorem State.setLaneSt_boot (s : State) (sp l : Nat) (x : LaneSt) : (s.setLaneSt sp l x).boot = s.boot := rfl
@[simp] theorem State.setLaneSt_hop (s : State) (sp l : Nat) (x : LaneSt) : (s.setLaneSt sp l x).hop = s.hop := rfl
@[simp] theorem State.setLaneSt_sched (s : State) (sp l : Nat) (x : LaneSt) : (s.setLaneSt sp l x).sched = s.sched := rfl
@[simp] theorem State.setLaneSt_millers (s : State) (sp l : Nat) (x : LaneSt) : (s.setLaneSt sp l x).millers = s.millers := rfl
@[simp] theorem State.setLaneSt_portData (s : State) (sp l : Nat) (x : LaneSt) : (s.setLaneSt sp l x).portData = s.portData := rfl
@[simp] theorem State.setLaneSt_dbg (s : State) (sp l : Nat) (x : LaneSt) : (s.setLaneSt sp l x).dbg = s.dbg := rfl
@[simp] theorem State.setLaneSt_pins (s : State) (sp l : Nat) (x : LaneSt) : (s.setLaneSt sp l x).pins = s.pins := rfl
@[simp] theorem State.setLaneSt_trace (s : State) (sp l : Nat) (x : LaneSt) : (s.setLaneSt sp l x).trace = s.trace := rfl
@[simp] theorem State.setLaneSt_uptime (s : State) (sp l : Nat) (x : LaneSt) : (s.setLaneSt sp l x).uptime = s.uptime := rfl
@[simp] theorem State.setLaneSt_power (s : State) (sp l : Nat) (x : LaneSt) : (s.setLaneSt sp l x).power = s.power := rfl
@[simp] theorem State.setLaneSt_free (s : State) (sp l : Nat) (x : LaneSt) : (s.setLaneSt sp l x).free = s.free := rfl
@[simp] theorem State.setLaneSt_pending (s : State) (sp l : Nat) (x : LaneSt) : (s.setLaneSt sp l x).pending = s.pending := rfl
@[simp] theorem State.setLaneSt_reg (s : State) (sp l : Nat) (x : LaneSt) (a0 : Nat) : (s.setLaneSt sp l x).reg a0 = s.reg a0 := rfl
@[simp] theorem State.setLaneSt_get (s : State) (sp l : Nat) (x : LaneSt) (g0 : Fld) : (s.setLaneSt sp l x).get g0 = s.get g0 := rfl

/-! ## setRing -/

@[simp] theorem State.setRing_regs (s : State) (n : Nat) (x : Ring) : (s.setRing n x).regs = s.regs := rfl
@[simp] theorem State.setRing_parts (s : State) (n : Nat) (x : Ring) : (s.setRing n x).parts = s.parts := rfl
@[simp] theorem State.setRing_stones (s : State) (n : Nat) (x : Ring) : (s.setRing n x).stones = s.stones := rfl
@[simp] theorem State.setRing_race (s : State) (n : Nat) (x : Ring) : (s.setRing n x).race = s.race := rfl
@[simp] theorem State.setRing_flume (s : State) (n : Nat) (x : Ring) : (s.setRing n x).flume = s.flume := rfl
@[simp] theorem State.setRing_dm (s : State) (n : Nat) (x : Ring) : (s.setRing n x).dm = s.dm := rfl
@[simp] theorem State.setRing_evt (s : State) (n : Nat) (x : Ring) : (s.setRing n x).evt = s.evt := rfl
@[simp] theorem State.setRing_lines (s : State) (n : Nat) (x : Ring) : (s.setRing n x).lines = s.lines := rfl
@[simp] theorem State.setRing_gov (s : State) (n : Nat) (x : Ring) : (s.setRing n x).gov = s.gov := rfl
@[simp] theorem State.setRing_clk (s : State) (n : Nat) (x : Ring) : (s.setRing n x).clk = s.clk := rfl
@[simp] theorem State.setRing_acq (s : State) (n : Nat) (x : Ring) : (s.setRing n x).acq = s.acq := rfl
@[simp] theorem State.setRing_time (s : State) (n : Nat) (x : Ring) : (s.setRing n x).time = s.time := rfl
@[simp] theorem State.setRing_mlipend (s : State) (n : Nat) (x : Ring) : (s.setRing n x).mlipend = s.mlipend := rfl
@[simp] theorem State.setRing_spokes (s : State) (n : Nat) (x : Ring) : (s.setRing n x).spokes = s.spokes := rfl
@[simp] theorem State.setRing_spokeRx (s : State) (n : Nat) (x : Ring) : (s.setRing n x).spokeRx = s.spokeRx := rfl
@[simp] theorem State.setRing_watchFirst (s : State) (n : Nat) (x : Ring) : (s.setRing n x).watchFirst = s.watchFirst := rfl
@[simp] theorem State.setRing_hostWins (s : State) (n : Nat) (x : Ring) : (s.setRing n x).hostWins = s.hostWins := rfl
@[simp] theorem State.setRing_readData (s : State) (n : Nat) (x : Ring) : (s.setRing n x).readData = s.readData := rfl
@[simp] theorem State.setRing_dram (s : State) (n : Nat) (x : Ring) : (s.setRing n x).dram = s.dram := rfl
@[simp] theorem State.setRing_sluices (s : State) (n : Nat) (x : Ring) : (s.setRing n x).sluices = s.sluices := rfl
@[simp] theorem State.setRing_loader (s : State) (n : Nat) (x : Ring) : (s.setRing n x).loader = s.loader := rfl
@[simp] theorem State.setRing_keys (s : State) (n : Nat) (x : Ring) : (s.setRing n x).keys = s.keys := rfl
@[simp] theorem State.setRing_boot (s : State) (n : Nat) (x : Ring) : (s.setRing n x).boot = s.boot := rfl
@[simp] theorem State.setRing_hop (s : State) (n : Nat) (x : Ring) : (s.setRing n x).hop = s.hop := rfl
@[simp] theorem State.setRing_sched (s : State) (n : Nat) (x : Ring) : (s.setRing n x).sched = s.sched := rfl
@[simp] theorem State.setRing_millers (s : State) (n : Nat) (x : Ring) : (s.setRing n x).millers = s.millers := rfl
@[simp] theorem State.setRing_portData (s : State) (n : Nat) (x : Ring) : (s.setRing n x).portData = s.portData := rfl
@[simp] theorem State.setRing_dbg (s : State) (n : Nat) (x : Ring) : (s.setRing n x).dbg = s.dbg := rfl
@[simp] theorem State.setRing_pins (s : State) (n : Nat) (x : Ring) : (s.setRing n x).pins = s.pins := rfl
@[simp] theorem State.setRing_trace (s : State) (n : Nat) (x : Ring) : (s.setRing n x).trace = s.trace := rfl
@[simp] theorem State.setRing_uptime (s : State) (n : Nat) (x : Ring) : (s.setRing n x).uptime = s.uptime := rfl
@[simp] theorem State.setRing_power (s : State) (n : Nat) (x : Ring) : (s.setRing n x).power = s.power := rfl
@[simp] theorem State.setRing_free (s : State) (n : Nat) (x : Ring) : (s.setRing n x).free = s.free := rfl
@[simp] theorem State.setRing_pending (s : State) (n : Nat) (x : Ring) : (s.setRing n x).pending = s.pending := rfl
@[simp] theorem State.setRing_reg (s : State) (n : Nat) (x : Ring) (a0 : Nat) : (s.setRing n x).reg a0 = s.reg a0 := rfl
@[simp] theorem State.setRing_get (s : State) (n : Nat) (x : Ring) (g0 : Fld) : (s.setRing n x).get g0 = s.get g0 := rfl

/-! ## hostWrite -/

@[simp] theorem State.hostWrite_regs (s : State) (a : Nat) (l : List Byte) : (s.hostWrite a l).regs = s.regs := rfl
@[simp] theorem State.hostWrite_parts (s : State) (a : Nat) (l : List Byte) : (s.hostWrite a l).parts = s.parts := rfl
@[simp] theorem State.hostWrite_stones (s : State) (a : Nat) (l : List Byte) : (s.hostWrite a l).stones = s.stones := rfl
@[simp] theorem State.hostWrite_race (s : State) (a : Nat) (l : List Byte) : (s.hostWrite a l).race = s.race := rfl
@[simp] theorem State.hostWrite_flume (s : State) (a : Nat) (l : List Byte) : (s.hostWrite a l).flume = s.flume := rfl
@[simp] theorem State.hostWrite_dm (s : State) (a : Nat) (l : List Byte) : (s.hostWrite a l).dm = s.dm := rfl
@[simp] theorem State.hostWrite_evt (s : State) (a : Nat) (l : List Byte) : (s.hostWrite a l).evt = s.evt := rfl
@[simp] theorem State.hostWrite_lines (s : State) (a : Nat) (l : List Byte) : (s.hostWrite a l).lines = s.lines := rfl
@[simp] theorem State.hostWrite_gov (s : State) (a : Nat) (l : List Byte) : (s.hostWrite a l).gov = s.gov := rfl
@[simp] theorem State.hostWrite_clk (s : State) (a : Nat) (l : List Byte) : (s.hostWrite a l).clk = s.clk := rfl
@[simp] theorem State.hostWrite_acq (s : State) (a : Nat) (l : List Byte) : (s.hostWrite a l).acq = s.acq := rfl
@[simp] theorem State.hostWrite_time (s : State) (a : Nat) (l : List Byte) : (s.hostWrite a l).time = s.time := rfl
@[simp] theorem State.hostWrite_mlipend (s : State) (a : Nat) (l : List Byte) : (s.hostWrite a l).mlipend = s.mlipend := rfl
@[simp] theorem State.hostWrite_spokes (s : State) (a : Nat) (l : List Byte) : (s.hostWrite a l).spokes = s.spokes := rfl
@[simp] theorem State.hostWrite_spokeRx (s : State) (a : Nat) (l : List Byte) : (s.hostWrite a l).spokeRx = s.spokeRx := rfl
@[simp] theorem State.hostWrite_watchFirst (s : State) (a : Nat) (l : List Byte) : (s.hostWrite a l).watchFirst = s.watchFirst := rfl
@[simp] theorem State.hostWrite_hostWins (s : State) (a : Nat) (l : List Byte) : (s.hostWrite a l).hostWins = s.hostWins := rfl
@[simp] theorem State.hostWrite_readData (s : State) (a : Nat) (l : List Byte) : (s.hostWrite a l).readData = s.readData := rfl
@[simp] theorem State.hostWrite_dram (s : State) (a : Nat) (l : List Byte) : (s.hostWrite a l).dram = s.dram := rfl
@[simp] theorem State.hostWrite_sluices (s : State) (a : Nat) (l : List Byte) : (s.hostWrite a l).sluices = s.sluices := rfl
@[simp] theorem State.hostWrite_loader (s : State) (a : Nat) (l : List Byte) : (s.hostWrite a l).loader = s.loader := rfl
@[simp] theorem State.hostWrite_keys (s : State) (a : Nat) (l : List Byte) : (s.hostWrite a l).keys = s.keys := rfl
@[simp] theorem State.hostWrite_boot (s : State) (a : Nat) (l : List Byte) : (s.hostWrite a l).boot = s.boot := rfl
@[simp] theorem State.hostWrite_hop (s : State) (a : Nat) (l : List Byte) : (s.hostWrite a l).hop = s.hop := rfl
@[simp] theorem State.hostWrite_sched (s : State) (a : Nat) (l : List Byte) : (s.hostWrite a l).sched = s.sched := rfl
@[simp] theorem State.hostWrite_millers (s : State) (a : Nat) (l : List Byte) : (s.hostWrite a l).millers = s.millers := rfl
@[simp] theorem State.hostWrite_portData (s : State) (a : Nat) (l : List Byte) : (s.hostWrite a l).portData = s.portData := rfl
@[simp] theorem State.hostWrite_dbg (s : State) (a : Nat) (l : List Byte) : (s.hostWrite a l).dbg = s.dbg := rfl
@[simp] theorem State.hostWrite_pins (s : State) (a : Nat) (l : List Byte) : (s.hostWrite a l).pins = s.pins := rfl
@[simp] theorem State.hostWrite_trace (s : State) (a : Nat) (l : List Byte) : (s.hostWrite a l).trace = s.trace := rfl
@[simp] theorem State.hostWrite_uptime (s : State) (a : Nat) (l : List Byte) : (s.hostWrite a l).uptime = s.uptime := rfl
@[simp] theorem State.hostWrite_power (s : State) (a : Nat) (l : List Byte) : (s.hostWrite a l).power = s.power := rfl
@[simp] theorem State.hostWrite_free (s : State) (a : Nat) (l : List Byte) : (s.hostWrite a l).free = s.free := rfl
@[simp] theorem State.hostWrite_pending (s : State) (a : Nat) (l : List Byte) : (s.hostWrite a l).pending = s.pending := rfl
@[simp] theorem State.hostWrite_reg (s : State) (a : Nat) (l : List Byte) (a0 : Nat) : (s.hostWrite a l).reg a0 = s.reg a0 := rfl
@[simp] theorem State.hostWrite_get (s : State) (a : Nat) (l : List Byte) (g0 : Fld) : (s.hostWrite a l).get g0 = s.get g0 := rfl

/-! ## setLoader -/

@[simp] theorem State.setLoader_regs (s : State) (x : LoaderSt) : (s.setLoader x).regs = s.regs := rfl
@[simp] theorem State.setLoader_parts (s : State) (x : LoaderSt) : (s.setLoader x).parts = s.parts := rfl
@[simp] theorem State.setLoader_stones (s : State) (x : LoaderSt) : (s.setLoader x).stones = s.stones := rfl
@[simp] theorem State.setLoader_race (s : State) (x : LoaderSt) : (s.setLoader x).race = s.race := rfl
@[simp] theorem State.setLoader_flume (s : State) (x : LoaderSt) : (s.setLoader x).flume = s.flume := rfl
@[simp] theorem State.setLoader_dm (s : State) (x : LoaderSt) : (s.setLoader x).dm = s.dm := rfl
@[simp] theorem State.setLoader_evt (s : State) (x : LoaderSt) : (s.setLoader x).evt = s.evt := rfl
@[simp] theorem State.setLoader_lines (s : State) (x : LoaderSt) : (s.setLoader x).lines = s.lines := rfl
@[simp] theorem State.setLoader_gov (s : State) (x : LoaderSt) : (s.setLoader x).gov = s.gov := rfl
@[simp] theorem State.setLoader_clk (s : State) (x : LoaderSt) : (s.setLoader x).clk = s.clk := rfl
@[simp] theorem State.setLoader_acq (s : State) (x : LoaderSt) : (s.setLoader x).acq = s.acq := rfl
@[simp] theorem State.setLoader_time (s : State) (x : LoaderSt) : (s.setLoader x).time = s.time := rfl
@[simp] theorem State.setLoader_mlipend (s : State) (x : LoaderSt) : (s.setLoader x).mlipend = s.mlipend := rfl
@[simp] theorem State.setLoader_spokes (s : State) (x : LoaderSt) : (s.setLoader x).spokes = s.spokes := rfl
@[simp] theorem State.setLoader_spokeRx (s : State) (x : LoaderSt) : (s.setLoader x).spokeRx = s.spokeRx := rfl
@[simp] theorem State.setLoader_watchFirst (s : State) (x : LoaderSt) : (s.setLoader x).watchFirst = s.watchFirst := rfl
@[simp] theorem State.setLoader_hostWins (s : State) (x : LoaderSt) : (s.setLoader x).hostWins = s.hostWins := rfl
@[simp] theorem State.setLoader_readData (s : State) (x : LoaderSt) : (s.setLoader x).readData = s.readData := rfl
@[simp] theorem State.setLoader_dram (s : State) (x : LoaderSt) : (s.setLoader x).dram = s.dram := rfl
@[simp] theorem State.setLoader_host (s : State) (x : LoaderSt) : (s.setLoader x).host = s.host := rfl
@[simp] theorem State.setLoader_sluices (s : State) (x : LoaderSt) : (s.setLoader x).sluices = s.sluices := rfl
@[simp] theorem State.setLoader_keys (s : State) (x : LoaderSt) : (s.setLoader x).keys = s.keys := rfl
@[simp] theorem State.setLoader_boot (s : State) (x : LoaderSt) : (s.setLoader x).boot = s.boot := rfl
@[simp] theorem State.setLoader_hop (s : State) (x : LoaderSt) : (s.setLoader x).hop = s.hop := rfl
@[simp] theorem State.setLoader_sched (s : State) (x : LoaderSt) : (s.setLoader x).sched = s.sched := rfl
@[simp] theorem State.setLoader_millers (s : State) (x : LoaderSt) : (s.setLoader x).millers = s.millers := rfl
@[simp] theorem State.setLoader_portData (s : State) (x : LoaderSt) : (s.setLoader x).portData = s.portData := rfl
@[simp] theorem State.setLoader_dbg (s : State) (x : LoaderSt) : (s.setLoader x).dbg = s.dbg := rfl
@[simp] theorem State.setLoader_pins (s : State) (x : LoaderSt) : (s.setLoader x).pins = s.pins := rfl
@[simp] theorem State.setLoader_trace (s : State) (x : LoaderSt) : (s.setLoader x).trace = s.trace := rfl
@[simp] theorem State.setLoader_uptime (s : State) (x : LoaderSt) : (s.setLoader x).uptime = s.uptime := rfl
@[simp] theorem State.setLoader_power (s : State) (x : LoaderSt) : (s.setLoader x).power = s.power := rfl
@[simp] theorem State.setLoader_free (s : State) (x : LoaderSt) : (s.setLoader x).free = s.free := rfl
@[simp] theorem State.setLoader_pending (s : State) (x : LoaderSt) : (s.setLoader x).pending = s.pending := rfl
@[simp] theorem State.setLoader_reg (s : State) (x : LoaderSt) (a0 : Nat) : (s.setLoader x).reg a0 = s.reg a0 := rfl
@[simp] theorem State.setLoader_get (s : State) (x : LoaderSt) (g0 : Fld) : (s.setLoader x).get g0 = s.get g0 := rfl

/-! ## lockStage -/

@[simp] theorem State.lockStage_regs (s : State) (p chan a len : Nat) : (s.lockStage p chan a len).regs = s.regs := rfl
@[simp] theorem State.lockStage_parts (s : State) (p chan a len : Nat) : (s.lockStage p chan a len).parts = s.parts := rfl
@[simp] theorem State.lockStage_stones (s : State) (p chan a len : Nat) : (s.lockStage p chan a len).stones = s.stones := rfl
@[simp] theorem State.lockStage_race (s : State) (p chan a len : Nat) : (s.lockStage p chan a len).race = s.race := rfl
@[simp] theorem State.lockStage_flume (s : State) (p chan a len : Nat) : (s.lockStage p chan a len).flume = s.flume := rfl
@[simp] theorem State.lockStage_dm (s : State) (p chan a len : Nat) : (s.lockStage p chan a len).dm = s.dm := rfl
@[simp] theorem State.lockStage_evt (s : State) (p chan a len : Nat) : (s.lockStage p chan a len).evt = s.evt := rfl
@[simp] theorem State.lockStage_lines (s : State) (p chan a len : Nat) : (s.lockStage p chan a len).lines = s.lines := rfl
@[simp] theorem State.lockStage_gov (s : State) (p chan a len : Nat) : (s.lockStage p chan a len).gov = s.gov := rfl
@[simp] theorem State.lockStage_clk (s : State) (p chan a len : Nat) : (s.lockStage p chan a len).clk = s.clk := rfl
@[simp] theorem State.lockStage_acq (s : State) (p chan a len : Nat) : (s.lockStage p chan a len).acq = s.acq := rfl
@[simp] theorem State.lockStage_time (s : State) (p chan a len : Nat) : (s.lockStage p chan a len).time = s.time := rfl
@[simp] theorem State.lockStage_mlipend (s : State) (p chan a len : Nat) : (s.lockStage p chan a len).mlipend = s.mlipend := rfl
@[simp] theorem State.lockStage_spokes (s : State) (p chan a len : Nat) : (s.lockStage p chan a len).spokes = s.spokes := rfl
@[simp] theorem State.lockStage_spokeRx (s : State) (p chan a len : Nat) : (s.lockStage p chan a len).spokeRx = s.spokeRx := rfl
@[simp] theorem State.lockStage_watchFirst (s : State) (p chan a len : Nat) : (s.lockStage p chan a len).watchFirst = s.watchFirst := rfl
@[simp] theorem State.lockStage_hostWins (s : State) (p chan a len : Nat) : (s.lockStage p chan a len).hostWins = s.hostWins := rfl
@[simp] theorem State.lockStage_readData (s : State) (p chan a len : Nat) : (s.lockStage p chan a len).readData = s.readData := rfl
@[simp] theorem State.lockStage_dram (s : State) (p chan a len : Nat) : (s.lockStage p chan a len).dram = s.dram := rfl
@[simp] theorem State.lockStage_host (s : State) (p chan a len : Nat) : (s.lockStage p chan a len).host = s.host := rfl
@[simp] theorem State.lockStage_sluices (s : State) (p chan a len : Nat) : (s.lockStage p chan a len).sluices = s.sluices := rfl
@[simp] theorem State.lockStage_keys (s : State) (p chan a len : Nat) : (s.lockStage p chan a len).keys = s.keys := rfl
@[simp] theorem State.lockStage_boot (s : State) (p chan a len : Nat) : (s.lockStage p chan a len).boot = s.boot := rfl
@[simp] theorem State.lockStage_hop (s : State) (p chan a len : Nat) : (s.lockStage p chan a len).hop = s.hop := rfl
@[simp] theorem State.lockStage_sched (s : State) (p chan a len : Nat) : (s.lockStage p chan a len).sched = s.sched := rfl
@[simp] theorem State.lockStage_millers (s : State) (p chan a len : Nat) : (s.lockStage p chan a len).millers = s.millers := rfl
@[simp] theorem State.lockStage_portData (s : State) (p chan a len : Nat) : (s.lockStage p chan a len).portData = s.portData := rfl
@[simp] theorem State.lockStage_dbg (s : State) (p chan a len : Nat) : (s.lockStage p chan a len).dbg = s.dbg := rfl
@[simp] theorem State.lockStage_pins (s : State) (p chan a len : Nat) : (s.lockStage p chan a len).pins = s.pins := rfl
@[simp] theorem State.lockStage_trace (s : State) (p chan a len : Nat) : (s.lockStage p chan a len).trace = s.trace := rfl
@[simp] theorem State.lockStage_uptime (s : State) (p chan a len : Nat) : (s.lockStage p chan a len).uptime = s.uptime := rfl
@[simp] theorem State.lockStage_power (s : State) (p chan a len : Nat) : (s.lockStage p chan a len).power = s.power := rfl
@[simp] theorem State.lockStage_free (s : State) (p chan a len : Nat) : (s.lockStage p chan a len).free = s.free := rfl
@[simp] theorem State.lockStage_pending (s : State) (p chan a len : Nat) : (s.lockStage p chan a len).pending = s.pending := rfl
@[simp] theorem State.lockStage_reg (s : State) (p chan a len : Nat) (a0 : Nat) : (s.lockStage p chan a len).reg a0 = s.reg a0 := rfl
@[simp] theorem State.lockStage_get (s : State) (p chan a len : Nat) (g0 : Fld) : (s.lockStage p chan a len).get g0 = s.get g0 := rfl

/-! ## unlockStage -/

@[simp] theorem State.unlockStage_regs (s : State) (p chan a len : Nat) : (s.unlockStage p chan a len).regs = s.regs := rfl
@[simp] theorem State.unlockStage_parts (s : State) (p chan a len : Nat) : (s.unlockStage p chan a len).parts = s.parts := rfl
@[simp] theorem State.unlockStage_stones (s : State) (p chan a len : Nat) : (s.unlockStage p chan a len).stones = s.stones := rfl
@[simp] theorem State.unlockStage_race (s : State) (p chan a len : Nat) : (s.unlockStage p chan a len).race = s.race := rfl
@[simp] theorem State.unlockStage_flume (s : State) (p chan a len : Nat) : (s.unlockStage p chan a len).flume = s.flume := rfl
@[simp] theorem State.unlockStage_dm (s : State) (p chan a len : Nat) : (s.unlockStage p chan a len).dm = s.dm := rfl
@[simp] theorem State.unlockStage_evt (s : State) (p chan a len : Nat) : (s.unlockStage p chan a len).evt = s.evt := rfl
@[simp] theorem State.unlockStage_lines (s : State) (p chan a len : Nat) : (s.unlockStage p chan a len).lines = s.lines := rfl
@[simp] theorem State.unlockStage_gov (s : State) (p chan a len : Nat) : (s.unlockStage p chan a len).gov = s.gov := rfl
@[simp] theorem State.unlockStage_clk (s : State) (p chan a len : Nat) : (s.unlockStage p chan a len).clk = s.clk := rfl
@[simp] theorem State.unlockStage_acq (s : State) (p chan a len : Nat) : (s.unlockStage p chan a len).acq = s.acq := rfl
@[simp] theorem State.unlockStage_time (s : State) (p chan a len : Nat) : (s.unlockStage p chan a len).time = s.time := rfl
@[simp] theorem State.unlockStage_mlipend (s : State) (p chan a len : Nat) : (s.unlockStage p chan a len).mlipend = s.mlipend := rfl
@[simp] theorem State.unlockStage_spokes (s : State) (p chan a len : Nat) : (s.unlockStage p chan a len).spokes = s.spokes := rfl
@[simp] theorem State.unlockStage_spokeRx (s : State) (p chan a len : Nat) : (s.unlockStage p chan a len).spokeRx = s.spokeRx := rfl
@[simp] theorem State.unlockStage_watchFirst (s : State) (p chan a len : Nat) : (s.unlockStage p chan a len).watchFirst = s.watchFirst := rfl
@[simp] theorem State.unlockStage_hostWins (s : State) (p chan a len : Nat) : (s.unlockStage p chan a len).hostWins = s.hostWins := rfl
@[simp] theorem State.unlockStage_readData (s : State) (p chan a len : Nat) : (s.unlockStage p chan a len).readData = s.readData := rfl
@[simp] theorem State.unlockStage_dram (s : State) (p chan a len : Nat) : (s.unlockStage p chan a len).dram = s.dram := rfl
@[simp] theorem State.unlockStage_host (s : State) (p chan a len : Nat) : (s.unlockStage p chan a len).host = s.host := rfl
@[simp] theorem State.unlockStage_sluices (s : State) (p chan a len : Nat) : (s.unlockStage p chan a len).sluices = s.sluices := rfl
@[simp] theorem State.unlockStage_keys (s : State) (p chan a len : Nat) : (s.unlockStage p chan a len).keys = s.keys := rfl
@[simp] theorem State.unlockStage_boot (s : State) (p chan a len : Nat) : (s.unlockStage p chan a len).boot = s.boot := rfl
@[simp] theorem State.unlockStage_hop (s : State) (p chan a len : Nat) : (s.unlockStage p chan a len).hop = s.hop := rfl
@[simp] theorem State.unlockStage_sched (s : State) (p chan a len : Nat) : (s.unlockStage p chan a len).sched = s.sched := rfl
@[simp] theorem State.unlockStage_millers (s : State) (p chan a len : Nat) : (s.unlockStage p chan a len).millers = s.millers := rfl
@[simp] theorem State.unlockStage_portData (s : State) (p chan a len : Nat) : (s.unlockStage p chan a len).portData = s.portData := rfl
@[simp] theorem State.unlockStage_dbg (s : State) (p chan a len : Nat) : (s.unlockStage p chan a len).dbg = s.dbg := rfl
@[simp] theorem State.unlockStage_pins (s : State) (p chan a len : Nat) : (s.unlockStage p chan a len).pins = s.pins := rfl
@[simp] theorem State.unlockStage_trace (s : State) (p chan a len : Nat) : (s.unlockStage p chan a len).trace = s.trace := rfl
@[simp] theorem State.unlockStage_uptime (s : State) (p chan a len : Nat) : (s.unlockStage p chan a len).uptime = s.uptime := rfl
@[simp] theorem State.unlockStage_power (s : State) (p chan a len : Nat) : (s.unlockStage p chan a len).power = s.power := rfl
@[simp] theorem State.unlockStage_free (s : State) (p chan a len : Nat) : (s.unlockStage p chan a len).free = s.free := rfl
@[simp] theorem State.unlockStage_pending (s : State) (p chan a len : Nat) : (s.unlockStage p chan a len).pending = s.pending := rfl
@[simp] theorem State.unlockStage_reg (s : State) (p chan a len : Nat) (a0 : Nat) : (s.unlockStage p chan a len).reg a0 = s.reg a0 := rfl
@[simp] theorem State.unlockStage_get (s : State) (p chan a len : Nat) (g0 : Fld) : (s.unlockStage p chan a len).get g0 = s.get g0 := rfl

/-! ## setAuthPort -/

@[simp] theorem State.setAuthPort_regs (s : State) (k : Nat) (x : AuthPort) : (s.setAuthPort k x).regs = s.regs := rfl
@[simp] theorem State.setAuthPort_parts (s : State) (k : Nat) (x : AuthPort) : (s.setAuthPort k x).parts = s.parts := rfl
@[simp] theorem State.setAuthPort_stones (s : State) (k : Nat) (x : AuthPort) : (s.setAuthPort k x).stones = s.stones := rfl
@[simp] theorem State.setAuthPort_race (s : State) (k : Nat) (x : AuthPort) : (s.setAuthPort k x).race = s.race := rfl
@[simp] theorem State.setAuthPort_flume (s : State) (k : Nat) (x : AuthPort) : (s.setAuthPort k x).flume = s.flume := rfl
@[simp] theorem State.setAuthPort_dm (s : State) (k : Nat) (x : AuthPort) : (s.setAuthPort k x).dm = s.dm := rfl
@[simp] theorem State.setAuthPort_evt (s : State) (k : Nat) (x : AuthPort) : (s.setAuthPort k x).evt = s.evt := rfl
@[simp] theorem State.setAuthPort_lines (s : State) (k : Nat) (x : AuthPort) : (s.setAuthPort k x).lines = s.lines := rfl
@[simp] theorem State.setAuthPort_gov (s : State) (k : Nat) (x : AuthPort) : (s.setAuthPort k x).gov = s.gov := rfl
@[simp] theorem State.setAuthPort_clk (s : State) (k : Nat) (x : AuthPort) : (s.setAuthPort k x).clk = s.clk := rfl
@[simp] theorem State.setAuthPort_acq (s : State) (k : Nat) (x : AuthPort) : (s.setAuthPort k x).acq = s.acq := rfl
@[simp] theorem State.setAuthPort_time (s : State) (k : Nat) (x : AuthPort) : (s.setAuthPort k x).time = s.time := rfl
@[simp] theorem State.setAuthPort_mlipend (s : State) (k : Nat) (x : AuthPort) : (s.setAuthPort k x).mlipend = s.mlipend := rfl
@[simp] theorem State.setAuthPort_spokes (s : State) (k : Nat) (x : AuthPort) : (s.setAuthPort k x).spokes = s.spokes := rfl
@[simp] theorem State.setAuthPort_spokeRx (s : State) (k : Nat) (x : AuthPort) : (s.setAuthPort k x).spokeRx = s.spokeRx := rfl
@[simp] theorem State.setAuthPort_watchFirst (s : State) (k : Nat) (x : AuthPort) : (s.setAuthPort k x).watchFirst = s.watchFirst := rfl
@[simp] theorem State.setAuthPort_hostWins (s : State) (k : Nat) (x : AuthPort) : (s.setAuthPort k x).hostWins = s.hostWins := rfl
@[simp] theorem State.setAuthPort_readData (s : State) (k : Nat) (x : AuthPort) : (s.setAuthPort k x).readData = s.readData := rfl
@[simp] theorem State.setAuthPort_dram (s : State) (k : Nat) (x : AuthPort) : (s.setAuthPort k x).dram = s.dram := rfl
@[simp] theorem State.setAuthPort_host (s : State) (k : Nat) (x : AuthPort) : (s.setAuthPort k x).host = s.host := rfl
@[simp] theorem State.setAuthPort_sluices (s : State) (k : Nat) (x : AuthPort) : (s.setAuthPort k x).sluices = s.sluices := rfl
@[simp] theorem State.setAuthPort_loader (s : State) (k : Nat) (x : AuthPort) : (s.setAuthPort k x).loader = s.loader := rfl
@[simp] theorem State.setAuthPort_keys (s : State) (k : Nat) (x : AuthPort) : (s.setAuthPort k x).keys = s.keys := rfl
@[simp] theorem State.setAuthPort_boot (s : State) (k : Nat) (x : AuthPort) : (s.setAuthPort k x).boot = s.boot := rfl
@[simp] theorem State.setAuthPort_hop (s : State) (k : Nat) (x : AuthPort) : (s.setAuthPort k x).hop = s.hop := rfl
@[simp] theorem State.setAuthPort_sched (s : State) (k : Nat) (x : AuthPort) : (s.setAuthPort k x).sched = s.sched := rfl
@[simp] theorem State.setAuthPort_millers (s : State) (k : Nat) (x : AuthPort) : (s.setAuthPort k x).millers = s.millers := rfl
@[simp] theorem State.setAuthPort_portData (s : State) (k : Nat) (x : AuthPort) : (s.setAuthPort k x).portData = s.portData := rfl
@[simp] theorem State.setAuthPort_pins (s : State) (k : Nat) (x : AuthPort) : (s.setAuthPort k x).pins = s.pins := rfl
@[simp] theorem State.setAuthPort_trace (s : State) (k : Nat) (x : AuthPort) : (s.setAuthPort k x).trace = s.trace := rfl
@[simp] theorem State.setAuthPort_uptime (s : State) (k : Nat) (x : AuthPort) : (s.setAuthPort k x).uptime = s.uptime := rfl
@[simp] theorem State.setAuthPort_power (s : State) (k : Nat) (x : AuthPort) : (s.setAuthPort k x).power = s.power := rfl
@[simp] theorem State.setAuthPort_free (s : State) (k : Nat) (x : AuthPort) : (s.setAuthPort k x).free = s.free := rfl
@[simp] theorem State.setAuthPort_pending (s : State) (k : Nat) (x : AuthPort) : (s.setAuthPort k x).pending = s.pending := rfl
@[simp] theorem State.setAuthPort_reg (s : State) (k : Nat) (x : AuthPort) (a0 : Nat) : (s.setAuthPort k x).reg a0 = s.reg a0 := rfl
@[simp] theorem State.setAuthPort_get (s : State) (k : Nat) (x : AuthPort) (g0 : Fld) : (s.setAuthPort k x).get g0 = s.get g0 := rfl

/-! ## setMiller -/

@[simp] theorem State.setMiller_regs (s : State) (k : Nat) (x : MillerSt) : (s.setMiller k x).regs = s.regs := rfl
@[simp] theorem State.setMiller_parts (s : State) (k : Nat) (x : MillerSt) : (s.setMiller k x).parts = s.parts := rfl
@[simp] theorem State.setMiller_stones (s : State) (k : Nat) (x : MillerSt) : (s.setMiller k x).stones = s.stones := rfl
@[simp] theorem State.setMiller_race (s : State) (k : Nat) (x : MillerSt) : (s.setMiller k x).race = s.race := rfl
@[simp] theorem State.setMiller_flume (s : State) (k : Nat) (x : MillerSt) : (s.setMiller k x).flume = s.flume := rfl
@[simp] theorem State.setMiller_dm (s : State) (k : Nat) (x : MillerSt) : (s.setMiller k x).dm = s.dm := rfl
@[simp] theorem State.setMiller_evt (s : State) (k : Nat) (x : MillerSt) : (s.setMiller k x).evt = s.evt := rfl
@[simp] theorem State.setMiller_lines (s : State) (k : Nat) (x : MillerSt) : (s.setMiller k x).lines = s.lines := rfl
@[simp] theorem State.setMiller_gov (s : State) (k : Nat) (x : MillerSt) : (s.setMiller k x).gov = s.gov := rfl
@[simp] theorem State.setMiller_clk (s : State) (k : Nat) (x : MillerSt) : (s.setMiller k x).clk = s.clk := rfl
@[simp] theorem State.setMiller_acq (s : State) (k : Nat) (x : MillerSt) : (s.setMiller k x).acq = s.acq := rfl
@[simp] theorem State.setMiller_time (s : State) (k : Nat) (x : MillerSt) : (s.setMiller k x).time = s.time := rfl
@[simp] theorem State.setMiller_mlipend (s : State) (k : Nat) (x : MillerSt) : (s.setMiller k x).mlipend = s.mlipend := rfl
@[simp] theorem State.setMiller_spokes (s : State) (k : Nat) (x : MillerSt) : (s.setMiller k x).spokes = s.spokes := rfl
@[simp] theorem State.setMiller_spokeRx (s : State) (k : Nat) (x : MillerSt) : (s.setMiller k x).spokeRx = s.spokeRx := rfl
@[simp] theorem State.setMiller_watchFirst (s : State) (k : Nat) (x : MillerSt) : (s.setMiller k x).watchFirst = s.watchFirst := rfl
@[simp] theorem State.setMiller_hostWins (s : State) (k : Nat) (x : MillerSt) : (s.setMiller k x).hostWins = s.hostWins := rfl
@[simp] theorem State.setMiller_readData (s : State) (k : Nat) (x : MillerSt) : (s.setMiller k x).readData = s.readData := rfl
@[simp] theorem State.setMiller_dram (s : State) (k : Nat) (x : MillerSt) : (s.setMiller k x).dram = s.dram := rfl
@[simp] theorem State.setMiller_host (s : State) (k : Nat) (x : MillerSt) : (s.setMiller k x).host = s.host := rfl
@[simp] theorem State.setMiller_sluices (s : State) (k : Nat) (x : MillerSt) : (s.setMiller k x).sluices = s.sluices := rfl
@[simp] theorem State.setMiller_loader (s : State) (k : Nat) (x : MillerSt) : (s.setMiller k x).loader = s.loader := rfl
@[simp] theorem State.setMiller_keys (s : State) (k : Nat) (x : MillerSt) : (s.setMiller k x).keys = s.keys := rfl
@[simp] theorem State.setMiller_boot (s : State) (k : Nat) (x : MillerSt) : (s.setMiller k x).boot = s.boot := rfl
@[simp] theorem State.setMiller_hop (s : State) (k : Nat) (x : MillerSt) : (s.setMiller k x).hop = s.hop := rfl
@[simp] theorem State.setMiller_sched (s : State) (k : Nat) (x : MillerSt) : (s.setMiller k x).sched = s.sched := rfl
@[simp] theorem State.setMiller_portData (s : State) (k : Nat) (x : MillerSt) : (s.setMiller k x).portData = s.portData := rfl
@[simp] theorem State.setMiller_dbg (s : State) (k : Nat) (x : MillerSt) : (s.setMiller k x).dbg = s.dbg := rfl
@[simp] theorem State.setMiller_pins (s : State) (k : Nat) (x : MillerSt) : (s.setMiller k x).pins = s.pins := rfl
@[simp] theorem State.setMiller_trace (s : State) (k : Nat) (x : MillerSt) : (s.setMiller k x).trace = s.trace := rfl
@[simp] theorem State.setMiller_uptime (s : State) (k : Nat) (x : MillerSt) : (s.setMiller k x).uptime = s.uptime := rfl
@[simp] theorem State.setMiller_power (s : State) (k : Nat) (x : MillerSt) : (s.setMiller k x).power = s.power := rfl
@[simp] theorem State.setMiller_free (s : State) (k : Nat) (x : MillerSt) : (s.setMiller k x).free = s.free := rfl
@[simp] theorem State.setMiller_pending (s : State) (k : Nat) (x : MillerSt) : (s.setMiller k x).pending = s.pending := rfl
@[simp] theorem State.setMiller_reg (s : State) (k : Nat) (x : MillerSt) (a0 : Nat) : (s.setMiller k x).reg a0 = s.reg a0 := rfl
@[simp] theorem State.setMiller_get (s : State) (k : Nat) (x : MillerSt) (g0 : Fld) : (s.setMiller k x).get g0 = s.get g0 := rfl

/-! ## setSchedCore -/

@[simp] theorem State.setSchedCore_regs (s : State) (k : Nat) (x : SchedCore) : (s.setSchedCore k x).regs = s.regs := rfl
@[simp] theorem State.setSchedCore_parts (s : State) (k : Nat) (x : SchedCore) : (s.setSchedCore k x).parts = s.parts := rfl
@[simp] theorem State.setSchedCore_stones (s : State) (k : Nat) (x : SchedCore) : (s.setSchedCore k x).stones = s.stones := rfl
@[simp] theorem State.setSchedCore_race (s : State) (k : Nat) (x : SchedCore) : (s.setSchedCore k x).race = s.race := rfl
@[simp] theorem State.setSchedCore_flume (s : State) (k : Nat) (x : SchedCore) : (s.setSchedCore k x).flume = s.flume := rfl
@[simp] theorem State.setSchedCore_dm (s : State) (k : Nat) (x : SchedCore) : (s.setSchedCore k x).dm = s.dm := rfl
@[simp] theorem State.setSchedCore_evt (s : State) (k : Nat) (x : SchedCore) : (s.setSchedCore k x).evt = s.evt := rfl
@[simp] theorem State.setSchedCore_lines (s : State) (k : Nat) (x : SchedCore) : (s.setSchedCore k x).lines = s.lines := rfl
@[simp] theorem State.setSchedCore_gov (s : State) (k : Nat) (x : SchedCore) : (s.setSchedCore k x).gov = s.gov := rfl
@[simp] theorem State.setSchedCore_clk (s : State) (k : Nat) (x : SchedCore) : (s.setSchedCore k x).clk = s.clk := rfl
@[simp] theorem State.setSchedCore_acq (s : State) (k : Nat) (x : SchedCore) : (s.setSchedCore k x).acq = s.acq := rfl
@[simp] theorem State.setSchedCore_time (s : State) (k : Nat) (x : SchedCore) : (s.setSchedCore k x).time = s.time := rfl
@[simp] theorem State.setSchedCore_mlipend (s : State) (k : Nat) (x : SchedCore) : (s.setSchedCore k x).mlipend = s.mlipend := rfl
@[simp] theorem State.setSchedCore_spokes (s : State) (k : Nat) (x : SchedCore) : (s.setSchedCore k x).spokes = s.spokes := rfl
@[simp] theorem State.setSchedCore_spokeRx (s : State) (k : Nat) (x : SchedCore) : (s.setSchedCore k x).spokeRx = s.spokeRx := rfl
@[simp] theorem State.setSchedCore_watchFirst (s : State) (k : Nat) (x : SchedCore) : (s.setSchedCore k x).watchFirst = s.watchFirst := rfl
@[simp] theorem State.setSchedCore_hostWins (s : State) (k : Nat) (x : SchedCore) : (s.setSchedCore k x).hostWins = s.hostWins := rfl
@[simp] theorem State.setSchedCore_readData (s : State) (k : Nat) (x : SchedCore) : (s.setSchedCore k x).readData = s.readData := rfl
@[simp] theorem State.setSchedCore_dram (s : State) (k : Nat) (x : SchedCore) : (s.setSchedCore k x).dram = s.dram := rfl
@[simp] theorem State.setSchedCore_host (s : State) (k : Nat) (x : SchedCore) : (s.setSchedCore k x).host = s.host := rfl
@[simp] theorem State.setSchedCore_sluices (s : State) (k : Nat) (x : SchedCore) : (s.setSchedCore k x).sluices = s.sluices := rfl
@[simp] theorem State.setSchedCore_loader (s : State) (k : Nat) (x : SchedCore) : (s.setSchedCore k x).loader = s.loader := rfl
@[simp] theorem State.setSchedCore_keys (s : State) (k : Nat) (x : SchedCore) : (s.setSchedCore k x).keys = s.keys := rfl
@[simp] theorem State.setSchedCore_boot (s : State) (k : Nat) (x : SchedCore) : (s.setSchedCore k x).boot = s.boot := rfl
@[simp] theorem State.setSchedCore_hop (s : State) (k : Nat) (x : SchedCore) : (s.setSchedCore k x).hop = s.hop := rfl
@[simp] theorem State.setSchedCore_millers (s : State) (k : Nat) (x : SchedCore) : (s.setSchedCore k x).millers = s.millers := rfl
@[simp] theorem State.setSchedCore_portData (s : State) (k : Nat) (x : SchedCore) : (s.setSchedCore k x).portData = s.portData := rfl
@[simp] theorem State.setSchedCore_dbg (s : State) (k : Nat) (x : SchedCore) : (s.setSchedCore k x).dbg = s.dbg := rfl
@[simp] theorem State.setSchedCore_pins (s : State) (k : Nat) (x : SchedCore) : (s.setSchedCore k x).pins = s.pins := rfl
@[simp] theorem State.setSchedCore_trace (s : State) (k : Nat) (x : SchedCore) : (s.setSchedCore k x).trace = s.trace := rfl
@[simp] theorem State.setSchedCore_uptime (s : State) (k : Nat) (x : SchedCore) : (s.setSchedCore k x).uptime = s.uptime := rfl
@[simp] theorem State.setSchedCore_power (s : State) (k : Nat) (x : SchedCore) : (s.setSchedCore k x).power = s.power := rfl
@[simp] theorem State.setSchedCore_free (s : State) (k : Nat) (x : SchedCore) : (s.setSchedCore k x).free = s.free := rfl
@[simp] theorem State.setSchedCore_pending (s : State) (k : Nat) (x : SchedCore) : (s.setSchedCore k x).pending = s.pending := rfl
@[simp] theorem State.setSchedCore_reg (s : State) (k : Nat) (x : SchedCore) (a0 : Nat) : (s.setSchedCore k x).reg a0 = s.reg a0 := rfl
@[simp] theorem State.setSchedCore_get (s : State) (k : Nat) (x : SchedCore) (g0 : Fld) : (s.setSchedCore k x).get g0 = s.get g0 := rfl

/-! ## setTrc -/

@[simp] theorem State.setTrc_regs (s : State) (k : Nat) (x : TrcCore) : (s.setTrc k x).regs = s.regs := rfl
@[simp] theorem State.setTrc_parts (s : State) (k : Nat) (x : TrcCore) : (s.setTrc k x).parts = s.parts := rfl
@[simp] theorem State.setTrc_stones (s : State) (k : Nat) (x : TrcCore) : (s.setTrc k x).stones = s.stones := rfl
@[simp] theorem State.setTrc_race (s : State) (k : Nat) (x : TrcCore) : (s.setTrc k x).race = s.race := rfl
@[simp] theorem State.setTrc_flume (s : State) (k : Nat) (x : TrcCore) : (s.setTrc k x).flume = s.flume := rfl
@[simp] theorem State.setTrc_dm (s : State) (k : Nat) (x : TrcCore) : (s.setTrc k x).dm = s.dm := rfl
@[simp] theorem State.setTrc_evt (s : State) (k : Nat) (x : TrcCore) : (s.setTrc k x).evt = s.evt := rfl
@[simp] theorem State.setTrc_lines (s : State) (k : Nat) (x : TrcCore) : (s.setTrc k x).lines = s.lines := rfl
@[simp] theorem State.setTrc_gov (s : State) (k : Nat) (x : TrcCore) : (s.setTrc k x).gov = s.gov := rfl
@[simp] theorem State.setTrc_clk (s : State) (k : Nat) (x : TrcCore) : (s.setTrc k x).clk = s.clk := rfl
@[simp] theorem State.setTrc_acq (s : State) (k : Nat) (x : TrcCore) : (s.setTrc k x).acq = s.acq := rfl
@[simp] theorem State.setTrc_time (s : State) (k : Nat) (x : TrcCore) : (s.setTrc k x).time = s.time := rfl
@[simp] theorem State.setTrc_mlipend (s : State) (k : Nat) (x : TrcCore) : (s.setTrc k x).mlipend = s.mlipend := rfl
@[simp] theorem State.setTrc_spokes (s : State) (k : Nat) (x : TrcCore) : (s.setTrc k x).spokes = s.spokes := rfl
@[simp] theorem State.setTrc_spokeRx (s : State) (k : Nat) (x : TrcCore) : (s.setTrc k x).spokeRx = s.spokeRx := rfl
@[simp] theorem State.setTrc_watchFirst (s : State) (k : Nat) (x : TrcCore) : (s.setTrc k x).watchFirst = s.watchFirst := rfl
@[simp] theorem State.setTrc_hostWins (s : State) (k : Nat) (x : TrcCore) : (s.setTrc k x).hostWins = s.hostWins := rfl
@[simp] theorem State.setTrc_readData (s : State) (k : Nat) (x : TrcCore) : (s.setTrc k x).readData = s.readData := rfl
@[simp] theorem State.setTrc_dram (s : State) (k : Nat) (x : TrcCore) : (s.setTrc k x).dram = s.dram := rfl
@[simp] theorem State.setTrc_host (s : State) (k : Nat) (x : TrcCore) : (s.setTrc k x).host = s.host := rfl
@[simp] theorem State.setTrc_sluices (s : State) (k : Nat) (x : TrcCore) : (s.setTrc k x).sluices = s.sluices := rfl
@[simp] theorem State.setTrc_loader (s : State) (k : Nat) (x : TrcCore) : (s.setTrc k x).loader = s.loader := rfl
@[simp] theorem State.setTrc_keys (s : State) (k : Nat) (x : TrcCore) : (s.setTrc k x).keys = s.keys := rfl
@[simp] theorem State.setTrc_boot (s : State) (k : Nat) (x : TrcCore) : (s.setTrc k x).boot = s.boot := rfl
@[simp] theorem State.setTrc_hop (s : State) (k : Nat) (x : TrcCore) : (s.setTrc k x).hop = s.hop := rfl
@[simp] theorem State.setTrc_sched (s : State) (k : Nat) (x : TrcCore) : (s.setTrc k x).sched = s.sched := rfl
@[simp] theorem State.setTrc_millers (s : State) (k : Nat) (x : TrcCore) : (s.setTrc k x).millers = s.millers := rfl
@[simp] theorem State.setTrc_portData (s : State) (k : Nat) (x : TrcCore) : (s.setTrc k x).portData = s.portData := rfl
@[simp] theorem State.setTrc_dbg (s : State) (k : Nat) (x : TrcCore) : (s.setTrc k x).dbg = s.dbg := rfl
@[simp] theorem State.setTrc_pins (s : State) (k : Nat) (x : TrcCore) : (s.setTrc k x).pins = s.pins := rfl
@[simp] theorem State.setTrc_uptime (s : State) (k : Nat) (x : TrcCore) : (s.setTrc k x).uptime = s.uptime := rfl
@[simp] theorem State.setTrc_power (s : State) (k : Nat) (x : TrcCore) : (s.setTrc k x).power = s.power := rfl
@[simp] theorem State.setTrc_free (s : State) (k : Nat) (x : TrcCore) : (s.setTrc k x).free = s.free := rfl
@[simp] theorem State.setTrc_pending (s : State) (k : Nat) (x : TrcCore) : (s.setTrc k x).pending = s.pending := rfl
@[simp] theorem State.setTrc_reg (s : State) (k : Nat) (x : TrcCore) (a0 : Nat) : (s.setTrc k x).reg a0 = s.reg a0 := rfl
@[simp] theorem State.setTrc_get (s : State) (k : Nat) (x : TrcCore) (g0 : Fld) : (s.setTrc k x).get g0 = s.get g0 := rfl

/-! ## setSluice -/

@[simp] theorem State.setSluice_regs (s : State) (k : Nat) (x : SluiceSt) : (s.setSluice k x).regs = s.regs := rfl
@[simp] theorem State.setSluice_parts (s : State) (k : Nat) (x : SluiceSt) : (s.setSluice k x).parts = s.parts := rfl
@[simp] theorem State.setSluice_stones (s : State) (k : Nat) (x : SluiceSt) : (s.setSluice k x).stones = s.stones := rfl
@[simp] theorem State.setSluice_race (s : State) (k : Nat) (x : SluiceSt) : (s.setSluice k x).race = s.race := rfl
@[simp] theorem State.setSluice_flume (s : State) (k : Nat) (x : SluiceSt) : (s.setSluice k x).flume = s.flume := rfl
@[simp] theorem State.setSluice_dm (s : State) (k : Nat) (x : SluiceSt) : (s.setSluice k x).dm = s.dm := rfl
@[simp] theorem State.setSluice_evt (s : State) (k : Nat) (x : SluiceSt) : (s.setSluice k x).evt = s.evt := rfl
@[simp] theorem State.setSluice_lines (s : State) (k : Nat) (x : SluiceSt) : (s.setSluice k x).lines = s.lines := rfl
@[simp] theorem State.setSluice_gov (s : State) (k : Nat) (x : SluiceSt) : (s.setSluice k x).gov = s.gov := rfl
@[simp] theorem State.setSluice_clk (s : State) (k : Nat) (x : SluiceSt) : (s.setSluice k x).clk = s.clk := rfl
@[simp] theorem State.setSluice_acq (s : State) (k : Nat) (x : SluiceSt) : (s.setSluice k x).acq = s.acq := rfl
@[simp] theorem State.setSluice_time (s : State) (k : Nat) (x : SluiceSt) : (s.setSluice k x).time = s.time := rfl
@[simp] theorem State.setSluice_mlipend (s : State) (k : Nat) (x : SluiceSt) : (s.setSluice k x).mlipend = s.mlipend := rfl
@[simp] theorem State.setSluice_spokes (s : State) (k : Nat) (x : SluiceSt) : (s.setSluice k x).spokes = s.spokes := rfl
@[simp] theorem State.setSluice_spokeRx (s : State) (k : Nat) (x : SluiceSt) : (s.setSluice k x).spokeRx = s.spokeRx := rfl
@[simp] theorem State.setSluice_watchFirst (s : State) (k : Nat) (x : SluiceSt) : (s.setSluice k x).watchFirst = s.watchFirst := rfl
@[simp] theorem State.setSluice_hostWins (s : State) (k : Nat) (x : SluiceSt) : (s.setSluice k x).hostWins = s.hostWins := rfl
@[simp] theorem State.setSluice_readData (s : State) (k : Nat) (x : SluiceSt) : (s.setSluice k x).readData = s.readData := rfl
@[simp] theorem State.setSluice_dram (s : State) (k : Nat) (x : SluiceSt) : (s.setSluice k x).dram = s.dram := rfl
@[simp] theorem State.setSluice_host (s : State) (k : Nat) (x : SluiceSt) : (s.setSluice k x).host = s.host := rfl
@[simp] theorem State.setSluice_loader (s : State) (k : Nat) (x : SluiceSt) : (s.setSluice k x).loader = s.loader := rfl
@[simp] theorem State.setSluice_keys (s : State) (k : Nat) (x : SluiceSt) : (s.setSluice k x).keys = s.keys := rfl
@[simp] theorem State.setSluice_boot (s : State) (k : Nat) (x : SluiceSt) : (s.setSluice k x).boot = s.boot := rfl
@[simp] theorem State.setSluice_hop (s : State) (k : Nat) (x : SluiceSt) : (s.setSluice k x).hop = s.hop := rfl
@[simp] theorem State.setSluice_sched (s : State) (k : Nat) (x : SluiceSt) : (s.setSluice k x).sched = s.sched := rfl
@[simp] theorem State.setSluice_millers (s : State) (k : Nat) (x : SluiceSt) : (s.setSluice k x).millers = s.millers := rfl
@[simp] theorem State.setSluice_portData (s : State) (k : Nat) (x : SluiceSt) : (s.setSluice k x).portData = s.portData := rfl
@[simp] theorem State.setSluice_dbg (s : State) (k : Nat) (x : SluiceSt) : (s.setSluice k x).dbg = s.dbg := rfl
@[simp] theorem State.setSluice_pins (s : State) (k : Nat) (x : SluiceSt) : (s.setSluice k x).pins = s.pins := rfl
@[simp] theorem State.setSluice_trace (s : State) (k : Nat) (x : SluiceSt) : (s.setSluice k x).trace = s.trace := rfl
@[simp] theorem State.setSluice_uptime (s : State) (k : Nat) (x : SluiceSt) : (s.setSluice k x).uptime = s.uptime := rfl
@[simp] theorem State.setSluice_power (s : State) (k : Nat) (x : SluiceSt) : (s.setSluice k x).power = s.power := rfl
@[simp] theorem State.setSluice_free (s : State) (k : Nat) (x : SluiceSt) : (s.setSluice k x).free = s.free := rfl
@[simp] theorem State.setSluice_pending (s : State) (k : Nat) (x : SluiceSt) : (s.setSluice k x).pending = s.pending := rfl
@[simp] theorem State.setSluice_reg (s : State) (k : Nat) (x : SluiceSt) (a0 : Nat) : (s.setSluice k x).reg a0 = s.reg a0 := rfl
@[simp] theorem State.setSluice_get (s : State) (k : Nat) (x : SluiceSt) (g0 : Fld) : (s.setSluice k x).get g0 = s.get g0 := rfl

/-! ## setSlew -/

@[simp] theorem State.setSlew_regs (s : State) (k : Nat) (v : Int) : (s.setSlew k v).regs = s.regs := rfl
@[simp] theorem State.setSlew_parts (s : State) (k : Nat) (v : Int) : (s.setSlew k v).parts = s.parts := rfl
@[simp] theorem State.setSlew_stones (s : State) (k : Nat) (v : Int) : (s.setSlew k v).stones = s.stones := rfl
@[simp] theorem State.setSlew_race (s : State) (k : Nat) (v : Int) : (s.setSlew k v).race = s.race := rfl
@[simp] theorem State.setSlew_flume (s : State) (k : Nat) (v : Int) : (s.setSlew k v).flume = s.flume := rfl
@[simp] theorem State.setSlew_dm (s : State) (k : Nat) (v : Int) : (s.setSlew k v).dm = s.dm := rfl
@[simp] theorem State.setSlew_evt (s : State) (k : Nat) (v : Int) : (s.setSlew k v).evt = s.evt := rfl
@[simp] theorem State.setSlew_lines (s : State) (k : Nat) (v : Int) : (s.setSlew k v).lines = s.lines := rfl
@[simp] theorem State.setSlew_gov (s : State) (k : Nat) (v : Int) : (s.setSlew k v).gov = s.gov := rfl
@[simp] theorem State.setSlew_clk (s : State) (k : Nat) (v : Int) : (s.setSlew k v).clk = s.clk := rfl
@[simp] theorem State.setSlew_acq (s : State) (k : Nat) (v : Int) : (s.setSlew k v).acq = s.acq := rfl
@[simp] theorem State.setSlew_mlipend (s : State) (k : Nat) (v : Int) : (s.setSlew k v).mlipend = s.mlipend := rfl
@[simp] theorem State.setSlew_spokes (s : State) (k : Nat) (v : Int) : (s.setSlew k v).spokes = s.spokes := rfl
@[simp] theorem State.setSlew_spokeRx (s : State) (k : Nat) (v : Int) : (s.setSlew k v).spokeRx = s.spokeRx := rfl
@[simp] theorem State.setSlew_watchFirst (s : State) (k : Nat) (v : Int) : (s.setSlew k v).watchFirst = s.watchFirst := rfl
@[simp] theorem State.setSlew_hostWins (s : State) (k : Nat) (v : Int) : (s.setSlew k v).hostWins = s.hostWins := rfl
@[simp] theorem State.setSlew_readData (s : State) (k : Nat) (v : Int) : (s.setSlew k v).readData = s.readData := rfl
@[simp] theorem State.setSlew_dram (s : State) (k : Nat) (v : Int) : (s.setSlew k v).dram = s.dram := rfl
@[simp] theorem State.setSlew_host (s : State) (k : Nat) (v : Int) : (s.setSlew k v).host = s.host := rfl
@[simp] theorem State.setSlew_sluices (s : State) (k : Nat) (v : Int) : (s.setSlew k v).sluices = s.sluices := rfl
@[simp] theorem State.setSlew_loader (s : State) (k : Nat) (v : Int) : (s.setSlew k v).loader = s.loader := rfl
@[simp] theorem State.setSlew_keys (s : State) (k : Nat) (v : Int) : (s.setSlew k v).keys = s.keys := rfl
@[simp] theorem State.setSlew_boot (s : State) (k : Nat) (v : Int) : (s.setSlew k v).boot = s.boot := rfl
@[simp] theorem State.setSlew_hop (s : State) (k : Nat) (v : Int) : (s.setSlew k v).hop = s.hop := rfl
@[simp] theorem State.setSlew_sched (s : State) (k : Nat) (v : Int) : (s.setSlew k v).sched = s.sched := rfl
@[simp] theorem State.setSlew_millers (s : State) (k : Nat) (v : Int) : (s.setSlew k v).millers = s.millers := rfl
@[simp] theorem State.setSlew_portData (s : State) (k : Nat) (v : Int) : (s.setSlew k v).portData = s.portData := rfl
@[simp] theorem State.setSlew_dbg (s : State) (k : Nat) (v : Int) : (s.setSlew k v).dbg = s.dbg := rfl
@[simp] theorem State.setSlew_pins (s : State) (k : Nat) (v : Int) : (s.setSlew k v).pins = s.pins := rfl
@[simp] theorem State.setSlew_trace (s : State) (k : Nat) (v : Int) : (s.setSlew k v).trace = s.trace := rfl
@[simp] theorem State.setSlew_uptime (s : State) (k : Nat) (v : Int) : (s.setSlew k v).uptime = s.uptime := rfl
@[simp] theorem State.setSlew_power (s : State) (k : Nat) (v : Int) : (s.setSlew k v).power = s.power := rfl
@[simp] theorem State.setSlew_free (s : State) (k : Nat) (v : Int) : (s.setSlew k v).free = s.free := rfl
@[simp] theorem State.setSlew_pending (s : State) (k : Nat) (v : Int) : (s.setSlew k v).pending = s.pending := rfl
@[simp] theorem State.setSlew_reg (s : State) (k : Nat) (v : Int) (a0 : Nat) : (s.setSlew k v).reg a0 = s.reg a0 := rfl
@[simp] theorem State.setSlew_get (s : State) (k : Nat) (v : Int) (g0 : Fld) : (s.setSlew k v).get g0 = s.get g0 := rfl

/-! ## setPgNext -/

@[simp] theorem State.setPgNext_regs (s : State) (k v : Nat) : (s.setPgNext k v).regs = s.regs := rfl
@[simp] theorem State.setPgNext_parts (s : State) (k v : Nat) : (s.setPgNext k v).parts = s.parts := rfl
@[simp] theorem State.setPgNext_stones (s : State) (k v : Nat) : (s.setPgNext k v).stones = s.stones := rfl
@[simp] theorem State.setPgNext_race (s : State) (k v : Nat) : (s.setPgNext k v).race = s.race := rfl
@[simp] theorem State.setPgNext_flume (s : State) (k v : Nat) : (s.setPgNext k v).flume = s.flume := rfl
@[simp] theorem State.setPgNext_dm (s : State) (k v : Nat) : (s.setPgNext k v).dm = s.dm := rfl
@[simp] theorem State.setPgNext_evt (s : State) (k v : Nat) : (s.setPgNext k v).evt = s.evt := rfl
@[simp] theorem State.setPgNext_lines (s : State) (k v : Nat) : (s.setPgNext k v).lines = s.lines := rfl
@[simp] theorem State.setPgNext_gov (s : State) (k v : Nat) : (s.setPgNext k v).gov = s.gov := rfl
@[simp] theorem State.setPgNext_clk (s : State) (k v : Nat) : (s.setPgNext k v).clk = s.clk := rfl
@[simp] theorem State.setPgNext_acq (s : State) (k v : Nat) : (s.setPgNext k v).acq = s.acq := rfl
@[simp] theorem State.setPgNext_mlipend (s : State) (k v : Nat) : (s.setPgNext k v).mlipend = s.mlipend := rfl
@[simp] theorem State.setPgNext_spokes (s : State) (k v : Nat) : (s.setPgNext k v).spokes = s.spokes := rfl
@[simp] theorem State.setPgNext_spokeRx (s : State) (k v : Nat) : (s.setPgNext k v).spokeRx = s.spokeRx := rfl
@[simp] theorem State.setPgNext_watchFirst (s : State) (k v : Nat) : (s.setPgNext k v).watchFirst = s.watchFirst := rfl
@[simp] theorem State.setPgNext_hostWins (s : State) (k v : Nat) : (s.setPgNext k v).hostWins = s.hostWins := rfl
@[simp] theorem State.setPgNext_readData (s : State) (k v : Nat) : (s.setPgNext k v).readData = s.readData := rfl
@[simp] theorem State.setPgNext_dram (s : State) (k v : Nat) : (s.setPgNext k v).dram = s.dram := rfl
@[simp] theorem State.setPgNext_host (s : State) (k v : Nat) : (s.setPgNext k v).host = s.host := rfl
@[simp] theorem State.setPgNext_sluices (s : State) (k v : Nat) : (s.setPgNext k v).sluices = s.sluices := rfl
@[simp] theorem State.setPgNext_loader (s : State) (k v : Nat) : (s.setPgNext k v).loader = s.loader := rfl
@[simp] theorem State.setPgNext_keys (s : State) (k v : Nat) : (s.setPgNext k v).keys = s.keys := rfl
@[simp] theorem State.setPgNext_boot (s : State) (k v : Nat) : (s.setPgNext k v).boot = s.boot := rfl
@[simp] theorem State.setPgNext_hop (s : State) (k v : Nat) : (s.setPgNext k v).hop = s.hop := rfl
@[simp] theorem State.setPgNext_sched (s : State) (k v : Nat) : (s.setPgNext k v).sched = s.sched := rfl
@[simp] theorem State.setPgNext_millers (s : State) (k v : Nat) : (s.setPgNext k v).millers = s.millers := rfl
@[simp] theorem State.setPgNext_portData (s : State) (k v : Nat) : (s.setPgNext k v).portData = s.portData := rfl
@[simp] theorem State.setPgNext_dbg (s : State) (k v : Nat) : (s.setPgNext k v).dbg = s.dbg := rfl
@[simp] theorem State.setPgNext_pins (s : State) (k v : Nat) : (s.setPgNext k v).pins = s.pins := rfl
@[simp] theorem State.setPgNext_trace (s : State) (k v : Nat) : (s.setPgNext k v).trace = s.trace := rfl
@[simp] theorem State.setPgNext_uptime (s : State) (k v : Nat) : (s.setPgNext k v).uptime = s.uptime := rfl
@[simp] theorem State.setPgNext_power (s : State) (k v : Nat) : (s.setPgNext k v).power = s.power := rfl
@[simp] theorem State.setPgNext_free (s : State) (k v : Nat) : (s.setPgNext k v).free = s.free := rfl
@[simp] theorem State.setPgNext_pending (s : State) (k v : Nat) : (s.setPgNext k v).pending = s.pending := rfl
@[simp] theorem State.setPgNext_reg (s : State) (k v : Nat) (a0 : Nat) : (s.setPgNext k v).reg a0 = s.reg a0 := rfl
@[simp] theorem State.setPgNext_get (s : State) (k v : Nat) (g0 : Fld) : (s.setPgNext k v).get g0 = s.get g0 := rfl

/-! ## setPulse -/

@[simp] theorem State.setPulse_regs (s : State) (k : Nat) (b : Bool) : (s.setPulse k b).regs = s.regs := rfl
@[simp] theorem State.setPulse_parts (s : State) (k : Nat) (b : Bool) : (s.setPulse k b).parts = s.parts := rfl
@[simp] theorem State.setPulse_stones (s : State) (k : Nat) (b : Bool) : (s.setPulse k b).stones = s.stones := rfl
@[simp] theorem State.setPulse_race (s : State) (k : Nat) (b : Bool) : (s.setPulse k b).race = s.race := rfl
@[simp] theorem State.setPulse_flume (s : State) (k : Nat) (b : Bool) : (s.setPulse k b).flume = s.flume := rfl
@[simp] theorem State.setPulse_dm (s : State) (k : Nat) (b : Bool) : (s.setPulse k b).dm = s.dm := rfl
@[simp] theorem State.setPulse_evt (s : State) (k : Nat) (b : Bool) : (s.setPulse k b).evt = s.evt := rfl
@[simp] theorem State.setPulse_lines (s : State) (k : Nat) (b : Bool) : (s.setPulse k b).lines = s.lines := rfl
@[simp] theorem State.setPulse_gov (s : State) (k : Nat) (b : Bool) : (s.setPulse k b).gov = s.gov := rfl
@[simp] theorem State.setPulse_clk (s : State) (k : Nat) (b : Bool) : (s.setPulse k b).clk = s.clk := rfl
@[simp] theorem State.setPulse_acq (s : State) (k : Nat) (b : Bool) : (s.setPulse k b).acq = s.acq := rfl
@[simp] theorem State.setPulse_mlipend (s : State) (k : Nat) (b : Bool) : (s.setPulse k b).mlipend = s.mlipend := rfl
@[simp] theorem State.setPulse_spokes (s : State) (k : Nat) (b : Bool) : (s.setPulse k b).spokes = s.spokes := rfl
@[simp] theorem State.setPulse_spokeRx (s : State) (k : Nat) (b : Bool) : (s.setPulse k b).spokeRx = s.spokeRx := rfl
@[simp] theorem State.setPulse_watchFirst (s : State) (k : Nat) (b : Bool) : (s.setPulse k b).watchFirst = s.watchFirst := rfl
@[simp] theorem State.setPulse_hostWins (s : State) (k : Nat) (b : Bool) : (s.setPulse k b).hostWins = s.hostWins := rfl
@[simp] theorem State.setPulse_readData (s : State) (k : Nat) (b : Bool) : (s.setPulse k b).readData = s.readData := rfl
@[simp] theorem State.setPulse_dram (s : State) (k : Nat) (b : Bool) : (s.setPulse k b).dram = s.dram := rfl
@[simp] theorem State.setPulse_host (s : State) (k : Nat) (b : Bool) : (s.setPulse k b).host = s.host := rfl
@[simp] theorem State.setPulse_sluices (s : State) (k : Nat) (b : Bool) : (s.setPulse k b).sluices = s.sluices := rfl
@[simp] theorem State.setPulse_loader (s : State) (k : Nat) (b : Bool) : (s.setPulse k b).loader = s.loader := rfl
@[simp] theorem State.setPulse_keys (s : State) (k : Nat) (b : Bool) : (s.setPulse k b).keys = s.keys := rfl
@[simp] theorem State.setPulse_boot (s : State) (k : Nat) (b : Bool) : (s.setPulse k b).boot = s.boot := rfl
@[simp] theorem State.setPulse_hop (s : State) (k : Nat) (b : Bool) : (s.setPulse k b).hop = s.hop := rfl
@[simp] theorem State.setPulse_sched (s : State) (k : Nat) (b : Bool) : (s.setPulse k b).sched = s.sched := rfl
@[simp] theorem State.setPulse_millers (s : State) (k : Nat) (b : Bool) : (s.setPulse k b).millers = s.millers := rfl
@[simp] theorem State.setPulse_portData (s : State) (k : Nat) (b : Bool) : (s.setPulse k b).portData = s.portData := rfl
@[simp] theorem State.setPulse_dbg (s : State) (k : Nat) (b : Bool) : (s.setPulse k b).dbg = s.dbg := rfl
@[simp] theorem State.setPulse_pins (s : State) (k : Nat) (b : Bool) : (s.setPulse k b).pins = s.pins := rfl
@[simp] theorem State.setPulse_trace (s : State) (k : Nat) (b : Bool) : (s.setPulse k b).trace = s.trace := rfl
@[simp] theorem State.setPulse_uptime (s : State) (k : Nat) (b : Bool) : (s.setPulse k b).uptime = s.uptime := rfl
@[simp] theorem State.setPulse_power (s : State) (k : Nat) (b : Bool) : (s.setPulse k b).power = s.power := rfl
@[simp] theorem State.setPulse_free (s : State) (k : Nat) (b : Bool) : (s.setPulse k b).free = s.free := rfl
@[simp] theorem State.setPulse_pending (s : State) (k : Nat) (b : Bool) : (s.setPulse k b).pending = s.pending := rfl
@[simp] theorem State.setPulse_reg (s : State) (k : Nat) (b : Bool) (a0 : Nat) : (s.setPulse k b).reg a0 = s.reg a0 := rfl
@[simp] theorem State.setPulse_get (s : State) (k : Nat) (b : Bool) (g0 : Fld) : (s.setPulse k b).get g0 = s.get g0 := rfl

/-! ## setVcore -/

@[simp] theorem State.setVcore_regs (s : State) (mv : Nat) : (s.setVcore mv).regs = s.regs := rfl
@[simp] theorem State.setVcore_parts (s : State) (mv : Nat) : (s.setVcore mv).parts = s.parts := rfl
@[simp] theorem State.setVcore_stones (s : State) (mv : Nat) : (s.setVcore mv).stones = s.stones := rfl
@[simp] theorem State.setVcore_race (s : State) (mv : Nat) : (s.setVcore mv).race = s.race := rfl
@[simp] theorem State.setVcore_flume (s : State) (mv : Nat) : (s.setVcore mv).flume = s.flume := rfl
@[simp] theorem State.setVcore_dm (s : State) (mv : Nat) : (s.setVcore mv).dm = s.dm := rfl
@[simp] theorem State.setVcore_evt (s : State) (mv : Nat) : (s.setVcore mv).evt = s.evt := rfl
@[simp] theorem State.setVcore_lines (s : State) (mv : Nat) : (s.setVcore mv).lines = s.lines := rfl
@[simp] theorem State.setVcore_clk (s : State) (mv : Nat) : (s.setVcore mv).clk = s.clk := rfl
@[simp] theorem State.setVcore_acq (s : State) (mv : Nat) : (s.setVcore mv).acq = s.acq := rfl
@[simp] theorem State.setVcore_time (s : State) (mv : Nat) : (s.setVcore mv).time = s.time := rfl
@[simp] theorem State.setVcore_mlipend (s : State) (mv : Nat) : (s.setVcore mv).mlipend = s.mlipend := rfl
@[simp] theorem State.setVcore_spokes (s : State) (mv : Nat) : (s.setVcore mv).spokes = s.spokes := rfl
@[simp] theorem State.setVcore_spokeRx (s : State) (mv : Nat) : (s.setVcore mv).spokeRx = s.spokeRx := rfl
@[simp] theorem State.setVcore_watchFirst (s : State) (mv : Nat) : (s.setVcore mv).watchFirst = s.watchFirst := rfl
@[simp] theorem State.setVcore_hostWins (s : State) (mv : Nat) : (s.setVcore mv).hostWins = s.hostWins := rfl
@[simp] theorem State.setVcore_readData (s : State) (mv : Nat) : (s.setVcore mv).readData = s.readData := rfl
@[simp] theorem State.setVcore_dram (s : State) (mv : Nat) : (s.setVcore mv).dram = s.dram := rfl
@[simp] theorem State.setVcore_host (s : State) (mv : Nat) : (s.setVcore mv).host = s.host := rfl
@[simp] theorem State.setVcore_sluices (s : State) (mv : Nat) : (s.setVcore mv).sluices = s.sluices := rfl
@[simp] theorem State.setVcore_loader (s : State) (mv : Nat) : (s.setVcore mv).loader = s.loader := rfl
@[simp] theorem State.setVcore_keys (s : State) (mv : Nat) : (s.setVcore mv).keys = s.keys := rfl
@[simp] theorem State.setVcore_boot (s : State) (mv : Nat) : (s.setVcore mv).boot = s.boot := rfl
@[simp] theorem State.setVcore_hop (s : State) (mv : Nat) : (s.setVcore mv).hop = s.hop := rfl
@[simp] theorem State.setVcore_sched (s : State) (mv : Nat) : (s.setVcore mv).sched = s.sched := rfl
@[simp] theorem State.setVcore_millers (s : State) (mv : Nat) : (s.setVcore mv).millers = s.millers := rfl
@[simp] theorem State.setVcore_portData (s : State) (mv : Nat) : (s.setVcore mv).portData = s.portData := rfl
@[simp] theorem State.setVcore_dbg (s : State) (mv : Nat) : (s.setVcore mv).dbg = s.dbg := rfl
@[simp] theorem State.setVcore_pins (s : State) (mv : Nat) : (s.setVcore mv).pins = s.pins := rfl
@[simp] theorem State.setVcore_trace (s : State) (mv : Nat) : (s.setVcore mv).trace = s.trace := rfl
@[simp] theorem State.setVcore_uptime (s : State) (mv : Nat) : (s.setVcore mv).uptime = s.uptime := rfl
@[simp] theorem State.setVcore_power (s : State) (mv : Nat) : (s.setVcore mv).power = s.power := rfl
@[simp] theorem State.setVcore_free (s : State) (mv : Nat) : (s.setVcore mv).free = s.free := rfl
@[simp] theorem State.setVcore_pending (s : State) (mv : Nat) : (s.setVcore mv).pending = s.pending := rfl
@[simp] theorem State.setVcore_reg (s : State) (mv : Nat) (a0 : Nat) : (s.setVcore mv).reg a0 = s.reg a0 := rfl
@[simp] theorem State.setVcore_get (s : State) (mv : Nat) (g0 : Fld) : (s.setVcore mv).get g0 = s.get g0 := rfl

/-! ## setHeld -/

@[simp] theorem State.setHeld_regs (s : State) (d : Bool) (a : Nat) (w : Option Word) : (s.setHeld d a w).regs = s.regs := rfl
@[simp] theorem State.setHeld_parts (s : State) (d : Bool) (a : Nat) (w : Option Word) : (s.setHeld d a w).parts = s.parts := rfl
@[simp] theorem State.setHeld_stones (s : State) (d : Bool) (a : Nat) (w : Option Word) : (s.setHeld d a w).stones = s.stones := rfl
@[simp] theorem State.setHeld_race (s : State) (d : Bool) (a : Nat) (w : Option Word) : (s.setHeld d a w).race = s.race := rfl
@[simp] theorem State.setHeld_flume (s : State) (d : Bool) (a : Nat) (w : Option Word) : (s.setHeld d a w).flume = s.flume := rfl
@[simp] theorem State.setHeld_dm (s : State) (d : Bool) (a : Nat) (w : Option Word) : (s.setHeld d a w).dm = s.dm := rfl
@[simp] theorem State.setHeld_evt (s : State) (d : Bool) (a : Nat) (w : Option Word) : (s.setHeld d a w).evt = s.evt := rfl
@[simp] theorem State.setHeld_lines (s : State) (d : Bool) (a : Nat) (w : Option Word) : (s.setHeld d a w).lines = s.lines := rfl
@[simp] theorem State.setHeld_gov (s : State) (d : Bool) (a : Nat) (w : Option Word) : (s.setHeld d a w).gov = s.gov := rfl
@[simp] theorem State.setHeld_clk (s : State) (d : Bool) (a : Nat) (w : Option Word) : (s.setHeld d a w).clk = s.clk := rfl
@[simp] theorem State.setHeld_acq (s : State) (d : Bool) (a : Nat) (w : Option Word) : (s.setHeld d a w).acq = s.acq := rfl
@[simp] theorem State.setHeld_time (s : State) (d : Bool) (a : Nat) (w : Option Word) : (s.setHeld d a w).time = s.time := rfl
@[simp] theorem State.setHeld_mlipend (s : State) (d : Bool) (a : Nat) (w : Option Word) : (s.setHeld d a w).mlipend = s.mlipend := rfl
@[simp] theorem State.setHeld_spokes (s : State) (d : Bool) (a : Nat) (w : Option Word) : (s.setHeld d a w).spokes = s.spokes := rfl
@[simp] theorem State.setHeld_spokeRx (s : State) (d : Bool) (a : Nat) (w : Option Word) : (s.setHeld d a w).spokeRx = s.spokeRx := rfl
@[simp] theorem State.setHeld_watchFirst (s : State) (d : Bool) (a : Nat) (w : Option Word) : (s.setHeld d a w).watchFirst = s.watchFirst := rfl
@[simp] theorem State.setHeld_hostWins (s : State) (d : Bool) (a : Nat) (w : Option Word) : (s.setHeld d a w).hostWins = s.hostWins := rfl
@[simp] theorem State.setHeld_readData (s : State) (d : Bool) (a : Nat) (w : Option Word) : (s.setHeld d a w).readData = s.readData := rfl
@[simp] theorem State.setHeld_dram (s : State) (d : Bool) (a : Nat) (w : Option Word) : (s.setHeld d a w).dram = s.dram := rfl
@[simp] theorem State.setHeld_host (s : State) (d : Bool) (a : Nat) (w : Option Word) : (s.setHeld d a w).host = s.host := rfl
@[simp] theorem State.setHeld_sluices (s : State) (d : Bool) (a : Nat) (w : Option Word) : (s.setHeld d a w).sluices = s.sluices := rfl
@[simp] theorem State.setHeld_loader (s : State) (d : Bool) (a : Nat) (w : Option Word) : (s.setHeld d a w).loader = s.loader := rfl
@[simp] theorem State.setHeld_keys (s : State) (d : Bool) (a : Nat) (w : Option Word) : (s.setHeld d a w).keys = s.keys := rfl
@[simp] theorem State.setHeld_boot (s : State) (d : Bool) (a : Nat) (w : Option Word) : (s.setHeld d a w).boot = s.boot := rfl
@[simp] theorem State.setHeld_hop (s : State) (d : Bool) (a : Nat) (w : Option Word) : (s.setHeld d a w).hop = s.hop := rfl
@[simp] theorem State.setHeld_sched (s : State) (d : Bool) (a : Nat) (w : Option Word) : (s.setHeld d a w).sched = s.sched := rfl
@[simp] theorem State.setHeld_millers (s : State) (d : Bool) (a : Nat) (w : Option Word) : (s.setHeld d a w).millers = s.millers := rfl
@[simp] theorem State.setHeld_portData (s : State) (d : Bool) (a : Nat) (w : Option Word) : (s.setHeld d a w).portData = s.portData := rfl
@[simp] theorem State.setHeld_pins (s : State) (d : Bool) (a : Nat) (w : Option Word) : (s.setHeld d a w).pins = s.pins := rfl
@[simp] theorem State.setHeld_trace (s : State) (d : Bool) (a : Nat) (w : Option Word) : (s.setHeld d a w).trace = s.trace := rfl
@[simp] theorem State.setHeld_uptime (s : State) (d : Bool) (a : Nat) (w : Option Word) : (s.setHeld d a w).uptime = s.uptime := rfl
@[simp] theorem State.setHeld_power (s : State) (d : Bool) (a : Nat) (w : Option Word) : (s.setHeld d a w).power = s.power := rfl
@[simp] theorem State.setHeld_free (s : State) (d : Bool) (a : Nat) (w : Option Word) : (s.setHeld d a w).free = s.free := rfl
@[simp] theorem State.setHeld_pending (s : State) (d : Bool) (a : Nat) (w : Option Word) : (s.setHeld d a w).pending = s.pending := rfl
@[simp] theorem State.setHeld_reg (s : State) (d : Bool) (a : Nat) (w : Option Word) (a0 : Nat) : (s.setHeld d a w).reg a0 = s.reg a0 := rfl
@[simp] theorem State.setHeld_get (s : State) (d : Bool) (a : Nat) (w : Option Word) (g0 : Fld) : (s.setHeld d a w).get g0 = s.get g0 := rfl

/-! ## setPort -/

@[simp] theorem State.setPort_regs (s : State) (k w : Nat) (v : BitVec 64) : (s.setPort k w v).regs = s.regs := rfl
@[simp] theorem State.setPort_parts (s : State) (k w : Nat) (v : BitVec 64) : (s.setPort k w v).parts = s.parts := rfl
@[simp] theorem State.setPort_stones (s : State) (k w : Nat) (v : BitVec 64) : (s.setPort k w v).stones = s.stones := rfl
@[simp] theorem State.setPort_race (s : State) (k w : Nat) (v : BitVec 64) : (s.setPort k w v).race = s.race := rfl
@[simp] theorem State.setPort_flume (s : State) (k w : Nat) (v : BitVec 64) : (s.setPort k w v).flume = s.flume := rfl
@[simp] theorem State.setPort_dm (s : State) (k w : Nat) (v : BitVec 64) : (s.setPort k w v).dm = s.dm := rfl
@[simp] theorem State.setPort_evt (s : State) (k w : Nat) (v : BitVec 64) : (s.setPort k w v).evt = s.evt := rfl
@[simp] theorem State.setPort_lines (s : State) (k w : Nat) (v : BitVec 64) : (s.setPort k w v).lines = s.lines := rfl
@[simp] theorem State.setPort_gov (s : State) (k w : Nat) (v : BitVec 64) : (s.setPort k w v).gov = s.gov := rfl
@[simp] theorem State.setPort_clk (s : State) (k w : Nat) (v : BitVec 64) : (s.setPort k w v).clk = s.clk := rfl
@[simp] theorem State.setPort_acq (s : State) (k w : Nat) (v : BitVec 64) : (s.setPort k w v).acq = s.acq := rfl
@[simp] theorem State.setPort_time (s : State) (k w : Nat) (v : BitVec 64) : (s.setPort k w v).time = s.time := rfl
@[simp] theorem State.setPort_mlipend (s : State) (k w : Nat) (v : BitVec 64) : (s.setPort k w v).mlipend = s.mlipend := rfl
@[simp] theorem State.setPort_spokes (s : State) (k w : Nat) (v : BitVec 64) : (s.setPort k w v).spokes = s.spokes := rfl
@[simp] theorem State.setPort_spokeRx (s : State) (k w : Nat) (v : BitVec 64) : (s.setPort k w v).spokeRx = s.spokeRx := rfl
@[simp] theorem State.setPort_watchFirst (s : State) (k w : Nat) (v : BitVec 64) : (s.setPort k w v).watchFirst = s.watchFirst := rfl
@[simp] theorem State.setPort_hostWins (s : State) (k w : Nat) (v : BitVec 64) : (s.setPort k w v).hostWins = s.hostWins := rfl
@[simp] theorem State.setPort_readData (s : State) (k w : Nat) (v : BitVec 64) : (s.setPort k w v).readData = s.readData := rfl
@[simp] theorem State.setPort_dram (s : State) (k w : Nat) (v : BitVec 64) : (s.setPort k w v).dram = s.dram := rfl
@[simp] theorem State.setPort_host (s : State) (k w : Nat) (v : BitVec 64) : (s.setPort k w v).host = s.host := rfl
@[simp] theorem State.setPort_sluices (s : State) (k w : Nat) (v : BitVec 64) : (s.setPort k w v).sluices = s.sluices := rfl
@[simp] theorem State.setPort_loader (s : State) (k w : Nat) (v : BitVec 64) : (s.setPort k w v).loader = s.loader := rfl
@[simp] theorem State.setPort_keys (s : State) (k w : Nat) (v : BitVec 64) : (s.setPort k w v).keys = s.keys := rfl
@[simp] theorem State.setPort_boot (s : State) (k w : Nat) (v : BitVec 64) : (s.setPort k w v).boot = s.boot := rfl
@[simp] theorem State.setPort_hop (s : State) (k w : Nat) (v : BitVec 64) : (s.setPort k w v).hop = s.hop := rfl
@[simp] theorem State.setPort_millers (s : State) (k w : Nat) (v : BitVec 64) : (s.setPort k w v).millers = s.millers := rfl
@[simp] theorem State.setPort_portData (s : State) (k w : Nat) (v : BitVec 64) : (s.setPort k w v).portData = s.portData := rfl
@[simp] theorem State.setPort_dbg (s : State) (k w : Nat) (v : BitVec 64) : (s.setPort k w v).dbg = s.dbg := rfl
@[simp] theorem State.setPort_pins (s : State) (k w : Nat) (v : BitVec 64) : (s.setPort k w v).pins = s.pins := rfl
@[simp] theorem State.setPort_trace (s : State) (k w : Nat) (v : BitVec 64) : (s.setPort k w v).trace = s.trace := rfl
@[simp] theorem State.setPort_uptime (s : State) (k w : Nat) (v : BitVec 64) : (s.setPort k w v).uptime = s.uptime := rfl
@[simp] theorem State.setPort_power (s : State) (k w : Nat) (v : BitVec 64) : (s.setPort k w v).power = s.power := rfl
@[simp] theorem State.setPort_free (s : State) (k w : Nat) (v : BitVec 64) : (s.setPort k w v).free = s.free := rfl
@[simp] theorem State.setPort_pending (s : State) (k w : Nat) (v : BitVec 64) : (s.setPort k w v).pending = s.pending := rfl
@[simp] theorem State.setPort_reg (s : State) (k w : Nat) (v : BitVec 64) (a0 : Nat) : (s.setPort k w v).reg a0 = s.reg a0 := rfl
@[simp] theorem State.setPort_get (s : State) (k w : Nat) (v : BitVec 64) (g0 : Fld) : (s.setPort k w v).get g0 = s.get g0 := rfl

/-! ## What the records read after a change -/

@[simp] theorem State.part_setPart (s : State) (p q : Nat) (x : PartSt) : (s.setPart p x).part q = if q = p then x else s.part q :=
  mget_mset ..
@[simp] theorem State.part_modPart (s : State) (p q : Nat) (f : PartSt → PartSt) :
    (s.modPart p f).part q = if q = p then f (s.part p) else s.part q := mget_mset ..
@[simp] theorem State.miller_setMiller (s : State) (k j : Nat) (x : MillerSt) : (s.setMiller k x).miller j = if j = k then x else s.miller j :=
  mget_mset ..
@[simp] theorem State.spoke_setSpoke (s : State) (k j : Nat) (x : SpokeSt) : (s.setSpoke k x).spoke j = if j = k then x else s.spoke j :=
  mget_mset ..
@[simp] theorem State.ring_setRing (s : State) (n j : Nat) (x : Ring) : (s.setRing n x).ring j = if j = n then x else s.ring j := mget_mset ..
@[simp] theorem State.sluice_setSluice (s : State) (k j : Nat) (x : SluiceSt) : (s.setSluice k x).sluice j = if j = k then x else s.sluice j :=
  mget_mset ..
@[simp] theorem State.chan_setChan (s : State) (c j : Nat) (x : Channel) : (s.setChan c x).chan j = if j = c then x else s.chan j := mget_mset ..

end Sys2Proof.Machine
end

