-- ==== Sys2Proof/Laws/Ops.lean ====
section
/-!
SUPPORT. Laws/Ops.lean: what the shared operations of Machine/Ops.lean do, each said once: raising an event, marking a turn invalid.
-/
namespace Sys2Proof.Machine

open Sys2Proof

/-! ## Lists -/

/-- A change run over a list keeps what each run keeps. -/
theorem State.each_keeps {α β : Type} (g : State → β) (f : State → α → State) (hf : ∀ t x, g (f t x) = g t) (l : List α) (s : State) :
    g (s.each l f) = g s := by
  unfold State.each
  induction l generalizing s with
  | nil => rfl
  | cons a t ih => rw [List.foldl_cons, ih, hf]

/-! ## Fields -/

/-- Putting back what a field holds changes no register. -/
theorem Fld.into_of (f : Fld) (w : Word) (hf : f.lsb + f.width ≤ 32) : f.into w (f.of w) = w := by
  apply BitVec.eq_of_toNat_eq
  apply Nat.eq_of_testBit_eq
  intro i
  rw [Fld.into_testBit _ _ _ _ hf]
  split
  · rename_i h
    rw [Fld.of_testBit]
    have : f.lsb + (i - f.lsb) = i := by omega
    rw [this]
    simp; omega
  · rfl

theorem State.reg_put_get (s : State) (f : Fld) (a : Nat) (hf : f.lsb + f.width ≤ 32) : (s.put f (s.get f)).reg a = s.reg a := by
  rw [State.reg_put]
  split
  · rename_i h; rw [h, State.get, Fld.into_of f _ hf]
  · rfl

/-- Adding nothing to a counter changes no register. -/
theorem State.reg_bump_zero (s : State) (f : Fld) (a : Nat) (hf : f.lsb + f.width ≤ 32) : (s.bump f 0).reg a = s.reg a := by
  have : min (s.get f + 0) (2 ^ f.width - 1) = s.get f := by have := s.get_lt f; omega
  unfold State.bump
  rw [this, State.reg_put_get s f a hf]

theorem State.reg_put64_ne (s : State) {lo hi b : Nat} (v : Nat) (h1 : b ≠ lo) (h2 : b ≠ hi) : (s.put64 lo hi v).reg b = s.reg b := by
  unfold State.put64
  rw [State.reg_setReg_ne _ _ h2, State.reg_setReg_ne _ _ h1]

theorem State.reg_bump_ne (s : State) {f : Fld} {b n : Nat} (h : b ≠ f.addr) : (s.bump f n).reg b = s.reg b := State.reg_put_ne s _ h
theorem State.reg_bumpWrap_ne (s : State) {f : Fld} {b n : Nat} (h : b ≠ f.addr) : (s.bumpWrap f n).reg b = s.reg b := State.reg_put_ne s _ h
theorem State.reg_flag_ne (s : State) {f : Fld} {b : Nat} {v : Bool} (h : b ≠ f.addr) : (s.flag f v).reg b = s.reg b := State.reg_put_ne s _ h
theorem State.reg_setBit_ne (s : State) {f : Fld} {b i : Nat} {v : Bool} (h : b ≠ f.addr) : (s.setBit f i v).reg b = s.reg b :=
  State.reg_put_ne s _ h

/-! ## Events -/

/-- Raising an event changes only registers, event records and causes pending at the millers. -/
theorem State.raise_only (s : State) (code part : Nat) (data : List Nat) : OnlyEvents s (s.raise code part data) := by
  have h1 : ∀ (t : State) r, { t.countRecord r with regs := t.regs, evt := t.evt } = t := by
    intro t r
    unfold State.countRecord State.keepRecord State.showRecord
    dsimp only
    split <;> split <;> rfl
  have h2 : ∀ (t : State) r, { t.eventToMillers r with regs := t.regs, mlipend := t.mlipend } = t := by
    intro t r
    unfold State.eventToMillers
    dsimp only
    split
    · have : ∀ (l : List Nat) (u : State), { u.each l (fun s k => s.raiseIrq k 2) with mlipend := u.mlipend } = u := by
        intro l u
        unfold State.each
        induction l generalizing u with
        | nil => rfl
        | cons a l ih =>
          rw [List.foldl_cons]
          have := ih (u.raiseIrq a 2)
          generalize List.foldl _ _ _ = v at this ⊢
          cases v; cases u
          simp only [State.raiseIrq, State.mk.injEq] at this ⊢
          simp_all
      have h := this (cores.filter (fun k => t.on (F.MLR_CTRL_events k))) t
      generalize State.each _ _ _ = v at h ⊢
      cases v; cases t
      simp only [State.bump, State.put, State.setReg, State.mk.injEq] at h ⊢
      simp_all
    · rfl
  have h3 : ∀ (t : State) r, { t.queueRecord r with regs := t.regs, evt := t.evt } = t := by
    intro t r
    unfold State.queueRecord
    split
    · rfl
    · split <;> rfl
  unfold OnlyEvents State.raise
  dsimp only
  generalize s.formRecord code part data = r
  have a1 := h1 s r
  have a2 := h2 (s.countRecord r) r
  have a3 := h3 ((s.countRecord r).eventToMillers r) r
  generalize ((s.countRecord r).eventToMillers r).queueRecord r = x at *
  generalize (s.countRecord r).eventToMillers r = y at *
  generalize s.countRecord r = z at *
  cases x; cases y; cases z; cases s
  simp_all

theorem State.raise_rest (s : State) (c p : Nat) (d : List Nat) :
    { s.raise c p d with regs := s.regs, evt := s.evt, mlipend := s.mlipend } = s := s.raise_only c p d
@[simp] theorem State.raise_parts (s : State) (c p : Nat) (d : List Nat) : (s.raise c p d).parts = s.parts := (congrArg State.parts (s.raise_rest c p d) :)
@[simp] theorem State.raise_stones (s : State) (c p : Nat) (d : List Nat) : (s.raise c p d).stones = s.stones := (congrArg State.stones (s.raise_rest c p d) :)
@[simp] theorem State.raise_race (s : State) (c p : Nat) (d : List Nat) : (s.raise c p d).race = s.race := (congrArg State.race (s.raise_rest c p d) :)
@[simp] theorem State.raise_flume (s : State) (c p : Nat) (d : List Nat) : (s.raise c p d).flume = s.flume := (congrArg State.flume (s.raise_rest c p d) :)
@[simp] theorem State.raise_dm (s : State) (c p : Nat) (d : List Nat) : (s.raise c p d).dm = s.dm := (congrArg State.dm (s.raise_rest c p d) :)
@[simp] theorem State.raise_lines (s : State) (c p : Nat) (d : List Nat) : (s.raise c p d).lines = s.lines := (congrArg State.lines (s.raise_rest c p d) :)
@[simp] theorem State.raise_gov (s : State) (c p : Nat) (d : List Nat) : (s.raise c p d).gov = s.gov := (congrArg State.gov (s.raise_rest c p d) :)
@[simp] theorem State.raise_clk (s : State) (c p : Nat) (d : List Nat) : (s.raise c p d).clk = s.clk := (congrArg State.clk (s.raise_rest c p d) :)
@[simp] theorem State.raise_acq (s : State) (c p : Nat) (d : List Nat) : (s.raise c p d).acq = s.acq := (congrArg State.acq (s.raise_rest c p d) :)
@[simp] theorem State.raise_time (s : State) (c p : Nat) (d : List Nat) : (s.raise c p d).time = s.time := (congrArg State.time (s.raise_rest c p d) :)
@[simp] theorem State.raise_spokes (s : State) (c p : Nat) (d : List Nat) : (s.raise c p d).spokes = s.spokes := (congrArg State.spokes (s.raise_rest c p d) :)
@[simp] theorem State.raise_spokeRx (s : State) (c p : Nat) (d : List Nat) : (s.raise c p d).spokeRx = s.spokeRx := (congrArg State.spokeRx (s.raise_rest c p d) :)
@[simp] theorem State.raise_watchFirst (s : State) (c p : Nat) (d : List Nat) : (s.raise c p d).watchFirst = s.watchFirst := (congrArg State.watchFirst (s.raise_rest c p d) :)
@[simp] theorem State.raise_hostWins (s : State) (c p : Nat) (d : List Nat) : (s.raise c p d).hostWins = s.hostWins := (congrArg State.hostWins (s.raise_rest c p d) :)
@[simp] theorem State.raise_readData (s : State) (c p : Nat) (d : List Nat) : (s.raise c p d).readData = s.readData := (congrArg State.readData (s.raise_rest c p d) :)
@[simp] theorem State.raise_dram (s : State) (c p : Nat) (d : List Nat) : (s.raise c p d).dram = s.dram := (congrArg State.dram (s.raise_rest c p d) :)
@[simp] theorem State.raise_host (s : State) (c p : Nat) (d : List Nat) : (s.raise c p d).host = s.host := (congrArg State.host (s.raise_rest c p d) :)
@[simp] theorem State.raise_sluices (s : State) (c p : Nat) (d : List Nat) : (s.raise c p d).sluices = s.sluices := (congrArg State.sluices (s.raise_rest c p d) :)
@[simp] theorem State.raise_loader (s : State) (c p : Nat) (d : List Nat) : (s.raise c p d).loader = s.loader := (congrArg State.loader (s.raise_rest c p d) :)
@[simp] theorem State.raise_keys (s : State) (c p : Nat) (d : List Nat) : (s.raise c p d).keys = s.keys := (congrArg State.keys (s.raise_rest c p d) :)
@[simp] theorem State.raise_boot (s : State) (c p : Nat) (d : List Nat) : (s.raise c p d).boot = s.boot := (congrArg State.boot (s.raise_rest c p d) :)
@[simp] theorem State.raise_hop (s : State) (c p : Nat) (d : List Nat) : (s.raise c p d).hop = s.hop := (congrArg State.hop (s.raise_rest c p d) :)
@[simp] theorem State.raise_sched (s : State) (c p : Nat) (d : List Nat) : (s.raise c p d).sched = s.sched := (congrArg State.sched (s.raise_rest c p d) :)
@[simp] theorem State.raise_millers (s : State) (c p : Nat) (d : List Nat) : (s.raise c p d).millers = s.millers := (congrArg State.millers (s.raise_rest c p d) :)
@[simp] theorem State.raise_portData (s : State) (c p : Nat) (d : List Nat) : (s.raise c p d).portData = s.portData := (congrArg State.portData (s.raise_rest c p d) :)
@[simp] theorem State.raise_dbg (s : State) (c p : Nat) (d : List Nat) : (s.raise c p d).dbg = s.dbg := (congrArg State.dbg (s.raise_rest c p d) :)
@[simp] theorem State.raise_pins (s : State) (c p : Nat) (d : List Nat) : (s.raise c p d).pins = s.pins := (congrArg State.pins (s.raise_rest c p d) :)
@[simp] theorem State.raise_trace (s : State) (c p : Nat) (d : List Nat) : (s.raise c p d).trace = s.trace := (congrArg State.trace (s.raise_rest c p d) :)
@[simp] theorem State.raise_uptime (s : State) (c p : Nat) (d : List Nat) : (s.raise c p d).uptime = s.uptime := (congrArg State.uptime (s.raise_rest c p d) :)
@[simp] theorem State.raise_power (s : State) (c p : Nat) (d : List Nat) : (s.raise c p d).power = s.power := (congrArg State.power (s.raise_rest c p d) :)
@[simp] theorem State.raise_free (s : State) (c p : Nat) (d : List Nat) : (s.raise c p d).free = s.free := (congrArg State.free (s.raise_rest c p d) :)
@[simp] theorem State.raise_pending (s : State) (c p : Nat) (d : List Nat) : (s.raise c p d).pending = s.pending := (congrArg State.pending (s.raise_rest c p d) :)

/-- Raising an event changes no register but those the event block counts and shows it in. -/
theorem State.raise_reg (s : State) (code part : Nat) (data : List Nat) : RegsBut (evtRegs code part) s (s.raise code part data) := by
  intro a ha
  simp only [evtRegs, List.mem_cons, List.not_mem_nil, or_false, not_or] at ha
  obtain ⟨h1, h2, h3, h4, h5, h6, h7, h8, h9, h10⟩ := ha
  have e1 : ∀ (t : State) (r : EvRec), r.code = code → r.part = part → (t.countRecord r).reg a = t.reg a := by
    intro t r hc hp
    unfold State.countRecord State.keepRecord State.showRecord
    subst hc hp
    dsimp only
    split <;> split <;>
      simp_all [State.reg, State.bumpWrap, State.bump, State.put, State.setReg, State.put64, mget_mset, F.EVT_RAISED_count, F.EVT_CLASSCNT_count,
        F.EVT_PARTCNT_count, F.EVT_DEVCNT_count, F.EVT_FIRST_flag]
  have e2 : ∀ (t : State) (r : EvRec), (t.eventToMillers r).reg a = t.reg a := by
    intro t r
    unfold State.eventToMillers
    dsimp only
    split
    · rw [State.reg_bump_ne _ h8]
      exact State.each_keeps (fun s => s.reg a) (fun s k => s.raiseIrq k 2) (fun _ _ => rfl) _ _
    · rfl
  have e3 : ∀ (t : State) (r : EvRec), (t.queueRecord r).reg a = t.reg a := by
    intro t r
    unfold State.queueRecord
    split
    · exact State.reg_bump_ne _ h9
    · split
      · rfl
      · exact State.reg_bump_ne _ h10
  unfold State.raise
  dsimp only
  rw [e3, e2, e1 _ _ rfl rfl]

theorem State.eventToMillers_reg (t : State) (r : EvRec) {a : Nat} (h : a ≠ R.EVT_MLRCNT) : (t.eventToMillers r).reg a = t.reg a := by
  unfold State.eventToMillers
  dsimp only
  split
  · rw [State.reg_bump_ne _ h]
    exact State.each_keeps (fun s => s.reg a) (fun s k => s.raiseIrq k 2) (fun _ _ => rfl) _ _
  · rfl

theorem State.queueRecord_reg (t : State) (r : EvRec) {a : Nat} (h : a ≠ R.EVT_MASKED) (h' : a ≠ R.RING_EVLOST) : (t.queueRecord r).reg a = t.reg a := by
  unfold State.queueRecord
  split
  · exact State.reg_bump_ne _ h
  · split
    · rfl
    · exact State.reg_bump_ne _ h'

theorem State.eventToMillers_evt (t : State) (r : EvRec) : (t.eventToMillers r).evt = t.evt := by
  unfold State.eventToMillers
  dsimp only
  split
  · exact State.each_keeps (fun s => s.evt) (fun s k => s.raiseIrq k 2) (fun _ _ => rfl) _ _
  · rfl

theorem State.queueRecord_hist (t : State) (r : EvRec) : (t.queueRecord r).evt.hist = t.evt.hist := by
  unfold State.queueRecord
  split
  · rfl
  · split <;> rfl

/-- Showing a record changes, of the registers outside the counts of its class and part, only EVT_RAISED and EVT_LAST. -/
theorem State.showRecord_reg (t : State) (r : EvRec) (a : Nat) (h1 : ∀ i, a ≠ R.EVT_CLASSCNT i) (h2 : ∀ i, a ≠ R.EVT_PARTCNT i) (h3 : a ≠ R.EVT_DEVCNT)
    (h4 : a ≠ R.EVT_FIRST) (h5 : a ≠ R.EVT_FIRSTTB_LO) (h6 : a ≠ R.EVT_FIRSTTB_HI) :
    (t.showRecord r).reg a = ((t.bumpWrap F.EVT_RAISED_count 1).setReg R.EVT_LAST (BitVec.ofNat 32 (r.part * 0x10000 + r.code))).reg a := by
  unfold State.showRecord
  dsimp only
  generalize (t.bumpWrap F.EVT_RAISED_count 1).setReg R.EVT_LAST (BitVec.ofNat 32 (r.part * 0x10000 + r.code)) = u
  split <;> split <;>
    simp_all [State.reg, State.bump, State.put, State.setReg, State.put64, mget_mset, F.EVT_CLASSCNT_count, F.EVT_PARTCNT_count,
      F.EVT_DEVCNT_count]

theorem State.countRecord_shown (t : State) (r : EvRec) (hc : r.code < 0x10000) (hp : r.part < 0x10000) :
    (t.countRecord r).get F.EVT_RAISED_count = (t.get F.EVT_RAISED_count + 1) % 2 ^ 32 ∧
      ((t.countRecord r).reg R.EVT_LAST).toNat = r.part * 0x10000 + r.code ∧
      (t.on F.EVT_CTRL_hist_freeze = false → (t.countRecord r).evt.hist = (r :: t.evt.hist).take 64) := by
  have e : ∀ a, (t.countRecord r).reg a = (t.showRecord r).reg a := fun _ => rfl
  refine ⟨?_, ?_, ?_⟩
  · rw [State.get, e, t.showRecord_reg r _ (by simp only [F.EVT_RAISED_count, R.EVT_RAISED, R.EVT_CLASSCNT]; omega)
      (by simp only [F.EVT_RAISED_count, R.EVT_RAISED, R.EVT_PARTCNT]; omega) (by decide) (by decide) (by decide) (by decide),
      State.reg_setReg_ne _ _ (by decide), ← State.get, State.bumpWrap, State.get_put_same _ _ _ (by decide)]
    rfl
  · rw [e, t.showRecord_reg r _ (by simp only [R.EVT_LAST, R.EVT_CLASSCNT]; omega) (by simp only [R.EVT_LAST, R.EVT_PARTCNT]; omega)
      (by decide) (by decide) (by decide) (by decide), State.reg_setReg_same, BitVec.toNat_ofNat]
    omega
  · intro h
    have e2 : (t.showRecord r).on F.EVT_CTRL_hist_freeze = false := by
      rw [State.on, State.get, t.showRecord_reg r _ (by simp only [F.EVT_CTRL_hist_freeze, R.EVT_CTRL, R.EVT_CLASSCNT]; omega)
        (by simp only [F.EVT_CTRL_hist_freeze, R.EVT_CTRL, R.EVT_PARTCNT]; omega) (by decide) (by decide) (by decide) (by decide),
        State.reg_setReg_ne _ _ (by decide), State.bumpWrap, State.reg_put_ne _ _ (by decide), ← State.get, ← State.on, h]
    have e3 : (t.showRecord r).evt = t.evt := by
      unfold State.showRecord
      dsimp only
      split <;> split <;> rfl
    unfold State.countRecord State.keepRecord
    dsimp only
    rw [e2, e3]
    rfl

/-- Raising an event counts it, shows it and puts it first in the history. -/
theorem State.raise_raised (s : State) (code part : Nat) (data : List Nat) (hc : code < 0x10000) (hp : part < 0x10000) :
    RaisedOne s (s.raise code part data) code part data := by
  obtain ⟨a, b, c⟩ := s.countRecord_shown (s.formRecord code part data) hc hp
  unfold RaisedOne State.raise
  dsimp only
  refine ⟨?_, ?_, ?_⟩
  · rw [State.get, State.queueRecord_reg _ _ (by decide) (by decide), State.eventToMillers_reg _ _ (by decide)]; exact a
  · rw [State.queueRecord_reg _ _ (by decide) (by decide), State.eventToMillers_reg _ _ (by decide)]; exact b
  · intro h
    rw [State.queueRecord_hist, State.eventToMillers_evt]
    exact ⟨_, c h, rfl, rfl, rfl, rfl⟩

/-- The same, where the state the event is raised in agrees with an earlier one on what raising reads. -/
theorem RaisedOne.of_raise {s u : State} {code part : Nat} {data : List Nat} (hc : code < 0x10000) (hp : part < 0x10000)
    (h1 : u.reg R.EVT_RAISED = s.reg R.EVT_RAISED) (h2 : u.reg R.EVT_CTRL = s.reg R.EVT_CTRL) (h3 : u.evt.hist = s.evt.hist) :
    RaisedOne s (u.raise code part data) code part data := by
  have e1 : u.get F.EVT_RAISED_count = s.get F.EVT_RAISED_count := by
    unfold State.get; rw [show F.EVT_RAISED_count.addr = R.EVT_RAISED from rfl, h1]
  have e2 : u.on F.EVT_CTRL_hist_freeze = s.on F.EVT_CTRL_hist_freeze := by
    unfold State.on State.get; rw [show F.EVT_CTRL_hist_freeze.addr = R.EVT_CTRL from rfl, h2]
  have := u.raise_raised code part data hc hp
  unfold RaisedOne at *
  rw [e1, e2, h3] at this
  exact this

/-! ## Invalid turns and halts -/

/-- Marking a turn invalid changes the partition's record and the system lines only. -/
theorem State.faultTurn_only (s : State) (p : Nat) (b : Bool) : { s.faultTurn p b with parts := s.parts, lines := s.lines } = s := by
  unfold State.faultTurn State.haltPulse State.haltCause State.modPart
  dsimp only
  repeat' split
  all_goals rfl

theorem State.faultTurn_regs (s : State) (p : Nat) (b : Bool) : (s.faultTurn p b).regs = s.regs := by
  have h := congrArg State.regs (State.faultTurn_only s p b)
  exact h

theorem State.faultTurn_reg (s : State) (p : Nat) (b : Bool) (a : Nat) : (s.faultTurn p b).reg a = s.reg a := by
  unfold State.reg
  rw [State.faultTurn_regs]

/-- A turn in progress that is marked invalid is invalid, and the partition owes a halt for a fault (reason 6). -/
theorem State.faultTurn_running (s : State) (p : Nat) (b : Bool) (h : s.running p = true) :
    ((s.faultTurn p b).part p).invalid = true ∧ ((s.faultTurn p b).part p).causes = (s.part p).causes ||| 2 ^ 6 := by
  unfold State.faultTurn State.haltPulse State.haltCause
  rw [if_pos h]
  dsimp only
  split
  · split <;> simp [State.part, State.modPart, State.setPart]
  · simp

end Sys2Proof.Machine
end

