-- ==== Sys2Proof/Laws/SoundOps.lean ====
section
/-!
SUPPORT. Laws/SoundOps.lean: that a sound state stays sound (State.Sound) under the shared operations of the registers, the stones, the race, design memory, DRAM, the flume, the rings and the loader.
-/
namespace Sys2Proof.Machine

open Sys2Proof

set_option Elab.async false

theorem foldl_sound {α : Type} {l : List α} {f : State → α → State} {s : State} (hs : s.Sound) (hf : ∀ t x, t.Sound → (f t x).Sound) :
    (l.foldl f s).Sound := by
  induction l generalizing s with
  | nil => exact hs
  | cons a t ih => exact ih (hf _ _ hs)

/-- The same for a fold whose accumulator carries a state. -/
theorem foldl_acc {α β : Type} {P : β → Prop} {l : List α} {f : β → α → β} {b : β} (hb : P b) (hf : ∀ c x, P c → P (f c x)) :
    P (l.foldl f b) := by
  induction l generalizing b with
  | nil => exact hb
  | cons a t ih => exact ih (hf _ _ hb)

/-- The same for a fold from the right. -/
theorem foldr_acc {α β : Type} {P : β → Prop} {l : List α} {f : α → β → β} {b : β} (hb : P b) (hf : ∀ x c, P c → P (f x c)) :
    P (l.foldr f b) := by
  induction l with
  | nil => exact hb
  | cons a t ih => exact hf _ _ ih

theorem ite_sound {c : Prop} [Decidable c] {a b : State} (ha : a.Sound) (hb : b.Sound) : (if c then a else b).Sound := by
  split
  · exact ha
  · exact hb

/-- Every state an access of a core comes to is sound. -/
def MRes.Good {α : Type} : MRes α → Prop
  | .ok _ s => s.Sound
  | .fault _ _ s => s.Sound
  | .wait _ => True

theorem MRes.ite_good {α : Type} {c : Prop} [Decidable c] {a b : MRes α} (ha : a.Good) (hb : b.Good) : (if c then a else b).Good := by
  split
  · exact ha
  · exact hb

theorem reset_regs_wf : mwf resetWord State.reset.regs = true := by decide

theorem keepRegs_wf {m : SMap Word} {f : Nat → Bool} : mwf resetWord (keepRegs m f) = true := by
  unfold keepRegs
  exact foldr_acc (P := fun m => mwf resetWord m = true) (mwf_mdrop _ _ _ reset_regs_wf) (fun e c hc => mwf_mset _ _ _ _ hc)

theorem MRes.good_ok {α : Type} {v : α} {s : State} (h : s.Sound) : (MRes.ok v s).Good := h
theorem MRes.good_fault {α : Type} {c t : Nat} {s : State} (h : s.Sound) : (MRes.fault c t s : MRes α).Good := h

/-- An access over the race or to a register: its status decides what the core sees. -/
theorem MRes.good_bus {α : Type} {c : Prop} [Decidable c] {v : α} {n t : Nat} {s u : State} (h : s.Sound) (h' : u.Sound) :
    (if c then MRes.ok v s else MRes.fault n t u).Good := MRes.ite_good (MRes.good_ok h) (MRes.good_fault h')

/-! ## RegOps -/

theorem State.setReg_sound {s : State} {a : Nat} {v : Word} (h : s.Sound) : (s.setReg a v).Sound :=
  ⟨mwf_mset _ _ _ _ h.1, h.2⟩

theorem State.put_sound {s : State} {f : Fld} {v : Nat} (hs : s.Sound) :
    (s.put f v).Sound := by
  unfold State.put
  grind [State.setReg_sound]

theorem State.flag_sound {s : State} {f : Fld} {b : Bool} (hs : s.Sound) :
    (s.flag f b).Sound := by
  unfold State.flag
  grind [State.put_sound]

theorem State.setBit_sound {s : State} {f : Fld} {i : Nat} {b : Bool} (hs : s.Sound) :
    (s.setBit f i b).Sound := by
  unfold State.setBit
  grind [State.put_sound]

theorem State.bump_sound {s : State} {f : Fld} {n : Nat} (hs : s.Sound) :
    (s.bump f n).Sound := by
  unfold State.bump
  grind [State.put_sound]

theorem State.bumpWrap_sound {s : State} {f : Fld} {n : Nat} (hs : s.Sound) :
    (s.bumpWrap f n).Sound := by
  unfold State.bumpWrap
  grind [State.put_sound]

theorem State.put64_sound {s : State} {lo hi v : Nat} (hs : s.Sound) :
    (s.put64 lo hi v).Sound := by
  unfold State.put64
  grind [State.setReg_sound]

theorem State.when_sound {s : State} {c : Bool} {f : State → State} (hf : ∀ t, t.Sound → (f t).Sound) (h : s.Sound) :
    (s.when c f).Sound := by
  unfold State.when
  grind

theorem State.each_sound {α : Type} {s : State} {l : List α} {f : State → α → State} (hf : ∀ t x, t.Sound → (f t x).Sound)
    (h : s.Sound) : (s.each l f).Sound := by
  unfold State.each
  induction l generalizing s with
  | nil => exact h
  | cons a t ih => exact ih (hf _ _ h)

theorem State.fresh_sound {s : State} {k : Nat} (h : s.Sound) : (s.fresh k).2.Sound := h

/-! ## Ops -/

theorem State.setPart_sound {s : State} {p : Nat} {x : PartSt} (hs : s.Sound) :
    (s.setPart p x).Sound := by
  unfold State.setPart
  grind [State.Sound, State.regsOk, State.memOk]

theorem State.modPart_sound {s : State} {p : Nat} {f : PartSt → PartSt} (hs : s.Sound) :
    (s.modPart p f).Sound := by
  unfold State.modPart
  grind [State.setPart_sound]

theorem State.raiseIrq_sound {s : State} {k c : Nat} (hs : s.Sound) :
    (s.raiseIrq k c).Sound := by
  unfold State.raiseIrq
  grind [State.Sound, State.regsOk, State.memOk]

theorem State.showRecord_sound {s : State} {r : EvRec} (hs : s.Sound) :
    (s.showRecord r).Sound := by
  unfold State.showRecord
  grind [State.setReg_sound, State.bump_sound, State.bumpWrap_sound, State.put64_sound]

theorem State.keepRecord_sound {s : State} {r : EvRec} (hs : s.Sound) :
    (s.keepRecord r).Sound := by
  unfold State.keepRecord
  grind [State.Sound, State.regsOk, State.memOk]

theorem State.countRecord_sound {s : State} {r : EvRec} (hs : s.Sound) :
    (s.countRecord r).Sound := by
  unfold State.countRecord
  grind [State.showRecord_sound, State.keepRecord_sound]

theorem State.eventToMillers_sound {s : State} {r : EvRec} (hs : s.Sound) :
    (s.eventToMillers r).Sound := by
  unfold State.eventToMillers
  grind [State.bump_sound, State.each_sound, State.raiseIrq_sound]

theorem State.queueRecord_sound {s : State} {r : EvRec} (hs : s.Sound) :
    (s.queueRecord r).Sound := by
  unfold State.queueRecord
  grind [State.Sound, State.regsOk, State.memOk, State.bump_sound]

theorem State.raise_sound {s : State} {code part : Nat} {data : List Nat} (hs : s.Sound) :
    (s.raise code part data).Sound := by
  unfold State.raise
  grind [State.countRecord_sound, State.eventToMillers_sound, State.queueRecord_sound]

theorem State.edgeOrder_sound {s s0 : State} (hs : s.Sound) (hs1 : s0.Sound) :
    (s.edgeOrder s0).Sound := by
  unfold State.edgeOrder
  dsimp only
  with_reducible refine ite_sound hs ?_
  repeat' split
  all_goals first
    | exact State.put64_sound (State.setReg_sound (State.setReg_sound ⟨hs.1, hs.2⟩))
    | exact State.put64_sound (State.setReg_sound ⟨hs.1, hs.2⟩)
    | exact State.setReg_sound ⟨hs.1, hs.2⟩
    | exact ⟨hs.1, hs.2⟩

theorem State.haltPulse_sound {s : State} (hs : s.Sound) :
    (s.haltPulse).Sound := by
  unfold State.haltPulse
  grind [State.Sound, State.regsOk, State.memOk]

theorem State.haltCause_sound {s : State} {p r : Nat} (hs : s.Sound) :
    (s.haltCause p r).Sound := by
  unfold State.haltCause
  grind [State.Sound, State.regsOk, State.memOk, State.modPart_sound]

theorem State.faultTurn_sound {s : State} {p : Nat} {sticky : Bool} (hs : s.Sound) :
    (s.faultTurn p sticky).Sound := by
  unfold State.faultTurn
  grind [State.Sound, State.regsOk, State.memOk, State.modPart_sound, State.haltPulse_sound, State.haltCause_sound]

theorem State.faultOwner_sound {s : State} {o : Option Nat} {sticky : Bool} (hs : s.Sound) :
    (s.faultOwner o sticky).Sound := by
  unfold State.faultOwner
  grind [State.Sound, State.regsOk, State.memOk, State.faultTurn_sound]

/-! ## Operands -/

theorem State.setRow_sound {s : State} {site phys : Nat} {v : Row} (hs : s.Sound) :
    (s.setRow site phys v).Sound := by
  unfold State.setRow
  grind [State.Sound, State.regsOk, State.memOk]

theorem State.markRow_sound {s : State} {site phys f : Nat} (hs : s.Sound) :
    (s.markRow site phys f).Sound := by
  unfold State.markRow
  grind [State.Sound, State.regsOk, State.memOk]

theorem State.settleMarks_sound {s : State} {mine : Nat → Bool} (hs : s.Sound) :
    (s.settleMarks mine).Sound := by
  unfold State.settleMarks
  grind [State.Sound, State.regsOk, State.memOk]

theorem State.storeError_sound {s : State} {p m st wh n b row : Nat} (hs : s.Sound) :
    (s.storeError p m st wh n b row).Sound := by
  unfold State.storeError
  grind [State.Sound, State.regsOk, State.memOk, State.put_sound, State.modPart_sound, State.faultTurn_sound]

theorem State.raiseStoreErr_sound {s : State} {p : Nat} (hs : s.Sound) :
    (s.raiseStoreErr p).Sound := by
  unfold State.raiseStoreErr
  grind [State.Sound, State.regsOk, State.memOk, State.modPart_sound, State.raise_sound]

theorem State.takeEcc_sound {s : State} {m : Mill} {st : Stone} {bank : Bool} {n : Nat} {e : StoreEcc} (hs : s.Sound) :
    (s.takeEcc m st bank n e).Sound := by
  unfold State.takeEcc
  grind [State.Sound, State.regsOk, State.memOk, State.bump_sound, State.each_sound, State.markRow_sound]

theorem State.reportRow_sound {s : State} {p : Nat} {m : Mill} {st : Stone} {bank : Bool} {r n b : Nat} (hs : s.Sound) :
    (s.reportRow p m st bank r n b).Sound := by
  unfold State.reportRow
  grind [State.storeError_sound]

theorem State.writeLane_sound {s : State} {site r l n : Nat} {v : Bool} (hs : s.Sound) :
    (s.writeLane site r l n v).Sound := by
  unfold State.writeLane
  grind [State.Sound, State.regsOk, State.memOk]

theorem State.writeRow_sound {s : State} {site r n : Nat} {v : Row} (hs : s.Sound) :
    (s.writeRow site r n v).Sound := by
  unfold State.writeRow
  grind [State.each_sound, State.writeLane_sound]

theorem State.writeShadow_sound {s : State} {site : Nat} {bank : Bool} {r l : Nat} {v : Bool} (hs : s.Sound) :
    (s.writeShadow site bank r l v).Sound := by
  unfold State.writeShadow
  grind [State.setRow_sound]

theorem State.mergeWrites_sound {s : State} {mine : Nat → Bool} (hs : s.Sound) :
    (s.mergeWrites mine).Sound := by
  unfold State.mergeWrites
  grind [State.Sound, State.regsOk, State.memOk, foldl_sound, State.setRow_sound, State.settleMarks_sound]

/-! ## GovOps -/

theorem State.govLog_sound {s : State} {loop unit before after : Nat} (hs : s.Sound) :
    (s.govLog loop unit before after).Sound := by
  unfold State.govLog
  grind [State.Sound, State.regsOk, State.memOk, State.put_sound, State.bumpWrap_sound, State.raise_sound]

theorem State.setFlumeTarget_sound {s : State} {q level : Nat} (hs : s.Sound) :
    (s.setFlumeTarget q level).Sound := by
  unfold State.setFlumeTarget
  grind [State.Sound, State.regsOk, State.memOk, State.put_sound, State.govLog_sound]

theorem State.raiseFlume_sound {s : State} {q step : Nat} (hs : s.Sound) :
    (s.raiseFlume q step).Sound := by
  unfold State.raiseFlume
  grind [State.Sound, State.regsOk, State.memOk, State.setBit_sound, State.raise_sound, State.setFlumeTarget_sound]

theorem State.countSlack_sound {s : State} {r bin : Nat} (hs : s.Sound) :
    (s.countSlack r bin).Sound := by
  unfold State.countSlack
  grind [State.Sound, State.regsOk, State.memOk, State.raiseFlume_sound]

theorem State.railsToFloor_sound {s : State} {p : Nat} (hs : s.Sound) :
    (s.railsToFloor p).Sound := by
  unfold State.railsToFloor
  grind [State.each_sound, State.setFlumeTarget_sound]

theorem State.railsToRun_sound {s : State} {p : Nat} (hs : s.Sound) :
    (s.railsToRun p).Sound := by
  unfold State.railsToRun
  grind [State.each_sound, State.setFlumeTarget_sound]

theorem State.railsRun_sound {s : State} {p : Nat} (hs : s.Sound) :
    (s.railsRun p).Sound := by
  unfold State.railsRun
  grind [State.Sound, State.regsOk, State.memOk, State.each_sound]

theorem State.railsInRange_sound {s : State} (hs : s.Sound) :
    (s.railsInRange).Sound := by
  unfold State.railsInRange
  grind [State.each_sound, State.setFlumeTarget_sound]

theorem State.railToCeiling_sound {s : State} {q : Nat} (hs : s.Sound) :
    (s.railToCeiling q).Sound := by
  unfold State.railToCeiling
  grind [State.Sound, State.regsOk, State.memOk, State.setFlumeTarget_sound]

theorem State.newWindow_sound {s : State} {q : Nat} (hs : s.Sound) :
    (s.newWindow q).Sound := by
  unfold State.newWindow
  grind [State.Sound, State.regsOk, State.memOk, mwf_mdrop]

theorem State.settleFreeze_sound {s : State} (hs : s.Sound) :
    (s.settleFreeze).Sound := by
  unfold State.settleFreeze
  grind [State.put_sound]

theorem State.setMisBit_sound {s : State} {u : Nat} {b : Bool} (hs : s.Sound) :
    (s.setMisBit u b).Sound := by
  unfold State.setMisBit
  grind [State.setBit_sound]

theorem State.settleMis_sound {s : State} (hs : s.Sound) :
    (s.settleMis).Sound := by
  unfold State.settleMis
  grind [State.each_sound, State.setMisBit_sound]

theorem State.wakeTo_sound {s : State} {u target : Nat} (hs : s.Sound) :
    (s.wakeTo u target).Sound := by
  unfold State.wakeTo
  grind [State.put_sound, State.settleMis_sound]

theorem State.wakeFor_sound {s : State} {u : Nat} (hs : s.Sound) :
    (s.wakeFor u).Sound := by
  unfold State.wakeFor
  grind [State.wakeTo_sound]

/-! ## RaceOps -/

theorem State.setIsolated_sound {s : State} {t : Nat} {b : Bool} (hs : s.Sound) :
    (s.setIsolated t b).Sound := by
  unfold State.setIsolated
  grind [State.setBit_sound]

theorem State.statUnits_sound {s : State} {init n : Nat} (hs : s.Sound) :
    (s.statUnits init n).Sound := by
  unfold State.statUnits
  grind [State.Sound, State.regsOk, State.memOk, State.each_sound]

theorem State.statLat_sound {s : State} {init lat : Nat} (hs : s.Sound) :
    (s.statLat init lat).Sound := by
  unfold State.statLat
  grind [State.Sound, State.regsOk, State.memOk, State.each_sound]

theorem State.emit_sound {s : State} {pk : Pkt} {source : Nat} {marked : Bool} (hs : s.Sound) :
    (s.emit pk source marked).Sound := by
  unfold State.emit
  grind [State.Sound, State.regsOk, State.memOk]

theorem State.landed_sound {s : State} {h : Unit128} (hs : s.Sound) :
    (s.landed h).Sound := by
  unfold State.landed
  grind [State.Sound, State.regsOk, State.memOk]

theorem State.countUnits_sound {s : State} {n : Nat} (hs : s.Sound) :
    (s.countUnits n).Sound := by
  unfold State.countUnits
  grind [State.put64_sound]

theorem State.send_sound {s : State} {pk : Pkt} {marked : Bool} (hs : s.Sound) :
    (s.send pk marked).Sound := by
  unfold State.send
  grind [State.Sound, State.regsOk, State.memOk, State.statUnits_sound, State.emit_sound, State.countUnits_sound]

theorem State.reqDone_sound {s : State} {init tag : Nat} (hs : s.Sound) :
    (s.reqDone init tag).Sound := by
  unfold State.reqDone
  grind [State.Sound, State.regsOk, State.memOk]

theorem State.reqDelivered_sound {s : State} {h : Unit128} (hs : s.Sound) :
    (s.reqDelivered h).Sound := by
  unfold State.reqDelivered
  grind [State.Sound, State.regsOk, State.memOk]

theorem State.sendAnswer_sound {s : State} {h : Unit128} {status : Nat} {units : List Unit128} (hs : s.Sound) :
    (s.sendAnswer h status units).Sound := by
  unfold State.sendAnswer
  grind [State.Sound, State.regsOk, State.memOk, State.emit_sound]

theorem State.answer_sound {s : State} {h : Unit128} {status : Nat} {units : List Unit128} (hs : s.Sound) :
    (s.answer h status units).Sound := by
  unfold State.answer
  grind [State.sendAnswer_sound]

theorem State.answerDead_sound {s : State} {h : Unit128} (hs : s.Sound) :
    (s.answerDead h).Sound := by
  unfold State.answerDead
  grind [State.sendAnswer_sound]

theorem State.linkUe_sound {s : State} {sched : Bool} {p : Option Nat} {router input ch : Nat} (hs : s.Sound) :
    (s.linkUe sched p router input ch).Sound := by
  unfold State.linkUe
  grind [State.setReg_sound, State.put_sound, State.flag_sound, State.raise_sound]

/-! ## StepOps -/

theorem State.announce_sound {s : State} {p raised hold cause : Nat} (hs : s.Sound) :
    (s.announce p raised hold cause).Sound := by
  unfold State.announce
  grind [State.Sound, State.regsOk, State.memOk, State.modPart_sound]

theorem State.vote_sound {s : State} {p hold : Nat} {next : Bool} {round cause origin : Nat} (hs : s.Sound) :
    (s.vote p hold next round cause origin).Sound := by
  unfold State.vote
  grind [State.Sound, State.regsOk, State.memOk, State.modPart_sound, State.announce_sound]

theorem State.voteRounds_sound {s : State} {p hold : Nat} {next : Bool} {n cause origin : Nat} (hs : s.Sound) :
    (s.voteRounds p hold next n cause origin).Sound := by
  unfold State.voteRounds
  grind [State.each_sound, State.vote_sound]

theorem State.votesDue_sound {s : State} {p : Nat} {due : Nat → Bool} (hs : s.Sound) :
    (s.votesDue p due).Sound := by
  unfold State.votesDue
  grind [State.Sound, State.regsOk, State.memOk, State.each_sound, State.modPart_sound, State.voteRounds_sound]

theorem State.enterStep_sound {s : State} {p n : Nat} (hs : s.Sound) :
    (s.enterStep p n).Sound := by
  unfold State.enterStep
  grind [State.Sound, State.regsOk, State.memOk, State.modPart_sound, State.raiseStoreErr_sound, State.votesDue_sound]

/-! ## Stones -/

theorem State.bpOp_sound {s : State} {m : Mill} {st : Stone} {b : Bp} {n : Step} {e : StoreEcc} {op : Nat} {f : State → BpCtx → IWord → State} (hs : s.Sound) (hf : ∀ t y1 y2, t.Sound → (f t y1 y2).Sound) :
    (s.bpOp m st b n e op f).Sound := by
  unfold State.bpOp
  grind [State.Sound, State.regsOk, State.memOk, State.storeError_sound, State.takeEcc_sound, State.enterStep_sound]

theorem State.reportRows_sound {s : State} {c : BpCtx} {rs : List Nat} (hs : s.Sound) :
    (s.reportRows c rs).Sound := by
  unfold State.reportRows
  grind [State.each_sound, State.reportRow_sound]

theorem State.tap_sound {s : State} {c : BpCtx} {b : Nat} {w : IWord} {v : Bool} (hs : s.Sound) :
    (s.tap c b w v).Sound := by
  unfold State.tap
  grind [State.Sound, State.regsOk, State.memOk, State.modPart_sound]

theorem State.result_sound {s : State} {c : BpCtx} {b : Nat} {w : IWord} {v : Bool} (hs : s.Sound) :
    (s.result c b w v).Sound := by
  unfold State.result
  grind [State.writeLane_sound, State.tap_sound]

theorem State.doEval_sound {s : State} {c : BpCtx} {w : IWord} (hs : s.Sound) :
    (s.doEval c w).Sound := by
  unfold State.doEval
  grind [State.reportRows_sound, State.result_sound]

theorem State.doEval3_sound {s : State} {c : BpCtx} {w : IWord} (hs : s.Sound) :
    (s.doEval3 c w).Sound := by
  unfold State.doEval3
  grind [State.writeShadow_sound, State.reportRows_sound, State.tap_sound]

theorem State.takeLinkEcc_sound {s : State} {p : Nat} {lk : LinkEcc} (hs : s.Sound) :
    (s.takeLinkEcc p lk).Sound := by
  unfold State.takeLinkEcc
  grind [State.Sound, State.regsOk, State.memOk, State.bump_sound, State.faultTurn_sound, State.linkUe_sound]

theorem State.doNop_sound {s : State} {lk : LinkEcc} {c : BpCtx} {w : IWord} (hs : s.Sound) :
    (s.doNop lk c w).Sound := by
  unfold State.doNop
  grind [State.Sound, State.regsOk, State.memOk, State.result_sound, State.takeLinkEcc_sound]

theorem State.groupOp_sound {s : State} {m : Mill} {st : Stone} {bs : List Nat} {n : Step} {e : StoreEcc} {op : Nat} {value : State → BpCtx → Bool} {rows : State → BpCtx → List (Nat × Nat)} (hs : s.Sound) :
    (s.groupOp m st bs n e op value rows).Sound := by
  unfold State.groupOp
  grind [State.Sound, State.regsOk, State.memOk, State.each_sound, State.storeError_sound, State.takeEcc_sound, State.reportRow_sound,
    State.enterStep_sound, State.result_sound]

theorem State.breakFires_sound {s : State} {c : BpCtx} (hs : s.Sound) :
    (s.breakFires c).Sound := by
  unfold State.breakFires
  grind [State.Sound, State.regsOk, State.memOk, State.put_sound, State.modPart_sound, State.haltPulse_sound, State.haltCause_sound]

theorem State.doBreak_sound {s : State} {c : BpCtx} {w : IWord} (hs : s.Sound) :
    (s.doBreak c w).Sound := by
  unfold State.doBreak
  grind [State.reportRows_sound, State.breakFires_sound]

/-! ## CapOps -/

theorem State.setCap_sound {s : State} {p : Nat} {x : CapPart} (hs : s.Sound) :
    (s.setCap p x).Sound := by
  unfold State.setCap
  grind [State.Sound, State.regsOk, State.memOk]

theorem State.capMark_sound {s : State} {p sources step units : Nat} (hs : s.Sound) :
    (s.capMark p sources step units).Sound := by
  unfold State.capMark
  grind [State.Sound, State.regsOk, State.memOk, State.setCap_sound]

theorem State.capTrigger_sound {s : State} {p src step units : Nat} (hs : s.Sound) :
    (s.capTrigger p src step units).Sound := by
  unfold State.capTrigger
  grind [State.Sound, State.regsOk, State.memOk, State.capMark_sound]

/-! ## WatchOps -/

theorem State.watchFire_sound {s : State} {p u : Nat} {a : Access} (hs : s.Sound) :
    (s.watchFire p u a).Sound := by
  unfold State.watchFire
  grind [State.Sound, State.regsOk, State.memOk, State.put_sound, State.setBit_sound, State.haltPulse_sound, State.haltCause_sound,
    State.capTrigger_sound]

theorem State.watch_sound {s : State} {p : Nat} {a : Access} (hs : s.Sound) :
    (s.watch p a).Sound := by
  unfold State.watch
  grind [State.put_sound, State.each_sound, State.watchFire_sound]

/-! ## MemOps -/

theorem State.setMmMark_sound {s : State} {key f : Nat} (hs : s.Sound) :
    (s.setMmMark key f).Sound := by
  unfold State.setMmMark
  grind [State.Sound, State.regsOk, State.memOk]

theorem State.mmEcc_sound {s : State} {m row n : Nat} {e : RowEcc} (hs : s.Sound) :
    (s.mmEcc m row n e).Sound := by
  unfold State.mmEcc
  grind [State.bump_sound, State.each_sound, State.setMmMark_sound]

theorem State.mmWrite_sound {s : State} {w : MmWrite} (hs : s.Sound) :
    (s.mmWrite w).Sound := by
  unfold State.mmWrite
  grind [State.Sound, State.regsOk, State.memOk]

theorem State.mmCommit_sound {s : State} {w : MmWrite} (hs : s.Sound) :
    (s.mmCommit w).Sound := by
  unfold State.mmCommit
  grind [State.Sound, State.regsOk, State.memOk, State.each_sound, State.setMmMark_sound]

theorem State.mmMerge_sound {s : State} {mine : Nat → Bool} (hs : s.Sound) :
    (s.mmMerge mine).Sound := by
  unfold State.mmMerge
  grind [State.Sound, State.regsOk, State.memOk, foldl_sound, State.mmCommit_sound]

theorem State.rangeCount_sound {s : State} {mm : Bool} {source : Nat} (hs : s.Sound) :
    (s.rangeCount mm source).Sound := by
  unfold State.rangeCount
  grind [State.put_sound, State.flag_sound, State.bump_sound]

theorem State.mportErr_sound {s : State} {kind status slot source : Nat} (hs : s.Sound) :
    (s.mportErr kind status slot source).Sound := by
  unfold State.mportErr
  grind [State.put_sound]

theorem State.setFarPort_sound {s : State} {id : Nat} {x : FarPort} (hs : s.Sound) :
    (s.setFarPort id x).Sound := by
  unfold State.setFarPort
  grind [State.Sound, State.regsOk, State.memOk]

theorem State.setSlot_sound {s : State} {id j : Nat} {x : RSlot} (hs : s.Sound) :
    (s.setSlot id j x).Sound := by
  unfold State.setSlot
  grind [State.Sound, State.regsOk, State.memOk, State.setFarPort_sound]

theorem State.fpFail_sound {s : State} {id : Nat} (hs : s.Sound) :
    (s.fpFail id).Sound := by
  unfold State.fpFail
  grind [State.setBit_sound]

theorem State.freeRSlot_sound {s : State} {id j : Nat} (hs : s.Sound) :
    (s.freeRSlot id j).Sound := by
  unfold State.freeRSlot
  grind [State.setSlot_sound]

theorem State.queueFull_sound {s : State} {p id n slot : Nat} (hs : s.Sound) :
    (s.queueFull p id n slot).Sound := by
  unfold State.queueFull
  grind [State.raise_sound, State.faultTurn_sound, State.mportErr_sound]

theorem State.slotTimed_sound {s : State} {id j cycle : Nat} (hs : s.Sound) :
    (s.slotTimed id j cycle).Sound := by
  unfold State.slotTimed
  grind [State.put_sound, State.setBit_sound]

theorem State.slotData_sound {s : State} {id j : Nat} {data : BitVec 512} {ok : Bool} {cycle : Nat} (hs : s.Sound) :
    (s.slotData id j data ok cycle).Sound := by
  unfold State.slotData
  grind [State.Sound, State.regsOk, State.memOk, State.setSlot_sound, State.slotTimed_sound]

theorem State.slotError_sound {s : State} {id j kind status : Nat} {data : BitVec 512} (hs : s.Sound) :
    (s.slotError id j kind status data).Sound := by
  unfold State.slotError
  grind [State.Sound, State.regsOk, State.memOk, State.raise_sound, State.faultOwner_sound, State.mportErr_sound, State.setSlot_sound,
    State.fpFail_sound]

theorem State.slotEarly_sound {s : State} {id j : Nat} (hs : s.Sound) :
    (s.slotEarly id j).Sound := by
  unfold State.slotEarly
  grind [State.Sound, State.regsOk, State.memOk, State.setSlot_sound, State.fpFail_sound, State.freeRSlot_sound]

theorem State.fpEnqueue_sound {s : State} {id : Nat} {r : FpReq} (hs : s.Sound) :
    ∀ t, s.fpEnqueue id r = some t → t.Sound := by
  unfold State.fpEnqueue
  grind [State.Sound, State.regsOk, State.memOk, State.setFarPort_sound]

theorem State.prefetchAfter_sound {s : State} {id i stamp : Nat} (hs : s.Sound) :
    (s.prefetchAfter id i stamp).Sound := by
  unfold State.prefetchAfter
  grind [State.Sound, State.regsOk, State.memOk, State.bump_sound, State.setFarPort_sound]

/-! ## RouteOps -/

theorem State.peakWait_sound {s : State} {router waited : Nat} (hs : s.Sound) :
    (s.peakWait router waited).Sound := by
  unfold State.peakWait
  grind [State.put_sound]

theorem State.departs_sound {s : State} {b : BufPkt} {waited : Nat} (hs : s.Sound) :
    (s.departs b waited).Sound := by
  unfold State.departs
  grind [State.Sound, State.regsOk, State.memOk, State.peakWait_sound]

theorem State.leaveRace_sound {s : State} {h : Unit128} {waited : Nat} (hs : s.Sound) :
    (s.leaveRace h waited).Sound := by
  unfold State.leaveRace
  grind [State.Sound, State.regsOk, State.memOk, State.landed_sound, State.departs_sound]

theorem State.dropMalformed_sound {s : State} (hs : s.Sound) :
    (s.dropMalformed).Sound := by
  unfold State.dropMalformed
  grind [State.bump_sound]

theorem State.malformed_sound {s : State} {router input : Nat} {h : Unit128} (hs : s.Sound) :
    (s.malformed router input h).Sound := by
  unfold State.malformed
  grind [State.raise_sound, State.dropMalformed_sound]

theorem State.losePacket_sound {s : State} {h : Unit128} (hs : s.Sound) :
    (s.losePacket h).Sound := by
  unfold State.losePacket
  grind [State.Sound, State.regsOk, State.memOk, State.landed_sound]

theorem State.freeOwed_sound {s : State} {k : Nat} (hs : s.Sound) :
    (s.freeOwed k).Sound := by
  unfold State.freeOwed
  grind [State.each_sound, State.freeRSlot_sound]

theorem State.absorb_sound {s : State} {pk : Pkt} {waited : Nat} (hs : s.Sound) :
    (s.absorb pk waited).Sound := by
  unfold State.absorb
  grind [State.bump_sound, State.faultOwner_sound, State.answerDead_sound, State.leaveRace_sound]

theorem State.isolateNow_sound {s : State} {t : RaceTarget} {cause : Nat} (hs : s.Sound) :
    (s.isolateNow t cause).Sound := by
  unfold State.isolateNow
  grind [State.bump_sound, State.each_sound, State.raise_sound, State.settleMis_sound, State.setIsolated_sound, State.answerDead_sound,
    State.freeOwed_sound, State.absorb_sound]

/-! ## DramOps -/

theorem State.setChan_sound {s : State} {c : Nat} {x : Channel} (hs : s.Sound) :
    (s.setChan c x).Sound := by
  unfold State.setChan
  grind [State.Sound, State.regsOk, State.memOk]

theorem State.setLineBad_sound {s : State} {c line : Nat} {b : Bool} (hs : s.Sound) :
    (s.setLineBad c line b).Sound := by
  unfold State.setLineBad
  grind [State.Sound, State.regsOk, State.memOk]

theorem State.openRow_sound {s : State} {c a : Nat} (hs : s.Sound) :
    (s.openRow c a).Sound := by
  unfold State.openRow
  grind [State.Sound, State.regsOk, State.memOk, State.setChan_sound]

theorem State.closeRank_sound {s : State} {c rank : Nat} (hs : s.Sound) :
    (s.closeRank c rank).Sound := by
  unfold State.closeRank
  grind [State.Sound, State.regsOk, State.memOk, mwf_mdrop, State.setChan_sound]

theorem State.queueLine_sound {s : State} {c l : Nat} {mask : BitVec 64} {urg : Nat} {ue : Bool} (hs : s.Sound) :
    (s.queueLine c l mask urg ue).Sound := by
  unfold State.queueLine
  grind [State.Sound, State.regsOk, State.memOk, State.setChan_sound, State.setLineBad_sound]

theorem State.dramWrite_sound {s : State} {c a : Nat} {bs : List Byte} {urg : Nat} {ue : List Nat} (hs : s.Sound) :
    (s.dramWrite c a bs urg ue).Sound := by
  unfold State.dramWrite
  grind [State.Sound, State.regsOk, State.memOk, mwf_mputBytes, State.bump_sound, State.each_sound, State.setChan_sound,
    State.queueLine_sound]

theorem State.drainWrite_sound {s : State} {c : Nat} {w : QWrite} (hs : s.Sound) :
    (s.drainWrite c w).Sound := by
  unfold State.drainWrite
  grind [State.Sound, State.regsOk, State.memOk, State.setChan_sound, State.setLineBad_sound, State.openRow_sound]

theorem State.drainSub_sound {s : State} {c sub : Nat} {now : List Nat} (hs : s.Sound) :
    (s.drainSub c sub now).Sound := by
  unfold State.drainSub
  grind [State.each_sound, State.drainWrite_sound]

theorem State.drainWrites_sound {s : State} {c : Nat} {now : List Nat} (hs : s.Sound) :
    (s.drainWrites c now).Sound := by
  unfold State.drainWrites
  grind [State.drainSub_sound]

theorem State.countPoison_sound {s : State} {pk : Pkt} (hs : s.Sound) :
    (s.countPoison pk).Sound := by
  unfold State.countPoison
  grind [State.bump_sound]

theorem State.rankUp_sound {s : State} {c a : Nat} (hs : s.Sound) :
    (s.rankUp c a).Sound := by
  unfold State.rankUp
  grind [State.Sound, State.regsOk, State.memOk, State.setChan_sound]

theorem State.dramAdmitWrite_sound {s : State} {c : Nat} {r : DramReq} (hs : s.Sound) :
    (s.dramAdmitWrite c r).Sound := by
  unfold State.dramAdmitWrite
  grind [State.each_sound, State.answer_sound, State.dramWrite_sound, State.countPoison_sound, State.rankUp_sound]

theorem State.admitPrefetch_sound {s : State} {c : Nat} {r : DramReq} (hs : s.Sound) :
    (s.admitPrefetch c r).Sound := by
  unfold State.admitPrefetch
  grind [State.Sound, State.regsOk, State.memOk, State.put_sound, State.bump_sound, State.setChan_sound, State.rankUp_sound]

theorem State.dramAdmitRead_sound {s : State} {c : Nat} {r : DramReq} (hs : s.Sound) :
    (s.dramAdmitRead c r).Sound := by
  unfold State.dramAdmitRead
  grind [State.Sound, State.regsOk, State.memOk, State.bump_sound, State.answer_sound, State.setChan_sound, State.rankUp_sound,
    State.admitPrefetch_sound]

theorem State.dramAdmit_sound {s : State} {c : Nat} {r : DramReq} {now : List Nat} (hs : s.Sound) :
    (s.dramAdmit c r now).Sound := by
  unfold State.dramAdmit
  grind [State.drainWrites_sound, State.dramAdmitWrite_sound, State.dramAdmitRead_sound]

theorem State.dramRequest_sound {s : State} {c : Nat} {pk : Pkt} {now : Nat} {ue : List Nat} (hs : s.Sound) :
    (s.dramRequest c pk now ue).Sound := by
  unfold State.dramRequest
  grind [State.Sound, State.regsOk, State.memOk, State.raise_sound, State.faultTurn_sound, State.wakeFor_sound, State.answer_sound,
    State.mportErr_sound, State.setChan_sound, State.dramAdmit_sound]

theorem State.dramUe_sound {s : State} {c a source init : Nat} {part : Nat} (hs : s.Sound) :
    (s.dramUe c a source init part).Sound := by
  unfold State.dramUe
  grind [State.setReg_sound, State.put_sound, State.raise_sound]

theorem State.dramCe_sound {s : State} {c a : Nat} (hs : s.Sound) :
    (s.dramCe c a).Sound := by
  unfold State.dramCe
  grind [State.put_sound, State.bump_sound]

theorem State.dramCes_sound {s : State} {c a n : Nat} (hs : s.Sound) :
    (s.dramCes c a n).Sound := by
  unfold State.dramCes
  grind [State.each_sound, State.dramCe_sound]

theorem State.setPostponed_sound {s : State} {c : Nat} {m : SMap Nat} (hs : s.Sound) :
    (s.setPostponed c m).Sound := by
  unfold State.setPostponed
  grind [State.Sound, State.regsOk, State.memOk, foldl_sound, State.put_sound, State.setChan_sound]

theorem State.chanSleeps_sound {s : State} {c : Nat} (hs : s.Sound) :
    (s.chanSleeps c).Sound := by
  unfold State.chanSleeps
  grind [State.Sound, State.regsOk, State.memOk, State.put_sound, State.setChan_sound, State.setPostponed_sound]

theorem State.chanWakes_sound {s : State} {c : Nat} (hs : s.Sound) :
    (s.chanWakes c).Sound := by
  unfold State.chanWakes
  grind [State.Sound, State.regsOk, State.memOk, State.put_sound, State.each_sound, State.setChan_sound, State.dramAdmit_sound]

theorem State.domainUp_sound {s : State} {u st : Nat} (hs : s.Sound) :
    (s.domainUp u st).Sound := by
  unfold State.domainUp
  grind [State.put_sound, State.bumpWrap_sound, State.each_sound, State.settleMis_sound, State.chanWakes_sound]

/-! ## BusOps -/

theorem State.busCount_sound {s : State} {init units : Nat} (hs : s.Sound) :
    (s.busCount init units).Sound := by
  unfold State.busCount
  grind [State.statUnits_sound, State.countUnits_sound]

theorem State.busAnswered_sound {s : State} {init units : Nat} (hs : s.Sound) :
    (s.busAnswered init units).Sound := by
  unfold State.busAnswered
  grind [State.fresh_sound, State.statUnits_sound, State.statLat_sound]

theorem State.busDead_sound {s : State} (hs : s.Sound) :
    (s.busDead).2.Sound := by
  unfold State.busDead
  grind [State.bump_sound]

theorem State.busSilent_sound {s : State} {t : RaceTarget} (hs : s.Sound) :
    (s.busSilent t).2.Sound := by
  unfold State.busSilent
  grind [State.isolateNow_sound, State.busDead_sound]

theorem State.busWake_sound {s : State} {c : Nat} (hs : s.Sound) :
    (s.busWake c).Sound := by
  unfold State.busWake
  grind [State.wakeTo_sound, State.domainUp_sound]

theorem State.busReach_sound {s : State} {init ctx c a : Nat} (hs : s.Sound) :
    (s.busReach init ctx c a).2.Sound := by
  unfold State.busReach
  grind [State.Sound, State.regsOk, State.memOk, State.busDead_sound, State.busSilent_sound, State.busWake_sound]

theorem State.busRead_sound {s : State} {init ctx c a n : Nat} {e : RowEcc} (hs : s.Sound) :
    (s.busRead init ctx c a n e).2.2.Sound := by
  unfold State.busRead
  grind [State.setLineBad_sound, State.dramUe_sound, State.dramCes_sound, State.busCount_sound, State.busAnswered_sound,
    State.busReach_sound]

theorem State.busWrite_sound {s : State} {init ctx c a : Nat} {bs : List Byte} {e : RowEcc} (hs : s.Sound) :
    (s.busWrite init ctx c a bs e).2.Sound := by
  unfold State.busWrite
  grind [State.dramWrite_sound, State.drainWrites_sound, State.busCount_sound, State.busAnswered_sound, State.busReach_sound]

theorem State.busWriteLines_sound {init ctx c n a : Nat} {bs : List Byte} {s : State} (hs : s.Sound) : (State.busWriteLines init ctx c n a bs s).2.2.Sound := by
  induction n generalizing a bs s with
  | zero => simpa [State.busWriteLines] using hs
  | succ n ih => unfold State.busWriteLines; grind [State.busWrite_sound]

theorem State.busReadLines_sound {init ctx c n a : Nat} {e : RowEcc} {s : State} (hs : s.Sound) : (State.busReadLines init ctx c n a e s).2.2.Sound := by
  induction n generalizing a e s with
  | zero => simpa [State.busReadLines] using hs
  | succ n ih => unfold State.busReadLines; grind [State.busRead_sound]

/-! ## FlumeOps -/

theorem State.portCount_sound {s : State} {m dir j : Nat} (hs : s.Sound) :
    (s.portCount m dir j).Sound := by
  unfold State.portCount
  grind [State.bumpWrap_sound]

theorem State.setLaunchPort_sound {s : State} {m j : Nat} {x : LaunchPort} (hs : s.Sound) :
    (s.setLaunchPort m j x).Sound := by
  unfold State.setLaunchPort
  grind [State.Sound, State.regsOk, State.memOk]

theorem State.setLandPort_sound {s : State} {m j : Nat} {x : LandPort} (hs : s.Sound) :
    (s.setLandPort m j x).Sound := by
  unfold State.setLandPort
  grind [State.Sound, State.regsOk, State.memOk]

theorem State.setRegion_sound {s : State} {r : Nat} {x : Region} (hs : s.Sound) :
    (s.setRegion r x).Sound := by
  unfold State.setRegion
  grind [State.Sound, State.regsOk, State.memOk]

theorem State.setLandRow_sound {s : State} {m : Nat} {v : Row} (hs : s.Sound) :
    (s.setLandRow m v).Sound := by
  unfold State.setLandRow
  grind [State.Sound, State.regsOk, State.memOk]

theorem State.setStage_sound {s : State} {q v : Nat} (hs : s.Sound) :
    (s.setStage q v).Sound := by
  unfold State.setStage
  grind [State.put_sound]

theorem State.setCell_sound {s : State} {k : Nat} {x : Cell} (hs : s.Sound) :
    (s.setCell k x).Sound := by
  unfold State.setCell
  grind [State.Sound, State.regsOk, State.memOk]

theorem State.setBlock_sound {s : State} {q k : Nat} {x : MemBlock} (hs : s.Sound) :
    (s.setBlock q k x).Sound := by
  unfold State.setBlock
  grind [State.Sound, State.regsOk, State.memOk]

theorem State.setPinPort_sound {s : State} {k : Nat} {x : PinPort} (hs : s.Sound) :
    (s.setPinPort k x).Sound := by
  unfold State.setPinPort
  grind [State.Sound, State.regsOk, State.memOk]

theorem State.settleSenders_sound {s : State} {q : Nat} (hs : s.Sound) :
    (s.settleSenders q).Sound := by
  unfold State.settleSenders
  grind [State.Sound, State.regsOk, State.memOk]

theorem State.settleReceivers_sound {s : State} {q : Nat} (hs : s.Sound) :
    (s.settleReceivers q).Sound := by
  unfold State.settleReceivers
  grind [State.Sound, State.regsOk, State.memOk]

theorem State.settleNets_sound {s : State} {q : Nat} (hs : s.Sound) :
    (s.settleNets q).Sound := by
  unfold State.settleNets
  grind [State.settleSenders_sound, State.settleReceivers_sound]

theorem State.sendWave_sound {s : State} {m j : Nat} {w : Row} (hs : s.Sound) :
    (s.sendWave m j w).Sound := by
  unfold State.sendWave
  grind [State.Sound, State.regsOk, State.memOk, State.each_sound, State.portCount_sound, State.setLaunchPort_sound,
    State.setPinPort_sound, State.settleNets_sound]

theorem State.firePort_sound {s : State} {m j cyc : Nat} {pads : List Nat} (hs : s.Sound) :
    (s.firePort m j cyc pads).Sound := by
  unfold State.firePort
  grind [State.Sound, State.regsOk, State.memOk, State.each_sound, State.setLaunchPort_sound, State.setLandPort_sound,
    State.setRegion_sound, State.setPinPort_sound, State.sendWave_sound]

theorem State.driveLaunch_sound {s : State} {m l : Nat} {v : Bool} {cyc : Nat} {pads : List Nat} (hs : s.Sound) :
    (s.driveLaunch m l v cyc pads).Sound := by
  unfold State.driveLaunch
  grind [State.Sound, State.regsOk, State.memOk, State.each_sound, State.setLaunchPort_sound, State.firePort_sound]

theorem State.ackLand_sound {s : State} {m j : Nat} (hs : s.Sound) :
    (s.ackLand m j).Sound := by
  unfold State.ackLand
  grind [State.Sound, State.regsOk, State.memOk, State.setLandPort_sound, State.settleNets_sound]

theorem State.settleSlack_sound {s : State} {r now : Nat} (hs : s.Sound) :
    (s.settleSlack r now).Sound := by
  unfold State.settleSlack
  grind [State.Sound, State.regsOk, State.memOk, State.countSlack_sound, State.setRegion_sound]

theorem State.budgetMiss_sound {s : State} {p r n : Nat} (hs : s.Sound) :
    (s.budgetMiss p r n).Sound := by
  unfold State.budgetMiss
  grind [State.put_sound, State.raise_sound, State.faultTurn_sound]

theorem State.drivePin_sound {s : State} {k : Nat} {v : Bool} (hs : s.Sound) :
    (s.drivePin k v).Sound := by
  unfold State.drivePin
  grind [State.Sound, State.regsOk, State.memOk, State.setPinPort_sound]

theorem State.updatePins_sound {s : State} {r : Nat} (hs : s.Sound) :
    (s.updatePins r).Sound := by
  unfold State.updatePins
  grind [State.Sound, State.regsOk, State.memOk, State.each_sound, State.setPinPort_sound, State.drivePin_sound]

theorem State.regionTook_sound {s : State} {r key cyc : Nat} (hs : s.Sound) :
    (s.regionTook r key cyc).Sound := by
  unfold State.regionTook
  grind [State.Sound, State.regsOk, State.memOk, State.setRegion_sound]

theorem State.flumeFault_sound {s : State} {kind q unit port code : Nat} (hs : s.Sound) :
    (s.flumeFault kind q unit port code).Sound := by
  unfold State.flumeFault
  grind [State.put_sound, State.raise_sound]

theorem State.railError_sound {s : State} {q unit port : Nat} (hs : s.Sound) :
    (s.railError q unit port).Sound := by
  unfold State.railError
  grind [State.faultOwner_sound, State.flumeFault_sound]

theorem State.takeLanding_sound {s : State} {p m l n : Nat} {limit : Bool} (hs : s.Sound) :
    (s.takeLanding p m l n limit).Sound := by
  unfold State.takeLanding
  grind [State.Sound, State.regsOk, State.memOk, State.setLandPort_sound, State.ackLand_sound, State.settleSlack_sound,
    State.budgetMiss_sound, State.updatePins_sound]

/-! ## Flume -/

theorem State.land_sound {s : State} {m j : Nat} {w : Row} (hs : s.Sound) :
    (s.land m j w).Sound := by
  unfold State.land
  grind [State.Sound, State.regsOk, State.memOk, State.setLandPort_sound, State.setLandRow_sound]

theorem State.discardWord_sound {s : State} {m j cyc : Nat} (hs : s.Sound) :
    (s.discardWord m j cyc).Sound := by
  unfold State.discardWord
  grind [State.Sound, State.regsOk, State.memOk, State.setLandPort_sound, State.ackLand_sound, State.regionTook_sound]

theorem State.overrun_sound {s : State} {m j : Nat} (hs : s.Sound) :
    (s.overrun m j).Sound := by
  unfold State.overrun
  grind [State.put_sound, State.bump_sound, State.raise_sound]

theorem State.muxStep_sound {s : State} {q g k : Nat} {v : Nat → Option Bool} (hs : s.Sound) :
    (s.muxStep q g k v).Sound := by
  have ack : ∀ (u : State) (l : List Nat) (f : Nat → Nat) (g : State → Nat → Cell), u.Sound →
      (u.each l (fun s i => s.setCell (f i) (g s i))).Sound :=
    fun u l f g hu => State.each_sound (fun t x ht => State.setCell_sound ht) hu
  unfold State.muxStep
  dsimp only
  repeat' (with_reducible first | apply ite_sound | apply ack)
  all_goals first
    | exact hs
    | exact State.setCell_sound hs
    | (split
       · exact ite_sound (State.setCell_sound hs) hs
       · exact hs)

theorem State.blockEcc_sound {s : State} {q k i : Nat} {ecc : WordEcc} (hs : s.Sound) :
    (s.blockEcc q k i ecc).Sound := by
  unfold State.blockEcc
  grind [State.Sound, State.regsOk, State.memOk, State.put_sound, State.bump_sound, State.faultOwner_sound, State.setBlock_sound,
    State.flumeFault_sound]

theorem State.blockRails_sound {s : State} {q k : Nat} {illegal : List Nat} (hs : s.Sound) :
    (s.blockRails q k illegal).Sound := by
  unfold State.blockRails
  grind [State.railError_sound]

theorem execFlmQuiesceWrite_sound {value : BitVec 4} {s : State} (hs : s.Sound) :
    ∀ nx, execFlmQuiesceWrite value s = .next nx → nx.Sound := by
  unfold execFlmQuiesceWrite
  grind [State.setBit_sound, State.each_sound]

theorem execFlmRbdataRead_sound {peek : Bool} {s : State} (hs : s.Sound) :
    ∀ nx, execFlmRbdataRead peek s = .next nx → nx.Sound := by
  unfold execFlmRbdataRead
  grind [State.Sound, State.regsOk, State.memOk, State.put_sound]

theorem execFlmCntClear_sound {s : State} (hs : s.Sound) :
    ∀ nx, execFlmCntClear s = .next nx → nx.Sound := by
  unfold execFlmCntClear
  grind [State.setReg_sound]

theorem execFlmSlackClear_sound {region : Fin 2048} {s : State} (hs : s.Sound) :
    ∀ nx, execFlmSlackClear region s = .next nx → nx.Sound := by
  unfold execFlmSlackClear
  grind [State.Sound, State.regsOk, State.memOk, State.put_sound, State.each_sound]

theorem execFlmEccCeClear_sound {s : State} (hs : s.Sound) :
    ∀ nx, execFlmEccCeClear s = .next nx → nx.Sound := by
  unfold execFlmEccCeClear
  grind [State.put_sound]

/-! ## LineOps -/

theorem State.setSpoke_sound {s : State} {sp : Nat} {x : SpokeSt} (hs : s.Sound) :
    (s.setSpoke sp x).Sound := by
  unfold State.setSpoke
  grind [State.Sound, State.regsOk, State.memOk]

theorem State.framesFrom_sound {s : State} {p c : Nat} (hs : s.Sound) :
    (s.framesFrom p c).Sound := by
  unfold State.framesFrom
  grind [State.Sound, State.regsOk, State.memOk, State.each_sound, State.setSpoke_sound]

theorem State.spokeErr_sound {s : State} {sp kind lane : Nat} (hs : s.Sound) :
    (s.spokeErr sp kind lane).Sound := by
  unfold State.spokeErr
  grind [State.put_sound, State.bump_sound]

theorem State.spokeFault_sound {s : State} {sp kind lane stamp code : Nat} {nextTurn : Bool} (hs : s.Sound) :
    (s.spokeFault sp kind lane stamp code nextTurn).Sound := by
  unfold State.spokeFault
  grind [State.Sound, State.regsOk, State.memOk, State.put_sound, State.modPart_sound, State.raise_sound, State.haltCause_sound,
    State.setSpoke_sound, State.spokeErr_sound]

/-! ## DesignMem -/

theorem State.mrdMill_sound {s : State} {c : BpCtx} {addr : Nat} {mm : RowEcc} (hs : s.Sound) :
    (s.mrdMill c addr mm).Sound := by
  unfold State.mrdMill
  grind [State.Sound, State.regsOk, State.memOk, State.mmEcc_sound, State.rangeCount_sound]

theorem State.mrdFar_sound {s : State} {c : BpCtx} {id i : Nat} (hs : s.Sound) :
    (s.mrdFar c id i).Sound := by
  unfold State.mrdFar
  grind [State.Sound, State.regsOk, State.memOk, State.faultTurn_sound, State.rangeCount_sound, State.setSlot_sound, State.fpFail_sound,
    State.queueFull_sound, State.fpEnqueue_sound, State.prefetchAfter_sound]

theorem State.doMrd_sound {s : State} {mm : RowEcc} {c : BpCtx} {w : IWord} (hs : s.Sound) :
    (s.doMrd mm c w).Sound := by
  unfold State.doMrd
  grind [State.Sound, State.regsOk, State.memOk, State.reportRows_sound, State.mrdMill_sound, State.mrdFar_sound]

theorem State.mwrMill_sound {s : State} {c : BpCtx} {addr : Nat} {v : BitVec 512} {mm : RowEcc} (hs : s.Sound) :
    (s.mwrMill c addr v mm).Sound := by
  unfold State.mwrMill
  grind [State.Sound, State.regsOk, State.memOk, State.watch_sound, State.mmEcc_sound, State.mmWrite_sound, State.rangeCount_sound]

theorem State.mwrFar_sound {s : State} {c : BpCtx} {id i : Nat} {v : BitVec 512} (hs : s.Sound) :
    (s.mwrFar c id i v).Sound := by
  unfold State.mwrFar
  grind [State.Sound, State.regsOk, State.memOk, State.faultTurn_sound, State.watch_sound, State.rangeCount_sound, State.queueFull_sound,
    State.fpEnqueue_sound]

theorem State.doMwr_sound {s : State} {mm : RowEcc} {c : BpCtx} {w : IWord} (hs : s.Sound) :
    (s.doMwr mm c w).Sound := by
  unfold State.doMwr
  grind [State.Sound, State.regsOk, State.memOk, State.reportRows_sound, State.mwrMill_sound, State.mwrFar_sound]

theorem State.waitWrite_sound {s : State} {c : BpCtx} {w : IWord} {v : BitVec 512} {ok : Bool} (hs : s.Sound) :
    (s.waitWrite c w v ok).Sound := by
  unfold State.waitWrite
  grind [State.each_sound, State.writeRow_sound, State.result_sound]

theorem State.waitNothing_sound {s : State} {c : BpCtx} {w : IWord} (hs : s.Sound) :
    (s.waitNothing c w).Sound := by
  unfold State.waitNothing
  have h := foldl_acc (P := fun x : State × Nat => x.1.Sound) (l := List.range 8)
    (f := fun (sv : State × Nat) _ => let (f, s) := sv.1.fresh 1; (s, sv.2 * 2 ^ 64 + f.toNat)) (b := (s, 0)) hs (fun c _ hc => hc)
  revert h
  generalize List.foldl _ _ _ = x
  obtain ⟨t, v⟩ := x
  intro h
  have h2 : (t.fresh 2).2.Sound := State.fresh_sound h
  exact State.waitWrite_sound h2

theorem State.waitMill_sound {s : State} {c : BpCtx} {w : IWord} {bp step : Nat} (hs : s.Sound) :
    (s.waitMill c w bp step).Sound := by
  unfold State.waitMill
  split
  · exact State.waitNothing_sound hs
  · dsimp only
    refine State.watch_sound ?_
    split
    · exact State.faultTurn_sound (State.raise_sound (State.mportErr_sound (State.waitWrite_sound hs)))
    · exact State.waitWrite_sound hs

theorem State.waitFar_sound {s : State} {c : BpCtx} {w : IWord} {id bp step : Nat} (hs : s.Sound) :
    (s.waitFar c w id bp step).Sound := by
  unfold State.waitFar
  grind [State.Sound, State.regsOk, State.memOk, State.watch_sound, State.freeRSlot_sound, State.slotEarly_sound, State.waitWrite_sound,
    State.waitNothing_sound]

theorem State.doWait_sound {s : State} {c : BpCtx} {w : IWord} (hs : s.Sound) :
    (s.doWait c w).Sound := by
  unfold State.doWait
  grind [State.Sound, State.regsOk, State.memOk, State.waitMill_sound, State.waitFar_sound]

theorem State.doLaunch_sound {s : State} {pads : List Nat} {c : BpCtx} {w : IWord} (hs : s.Sound) :
    (s.doLaunch pads c w).Sound := by
  unfold State.doLaunch
  grind [State.reportRows_sound, State.driveLaunch_sound]

theorem State.doLand_sound {s : State} {c : BpCtx} {w : IWord} (hs : s.Sound) :
    (s.doLand c w).Sound := by
  unfold State.doLand
  grind [State.writeLane_sound, State.result_sound, State.takeLanding_sound]

theorem execMportCntClear_sound {s : State} (hs : s.Sound) :
    ∀ nx, execMportCntClear s = .next nx → nx.Sound := by
  unfold execMportCntClear
  grind [State.setReg_sound, State.put_sound, State.each_sound]

/-! ## Brakes -/

theorem State.brakeLimit_sound {s : State} {p hold mask : Nat} (hs : s.Sound) :
    (s.brakeLimit p hold mask).Sound := by
  unfold State.brakeLimit
  grind [State.Sound, State.regsOk, State.memOk, State.modPart_sound, State.raise_sound, State.haltCause_sound]

theorem State.beginQuantum_sound {s : State} {p hold mask own : Nat} (hs : s.Sound) :
    (s.beginQuantum p hold mask own).Sound := by
  unfold State.beginQuantum
  grind [State.Sound, State.regsOk, State.memOk, foldl_sound, State.put_sound, State.modPart_sound]

theorem execPartVote_sound {p : Part} {quanta : BitVec 8} {n : Step} {s : State} (hs : s.Sound) :
    ∀ nx, execPartVote p quanta n s = .next nx → nx.Sound := by
  unfold execPartVote
  grind [State.Sound, State.regsOk, State.memOk, State.modPart_sound, State.voteRounds_sound]

theorem State.zeroCounters_sound {s : State} {p : Nat} (hs : s.Sound) :
    (s.zeroCounters p).Sound := by
  unfold State.zeroCounters
  grind [State.Sound, State.regsOk, State.memOk, foldl_sound, State.setReg_sound, State.put_sound, State.each_sound]

theorem State.clearTurns_sound {s : State} {p : Nat} (hs : s.Sound) :
    (s.clearTurns p).Sound := by
  unfold State.clearTurns
  grind [State.put_sound, State.zeroCounters_sound]

theorem execTurnCtrlClear_sound {p : Part} {s : State} (hs : s.Sound) :
    ∀ nx, execTurnCtrlClear p s = .next nx → nx.Sound := by
  unfold execTurnCtrlClear
  grind [State.put_sound, State.clearTurns_sound]

theorem execPartQmaskWrite_sound {p : Part} {value : BitVec 4} {s : State} (hs : s.Sound) :
    ∀ nx, execPartQmaskWrite p value s = .next nx → nx.Sound := by
  unfold execPartQmaskWrite
  grind [State.put_sound, State.raise_sound]

/-! ## RingOps -/

theorem State.setRing_sound {s : State} {n : Nat} {x : Ring} (hs : s.Sound) :
    (s.setRing n x).Sound := by
  unfold State.setRing
  grind [State.Sound, State.regsOk, State.memOk]

theorem State.hostWrite_sound {s : State} {addr : Nat} {data : List Byte} (hs : s.Sound) :
    (s.hostWrite addr data).Sound := by
  unfold State.hostWrite
  grind [State.Sound, State.regsOk, State.memOk]

theorem State.postBytes_sound {s : State} {n : Nat} {body : List Byte} (hs : s.Sound) :
    (s.postBytes n body).Sound := by
  unfold State.postBytes
  grind [State.Sound, State.regsOk, State.memOk, State.setRing_sound, State.hostWrite_sound]

theorem State.postHeld_sound {n : Nat} {s : State} {k : Nat} (hs : s.Sound) : (State.postHeld n s k).Sound := by
  induction n generalizing s with
  | zero => simpa [State.postHeld] using hs
  | succ n ih => unfold State.postHeld; grind [State.setRing_sound, State.postBytes_sound]

theorem State.finish_sound {s : State} {ring serial status result : Nat} (hs : s.Sound) :
    (s.finish ring serial status result).Sound := by
  unfold State.finish
  grind [State.Sound, State.regsOk, State.memOk, State.result_sound, State.setRing_sound, State.postHeld_sound]

theorem State.finishW_sound {s : State} {w : Option Waiter} {status result : Nat} (hs : s.Sound) :
    (s.finishW w status result).Sound := by
  unfold State.finishW
  grind [State.Sound, State.regsOk, State.memOk, State.result_sound, State.finish_sound]

theorem State.beginCmd_sound {s : State} {ring : Nat} {ops : List Nat} (hs : s.Sound) :
    ∀ t i w, s.beginCmd ring ops = some (t, i, w) → t.Sound := by
  unfold State.beginCmd
  grind [State.Sound, State.regsOk, State.memOk, State.setRing_sound]

theorem State.cmdFault_sound {s : State} {ring serial : Nat} {d : BitVec 512} {code : Nat} {more : List Nat} {result : Nat} (hs : s.Sound) :
    (s.cmdFault ring serial d code more result).Sound := by
  unfold State.cmdFault
  grind [State.raise_sound, State.result_sound, State.finish_sound]

theorem State.onCmd_sound {s : State} {ring : Nat} {ops : List Nat} {f : State → Nat → BitVec 512 → State} (hs : s.Sound) (hf : ∀ t y1 y2, t.Sound → (f t y1 y2).Sound) :
    (s.onCmd ring ops f).Sound := by
  unfold State.onCmd
  grind [State.Sound, State.regsOk, State.memOk, State.beginCmd_sound, State.cmdFault_sound]

theorem State.postEvent_sound {s : State} {r : EvRec} (hs : s.Sound) :
    (s.postEvent r).Sound := by
  unfold State.postEvent
  grind [State.put_sound, State.postBytes_sound]

theorem State.drainEvents_sound {n : Nat} {s : State} (hs : s.Sound) : (State.drainEvents n s).Sound := by
  induction n generalizing s with
  | zero => simpa [State.drainEvents] using hs
  | succ n ih => unfold State.drainEvents; grind [State.Sound, State.regsOk, State.memOk, State.postEvent_sound]

theorem State.msixSend_sound {s : State} {v : Nat} (hs : s.Sound) :
    (s.msixSend v).Sound := by
  unfold State.msixSend
  grind [State.Sound, State.regsOk, State.memOk, State.bump_sound, State.hostWrite_sound]

theorem State.ringMsg_sound {s : State} {n : Nat} (hs : s.Sound) :
    (s.ringMsg n).Sound := by
  unfold State.ringMsg
  grind [State.msixSend_sound]

theorem State.ringFault_sound {s : State} {n kind w1 : Nat} (hs : s.Sound) :
    (s.ringFault n kind w1).Sound := by
  unfold State.ringFault
  grind [State.Sound, State.regsOk, State.memOk, State.put_sound, State.setBit_sound, State.raise_sound, State.setRing_sound,
    State.ringMsg_sound]

/-! ## LoadOps -/

theorem State.lockStage_sound {s : State} {p chan addr len : Nat} (hs : s.Sound) :
    (s.lockStage p chan addr len).Sound := by
  unfold State.lockStage
  grind [State.Sound, State.regsOk, State.memOk]

theorem State.unlockStage_sound {s : State} {p chan addr len : Nat} (hs : s.Sound) :
    (s.unlockStage p chan addr len).Sound := by
  unfold State.unlockStage
  grind [State.Sound, State.regsOk, State.memOk]

theorem State.unlockJob_sound {s : State} {j : LoadJob} (hs : s.Sound) :
    (s.unlockJob j).Sound := by
  unfold State.unlockJob
  grind [State.unlockStage_sound]

theorem State.stageRead_sound {s : State} {chan a n : Nat} {e : RowEcc} (hs : s.Sound) :
    (s.stageRead chan a n e).2.Sound := by
  unfold State.stageRead
  grind [State.busReadLines_sound]

theorem State.setLoader_sound {s : State} {x : LoaderSt} (hs : s.Sound) :
    (s.setLoader x).Sound := by
  unfold State.setLoader
  grind [State.Sound, State.regsOk, State.memOk]

theorem State.syncQueue_sound {s : State} (hs : s.Sound) :
    (s.syncQueue).Sound := by
  unfold State.syncQueue
  grind [State.Sound, State.regsOk, State.memOk, foldl_sound, State.put_sound, State.flag_sound]

theorem State.jobEnds_sound {s : State} {j : LoadJob} {status us : Nat} (hs : s.Sound) :
    (s.jobEnds j status us).Sound := by
  unfold State.jobEnds
  grind [State.Sound, State.regsOk, State.memOk, State.put_sound, State.finishW_sound, State.setLoader_sound, State.syncQueue_sound]

theorem State.dropStaged_sound {s : State} {p : Nat} (hs : s.Sound) :
    (s.dropStaged p).Sound := by
  unfold State.dropStaged
  grind [State.Sound, State.regsOk, State.memOk, State.put_sound, State.unlockStage_sound, State.setLoader_sound]

theorem State.authFail_sound {s : State} (hs : s.Sound) :
    (s.authFail).Sound := by
  unfold State.authFail
  grind [State.bump_sound]

theorem State.recordFault_sound {s : State} {j : LoadJob} {code faddr kind : Nat} {more : List Nat} (hs : s.Sound) :
    (s.recordFault j code faddr kind more).Sound := by
  unfold State.recordFault
  grind [State.setReg_sound, State.put_sound, State.raise_sound]

theorem State.holdFault_sound {s : State} {j : LoadJob} (hs : s.Sound) :
    (s.holdFault j).Sound := by
  unfold State.holdFault
  grind [State.put_sound]

theorem State.loadFail_sound {s : State} {j : LoadJob} {code faddr kind : Nat} {more : List Nat} {us : Nat} (hs : s.Sound) :
    (s.loadFail j code faddr kind more us).Sound := by
  unfold State.loadFail
  grind [State.put_sound, State.unlockJob_sound, State.jobEnds_sound, State.recordFault_sound, State.holdFault_sound]

theorem State.loadFailWhole_sound {s : State} {j : LoadJob} {code : Nat} {more : List Nat} {us : Nat} (hs : s.Sound) :
    (s.loadFailWhole j code more us).Sound := by
  unfold State.loadFailWhole
  grind [State.loadFail_sound]

theorem State.dropSel_sound {s : State} {base : Nat} {f : Nat → Bool} (hs : s.Sound) :
    (s.dropSel base f).Sound := by
  unfold State.dropSel
  grind [State.Sound, State.regsOk, State.memOk, mwf_mdrop]

theorem State.clearFlume_sound {s : State} {mine : Nat → Bool} (hs : s.Sound) :
    (s.clearFlume mine).Sound := by
  unfold State.clearFlume
  grind [State.Sound, State.regsOk, State.memOk, mwf_mdrop, State.land_sound]

theorem State.clearConfig_sound {s : State} {mine : Nat → Bool} (hs : s.Sound) :
    (s.clearConfig mine).Sound := by
  unfold State.clearConfig
  grind [State.Sound, State.regsOk, State.memOk, mwf_mdrop, foldl_sound, State.dropSel_sound, State.clearFlume_sound]

theorem State.clearRows_sound {s : State} {mine : Nat → Bool} (hs : s.Sound) :
    (s.clearRows mine).Sound := by
  unfold State.clearRows
  grind [State.Sound, State.regsOk, State.memOk, mwf_mdrop]

theorem State.dropAhead_sound {s : State} {p : Nat} (hs : s.Sound) :
    (s.dropAhead p).Sound := by
  unfold State.dropAhead
  grind [State.Sound, State.regsOk, State.memOk, State.each_sound, State.setChan_sound]

theorem State.writeGroup_sound {s : State} {mill st g part : Nat} {b : Bytes} (hs : s.Sound) :
    (s.writeGroup mill st g part b).Sound := by
  unfold State.writeGroup
  grind [State.Sound, State.regsOk, State.memOk, State.each_sound]

theorem State.writeInit_sound {s : State} {mill st blk : Nat} {b : Bytes} (hs : s.Sound) :
    (s.writeInit mill st blk b).Sound := by
  unfold State.writeInit
  grind [State.put_sound, State.each_sound, State.setRow_sound, State.markRow_sound]

theorem State.writeSlots_sound {s : State} {mill port : Nat} {b : Bytes} (hs : s.Sound) :
    (s.writeSlots mill port b).Sound := by
  unfold State.writeSlots
  grind [State.Sound, State.regsOk, State.memOk, State.each_sound]

theorem State.writeMillMem_sound {s : State} {mill fr : Nat} {b : Bytes} (hs : s.Sound) :
    (s.writeMillMem mill fr b).Sound := by
  unfold State.writeMillMem
  grind [State.Sound, State.regsOk, State.memOk, State.each_sound, State.setMmMark_sound]

theorem State.writeBindings_sound {s : State} {p mill : Nat} {b : Bytes} (hs : s.Sound) :
    (s.writeBindings p mill b).Sound := by
  unfold State.writeBindings
  grind [State.Sound, State.regsOk, State.memOk, foldl_sound, State.put_sound, State.each_sound, State.dropSel_sound]

theorem State.writeTaps_sound {s : State} {mill st : Nat} {b : Bytes} (hs : s.Sound) :
    (s.writeTaps mill st b).Sound := by
  unfold State.writeTaps
  grind [State.Sound, State.regsOk, State.memOk, mwf_mdrop, State.each_sound]

theorem State.writeFrame_sound {s : State} {p : Nat} {set : List Nat} {m : Nat} {f : Nat × Bytes} (hs : s.Sound) :
    (s.writeFrame p set m f).Sound := by
  unfold State.writeFrame
  grind [State.Sound, State.regsOk, State.memOk, State.writeGroup_sound, State.writeInit_sound, State.writeSlots_sound,
    State.writeMillMem_sound, State.writeBindings_sound, State.writeTaps_sound]

theorem State.dropRegion_sound {s : State} {r : Nat} (hs : s.Sound) :
    (s.dropRegion r).Sound := by
  unfold State.dropRegion
  grind [State.Sound, State.regsOk, State.memOk, mwf_mdrop, foldl_sound, State.land_sound, State.dropSel_sound]

theorem State.putRegion_sound {s : State} {q : Nat} {g : FlmImg} {x : FlmRegion} {stage : Nat} (hs : s.Sound) :
    (s.putRegion q g x stage).Sound := by
  unfold State.putRegion
  grind [State.put_sound, State.each_sound, State.setLaunchPort_sound, State.setLandPort_sound, State.setRegion_sound,
    State.setCell_sound, State.setBlock_sound, State.setPinPort_sound, State.land_sound]

theorem State.beginRelease_sound {s : State} {p : Nat} (hs : s.Sound) :
    (s.beginRelease p).Sound := by
  unfold State.beginRelease
  grind [State.Sound, State.regsOk, State.memOk, State.setLoader_sound]

theorem State.releaseTo_sound {s : State} {p k : Nat} (hs : s.Sound) :
    (s.releaseTo p k).Sound := by
  unfold State.releaseTo
  grind [State.Sound, State.regsOk, State.memOk, State.put_sound, State.each_sound, State.setRegion_sound, State.setStage_sound,
    State.setLoader_sound]

theorem State.beginEmpty_sound {s : State} {p : Nat} (hs : s.Sound) :
    (s.beginEmpty p).Sound := by
  unfold State.beginEmpty
  grind [State.Sound, State.regsOk, State.memOk, State.put_sound, State.setLoader_sound]

theorem State.forgetImage_sound {s : State} {p : Nat} (hs : s.Sound) :
    (s.forgetImage p).Sound := by
  unfold State.forgetImage
  grind [State.Sound, State.regsOk, State.memOk, mwf_mset, State.setReg_sound, State.put_sound, State.flag_sound, State.each_sound,
    State.setPart_sound, State.settleMis_sound, State.clearTurns_sound, State.setLoader_sound]

end Sys2Proof.Machine
end

