-- ==== Sys2Proof/Laws/SoundUnits.lean ====
section
/-!
SUPPORT. Laws/SoundUnits.lean: that a sound state stays sound (State.Sound) under the shared operations of the sessions, trace, the hopper, pins, capture, loading, boot, DRAM and the spokes.
-/
namespace Sys2Proof.Machine

open Sys2Proof

set_option Elab.async false

/-! ## SessOps -/

theorem State.denied_sound {s : State} {port : Nat} {part : Option Nat} {off reason : Nat} (hs : s.Sound) :
    (s.denied port part off reason).Sound := by
  unfold State.denied
  grind [State.bump_sound, State.raise_sound]

theorem State.allowed_sound {s : State} {port need : Nat} {part : Option Nat} {off : Nat} {f : State → State} (hs : s.Sound) (hf : ∀ t, t.Sound → (f t).Sound) :
    (s.allowed port need part off f).Sound := by
  unfold State.allowed
  grind [State.denied_sound]

theorem State.setAuthPort_sound {s : State} {port : Nat} {x : AuthPort} (hs : s.Sound) :
    (s.setAuthPort port x).Sound := by
  unfold State.setAuthPort
  grind [State.Sound, State.regsOk, State.memOk]

theorem State.setWatchOwner_sound {s : State} {p u port : Nat} (hs : s.Sound) :
    (s.setWatchOwner p u port).Sound := by
  unfold State.setWatchOwner
  grind [State.put_sound]

theorem State.setMiller_sound {s : State} {k : Nat} {x : MillerSt} (hs : s.Sound) :
    (s.setMiller k x).Sound := by
  unfold State.setMiller
  grind [State.Sound, State.regsOk, State.memOk]

theorem State.setSchedCore_sound {s : State} {k : Nat} {x : SchedCore} (hs : s.Sound) :
    (s.setSchedCore k x).Sound := by
  unfold State.setSchedCore
  grind [State.Sound, State.regsOk, State.memOk]

/-! ## TraceOps -/

theorem State.setTrc_sound {s : State} {k : Nat} {x : TrcCore} (hs : s.Sound) :
    (s.setTrc k x).Sound := by
  unfold State.setTrc
  grind [State.Sound, State.regsOk, State.memOk]

theorem State.trcPush_sound {s : State} {k pkt : Nat} (hs : s.Sound) :
    (s.trcPush k pkt).Sound := by
  unfold State.trcPush
  grind [State.Sound, State.regsOk, State.memOk, State.bump_sound, State.setTrc_sound]

theorem State.trcRaw_sound {s : State} {k type payload : Nat} (hs : s.Sound) :
    (s.trcRaw k type payload).Sound := by
  unfold State.trcRaw
  grind [State.Sound, State.regsOk, State.memOk, State.setTrc_sound, State.trcPush_sound]

theorem State.trcRoom_sound {s : State} {k : Nat} (hs : s.Sound) :
    (s.trcRoom k).Sound := by
  unfold State.trcRoom
  grind [State.Sound, State.regsOk, State.memOk, State.setTrc_sound, State.trcRaw_sound]

theorem State.trcRepeats_sound {s : State} {k : Nat} (hs : s.Sound) :
    (s.trcRepeats k).Sound := by
  unfold State.trcRepeats
  grind [State.Sound, State.regsOk, State.memOk, State.setTrc_sound, State.trcRaw_sound]

theorem State.trcMap_sound {s : State} {k : Nat} (hs : s.Sound) :
    (s.trcMap k).Sound := by
  unfold State.trcMap
  grind [State.Sound, State.regsOk, State.memOk, State.setTrc_sound, State.trcRaw_sound, State.trcRepeats_sound]

theorem State.trcPacket_sound {s : State} {k type payload : Nat} (hs : s.Sound) :
    (s.trcPacket k type payload).Sound := by
  unfold State.trcPacket
  grind [State.trcRaw_sound, State.trcRoom_sound, State.trcMap_sound]

theorem State.trcBranch_sound {s : State} {k : Nat} {taken : Bool} (hs : s.Sound) :
    (s.trcBranch k taken).Sound := by
  unfold State.trcBranch
  grind [State.Sound, State.regsOk, State.memOk, State.setTrc_sound, State.trcRaw_sound, State.trcRoom_sound, State.trcRepeats_sound]

theorem State.trcExclude_sound {s : State} {k : Nat} (hs : s.Sound) :
    (s.trcExclude k).Sound := by
  unfold State.trcExclude
  grind [State.Sound, State.regsOk, State.memOk, State.put_sound, State.bump_sound, State.setTrc_sound, State.trcPacket_sound]

theorem State.trcResume_sound {s : State} {k : Nat} (hs : s.Sound) :
    (s.trcResume k).Sound := by
  unfold State.trcResume
  grind [State.Sound, State.regsOk, State.memOk, State.put_sound, State.setTrc_sound, State.trcPacket_sound]

theorem State.trcRun_sound {s : State} {k : Nat} {machine : Bool} {f : State → State} (hs : s.Sound) (hf : ∀ t, t.Sound → (f t).Sound) :
    (s.trcRun k machine f).Sound := by
  unfold State.trcRun
  grind [State.Sound, State.regsOk, State.memOk, State.trcExclude_sound, State.trcResume_sound]

theorem State.trcStart_sound {s : State} {k ctx seq : Nat} {machine : Bool} (hs : s.Sound) :
    (s.trcStart k ctx seq machine).Sound := by
  unfold State.trcStart
  grind [State.Sound, State.regsOk, State.memOk, State.put_sound, State.setTrc_sound, State.trcPacket_sound, State.trcExclude_sound]

theorem State.trcItemEnd_sound {s : State} {k ctx seq : Nat} (hs : s.Sound) :
    (s.trcItemEnd k ctx seq).Sound := by
  unfold State.trcItemEnd
  grind [State.trcPacket_sound]

theorem State.trcOutside_sound {s : State} {k type payload : Nat} (hs : s.Sound) :
    (s.trcOutside k type payload).Sound := by
  unfold State.trcOutside
  grind [State.trcPacket_sound]

theorem State.trcHold_sound {s : State} {k : Nat} (hs : s.Sound) :
    (s.trcHold k).Sound := by
  unfold State.trcHold
  grind [State.Sound, State.regsOk, State.memOk, State.setTrc_sound]

theorem State.trcGo_sound {s : State} {k : Nat} {afresh : Bool} (hs : s.Sound) :
    (s.trcGo k afresh).Sound := by
  unfold State.trcGo
  grind [State.Sound, State.regsOk, State.memOk, State.setTrc_sound]

theorem State.trcBlock_sound {s : State} {k : Nat} (hs : s.Sound) :
    (s.trcBlock k).Sound := by
  unfold State.trcBlock
  dsimp only
  with_reducible refine ite_sound (State.bumpWrap_sound (State.bumpWrap_sound (ite_sound (State.put_sound ?_) ?_))) (State.raise_sound
      (State.put_sound (ite_sound ?_ (State.put_sound (State.put_sound ?_)))))
  all_goals with_reducible exact State.busWrite_sound (State.setTrc_sound hs)

theorem State.trcFlushCore_sound {k n : Nat} {s : State} (hs : s.Sound) : (State.trcFlushCore k n s).Sound := by
  induction n generalizing s with
  | zero => simpa [State.trcFlushCore] using hs
  | succ n ih => unfold State.trcFlushCore; grind [State.trcBlock_sound]

theorem State.trcTick_sound {s : State} (hs : s.Sound) :
    (s.trcTick).Sound := by
  unfold State.trcTick
  grind [State.Sound, State.regsOk, State.memOk, State.trcBlock_sound]

theorem State.trcStop_sound {s : State} (hs : s.Sound) :
    (s.trcStop).Sound := by
  unfold State.trcStop
  grind [State.put_sound, State.each_sound, State.raise_sound, State.trcPacket_sound, State.trcFlushCore_sound]

theorem State.trcTrigger_sound {s : State} {src core : Nat} (hs : s.Sound) :
    (s.trcTrigger src core).Sound := by
  unfold State.trcTrigger
  grind [State.put_sound, State.put64_sound, State.each_sound, State.trcPacket_sound, State.trcStop_sound]

/-! ## HopOps -/

theorem State.clearResv_sound {s : State} {off n : Nat} (hs : s.Sound) :
    (s.clearResv off n).Sound := by
  unfold State.clearResv
  grind [State.Sound, State.regsOk, State.memOk, State.each_sound, State.setMiller_sound]

theorem State.hopWrite_sound {s : State} {off : Nat} {bs : List Byte} (hs : s.Sound) :
    (s.hopWrite off bs).Sound := by
  unfold State.hopWrite
  grind [State.Sound, State.regsOk, State.memOk, mwf_mputBytes, State.each_sound, State.clearResv_sound]

theorem State.hopEcc_sound {s : State} {e : RowEcc} (hs : s.Sound) :
    (s.hopEcc e).Sound := by
  unfold State.hopEcc
  grind [State.Sound, State.regsOk, State.memOk, State.bump_sound, State.each_sound]

theorem State.hopStall_sound {s : State} {l : List (Nat × Nat)} (hs : s.Sound) :
    (s.hopStall l).Sound := by
  unfold State.hopStall
  grind [State.bump_sound, State.each_sound]

theorem State.hopUe_sound {s : State} {off init : Nat} (hs : s.Sound) :
    (s.hopUe off init).Sound := by
  unfold State.hopUe
  grind [State.put_sound, State.raise_sound]

theorem State.cancelHeld_sound {s : State} {f : WItem → Nat → Bool} (hs : s.Sound) :
    (s.cancelHeld f).Sound := by
  unfold State.cancelHeld
  grind [State.Sound, State.regsOk, State.memOk, State.bumpWrap_sound]

theorem State.readyItem_sound {s : State} {i : WItem} (hs : s.Sound) :
    (s.readyItem i).Sound := by
  unfold State.readyItem
  grind [State.Sound, State.regsOk, State.memOk, State.cancelHeld_sound]

theorem State.enqueue_sound {s : State} {i : WItem} {user : Option Nat} {full : Bool} (hs : s.Sound) :
    (s.enqueue i user full).2.2.Sound := by
  unfold State.enqueue
  grind [State.Sound, State.regsOk, State.memOk, State.bump_sound, State.readyItem_sound]

theorem State.dispatchTo_sound {s : State} {i : WItem} {k : Nat} (hs : s.Sound) :
    (s.dispatchTo i k).Sound := by
  unfold State.dispatchTo
  grind [State.Sound, State.regsOk, State.memOk, State.bumpWrap_sound, State.raiseIrq_sound, State.setSchedCore_sound,
    State.trcStart_sound]

theorem State.takeItem_sound {s : State} {k : Nat} (hs : s.Sound) :
    (s.takeItem k).Sound := by
  unfold State.takeItem
  grind [State.Sound, State.regsOk, State.memOk, State.setSchedCore_sound]

theorem State.itemEnds_sound {s : State} {k : Nat} (hs : s.Sound) :
    (s.itemEnds k).Sound := by
  unfold State.itemEnds
  grind [State.Sound, State.regsOk, State.memOk, State.setMiller_sound, State.setSchedCore_sound, State.trcStart_sound,
    State.trcItemEnd_sound, State.dispatchTo_sound]

/-! ## PinOps -/

theorem State.startSeq_sound {s : State} {key : Nat} {level : Option Bool} (hs : s.Sound) :
    (s.startSeq key level).Sound := by
  unfold State.startSeq
  grind [State.Sound, State.regsOk, State.memOk]

theorem State.gpioReset_sound {s : State} {n : Nat} {lv : Option Bool} (hs : s.Sound) :
    (s.gpioReset n lv).Sound := by
  unfold State.gpioReset
  grind [State.Sound, State.regsOk, State.memOk, State.setBit_sound]

theorem State.showUnserved_sound {s : State} {pin : Nat} (hs : s.Sound) :
    (s.showUnserved pin).Sound := by
  unfold State.showUnserved
  grind [State.setBit_sound]

theorem State.pinsRelease_sound {s : State} {p : Nat} {mine : PinPort → Bool} (hs : s.Sound) :
    (s.pinsRelease p mine).Sound := by
  have serve : ∀ (u : State) (l : List Nat) (g : State → Nat → PinPort), u.Sound →
      (u.each l (fun s k => (s.setPinPort k (g s k)).showUnserved (k % 160))).Sound :=
    fun u l g hu => State.each_sound (fun t x ht => State.showUnserved_sound (State.setPinPort_sound ht)) hu
  have free : ∀ (l : List Nat) (g : State → Nat → Nat), (s.each l (fun s n => s.gpioReset n (rstDrive (g s n)))).Sound :=
    fun l g => State.each_sound (fun t x ht => State.gpioReset_sound ht) hs
  unfold State.pinsRelease
  dsimp only
  split
  · exact State.put_sound (serve _ _ _ (State.put_sound (free _ _)))
  · refine State.raise_sound (ite_sound ?_ (State.put_sound (State.put_sound (State.put_sound (State.put_sound ?_)))))
    all_goals exact State.put_sound (serve _ _ _ (State.put_sound (free _ _)))

theorem State.pinsEmpty_sound {s : State} {p : Nat} (hs : s.Sound) :
    (s.pinsEmpty p).Sound := by
  unfold State.pinsEmpty
  grind [State.Sound, State.regsOk, State.memOk, State.put_sound, State.each_sound, State.setPinPort_sound, State.startSeq_sound,
    State.gpioReset_sound, State.showUnserved_sound]

/-! ## CapRing -/

theorem State.capCount_sound {s : State} {p c n : Nat} (hs : s.Sound) :
    (s.capCount p c n).Sound := by
  unfold State.capCount
  grind [State.bump_sound]

theorem State.acqErr_sound {s : State} {p kind : Nat} (hs : s.Sound) :
    (s.acqErr p kind).Sound := by
  unfold State.acqErr
  grind [State.put_sound]

theorem State.ringPut_sound {s : State} {p : Nat} {bs : List Byte} (hs : s.Sound) :
    (s.ringPut p bs).1.Sound := by
  unfold State.ringPut
  grind [State.busWriteLines_sound]

theorem State.capWrite_sound {s : State} {p kind turn : Nat} {bs : List Byte} (hs : s.Sound) :
    (s.capWrite p kind turn bs).Sound := by
  unfold State.capWrite
  grind [State.Sound, State.regsOk, State.memOk, State.put_sound, State.raise_sound, State.setCap_sound, State.capCount_sound,
    State.acqErr_sound, State.ringPut_sound]

theorem State.capTake_sound {s : State} {p : Nat} (hs : s.Sound) :
    (s.capTake p).Sound := by
  unfold State.capTake
  grind [State.Sound, State.regsOk, State.memOk, State.setCap_sound]

theorem State.capPut_sound {s : State} {p kind turn flags : Nat} {spec data : List Byte} (hs : s.Sound) :
    (s.capPut p kind turn flags spec data).Sound := by
  unfold State.capPut
  grind [State.Sound, State.regsOk, State.memOk, State.setCap_sound, State.capWrite_sound, State.capTake_sound]

theorem State.capDrop_sound {s : State} {p kind turn turns : Nat} (hs : s.Sound) :
    (s.capDrop p kind turn turns).Sound := by
  unfold State.capDrop
  grind [State.Sound, State.regsOk, State.memOk, State.raise_sound, State.setCap_sound, State.capCount_sound, State.acqErr_sound]

theorem State.capEmit_sound {s : State} {p kind turn turns flags : Nat} {spec data : List Byte} (hs : s.Sound) :
    (s.capEmit p kind turn turns flags spec data).Sound := by
  unfold State.capEmit
  grind [State.Sound, State.regsOk, State.memOk, State.setCap_sound, State.capWrite_sound, State.capTake_sound, State.capPut_sound,
    State.capDrop_sound]

theorem State.capUnstage_sound {p n : Nat} {s : State} (hs : s.Sound) : (State.capUnstage p n s).Sound := by
  induction n generalizing s with
  | zero => simpa [State.capUnstage] using hs
  | succ n ih => unfold State.capUnstage; grind [State.setCap_sound, State.capWrite_sound]

theorem State.turnRecord_sound {s : State} {p : Nat} {i : CapItem} (hs : s.Sound) :
    (s.turnRecord p i).Sound := by
  unfold State.turnRecord
  grind [State.capCount_sound, State.capEmit_sound]

theorem State.reduceTurn_sound {s : State} {p : Nat} {i : CapItem} (hs : s.Sound) :
    (s.reduceTurn p i).Sound := by
  unfold State.reduceTurn
  grind [State.Sound, State.regsOk, State.memOk, foldl_sound, State.fresh_sound, State.setCap_sound, State.capCount_sound]

theorem State.closeInterval_sound {s : State} {p : Nat} (hs : s.Sound) :
    (s.closeInterval p).Sound := by
  unfold State.closeInterval
  grind [State.Sound, State.regsOk, State.memOk, State.setCap_sound, State.capCount_sound, State.capEmit_sound]

theorem State.capItem_sound {s : State} {p : Nat} {i : CapItem} (hs : s.Sound) :
    (s.capItem p i).Sound := by
  unfold State.capItem
  grind [State.Sound, State.regsOk, State.memOk, State.put_sound, State.capEmit_sound, State.turnRecord_sound, State.reduceTurn_sound,
    State.closeInterval_sound]

theorem State.capDrain_sound {p n : Nat} {s : State} (hs : s.Sound) : (State.capDrain p n s).Sound := by
  induction n generalizing s with
  | zero => simpa [State.capDrain] using hs
  | succ n ih => unfold State.capDrain; grind [State.setCap_sound, State.capItem_sound]

theorem State.capFlow_sound {s : State} {p : Nat} (hs : s.Sound) : (s.capFlow p).Sound := State.capDrain_sound hs

theorem State.capPush_sound {s : State} {p : Nat} {is : List CapItem} (hs : s.Sound) :
    (s.capPush p is).Sound := by
  unfold State.capPush
  grind [State.Sound, State.regsOk, State.memOk, State.setCap_sound, State.capFlow_sound]

theorem State.capStop_sound {s : State} {p reason : Nat} (hs : s.Sound) :
    (s.capStop p reason).Sound := by
  unfold State.capStop
  grind [State.Sound, State.regsOk, State.memOk, State.put_sound, State.setCap_sound, State.capPush_sound]

theorem State.capCut_sound {s : State} {p : Nat} (hs : s.Sound) :
    (s.capCut p).Sound := by
  unfold State.capCut
  grind [State.capPush_sound]

theorem State.capOverflow_sound {s : State} {p m : Nat} (hs : s.Sound) :
    (s.capOverflow p m).Sound := by
  unfold State.capOverflow
  grind [State.Sound, State.regsOk, State.memOk, mwf_mdrop, State.setCap_sound]

theorem State.capTurnEnd_sound {s : State} {p t : Nat} {valid : Bool} {taps : SMap Row} (hs : s.Sound) :
    (s.capTurnEnd p t valid taps).1.Sound := by
  unfold State.capTurnEnd
  grind [State.Sound, State.regsOk, State.memOk, mwf_mdrop, State.put_sound, State.each_sound, State.setCap_sound, State.capPush_sound,
    State.capOverflow_sound]

/-! ## Spokes -/

theorem State.setLaneSt_sound {s : State} {sp l : Nat} {x : LaneSt} (hs : s.Sound) :
    (s.setLaneSt sp l x).Sound := by
  unfold State.setLaneSt
  grind [State.Sound, State.regsOk, State.memOk, State.setSpoke_sound]

theorem State.laneOff_sound {s : State} {sp l : Nat} (hs : s.Sound) :
    (s.laneOff sp l).Sound := by
  unfold State.laneOff
  grind [State.Sound, State.regsOk, State.memOk, State.put_sound, State.setBit_sound, State.setLaneSt_sound]

theorem State.holdFoms_sound {s : State} {sp : Nat} (hs : s.Sound) :
    (s.holdFoms sp).Sound := by
  unfold State.holdFoms
  grind [State.Sound, State.regsOk, State.memOk, State.each_sound]

theorem State.agree_sound {s : State} {sp : Nat} (hs : s.Sound) :
    (s.agree sp).Sound := by
  unfold State.agree
  grind [State.Sound, State.regsOk, State.memOk, State.put_sound, State.flag_sound, State.holdFoms_sound]

theorem State.takePeer_sound {s : State} {sp v : Nat} (hs : s.Sound) :
    (s.takePeer sp v).Sound := by
  unfold State.takePeer
  grind [State.put_sound]

theorem State.agreeAll_sound {s : State} (hs : s.Sound) :
    (s.agreeAll).Sound := by
  unfold State.agreeAll
  grind [State.each_sound, State.agree_sound]

theorem State.putSpkCtrl_sound {s : State} {sp : Nat} {value : Word} (hs : s.Sound) :
    (s.putSpkCtrl sp value).Sound := by
  unfold State.putSpkCtrl
  grind [State.Sound, State.regsOk, State.memOk, State.put_sound, State.setSpoke_sound]

theorem execSpokeCtrlWrite_sound {sp : Spoke} {value : Word} {s : State} (hs : s.Sound) :
    ∀ nx, execSpokeCtrlWrite sp value s = .next nx → nx.Sound := by
  unfold execSpokeCtrlWrite
  grind [State.Sound, State.regsOk, State.memOk, State.setReg_sound, State.put_sound, State.each_sound, State.modPart_sound,
    State.settleMis_sound, State.setSpoke_sound, State.laneOff_sound, State.agree_sound, State.putSpkCtrl_sound]

theorem State.takePrbs_sound {s : State} {sp l : Nat} {sync : BitVec 2} {block : BitVec 64} (hs : s.Sound) :
    (s.takePrbs sp l sync block).Sound := by
  unfold State.takePrbs
  grind [State.Sound, State.regsOk, State.memOk, State.bump_sound, State.setLaneSt_sound]

theorem State.matchBlock_sound {s : State} {sp l : Nat} {plain flip : Bool} (hs : s.Sound) :
    (s.matchBlock sp l plain flip).Sound := by
  unfold State.matchBlock
  grind [State.Sound, State.regsOk, State.memOk, State.put_sound, State.flag_sound, State.setBit_sound, State.setLaneSt_sound]

theorem State.takeBlock_sound {s : State} {sp l : Nat} {sync : BitVec 2} {block : BitVec 64} {skew : Nat} (hs : s.Sound) :
    (s.takeBlock sp l sync block skew).Sound := by
  unfold State.takeBlock
  grind [State.Sound, State.regsOk, State.memOk, State.put_sound, State.setSpoke_sound, State.holdFoms_sound, State.agree_sound,
    State.takePeer_sound, State.matchBlock_sound]

theorem execLaneSlip_sound {sp : Spoke} {lane : Fin 8} {s : State} (hs : s.Sound) :
    ∀ nx, execLaneSlip sp lane s = .next nx → nx.Sound := by
  unfold execLaneSlip
  grind [State.put_sound, State.setLaneSt_sound]

theorem State.takeRecord_sound {s : State} {p sp c rec : Nat} (hs : s.Sound) :
    ∀ t, s.takeRecord p sp c rec = some t → t.Sound := by
  unfold State.takeRecord
  dsimp only
  repeat' split
  all_goals grind only [State.Sound, State.regsOk, State.memOk, foldl_sound, State.each_sound, State.modPart_sound]

theorem State.takeRecords_sound {s : State} {p sp c : Nat} {recs : List Nat} (hs : s.Sound) :
    ∀ t, s.takeRecords p sp c recs = some t → t.Sound := by
  unfold State.takeRecords
  intro t ht
  have := foldl_acc (P := fun o : Option State => ∀ u, o = some u → u.Sound) (l := recs)
    (f := fun o rec => o.bind (fun s => s.takeRecord p sp c rec)) (b := some s) (by intro u hu; cases hu; exact hs) (by
      intro o rec ho u hu
      obtain ⟨v, hv, hw⟩ := Option.bind_eq_some_iff.1 hu
      exact State.takeRecord_sound (ho v hv) u hw)
  exact this t ht

theorem State.storeWord_sound {s : State} {p sp n : Nat} {prev : Bool} {w : Unit128 × Unit128} (hs : s.Sound) :
    (s.storeWord p sp n prev w).Sound := by
  unfold State.storeWord
  grind [State.Sound, State.regsOk, State.memOk]

theorem State.takeFrame_sound {s : State} {p sp ready : Nat} {frame : Frame} (hs : s.Sound) :
    (s.takeFrame p sp ready frame).Sound := by
  unfold State.takeFrame
  grind [State.Sound, State.regsOk, State.memOk, State.put_sound, State.each_sound, State.setSpoke_sound, State.spokeFault_sound,
    State.takeRecords_sound, State.storeWord_sound]

theorem State.takeAny_sound {s : State} {p sp ready : Nat} {frame : Frame} (hs : s.Sound) :
    (s.takeAny p sp ready frame).Sound := by
  unfold State.takeAny
  grind [State.Sound, State.regsOk, State.memOk, State.setSpoke_sound, State.spokeFault_sound, State.takeFrame_sound]

theorem execSpkLatClear_sound {sp : Spoke} {s : State} (hs : s.Sound) :
    ∀ nx, execSpkLatClear sp s = .next nx → nx.Sound := by
  unfold execSpkLatClear
  grind [State.put_sound]

/-! ## Load -/

theorem State.refuseLoad_sound {s : State} {p cmd : Nat} {w : Option Waiter} (hs : s.Sound) :
    (s.refuseLoad p cmd w).Sound := by
  unfold State.refuseLoad
  grind [State.Sound, State.regsOk, State.memOk, State.raise_sound, State.finish_sound]

theorem State.loadFrom_sound {s : State} {src : LoadSrc} {op : Nat} {f : State → Nat → Option (Waiter × BitVec 512) → State} (hs : s.Sound) (hf : ∀ t y1 y2, t.Sound → (f t y1 y2).Sound) :
    (s.loadFrom src op f).Sound := by
  unfold State.loadFrom
  grind [State.Sound, State.regsOk, State.memOk, State.cmdFault_sound, State.onCmd_sound]

theorem State.takeWins_sound {s : State} {wins : List HostWin} (hs : s.Sound) :
    (s.takeWins wins).Sound := by
  unfold State.takeWins
  grind [State.Sound, State.regsOk, State.memOk, foldl_sound]

theorem State.putSource_sound {s : State} {p : Nat} {d : BitVec 512} (hs : s.Sound) :
    (s.putSource p d).Sound := by
  unfold State.putSource
  grind [State.put_sound, State.put64_sound]

theorem State.queueJob_sound {s : State} {j : LoadJob} (hs : s.Sound) :
    (s.queueJob j).Sound := by
  unfold State.queueJob
  grind [State.Sound, State.regsOk, State.memOk, State.lockStage_sound, State.setLoader_sound, State.syncQueue_sound]

theorem execLoad_sound {src : LoadSrc} {wins : List HostWin} {s : State} (hs : s.Sound) :
    ∀ nx, execLoad src wins s = .next nx → nx.Sound := by
  unfold execLoad
  grind [State.Sound, State.regsOk, State.memOk, State.put_sound, State.refuseLoad_sound, State.loadFrom_sound, State.takeWins_sound,
    State.putSource_sound, State.queueJob_sound]

theorem execStage_sound {src : LoadSrc} {s : State} (hs : s.Sound) :
    ∀ nx, execStage src s = .next nx → nx.Sound := by
  unfold execStage
  grind [State.Sound, State.regsOk, State.memOk, State.dropStaged_sound, State.refuseLoad_sound, State.loadFrom_sound,
    State.putSource_sound, State.queueJob_sound]

theorem execCommit_sound {src : LoadSrc} {wins : List HostWin} {s : State} (hs : s.Sound) :
    ∀ nx, execCommit src wins s = .next nx → nx.Sound := by
  unfold execCommit
  grind [State.refuseLoad_sound, State.loadFrom_sound, State.takeWins_sound, State.queueJob_sound]

theorem State.dropQueued_sound {s : State} {f : LoadJob → Bool} (hs : s.Sound) :
    (s.dropQueued f).Sound := by
  unfold State.dropQueued
  grind [State.Sound, State.regsOk, State.memOk, State.each_sound, State.finishW_sound, State.unlockJob_sound, State.setLoader_sound,
    State.syncQueue_sound]

theorem execDiscard_sound {src : LoadSrc} {s : State} (hs : s.Sound) :
    ∀ nx, execDiscard src s = .next nx → nx.Sound := by
  unfold execDiscard
  grind [State.Sound, State.regsOk, State.memOk, State.finishW_sound, State.setLoader_sound, State.dropStaged_sound,
    State.loadFrom_sound, State.dropQueued_sound]

theorem State.abandonJob_sound {s : State} {j : LoadJob} {us : Nat} (hs : s.Sound) :
    (s.abandonJob j us).Sound := by
  unfold State.abandonJob
  grind [State.unlockJob_sound, State.jobEnds_sound, State.dropStaged_sound, State.beginEmpty_sound]

theorem execUnload_sound {src : LoadSrc} {s : State} (hs : s.Sound) :
    ∀ nx, execUnload src s = .next nx → nx.Sound := by
  unfold execUnload
  grind [State.Sound, State.regsOk, State.memOk, State.put_sound, State.each_sound, State.modPart_sound, State.finish_sound,
    State.setLoader_sound, State.dropStaged_sound, State.beginEmpty_sound, State.refuseLoad_sound, State.loadFrom_sound,
    State.dropQueued_sound, State.abandonJob_sound]

theorem State.headerPass_sound {s : State} {j : LoadJob} {ecc : RowEcc} {us : Nat} (hs : s.Sound) :
    (s.headerPass j ecc us).Sound := by
  unfold State.headerPass
  dsimp only
  repeat' (with_reducible first | apply ite_sound | split)
  all_goals grind [State.Sound, State.regsOk, State.memOk, State.put_sound, State.stageRead_sound, State.setLoader_sound, State.authFail_sound,
    State.loadFailWhole_sound]

theorem State.writeFault_sound {s : State} {j : LoadJob} {us : Nat} (hs : s.Sound) :
    (s.writeFault j us).Sound := by
  unfold State.writeFault
  grind [State.unlockJob_sound, State.jobEnds_sound, State.dropStaged_sound, State.recordFault_sound, State.holdFault_sound,
    State.beginEmpty_sound]

theorem State.beginCommit_sound {s : State} {j : LoadJob} {us : Nat} (hs : s.Sound) :
    (s.beginCommit j us).Sound := by
  unfold State.beginCommit
  grind [State.Sound, State.regsOk, State.memOk, mwf_mdrop, State.put_sound, State.modPart_sound, State.setLoader_sound,
    State.jobEnds_sound, State.authFail_sound, State.loadFailWhole_sound, State.dropAhead_sound, State.writeFault_sound]

theorem State.takeSpokes_sound {s : State} {p : Nat} {set : List Nat} {m : Nat} {h : Bytes} {fs : Frames} (hs : s.Sound) :
    (s.takeSpokes p set m h fs).Sound := by
  unfold State.takeSpokes
  grind [foldl_sound, State.put_sound, State.settleMis_sound]

theorem State.showImage_sound {s : State} {p m : Nat} {h : Bytes} {fs : Frames} (hs : s.Sound) :
    (s.showImage p m h fs).Sound := by
  unfold State.showImage
  grind [foldl_sound, State.setReg_sound, State.put_sound, State.setBit_sound, State.each_sound, State.setPart_sound,
    State.agreeAll_sound, State.takeSpokes_sound]

theorem State.zeroTurns_sound {s : State} {p : Nat} (hs : s.Sound) :
    (s.zeroTurns p).Sound := by
  unfold State.zeroTurns
  grind [State.put_sound, State.flag_sound, State.zeroCounters_sound]

theorem State.putFlume_sound {s : State} {set : List Nat} {m n : Nat} {fs : Frames} (hs : s.Sound) :
    (s.putFlume set m n fs).Sound := by
  unfold State.putFlume
  grind [State.each_sound, State.railToCeiling_sound, State.putRegion_sound]

theorem State.commitFlume_sound {s : State} {set : List Nat} {m n : Nat} {own old fs : Frames} (hs : s.Sound) :
    (s.commitFlume set m n own old fs).1.Sound := by
  unfold State.commitFlume
  refine foldl_acc (P := fun x : State × List Nat => x.1.Sound) hs (fun c e hc => ?_)
  grind [State.each_sound, State.railToCeiling_sound, State.dropRegion_sound, State.putRegion_sound]

theorem execHoldDoneWrite_sound {hold : Bool} {s : State} (hs : s.Sound) :
    ∀ nx, execHoldDoneWrite hold s = .next nx → nx.Sound := by
  unfold execHoldDoneWrite
  grind [State.flag_sound]

/-! ## Boot -/

theorem State.checkShell_sound {s : State} {rd : Reader} {data : Nat} {kinds : List Nat} (hs : s.Sound) :
    (s.checkShell rd data kinds).1.Sound := by
  unfold State.checkShell
  dsimp only
  repeat' split
  all_goals grind only [State.Sound, State.regsOk, State.memOk, State.put_sound, State.authFail_sound]

theorem State.bootLog_sound {s : State} {source fault : Nat} (hs : s.Sound) :
    (s.bootLog source fault).Sound := by
  unfold State.bootLog
  grind [State.Sound, State.regsOk, State.memOk, State.put_sound, State.flag_sound]

theorem State.startShell_sound {s : State} {h : Bytes} {fs : Frames} {source ms : Nat} (hs : s.Sound) :
    (s.startShell h fs source ms).Sound := by
  unfold State.startShell
  grind [State.Sound, State.regsOk, State.memOk, State.setReg_sound, State.put_sound, State.each_sound, State.setMiller_sound,
    State.hopWrite_sound, State.bootLog_sound]

theorem execBootHopper_sound {ms : BitVec 16} {s : State} (hs : s.Sound) :
    ∀ nx, execBootHopper ms s = .next nx → nx.Sound := by
  unfold execBootHopper
  grind [State.Sound, State.regsOk, State.memOk, State.checkShell_sound, State.bootLog_sound, State.startShell_sound]

theorem State.keyAllowed_sound {s : State} {who : Requester} {f : State → State} (hs : s.Sound) (hf : ∀ t, t.Sound → (f t).Sound) :
    (s.keyAllowed who f).Sound := by
  unfold State.keyAllowed
  grind [State.bump_sound]

theorem State.putKey_sound {s : State} {n : Nat} {k : Option (BitVec 256)} (hs : s.Sound) :
    (s.putKey n k).Sound := by
  unfold State.putKey
  grind [State.Sound, State.regsOk, State.memOk, State.setReg_sound, State.flag_sound, State.setBit_sound]

theorem execKeyWrite_sound {who : Requester} {sel : Fin 8} {s : State} (hs : s.Sound) :
    ∀ nx, execKeyWrite who sel s = .next nx → nx.Sound := by
  unfold execKeyWrite
  grind [State.setReg_sound, State.put_sound, State.bump_sound, State.each_sound, State.keyAllowed_sound, State.putKey_sound]

theorem execKeyZeroise_sound {who : Requester} {sel : Fin 8} {s : State} (hs : s.Sound) :
    ∀ nx, execKeyZeroise who sel s = .next nx → nx.Sound := by
  unfold execKeyZeroise
  grind [State.put_sound, State.keyAllowed_sound, State.putKey_sound]

theorem State.eraseKeys_sound {s : State} (hs : s.Sound) :
    (s.eraseKeys).Sound := by
  unfold State.eraseKeys
  grind [State.setReg_sound, State.put_sound, State.setBit_sound, State.bump_sound, State.each_sound, State.putKey_sound]

theorem execKeyZeroiseAll_sound {who : Requester} {s : State} (hs : s.Sound) :
    ∀ nx, execKeyZeroiseAll who s = .next nx → nx.Sound := by
  unfold execKeyZeroiseAll
  grind [State.keyAllowed_sound, State.eraseKeys_sound]

/-! ## Capture -/

theorem execCaptureEnable_sound {p : Part} {value : Word} {s : State} (hs : s.Sound) :
    ∀ nx, execCaptureEnable p value s = .next nx → nx.Sound := by
  unfold execCaptureEnable
  grind [State.setReg_sound, State.put_sound, State.each_sound, State.setCap_sound, State.capEmit_sound]

theorem execCaptureDisable_sound {p : Part} {s : State} (hs : s.Sound) :
    ∀ nx, execCaptureDisable p s = .next nx → nx.Sound := by
  unfold execCaptureDisable
  grind [State.capStop_sound]

theorem execAcqSwtrig_sound {parts : BitVec 4} {s : State} (hs : s.Sound) :
    ∀ nx, execAcqSwtrig parts s = .next nx → nx.Sound := by
  unfold execAcqSwtrig
  grind [State.each_sound, State.capTrigger_sound, State.capFlow_sound]

theorem State.chunkData_sound {s : State} {ch : Nat} {lines : List Nat} {ecc : RowEcc} (hs : s.Sound) :
    (s.chunkData ch lines ecc).1.Sound := by
  unfold State.chunkData
  exact foldl_acc (P := fun x : State × List Byte => x.1.Sound) hs (fun c e hc => State.busRead_sound hc)

theorem execAcqCntClear_sound {s : State} (hs : s.Sound) :
    ∀ nx, execAcqCntClear s = .next nx → nx.Sound := by
  unfold execAcqCntClear
  grind [State.put_sound, State.each_sound]

/-! ## Dram -/

theorem execDdrcTrain_sound {ch : Chan} {s : State} (hs : s.Sound) :
    ∀ nx, execDdrcTrain ch s = .next nx → nx.Sound := by
  unfold execDdrcTrain
  grind [State.put_sound, State.settleMis_sound, State.setChan_sound, State.setPostponed_sound]

theorem execDdrcOwnWrite_sound {ch : Chan} {hi : Bool} {value : Word} {s : State} (hs : s.Sound) :
    ∀ nx, execDdrcOwnWrite ch hi value s = .next nx → nx.Sound := by
  unfold execDdrcOwnWrite
  grind [State.setReg_sound, State.raise_sound]

theorem State.drainChan_sound {s : State} {c p n : Nat} (hs : s.Sound) : (s.drainChan c p n).Sound := by
  induction n generalizing s with
  | zero => simpa [State.drainChan] using hs
  | succ n ih => unfold State.drainChan; grind [State.setChan_sound, State.dramAdmit_sound]

theorem State.takeLine_sound {s : State} {c line : Nat} {ecc : WordEcc} (hs : s.Sound) :
    (s.takeLine c line ecc).Sound := by
  unfold State.takeLine
  grind [State.Sound, State.regsOk, State.memOk, State.setLineBad_sound, State.dramCe_sound]

theorem State.countLate_sound {s : State} {c : Nat} {r : DramReq} {cycle : Nat} (hs : s.Sound) :
    (s.countLate c r cycle).Sound := by
  unfold State.countLate
  grind [State.Sound, State.regsOk, State.memOk, State.put_sound, State.bump_sound]

theorem State.fetched_sound {s : State} {c : Nat} {r : DramReq} (hs : s.Sound) :
    (s.fetched c r).Sound := by
  unfold State.fetched
  grind [State.Sound, State.regsOk, State.memOk, State.each_sound, State.answer_sound, State.setChan_sound, State.dramUe_sound]

theorem State.readDone_sound {s : State} {c : Nat} {r : DramReq} (hs : s.Sound) :
    (s.readDone c r).Sound := by
  unfold State.readDone
  grind [State.Sound, State.regsOk, State.memOk, State.answer_sound, State.dramUe_sound]

theorem State.closeIdle_sound {s : State} {c : Nat} {closed : List Nat} (hs : s.Sound) :
    (s.closeIdle c closed).Sound := by
  unfold State.closeIdle
  grind [State.Sound, State.regsOk, State.memOk, mwf_mdrop, State.setChan_sound]

theorem State.dimmTemp_sound {s : State} {c t : Nat} (hs : s.Sound) :
    (s.dimmTemp c t).Sound := by
  unfold State.dimmTemp
  grind [State.Sound, State.regsOk, State.memOk, State.put_sound, State.raise_sound, State.setChan_sound]

theorem execDdrcCeClear_sound {ch : Chan} {s : State} (hs : s.Sound) :
    ∀ nx, execDdrcCeClear ch s = .next nx → nx.Sound := by
  unfold execDdrcCeClear
  grind [State.setReg_sound, State.put_sound, State.each_sound]

/-! ## Clk -/

theorem State.setVcore_sound {s : State} {mv : Nat} (hs : s.Sound) :
    (s.setVcore mv).Sound := by
  unfold State.setVcore
  grind [State.Sound, State.regsOk, State.memOk]

theorem State.switchPace_sound {s : State} {p : Nat} (hs : s.Sound) :
    (s.switchPace p).Sound := by
  unfold State.switchPace
  grind [State.Sound, State.regsOk, State.memOk, State.put_sound]

theorem execPaceChange_sound {pace : BitVec 2} {s : State} (hs : s.Sound) :
    ∀ nx, execPaceChange pace s = .next nx → nx.Sound := by
  unfold execPaceChange
  grind [State.Sound, State.regsOk, State.memOk, State.put_sound, State.raise_sound, State.setVcore_sound, State.switchPace_sound]

theorem execClkDdrWrite_sound {speed : Bool} {s : State} (hs : s.Sound) :
    ∀ nx, execClkDdrWrite speed s = .next nx → nx.Sound := by
  unfold execClkDdrWrite
  grind [State.put_sound, State.flag_sound, State.each_sound]

/-! ## SessClose -/

theorem State.releaseCore_sound {s : State} {k : Nat} (hs : s.Sound) :
    (s.releaseCore k).Sound := by
  unfold State.releaseCore
  grind [State.Sound, State.regsOk, State.memOk, State.setReg_sound, State.setBit_sound, State.setMiller_sound, State.setSchedCore_sound,
    State.trcPacket_sound, State.trcRun_sound, State.trcGo_sound]

theorem State.dropCoreOwner_sound {s : State} {k : Nat} (hs : s.Sound) :
    (s.dropCoreOwner k).Sound := by
  unfold State.dropCoreOwner
  grind [State.put_sound]

theorem State.closeSession_sound {s : State} {port reason : Nat} (hs : s.Sound) :
    (s.closeSession port reason).Sound := by
  unfold State.closeSession
  grind [State.Sound, State.regsOk, State.memOk, State.setReg_sound, State.put_sound, State.each_sound, State.raise_sound,
    State.setWatchOwner_sound, State.releaseCore_sound]

/-! ## Session -/

theorem State.onPort_sound {s : State} {who : Requester} {f : State → Nat → State} (hs : s.Sound) (hf : ∀ t y1, t.Sound → (f t y1).Sound) :
    (s.onPort who f).Sound := by
  unfold State.onPort
  grind [State.Sound, State.regsOk, State.memOk]

theorem State.showLockout_sound {s : State} (hs : s.Sound) :
    (s.showLockout).Sound := by
  unfold State.showLockout
  grind [State.put_sound]

theorem State.authFails_sound {s : State} {port reason : Nat} (hs : s.Sound) :
    (s.authFails port reason).Sound := by
  unfold State.authFails
  grind [State.Sound, State.regsOk, State.memOk, State.setBit_sound, State.bump_sound, State.raise_sound, State.setAuthPort_sound,
    State.showLockout_sound]

theorem State.draw_sound {s : State} (hs : s.Sound) :
    (s.draw).2.Sound := by
  unfold State.draw
  grind [State.fresh_sound]

theorem State.dropChallenge_sound {s : State} {port : Nat} (hs : s.Sound) :
    (s.dropChallenge port).Sound := by
  unfold State.dropChallenge
  grind [State.Sound, State.regsOk, State.memOk, State.setBit_sound, State.setAuthPort_sound]

theorem execAuthOpen_sound {who : Requester} {value : Word} {s : State} (hs : s.Sound) :
    ∀ nx, execAuthOpen who value s = .next nx → nx.Sound := by
  unfold execAuthOpen
  grind [State.Sound, State.regsOk, State.memOk, State.put_sound, State.setBit_sound, State.setAuthPort_sound, State.onPort_sound,
    State.authFails_sound, State.draw_sound, State.dropChallenge_sound]

theorem State.writeResp_sound {s : State} {port w : Nat} {value : Word} (hs : s.Sound) :
    (s.writeResp port w value).Sound := by
  unfold State.writeResp
  grind [State.Sound, State.regsOk, State.memOk, State.setAuthPort_sound]

theorem execAuthResponseSubmit_sound {who : Requester} {value : Word} {s : State} (hs : s.Sound) :
    ∀ nx, execAuthResponseSubmit who value s = .next nx → nx.Sound := by
  unfold execAuthResponseSubmit
  grind [State.Sound, State.regsOk, State.memOk, State.setReg_sound, State.put_sound, State.raise_sound, State.edgeOrder_sound,
    State.setAuthPort_sound, State.closeSession_sound, State.onPort_sound, State.authFails_sound, State.dropChallenge_sound,
    State.writeResp_sound]

theorem execAuthClose_sound {who : Requester} {ended : Bool} {s : State} (hs : s.Sound) :
    ∀ nx, execAuthClose who ended s = .next nx → nx.Sound := by
  unfold execAuthClose
  grind [State.closeSession_sound, State.onPort_sound]

/-! ## MillPort -/

theorem State.doorEcc_sound {s : State} {m row : Nat} {e : RowEcc} (hs : s.Sound) :
    (s.doorEcc m row e).Sound := by
  unfold State.doorEcc
  grind [State.bump_sound, State.each_sound, State.setMmMark_sound]

theorem State.doorWatch_sound {s : State} {m a : Nat} {write : Bool} {ctx : Nat} (hs : s.Sound) :
    (s.doorWatch m a write ctx).Sound := by
  unfold State.doorWatch
  grind [State.Sound, State.regsOk, State.memOk, State.watch_sound]

theorem State.doorRead_sound {s : State} {m a n ctx : Nat} {e : RowEcc} (hs : s.Sound) :
    (s.doorRead m a n ctx e).2.2.Sound := by
  unfold State.doorRead
  grind [State.doorEcc_sound, State.doorWatch_sound]

theorem State.doorWrite_sound {s : State} {m a : Nat} {bs : List Byte} {ctx : Nat} {e : RowEcc} (hs : s.Sound) :
    (s.doorWrite m a bs ctx e).2.Sound := by
  unfold State.doorWrite
  grind [State.put_sound, State.each_sound, State.setMmMark_sound, State.mmWrite_sound, State.mmCommit_sound, State.doorEcc_sound,
    State.doorWatch_sound]

/-! ## RunOps -/

theorem State.runRequest_sound {s : State} {p n : Nat} {w : Option Waiter} (hs : s.Sound) :
    (s.runRequest p n w).Sound := by
  unfold State.runRequest
  grind [State.Sound, State.regsOk, State.memOk, State.modPart_sound, State.railsToRun_sound, State.finishW_sound]

theorem State.haltRequest_sound {s : State} {p : Nat} {w : Option Waiter} (hs : s.Sound) :
    (s.haltRequest p w).Sound := by
  unfold State.haltRequest
  grind [State.Sound, State.regsOk, State.memOk, State.modPart_sound, State.haltPulse_sound, State.haltCause_sound]

theorem State.endWaiters_sound {s : State} {p : Nat} {f : Waiter → Bool} {status result : Nat} (hs : s.Sound) :
    (s.endWaiters p f status result).Sound := by
  unfold State.endWaiters
  grind [State.Sound, State.regsOk, State.memOk, State.each_sound, State.modPart_sound, State.result_sound, State.finish_sound]

theorem State.startRun_sound {s : State} {p : Nat} (hs : s.Sound) :
    (s.startRun p).Sound := by
  unfold State.startRun
  grind [State.Sound, State.regsOk, State.memOk, State.put_sound, State.put64_sound, State.modPart_sound, State.faultTurn_sound,
    State.railsRun_sound, State.spokeFault_sound, State.zeroCounters_sound, State.endWaiters_sound]

theorem State.haltNow_sound {s : State} {p : Nat} (hs : s.Sound) :
    (s.haltNow p).Sound := by
  unfold State.haltNow
  grind [State.Sound, State.regsOk, State.memOk, State.put_sound, State.modPart_sound, State.raise_sound, State.railsToFloor_sound,
    State.framesFrom_sound, State.spokeFault_sound, State.endWaiters_sound]

theorem State.closeBanks_sound {s : State} {p : Nat} (hs : s.Sound) :
    (s.closeBanks p).Sound := by
  unfold State.closeBanks
  grind [State.Sound, State.regsOk, State.memOk, State.modPart_sound, State.mergeWrites_sound, State.mmMerge_sound]

theorem State.countTurn_sound {s : State} {p : Nat} {valid : Bool} (hs : s.Sound) :
    (s.countTurn p valid).Sound := by
  unfold State.countTurn
  grind [State.Sound, State.regsOk, State.memOk, State.put_sound, State.flag_sound, State.bump_sound, State.put64_sound,
    State.each_sound, State.modPart_sound]

theorem State.nextTurn_sound {s : State} {p : Nat} (hs : s.Sound) :
    (s.nextTurn p).Sound := by
  unfold State.nextTurn
  grind [State.Sound, State.regsOk, State.memOk, State.modPart_sound, State.clearTurns_sound]

theorem State.countRun_sound {s : State} {p : Nat} (hs : s.Sound) :
    (s.countRun p).2.Sound := by
  unfold State.countRun
  grind [State.put64_sound]

theorem State.endCause_sound {s : State} {p r t : Nat} (hs : s.Sound) :
    (s.endCause p r t).Sound := by
  unfold State.endCause
  grind [State.Sound, State.regsOk, State.memOk, State.modPart_sound]

theorem State.lastStep_sound {s : State} {p : Nat} (hs : s.Sound) :
    (s.lastStep p).Sound := by
  unfold State.lastStep
  grind [State.raiseStoreErr_sound, State.votesDue_sound]

theorem State.turnEnd_sound {s : State} {p : Nat} (hs : s.Sound) :
    (s.turnEnd p).Sound := by
  unfold State.turnEnd
  grind [State.haltPulse_sound, State.capTurnEnd_sound, State.haltNow_sound, State.closeBanks_sound, State.countTurn_sound,
    State.nextTurn_sound, State.countRun_sound, State.endCause_sound, State.lastStep_sound]

/-! ## SluiceOps -/

theorem State.setSluice_sound {s : State} {k : Nat} {x : SluiceSt} (hs : s.Sound) :
    (s.setSluice k x).Sound := by
  unfold State.setSluice
  grind [State.Sound, State.regsOk, State.memOk]

theorem State.slSwap_sound {s : State} {k : Nat} (hs : s.Sound) :
    (s.slSwap k).Sound := by
  unfold State.slSwap
  grind [State.Sound, State.regsOk, State.memOk, State.setSluice_sound]

theorem State.slBegin_sound {s : State} {k : Nat} (hs : s.Sound) :
    (s.slBegin k).Sound := by
  unfold State.slBegin
  grind [State.Sound, State.regsOk, State.memOk, State.setSluice_sound, State.slSwap_sound]

theorem State.notifyTry_sound {s : State} {k : Nat} (hs : s.Sound) :
    (s.notifyTry k).Sound := by
  unfold State.notifyTry
  grind [State.Sound, State.regsOk, State.memOk, State.enqueue_sound, State.setSluice_sound]

theorem State.slArrived_sound {s : State} {k : Nat} {wasEmpty : Bool} (hs : s.Sound) :
    (s.slArrived k wasEmpty).Sound := by
  unfold State.slArrived
  grind [State.slSwap_sound, State.notifyTry_sound]

theorem State.slAdmit_sound {s : State} {k prio len : Nat} {data : List Byte} (hs : s.Sound) :
    (s.slAdmit k prio len data).2.Sound := by
  unfold State.slAdmit
  grind [State.Sound, State.regsOk, State.memOk, State.bump_sound, State.bumpWrap_sound, State.setSluice_sound, State.slArrived_sound]

theorem State.slMore_sound {s : State} {k order : Nat} {bs : List Byte} (hs : s.Sound) :
    (s.slMore k order bs).Sound := by
  unfold State.slMore
  grind [State.Sound, State.regsOk, State.memOk, State.bump_sound, State.setSluice_sound, State.slSwap_sound]

theorem State.slDrop_sound {s : State} {k : Nat} (hs : s.Sound) :
    (s.slDrop k).Sound := by
  unfold State.slDrop
  grind [State.Sound, State.regsOk, State.memOk, State.bump_sound, State.setSluice_sound, State.slSwap_sound]

theorem State.slPiece_sound {s : State} {k n : Nat} (hs : s.Sound) :
    ∀ i w t, s.slPiece k n = some (i, w, t) → t.Sound := by
  unfold State.slPiece
  grind [State.Sound, State.regsOk, State.memOk, State.setSluice_sound, State.slSwap_sound, State.slBegin_sound]

theorem State.slErr_sound {s : State} {k p : Nat} (hs : s.Sound) :
    (s.slErr k p).Sound := by
  unfold State.slErr
  grind [State.put_sound]

end Sys2Proof.Machine
end

