-- ==== Sys2Proof/Laws/SoundDev.lean ====
section
/-!
SUPPORT. Laws/SoundDev.lean: that a sound state stays sound (State.Sound) under the shared operations of debug access, the governor, the scheduler, time, power, resets and runs.
-/
namespace Sys2Proof.Machine

open Sys2Proof

set_option Elab.async false

/-! ## Debug -/

theorem State.onDbg_sound {s : State} {who : Requester} {need : Nat} {part : Option Nat} {off : Nat} {f : State → Nat → State} (hs : s.Sound) (hf : ∀ t y1, t.Sound → (f t y1).Sound) :
    (s.onDbg who need part off f).Sound := by
  unfold State.onDbg
  grind [State.Sound, State.regsOk, State.memOk, State.allowed_sound]

theorem execDbgHaltreqHalt_sound {who : Requester} {p : Part} {s : State} (hs : s.Sound) :
    ∀ nx, execDbgHaltreqHalt who p s = .next nx → nx.Sound := by
  unfold execDbgHaltreqHalt
  grind [State.raise_sound, State.haltRequest_sound, State.onDbg_sound]

theorem State.dbgRun_sound {s : State} {who : Requester} {p req n : Nat} (hs : s.Sound) :
    (s.dbgRun who p req n).Sound := by
  unfold State.dbgRun
  grind [State.Sound, State.regsOk, State.memOk, State.modPart_sound, State.raise_sound, State.runRequest_sound, State.onDbg_sound]

theorem execDbgHaltreqRun_sound {who : Requester} {p : Part} {s : State} (hs : s.Sound) :
    ∀ nx, execDbgHaltreqRun who p s = .next nx → nx.Sound := by
  unfold execDbgHaltreqRun
  grind [State.dbgRun_sound]

theorem execDbgHaltreqStep_sound {who : Requester} {p : Part} {s : State} (hs : s.Sound) :
    ∀ nx, execDbgHaltreqStep who p s = .next nx → nx.Sound := by
  unfold execDbgHaltreqStep
  grind [State.dbgRun_sound]

theorem execDbgBreakenWrite_sound {who : Requester} {value : BitVec 4} {s : State} (hs : s.Sound) :
    ∀ nx, execDbgBreakenWrite who value s = .next nx → nx.Sound := by
  unfold execDbgBreakenWrite
  grind [State.Sound, State.regsOk, State.memOk, State.setBit_sound, State.each_sound, State.modPart_sound, State.allowed_sound,
    State.onDbg_sound]

theorem State.ownerOk_sound {s : State} {port owner off : Nat} {part : Option Nat} {f : State → State} (hs : s.Sound) (hf : ∀ t, t.Sound → (f t).Sound) :
    (s.ownerOk port owner off part f).Sound := by
  unfold State.ownerOk
  grind [State.denied_sound]

theorem State.writeWcfg_sound {s : State} {port : Nat} {value : Word} (hs : s.Sound) :
    (s.writeWcfg port value).Sound := by
  unfold State.writeWcfg
  grind [State.setReg_sound, State.allowed_sound, State.setWatchOwner_sound, State.ownerOk_sound]

theorem execRearm_sound {who : Requester} {s : State} (hs : s.Sound) :
    ∀ nx, execRearm who s = .next nx → nx.Sound := by
  unfold execRearm
  grind [State.Sound, State.regsOk, State.memOk, mwf_mdrop, State.put_sound, State.each_sound, State.onDbg_sound]

theorem State.doorAccess_sound {s : State} {write : Bool} {kind target a : Nat} {data : List Byte} {e : RowEcc} (hs : s.Sound) :
    (s.doorAccess write kind target a data e).2.2.Sound := by
  unfold State.doorAccess
  grind [State.Sound, State.regsOk, State.memOk, State.wakeTo_sound, State.domainUp_sound, State.busCount_sound, State.busAnswered_sound,
    State.busDead_sound, State.busSilent_sound, State.busRead_sound, State.busWrite_sound, State.doorRead_sound, State.doorWrite_sound]

theorem execBackdoorAccess_sound {who : Requester} {value : Word} {e : RowEcc} {s : State} (hs : s.Sound) :
    ∀ nx, execBackdoorAccess who value e s = .next nx → nx.Sound := by
  have refuse : ∀ {t : State} {port part r}, t.Sound → ((t.put F.DBG_BDSTAT_status 3).denied port part R.DBG_BDCTRL r).Sound :=
    fun ht => State.denied_sound (State.put_sound ht)
  unfold execBackdoorAccess
  intro nx hx
  cases hx
  split
  · exact hs
  · refine ite_sound (State.denied_sound hs) ?_
    dsimp only
    have h1 := State.put_sound (f := F.DBG_BDCTRL_target) (v := F.DBG_BDCTRL_target.of value) (State.put_sound (f := F.DBG_BDCTRL_kind)
      (v := F.DBG_BDCTRL_kind.of value) (State.put_sound (f := F.DBG_BDCTRL_write) (v := F.DBG_BDCTRL_write.of value) hs))
    revert h1
    generalize ((s.put F.DBG_BDCTRL_write _).put F.DBG_BDCTRL_kind _).put F.DBG_BDCTRL_target _ = u
    intro h1
    with_reducible refine ite_sound h1 (ite_sound (refuse h1) (ite_sound (State.put_sound h1) (ite_sound (refuse h1) ?_)))
    have h2 := State.doorAccess_sound (write := F.DBG_BDCTRL_write.of value == 1) (kind := F.DBG_BDCTRL_kind.of value)
      (target := F.DBG_BDCTRL_target.of value) (a := u.get F.DBG_BDADDR_LO_addr * 16 + u.get F.DBG_BDADDR_HI_addr_hi * 2 ^ 32)
      (data := (List.range 4).flatMap (fun w => natLe 4 (u.reg (R.DBG_BDDATA w)).toNat)) (e := e) h1
    revert h2
    generalize u.doorAccess _ _ _ _ _ _ = r
    intro h2
    have h3 : ∀ c : Prop, [Decidable c] → (if c then (r.2.2.put F.DBG_BDSTAT_status r.1).each (List.range 4)
        (fun s w => s.setReg (R.DBG_BDDATA w) (BitVec.ofNat 32 (leNat ((r.2.1.drop (4 * w)).take 4)))) else r.2.2.put F.DBG_BDSTAT_status r.1).Sound :=
      fun c _ => ite_sound (State.each_sound (fun t x ht => State.setReg_sound ht) (State.put_sound h2)) (State.put_sound h2)
    split
    · split
      · exact State.capFlow_sound (h3 _)
      · exact h3 _
    · exact h3 _

theorem execSrdataRead_sound {who : Requester} {s : State} (hs : s.Sound) :
    ∀ nx, execSrdataRead who s = .next nx → nx.Sound := by
  unfold execSrdataRead
  grind [State.Sound, State.regsOk, State.memOk, State.setReg_sound, State.put_sound, State.denied_sound]

theorem State.haltCore_sound {s : State} {k cause : Nat} (hs : s.Sound) :
    (s.haltCore k cause).Sound := by
  unfold State.haltCore
  grind [State.Sound, State.regsOk, State.memOk, State.put_sound, State.flag_sound, State.setBit_sound, State.raise_sound,
    State.setMiller_sound, State.trcHold_sound, State.cancelHeld_sound]

theorem State.onCore_sound {s : State} {who : Requester} {off : Nat} {f : State → Nat → Nat → State} (hs : s.Sound) (hf : ∀ t y1 y2, t.Sound → (f t y1 y2).Sound) :
    (s.onCore who off f).Sound := by
  unfold State.onCore
  grind [State.onDbg_sound, State.ownerOk_sound]

theorem execMillerHalt_sound {who : Requester} {s : State} (hs : s.Sound) :
    ∀ nx, execMillerHalt who s = .next nx → nx.Sound := by
  unfold execMillerHalt
  grind [State.put_sound, State.haltCore_sound, State.onCore_sound]

theorem execMillerResume_sound {who : Requester} {s : State} (hs : s.Sound) :
    ∀ nx, execMillerResume who s = .next nx → nx.Sound := by
  unfold execMillerResume
  grind [State.releaseCore_sound, State.dropCoreOwner_sound, State.onCore_sound]

theorem execMillerStep_sound {who : Requester} {s : State} (hs : s.Sound) :
    ∀ nx, execMillerStep who s = .next nx → nx.Sound := by
  unfold execMillerStep
  grind [State.Sound, State.regsOk, State.memOk, State.setMiller_sound, State.setSchedCore_sound, State.onCore_sound]

theorem State.writeMrcfg_sound {s : State} {who : Requester} {value : Word} (hs : s.Sound) :
    (s.writeMrcfg who value).Sound := by
  unfold State.writeMrcfg
  grind [State.Sound, State.regsOk, State.memOk, State.setReg_sound, State.put_sound, State.dropCoreOwner_sound, State.ownerOk_sound,
    State.onCore_sound]

/-! ## Gov -/

theorem State.dramAdjusted_sound {s : State} {c n loop before after : Nat} (hs : s.Sound) :
    (s.dramAdjusted c n loop before after).Sound := by
  unfold State.dramAdjusted
  grind [State.bump_sound, State.govLog_sound]

theorem State.dramSkipped_sound {s : State} {c : Nat} (hs : s.Sound) :
    (s.dramSkipped c).Sound := by
  unfold State.dramSkipped
  grind [State.bump_sound, State.bumpWrap_sound]

theorem State.showEye_sound {s : State} {c n : Nat} {m : LaneMeas} (hs : s.Sound) :
    (s.showEye c n m).Sound := by
  unfold State.showEye
  grind [State.put_sound]

theorem State.moveCentre_sound {s : State} {c n : Nat} {m : LaneMeas} (hs : s.Sound) :
    ∀ t, s.moveCentre c n m = some t → t.Sound := by
  unfold State.moveCentre
  grind [State.put_sound, State.dramAdjusted_sound]

theorem State.moveVref_sound {s : State} {c n : Nat} {m : LaneMeas} (hs : s.Sound) :
    ∀ t, s.moveVref c n m = some t → t.Sound := by
  unfold State.moveVref
  grind [State.put_sound, State.dramAdjusted_sound]

theorem State.moveDelay_sound {s : State} {c n osc : Nat} (hs : s.Sound) :
    ∀ t, s.moveDelay c n osc = some t → t.Sound := by
  unfold State.moveDelay
  grind [State.Sound, State.regsOk, State.memOk, State.put_sound, State.dramAdjusted_sound]

theorem State.moveLane_sound {s : State} {c n : Nat} {m : LaneMeas} (hs : s.Sound) :
    (s.moveLane c n m).Sound := by
  have cut : ∀ {b : Bool} {o : Option State}, (∀ t, o = some t → t.Sound) → ∀ t, (if b then o else none) = some t → t.Sound := by
    intro b o h t ht
    split at ht
    · exact h t ht
    · cases ht
  have orKeep : ∀ {o : Option State}, (∀ t, o = some t → t.Sound) → (o.getD s).Sound := by
    intro o h
    cases o with
    | none => exact hs
    | some t => exact h t rfl
  unfold State.moveLane
  refine ite_sound hs ?_
  dsimp only
  split
  · exact cut (State.moveCentre_sound hs) _ (by assumption)
  · exact cut (State.moveVref_sound hs) _ (by assumption)
  · exact orKeep (State.moveDelay_sound hs)
  · exact hs

theorem State.laneLog_sound {s : State} {n loop before after : Nat} (hs : s.Sound) :
    (s.laneLog n loop before after).Sound := by
  unfold State.laneLog
  grind [State.govLog_sound]

theorem State.trim_sound {s : State} {q : Nat} (hs : s.Sound) :
    (s.trim q).Sound := by
  unfold State.trim
  grind [State.Sound, State.regsOk, State.memOk, State.setFlumeTarget_sound, State.raiseFlume_sound]

theorem State.accrue_sound {s : State} {p c : Nat} (hs : s.Sound) :
    (s.accrue p c).Sound := by
  unfold State.accrue
  grind [State.Sound, State.regsOk, State.memOk]

theorem State.setHold_sound {s : State} {h : Nat} (hs : s.Sound) :
    (s.setHold h).Sound := by
  unfold State.setHold
  grind [State.put_sound, State.govLog_sound]

theorem State.takeRail_sound {s : State} {r : Nat} {x : RailRead} (hs : s.Sound) :
    (s.takeRail r x).Sound := by
  unfold State.takeRail
  grind [State.Sound, State.regsOk, State.memOk, State.put_sound, State.setBit_sound]

theorem State.capOff_sound {s : State} {cycles : List Nat} (hs : s.Sound) :
    (s.capOff cycles).Sound := by
  unfold State.capOff
  grind [State.Sound, State.regsOk, State.memOk, State.each_sound, State.accrue_sound, State.setHold_sound]

theorem execGovFreeze_sound {on : Bool} {s : State} (hs : s.Sound) :
    ∀ nx, execGovFreeze on s = .next nx → nx.Sound := by
  unfold execGovFreeze
  grind [State.flag_sound, State.each_sound, State.railsInRange_sound, State.newWindow_sound, State.settleFreeze_sound]

theorem execGovVflumeWrite_sound {q : Quad} {value : Word} {s : State} (hs : s.Sound) :
    ∀ nx, execGovVflumeWrite q value s = .next nx → nx.Sound := by
  unfold execGovVflumeWrite
  grind [State.setFlumeTarget_sound]

/-! ## Hopper -/

theorem State.handover_sound {s : State} {who : Requester} {bank owner : Nat} {scrub : Bool} (hs : s.Sound) :
    (s.handover who bank owner scrub).Sound := by
  unfold State.handover
  grind [State.Sound, State.regsOk, State.memOk, State.setBit_sound, State.raise_sound]

theorem execHopCntClear_sound {s : State} (hs : s.Sound) :
    ∀ nx, execHopCntClear s = .next nx → nx.Sound := by
  unfold execHopCntClear
  grind [State.setReg_sound, State.put_sound, State.each_sound]

theorem execSchedCntClear_sound {s : State} (hs : s.Sound) :
    ∀ nx, execSchedCntClear s = .next nx → nx.Sound := by
  unfold execSchedCntClear
  grind [State.setReg_sound, State.put_sound, State.each_sound]

theorem State.releaseDue_sound {ds : List DelayItem} {s : State} (hs : s.Sound) : (State.releaseDue ds s).1.Sound := by
  induction ds generalizing s with
  | nil => simpa [State.releaseDue] using hs
  | cons d ds ih => unfold State.releaseDue; grind [State.Sound, State.regsOk, State.memOk, State.readyItem_sound]

theorem State.resetCore_sound {s : State} {k : Nat} (hs : s.Sound) :
    (s.resetCore k).Sound := by
  unfold State.resetCore
  grind [State.setMiller_sound]

theorem execWatchdogKick_sound {k : Core} {s : State} (hs : s.Sound) :
    ∀ nx, execWatchdogKick k s = .next nx → nx.Sound := by
  unfold execWatchdogKick
  grind [State.Sound, State.regsOk, State.memOk, State.setSchedCore_sound]

theorem State.retired_sound {s : State} {k n : Nat} (hs : s.Sound) :
    (s.retired k n).Sound := by
  unfold State.retired
  grind [State.Sound, State.regsOk, State.memOk, State.setMiller_sound]

theorem State.wakeCore_sound {s : State} {k : Nat} (hs : s.Sound) :
    (s.wakeCore k).Sound := by
  unfold State.wakeCore
  grind [State.Sound, State.regsOk, State.memOk, State.setMiller_sound, State.retired_sound]

theorem State.mdflush_sound {s : State} {k : Nat} {addr : BitVec 64} (hs : s.Sound) :
    (s.mdflush k addr).Sound := by
  unfold State.mdflush
  grind [State.Sound, State.regsOk, State.memOk, State.setMiller_sound]

theorem execMillerRelease_sound {k : Core} {s : State} (hs : s.Sound) :
    ∀ nx, execMillerRelease k s = .next nx → nx.Sound := by
  unfold execMillerRelease
  grind [State.put_sound, State.resetCore_sound]

theorem State.setPort_sound {s : State} {k w : Nat} {v : BitVec 64} (hs : s.Sound) :
    (s.setPort k w v).Sound := by
  unfold State.setPort
  grind [State.Sound, State.regsOk, State.memOk]

theorem State.portEnqueue_sound {s : State} {k : Nat} {full : Bool} (hs : s.Sound) :
    (s.portEnqueue k full).2.Sound := by
  unfold State.portEnqueue
  grind [State.enqueue_sound]

theorem State.portPut_sound {s : State} {k : Nat} (hs : s.Sound) :
    (s.portPut k).2.Sound := by
  unfold State.portPut
  grind [State.Sound, State.regsOk, State.memOk, State.slAdmit_sound]

theorem State.portGet_sound {s : State} {k : Nat} {poll : Bool} (hs : s.Sound) :
    ∀ w t, s.portGet k poll = some (w, t) → t.Sound := by
  unfold State.portGet
  grind [State.Sound, State.regsOk, State.memOk, State.hopWrite_sound, State.slDrop_sound, State.slPiece_sound]

/-! ## MilCsr -/

theorem State.setCsrRaw_sound {s : State} {k n : Nat} {v : BitVec 64} (hs : s.Sound) :
    (s.setCsrRaw k n v).Sound := by
  unfold State.setCsrRaw
  grind [State.Sound, State.regsOk, State.memOk, State.setMiller_sound]

theorem State.pmpWriteCfg_sound {s : State} {k n : Nat} {v : BitVec 64} (hs : s.Sound) :
    (s.pmpWriteCfg k n v).Sound := by
  unfold State.pmpWriteCfg
  grind [foldl_sound, State.setCsrRaw_sound]

theorem State.pmpWriteAddr_sound {s : State} {k i : Nat} {v : BitVec 64} (hs : s.Sound) :
    (s.pmpWriteAddr k i v).Sound := by
  unfold State.pmpWriteAddr
  grind [State.setCsrRaw_sound]

theorem State.csrRead_sound {s : State} {k n : Nat} (hs : s.Sound) :
    ∀ w t, s.csrRead k n = some (w, t) → t.Sound := by
  unfold State.csrRead
  grind [Option.map_eq_some_iff, State.takeItem_sound]

theorem State.csrWrite_sound {s : State} {k n : Nat} {v : BitVec 64} {cycles retired : Nat} (hs : s.Sound) :
    (s.csrWrite k n v cycles retired).Sound := by
  unfold State.csrWrite
  dsimp only
  repeat' (with_reducible apply ite_sound)
  all_goals grind [State.Sound, State.regsOk, State.memOk, State.itemEnds_sound, State.handover_sound, State.retired_sound, State.mdflush_sound,
    State.setCsrRaw_sound, State.pmpWriteCfg_sound, State.pmpWriteAddr_sound]

theorem State.trapMiller_sound {s : State} {k cause : Nat} {intr : Bool} {tval : BitVec 64} (hs : s.Sound) :
    (s.trapMiller k cause intr tval).Sound := by
  unfold State.trapMiller
  grind [State.Sound, State.regsOk, State.memOk, foldl_sound, State.setMiller_sound, State.trcPacket_sound, State.trcRun_sound]

theorem State.mretMiller_sound {s : State} {k : Nat} (hs : s.Sound) :
    (s.mretMiller k).Sound := by
  unfold State.mretMiller
  grind [State.Sound, State.regsOk, State.memOk, State.setMiller_sound]

/-! ## Time -/

theorem State.setBase_sound {s : State} {k : Nat} {c : Int} (hs : s.Sound) :
    (s.setBase k c).Sound := by
  unfold State.setBase
  grind [State.Sound, State.regsOk, State.memOk]

theorem State.setSlew_sound {s : State} {k : Nat} {v : Int} (hs : s.Sound) :
    (s.setSlew k v).Sound := by
  unfold State.setSlew
  grind [State.Sound, State.regsOk, State.memOk]

theorem State.tick_sound {s : State} (hs : s.Sound) :
    (s.tick).Sound := by
  unfold State.tick
  grind [State.each_sound, State.setBase_sound, State.setSlew_sound]

theorem State.setPgNext_sound {s : State} {g v : Nat} (hs : s.Sound) :
    (s.setPgNext g v).Sound := by
  unfold State.setPgNext
  grind [State.Sound, State.regsOk, State.memOk]

theorem State.setPulse_sound {s : State} {g : Nat} {b : Bool} (hs : s.Sound) :
    (s.setPulse g b).Sound := by
  unfold State.setPulse
  grind [State.Sound, State.regsOk, State.memOk]

theorem State.pgFire_sound {s : State} {g : Nat} (hs : s.Sound) :
    (s.pgFire g).Sound := by
  unfold State.pgFire
  grind [State.put_sound, State.setBit_sound, State.raiseIrq_sound, State.setPgNext_sound, State.setPulse_sound]

theorem State.pgStep_sound {s : State} {k : Nat} (hs : s.Sound) :
    (s.pgStep k).Sound := by
  unfold State.pgStep
  refine State.each_sound (fun t g ht => ?_) hs
  repeat' split
  · exact State.pgFire_sound ht
  · exact ht
  · exact State.setPgNext_sound ht

theorem execTbStepSubmit_sound {who : Requester} {k : Fin 3} {hi : Word} {s : State} (hs : s.Sound) :
    ∀ nx, execTbStepSubmit who k hi s = .next nx → nx.Sound := by
  unfold execTbStepSubmit
  grind [State.setReg_sound, State.put_sound, State.bump_sound, State.raise_sound, State.setBase_sound, State.setSlew_sound,
    State.pgStep_sound]

theorem execTbUnanchor_sound {who : Requester} {k : Fin 3} {s : State} (hs : s.Sound) :
    ∀ nx, execTbUnanchor who k s = .next nx → nx.Sound := by
  unfold execTbUnanchor
  grind [State.put_sound]

theorem execTbRateWrite_sound {who : Requester} {k : Fin 3} {value : Word} {s : State} (hs : s.Sound) :
    ∀ nx, execTbRateWrite who k value s = .next nx → nx.Sound := by
  unfold execTbRateWrite
  grind [State.setReg_sound, State.flag_sound]

theorem State.ptpStamp_sound {s : State} {tx : Bool} {m : PtpMsg} (hs : s.Sound) :
    (s.ptpStamp tx m).Sound := by
  unfold State.ptpStamp
  grind [State.Sound, State.regsOk, State.memOk, State.bump_sound, State.put64_sound]

theorem execPtpTspop_sound {dir : Bool} {s : State} (hs : s.Sound) :
    ∀ nx, execPtpTspop dir s = .next nx → nx.Sound := by
  unfold execPtpTspop
  grind [State.Sound, State.regsOk, State.memOk, State.setReg_sound, State.put_sound, State.flag_sound, State.put64_sound]

theorem execPtpCntClear_sound {s : State} (hs : s.Sound) :
    ∀ nx, execPtpCntClear s = .next nx → nx.Sound := by
  unfold execPtpCntClear
  grind [State.setReg_sound, State.each_sound]

/-! ## Pins -/

theorem State.writeMasked_sound {s : State} {a : Nat} {mask v : Word} (hs : s.Sound) :
    (s.writeMasked a mask v).Sound := by
  unfold State.writeMasked
  grind [State.setReg_sound]

theorem State.gpioWrite_sound {s : State} {who : Requester} {n : Nat} {v : Word} (hs : s.Sound) :
    (s.gpioWrite who n v).Sound := by
  unfold State.gpioWrite
  grind [State.bump_sound, State.startSeq_sound, State.writeMasked_sound]

theorem State.gpioBit_sound {s : State} {who : Requester} {oe : Bool} {n : Nat} {b : Bool} (hs : s.Sound) :
    (s.gpioBit who oe n b).Sound := by
  unfold State.gpioBit
  grind [State.setBit_sound, State.bump_sound]

theorem State.tioWrite_sound {s : State} {who : Requester} {p : Nat} {v : Word} (hs : s.Sound) :
    (s.tioWrite who p v).Sound := by
  unfold State.tioWrite
  grind [State.bump_sound, State.startSeq_sound, State.writeMasked_sound]

theorem State.tioBit_sound {s : State} {who : Requester} {p : Nat} {b : Bool} (hs : s.Sound) :
    (s.tioBit who p b).Sound := by
  unfold State.tioBit
  grind [State.setBit_sound, State.bump_sound]

theorem State.applyPin_sound {s : State} {w : PinWrite} (hs : s.Sound) :
    (s.applyPin w).Sound := by
  unfold State.applyPin
  grind [State.Sound, State.regsOk, State.memOk, State.gpioWrite_sound, State.gpioBit_sound, State.tioWrite_sound, State.tioBit_sound]

theorem State.pinWrite_sound {s : State} {w : PinWrite} (hs : s.Sound) :
    (s.pinWrite w).Sound := by
  unfold State.pinWrite
  grind [State.Sound, State.regsOk, State.memOk, State.applyPin_sound]

theorem State.pinTick_sound {s : State} (hs : s.Sound) :
    (s.pinTick).Sound := by
  unfold State.pinTick
  grind [State.Sound, State.regsOk, State.memOk, State.each_sound, State.pinWrite_sound]

theorem execPinFunctionChange_sound {who : Requester} {pin : Fin 48} {value : Word} {s : State} (hs : s.Sound) :
    ∀ nx, execPinFunctionChange who pin value s = .next nx → nx.Sound := by
  unfold execPinFunctionChange
  grind [State.pinWrite_sound]

theorem execGpioOutWrite_sound {who : Requester} {oe : Bool} {g : Fin 3} {mask value : BitVec 16} {s : State} (hs : s.Sound) :
    ∀ nx, execGpioOutWrite who oe g mask value s = .next nx → nx.Sound := by
  unfold execGpioOutWrite
  grind [State.each_sound, State.pinWrite_sound]

theorem State.tioOutWrite_sound {s : State} {who : Requester} {i : Nat} {mask value : BitVec 16} (hs : s.Sound) :
    (s.tioOutWrite who i mask value).Sound := by
  unfold State.tioOutWrite
  grind [State.each_sound, State.pinWrite_sound]

theorem execTioModeChange_sound {who : Requester} {pin : Fin 160} {value : Word} {s : State} (hs : s.Sound) :
    ∀ nx, execTioModeChange who pin value s = .next nx → nx.Sound := by
  unfold execTioModeChange
  grind [State.pinWrite_sound]

theorem State.noticeEdge_sound {s : State} {n : Nat} (hs : s.Sound) :
    (s.noticeEdge n).Sound := by
  unfold State.noticeEdge
  grind [State.Sound, State.regsOk, State.memOk, State.setBit_sound]

theorem State.edgeTick_sound {s : State} (hs : s.Sound) :
    (s.edgeTick).Sound := by
  unfold State.edgeTick
  grind [State.each_sound, State.noticeEdge_sound]

theorem execTioBankEnable_sound {bank : Fin 5} {value : Word} {s : State} (hs : s.Sound) :
    ∀ nx, execTioBankEnable bank value s = .next nx → nx.Sound := by
  unfold execTioBankEnable
  grind [State.put_sound, State.bump_sound]

theorem execGpioCntClear_sound {s : State} (hs : s.Sound) :
    ∀ nx, execGpioCntClear s = .next nx → nx.Sound := by
  unfold execGpioCntClear
  grind [State.setReg_sound, State.put_sound]

theorem execTioCntClear_sound {s : State} (hs : s.Sound) :
    ∀ nx, execTioCntClear s = .next nx → nx.Sound := by
  unfold execTioCntClear
  grind [State.setReg_sound]

theorem execFlmProbeEnable_sound {by_ : Requester} {c : Fin 64} {value : Word} {s : State} (hs : s.Sound) :
    ∀ nx, execFlmProbeEnable by_ c value s = .next nx → nx.Sound := by
  unfold execFlmProbeEnable
  grind [State.Sound, State.regsOk, State.memOk, State.setReg_sound, State.raise_sound]

/-! ## Power -/

theorem State.powFault_sound {s : State} {kind u : Nat} (hs : s.Sound) :
    (s.powFault kind u).Sound := by
  unfold State.powFault
  grind [State.put_sound]

theorem State.powEvent_sound {s : State} {code u : Nat} (hs : s.Sound) :
    (s.powEvent code u).Sound := by
  unfold State.powEvent
  grind [State.raise_sound]

theorem State.loseRow_sound {s : State} {u : Nat} {off : Bool} (hs : s.Sound) :
    (s.loseRow u off).Sound := by
  unfold State.loseRow
  grind [State.Sound, State.regsOk, State.memOk, mwf_mdrop]

theorem State.spaceFlume_sound {s : State} {q : Nat} (hs : s.Sound) :
    (s.spaceFlume q).Sound := by
  unfold State.spaceFlume
  grind [State.Sound, State.regsOk, State.memOk, State.land_sound]

theorem State.loseDram_sound {s : State} {g : Nat} (hs : s.Sound) :
    (s.loseDram g).Sound := by
  unfold State.loseDram
  grind [State.Sound, State.regsOk, State.memOk, mwf_mdrop, State.put_sound, State.each_sound, State.setChan_sound,
    State.setPostponed_sound]

theorem State.loseSpokes_sound {s : State} {g : Nat} (hs : s.Sound) :
    (s.loseSpokes g).Sound := by
  unfold State.loseSpokes
  grind [State.Sound, State.regsOk, State.memOk, mwf_mdrop, State.setReg_sound, State.each_sound, State.setSpoke_sound]

theorem State.enterState_sound {s : State} {u st : Nat} (hs : s.Sound) :
    (s.enterState u st).Sound := by
  unfold State.enterState
  grind [State.each_sound, State.chanSleeps_sound, State.clearFlume_sound, State.loseRow_sound, State.spaceFlume_sound,
    State.loseDram_sound, State.loseSpokes_sound]

theorem State.lowerTo_sound {s : State} {u st : Nat} (hs : s.Sound) :
    (s.lowerTo u st).Sound := by
  unfold State.lowerTo
  grind [State.put_sound, State.bump_sound, State.bumpWrap_sound, State.settleMis_sound, State.enterState_sound]

theorem execPwrForceWrite_sound {d : Fin 48} {value : Word} {s : State} (hs : s.Sound) :
    ∀ nx, execPwrForceWrite d value s = .next nx → nx.Sound := by
  unfold execPwrForceWrite
  dsimp only
  repeat' split
  all_goals grind only [State.Sound, State.regsOk, State.memOk, State.put_sound, State.modPart_sound, State.edgeOrder_sound, State.settleMis_sound,
    State.wakeTo_sound, State.powFault_sound, State.powEvent_sound, State.lowerTo_sound]

theorem execPwrCntClear_sound {s : State} (hs : s.Sound) :
    ∀ nx, execPwrCntClear s = .next nx → nx.Sound := by
  unfold execPwrCntClear
  grind [State.put_sound, State.each_sound]

theorem State.showTemps_sound {s : State} (hs : s.Sound) :
    (s.showTemps).Sound := by
  unfold State.showTemps
  grind [foldl_sound, State.put_sound, State.flag_sound]

theorem State.takeTemp_sound {s : State} {i t : Nat} (hs : s.Sound) :
    (s.takeTemp i t).Sound := by
  unfold State.takeTemp
  grind [State.Sound, State.regsOk, State.memOk, State.put_sound, State.raise_sound, State.showTemps_sound]

theorem execSensPeakClear_sound {s : State} (hs : s.Sound) :
    ∀ nx, execSensPeakClear s = .next nx → nx.Sound := by
  unfold execSensPeakClear
  grind [State.put_sound]

/-! ## Rings -/

theorem State.pcieErr_sound {s : State} {e : PcieErr} (hs : s.Sound) :
    (s.pcieErr e).Sound := by
  unfold State.pcieErr
  grind [State.setReg_sound, State.put_sound]

theorem State.fetchFault_sound {s : State} {n : Nat} {e : PcieErr} (hs : s.Sound) :
    (s.fetchFault n e).Sound := by
  unfold State.fetchFault
  grind [State.ringFault_sound, State.pcieErr_sound]

theorem State.takeCount_sound {s : State} {n new : Nat} (hs : s.Sound) :
    (s.takeCount n new).Sound := by
  unfold State.takeCount
  dsimp only
  repeat' split
  all_goals grind only [State.Sound, State.regsOk, State.memOk, State.setRing_sound, State.ringFault_sound]

theorem State.takeSluice_sound {s : State} {k : Nat} {w : Word} (hs : s.Sound) :
    (s.takeSluice k w).Sound := by
  unfold State.takeSluice
  grind [State.Sound, State.regsOk, State.memOk, State.setRing_sound, State.ringFault_sound]

theorem State.tellRing_sound {s : State} {snap : List (Nat × Nat)} {n : Nat} (hs : s.Sound) :
    (s.tellRing snap n).Sound := by
  unfold State.tellRing
  grind [State.Sound, State.regsOk, State.memOk, State.setRing_sound, State.ringMsg_sound]

theorem State.settleHrdy_sound {s : State} {snap : List (Nat × Nat)} (hs : s.Sound) :
    (s.settleHrdy snap).Sound := by
  unfold State.settleHrdy
  grind [foldl_sound, State.put_sound, State.tellRing_sound]

theorem State.copyStart_sound {s : State} {ring op : Nat} (hs : s.Sound) :
    (s.copyStart ring op).Sound := by
  unfold State.copyStart
  grind [State.finish_sound, State.cmdFault_sound, State.onCmd_sound]

theorem State.copyEnd_sound {s : State} {ring serial : Nat} {d : BitVec 512} {moved status : Nat} (hs : s.Sound) :
    (s.copyEnd ring serial d moved status).Sound := by
  unfold State.copyEnd
  grind [State.finish_sound, State.cmdFault_sound]

theorem execRingEnable_sound {n : Fin 13} {value : Word} {s : State} (hs : s.Sound) :
    ∀ nx, execRingEnable n value s = .next nx → nx.Sound := by
  unfold execRingEnable
  grind [State.setReg_sound, State.put_sound, State.setBit_sound, State.setRing_sound, State.postHeld_sound]

theorem execRingEngineEnable_sound {en : Bool} {wins : List HostWin} {s : State} (hs : s.Sound) :
    ∀ nx, execRingEngineEnable en wins s = .next nx → nx.Sound := by
  unfold execRingEngineEnable
  grind [State.Sound, State.regsOk, State.memOk, State.setReg_sound, State.put_sound, State.takeWins_sound]

theorem State.dropRings_sound {s : State} (hs : s.Sound) :
    (s.dropRings).Sound := by
  unfold State.dropRings
  grind [State.Sound, State.regsOk, State.memOk, State.each_sound, State.setRing_sound, State.fetched_sound]

theorem State.linkDown_sound {s : State} (hs : s.Sound) :
    (s.linkDown).Sound := by
  unfold State.linkDown
  grind [State.setReg_sound, State.put_sound, State.bump_sound, State.each_sound, State.raise_sound, State.closeSession_sound,
    State.dropRings_sound]

theorem State.bar4Fail_sound {s : State} {off c a len status : Nat} {read : Bool} (hs : s.Sound) :
    (s.bar4Fail off c a len status read).Sound := by
  unfold State.bar4Fail
  grind [State.Sound, State.regsOk, State.memOk, State.bump_sound, State.raise_sound]

theorem State.bar4Answer_sound {s : State} {tag status : Nat} {data : List Byte} {read : Bool} (hs : s.Sound) :
    (s.bar4Answer tag status data read).Sound := by
  unfold State.bar4Answer
  grind [State.Sound, State.regsOk, State.memOk, State.bar4Fail_sound]

/-! ## Sluice -/

theorem execSluiceEnable_sound {k : Sluice} {value : Word} {s : State} (hs : s.Sound) :
    ∀ nx, execSluiceEnable k value s = .next nx → nx.Sound := by
  unfold execSluiceEnable
  grind [State.setReg_sound, State.put_sound, State.each_sound, State.setSluice_sound]

theorem execSluiceDisable_sound {k : Sluice} {s : State} (hs : s.Sound) :
    ∀ nx, execSluiceDisable k s = .next nx → nx.Sound := by
  unfold execSluiceDisable
  grind [State.put_sound, State.setSluice_sound]

theorem State.sluiceRd_sound {s : State} {h : Unit128} (hs : s.Sound) :
    (s.sluiceRd h).Sound := by
  unfold State.sluiceRd
  grind [State.Sound, State.regsOk, State.memOk, State.answer_sound, State.setSluice_sound, State.slErr_sound]

theorem State.sluiceWr_sound {s : State} {pk : Pkt} (hs : s.Sound) :
    (s.sluiceWr pk).Sound := by
  unfold State.sluiceWr
  grind [State.Sound, State.regsOk, State.memOk, State.faultTurn_sound, State.setSluice_sound, State.slErr_sound]

theorem State.freeUnits_sound {s : State} {pk : Pkt} (hs : s.Sound) :
    (s.freeUnits pk).2.Sound := by
  unfold State.freeUnits
  refine foldl_acc (P := fun x : List Unit128 × State => x.2.Sound) hs (fun c e hc => ?_)
  dsimp only
  split
  · exact State.fresh_sound (k := 6) (State.fresh_sound (k := 6) hc)
  · exact hc

theorem State.sluiceServe_sound {s : State} {k : Nat} {h : Unit128} (hs : s.Sound) :
    ∀ t, s.sluiceServe k h = some t → t.Sound := by
  unfold State.sluiceServe
  grind [State.Sound, State.regsOk, State.memOk, State.answer_sound, State.slDrop_sound, State.slPiece_sound, State.slErr_sound]

theorem State.slHeadDrops_sound {s : State} {k : Nat} (hs : s.Sound) :
    (s.slHeadDrops k).Sound := by
  unfold State.slHeadDrops
  grind [State.Sound, State.regsOk, State.memOk, State.setSluice_sound, State.slDrop_sound]

theorem State.slWriteBack_sound {s : State} {k : Nat} {body : List Byte} {status : Nat} (hs : s.Sound) :
    (s.slWriteBack k body status).Sound := by
  unfold State.slWriteBack
  grind [State.Sound, State.regsOk, State.memOk, State.setRing_sound, State.hostWrite_sound]

theorem State.slBadDesc_sound {s : State} {k : Nat} (hs : s.Sound) :
    (s.slBadDesc k).Sound := by
  unfold State.slBadDesc
  grind [State.raise_sound, State.slWriteBack_sound]

theorem State.hostDrop_sound {s : State} {k : Nat} (hs : s.Sound) :
    (s.hostDrop k).Sound := by
  unfold State.hostDrop
  grind [State.Sound, State.regsOk, State.memOk, State.slDrop_sound, State.slWriteBack_sound]

theorem execSlcCmdDrop_sound {k : Sluice} {s : State} (hs : s.Sound) :
    ∀ nx, execSlcCmdDrop k s = .next nx → nx.Sound := by
  unfold execSlcCmdDrop
  grind [State.slDrop_sound, State.hostDrop_sound]

theorem execSlcCntClear_sound {s : State} (hs : s.Sound) :
    ∀ nx, execSlcCntClear s = .next nx → nx.Sound := by
  unfold execSlcCntClear
  grind [State.setReg_sound, State.each_sound]

/-! ## Reset -/

theorem State.noteReset_sound {s : State} {cause writer : Nat} (hs : s.Sound) :
    (s.noteReset cause writer).Sound := by
  unfold State.noteReset
  grind [State.setReg_sound, State.put_sound, State.bump_sound, State.each_sound]

theorem State.noteSessions_sound {s old : State} (hs : s.Sound) (hs1 : old.Sound) :
    (s.noteSessions old).Sound := by
  unfold State.noteSessions
  grind [State.each_sound, State.raise_sound]

theorem State.coldReset_sound {s : State} {cause writer stage : Nat} (hs : s.Sound) :
    (s.coldReset cause writer stage).Sound := by
  unfold State.coldReset
  dsimp only
  refine State.noteSessions_sound (State.noteReset_sound (State.put_sound (State.setReg_sound (State.setReg_sound (State.setReg_sound ?_))))) hs
  exact ⟨keepRegs_wf, rfl⟩

theorem State.warmReset_sound {s : State} {writer : Nat} (hs : s.Sound) :
    (s.warmReset writer).Sound := by
  unfold State.warmReset
  dsimp only
  refine State.noteSessions_sound (State.noteReset_sound (State.put_sound (State.setReg_sound (State.setReg_sound
    (State.each_sound (fun t p ht => State.setReg_sound ht) (State.each_sound (fun t c ht => State.setReg_sound (State.setReg_sound ht)) ?_)))))) hs
  exact ⟨keepRegs_wf, by have := hs.2; simp only [State.memOk, Bool.and_eq_true] at this ⊢; exact ⟨rfl, this.2⟩⟩

theorem State.pcieReset_sound {s : State} {flr : Bool} (hs : s.Sound) :
    (s.pcieReset flr).Sound := by
  unfold State.pcieReset
  grind [State.Sound, State.regsOk, State.memOk, mwf_mdrop, State.put_sound, State.closeSession_sound, State.dropRings_sound,
    State.linkDown_sound]

theorem State.resetBy_sound {s : State} {who : Requester} {f : State → State} (hs : s.Sound) (hf : ∀ t, t.Sound → (f t).Sound) :
    (s.resetBy who f).Sound := by
  unfold State.resetBy
  grind [State.Sound, State.regsOk, State.memOk, State.denied_sound]

theorem execRstCtrlCold_sound {who : Requester} {s : State} (hs : s.Sound) :
    ∀ nx, execRstCtrlCold who s = .next nx → nx.Sound := by
  unfold execRstCtrlCold
  grind [State.coldReset_sound, State.resetBy_sound]

theorem execRstCtrlWarm_sound {who : Requester} {s : State} (hs : s.Sound) :
    ∀ nx, execRstCtrlWarm who s = .next nx → nx.Sound := by
  unfold execRstCtrlWarm
  grind [State.warmReset_sound, State.resetBy_sound]

/-! ## Trace -/

theorem State.trcBegin_sound {s : State} (hs : s.Sound) :
    (s.trcBegin).Sound := by
  unfold State.trcBegin
  grind [State.put_sound, State.each_sound, State.setTrc_sound]

theorem State.trcCtrl_sound {s : State} {who : Requester} {value : Word} (hs : s.Sound) :
    (s.trcCtrl who value).Sound := by
  unfold State.trcCtrl
  grind [State.Sound, State.regsOk, State.memOk, State.put_sound, State.trcBegin_sound]

theorem execTraceSwTrigger_sound {s : State} (hs : s.Sound) :
    ∀ nx, execTraceSwTrigger s = .next nx → nx.Sound := by
  unfold execTraceSwTrigger
  grind [State.trcTrigger_sound]

theorem execTraceFlush_sound {s : State} (hs : s.Sound) :
    ∀ nx, execTraceFlush s = .next nx → nx.Sound := by
  unfold execTraceFlush
  grind [State.each_sound, State.trcFlushCore_sound]

theorem execTrcCntClear_sound {s : State} (hs : s.Sound) :
    ∀ nx, execTrcCntClear s = .next nx → nx.Sound := by
  unfold execTrcCntClear
  grind [State.setReg_sound, State.put_sound, State.each_sound]

/-! ## Run -/

theorem State.ringRun_sound {s : State} {ring serial op : Nat} {d : BitVec 512} {n : Nat} (hs : s.Sound) :
    (s.ringRun ring serial op d n).Sound := by
  unfold State.ringRun
  grind [State.Sound, State.regsOk, State.memOk, State.finish_sound, State.runRequest_sound]

theorem State.lineEdge_sound {s : State} {line : Nat} {level : Bool} (hs : s.Sound) :
    (s.lineEdge line level).Sound := by
  unfold State.lineEdge
  grind [State.Sound, State.regsOk, State.memOk, State.each_sound, State.modPart_sound]

theorem State.noGo_sound {s : State} {p sp code : Nat} {data : List Nat} (hs : s.Sound) :
    (s.noGo p sp code data).Sound := by
  unfold State.noGo
  grind [State.Sound, State.regsOk, State.memOk, State.raise_sound, State.spokeErr_sound]

theorem State.checkSpoke_sound {s : State} {p sp : Nat} (hs : s.Sound) :
    (s.checkSpoke p sp).Sound := by
  unfold State.checkSpoke
  dsimp only
  repeat' split
  all_goals grind only [State.Sound, State.regsOk, State.memOk, State.put_sound, State.agree_sound, State.noGo_sound]

theorem State.settleHalt_sound {s : State} (hs : s.Sound) :
    (s.settleHalt).Sound := by
  unfold State.settleHalt
  grind [State.Sound, State.regsOk, State.memOk]

theorem State.haltAt_sound {s : State} {p edge : Nat} {fault own : Bool} (hs : s.Sound) :
    (s.haltAt p edge fault own).Sound := by
  unfold State.haltAt
  grind [State.Sound, State.regsOk, State.memOk, State.modPart_sound]

theorem State.capMarkAt_sound {s : State} {p sources edge : Nat} (hs : s.Sound) :
    (s.capMarkAt p sources edge).Sound := by
  unfold State.capMarkAt
  grind [State.Sound, State.regsOk, State.memOk, State.setCap_sound, State.capMark_sound]

/-! ## Race -/

theorem State.buffer_sound {s : State} {router input : Nat} {pk : Pkt} {seen : Unit128} (hs : s.Sound) :
    (s.buffer router input pk seen).Sound := by
  unfold State.buffer
  grind [State.Sound, State.regsOk, State.memOk, State.malformed_sound, State.losePacket_sound]

theorem State.receive_sound {s : State} {router input : Nat} {pk : Pkt} {seen : Unit128} {ecc : HdrEcc} (hs : s.Sound) :
    (s.receive router input pk seen ecc).Sound := by
  unfold State.receive
  grind [State.Sound, State.regsOk, State.memOk, State.bump_sound, State.linkUe_sound, State.dropMalformed_sound, State.losePacket_sound,
    State.buffer_sound]

theorem execIsolate_sound {t : RaceTarget} {s : State} (hs : s.Sound) :
    ∀ nx, execIsolate t s = .next nx → nx.Sound := by
  unfold execIsolate
  repeat' split
  all_goals grind [State.edgeOrder_sound, State.isolateNow_sound]

theorem execReadmit_sound {t : RaceTarget} {s : State} (hs : s.Sound) :
    ∀ nx, execReadmit t s = .next nx → nx.Sound := by
  unfold execReadmit
  dsimp only
  repeat' split
  all_goals grind only [State.Sound, State.regsOk, State.memOk, State.put_sound]

theorem execRaceDeadcntClear_sound {s : State} (hs : s.Sound) :
    ∀ nx, execRaceDeadcntClear s = .next nx → nx.Sound := by
  unfold execRaceDeadcntClear
  grind [State.setReg_sound]

theorem execRaceEccCeClear_sound {s : State} (hs : s.Sound) :
    ∀ nx, execRaceEccCeClear s = .next nx → nx.Sound := by
  unfold execRaceEccCeClear
  grind [State.put_sound]

theorem execMillEccCeClear_sound {m : Mill} {s : State} (hs : s.Sound) :
    ∀ nx, execMillEccCeClear m s = .next nx → nx.Sound := by
  unfold execMillEccCeClear
  grind [State.put_sound]

theorem execRaceStctrlClear_sound {s : State} (hs : s.Sound) :
    ∀ nx, execRaceStctrlClear s = .next nx → nx.Sound := by
  unfold execRaceStctrlClear
  grind [State.Sound, State.regsOk, State.memOk, State.setReg_sound, State.each_sound]

end Sys2Proof.Machine
end

