-- ==== Sys2Proof/Laws/SoundAccess.lean ====
section
/-!
SUPPORT. Laws/SoundAccess.lean: that a sound state stays sound (State.Sound) under the register writes and reads, the memory of the millers, packets and the idle cycle.
-/
namespace Sys2Proof.Machine

open Sys2Proof

set_option Elab.async false

/-! ## RegWrite -/

theorem State.after_sound {s : State} {o : Out} (ho : ∀ t, o = .next t → t.Sound) (hs : s.Sound) : (s.after o).Sound := by
  unfold State.after
  grind

theorem State.storeBits_sound {s : State} {r : RegRow} {b : Nat} {v : Word} (hs : s.Sound) :
    (s.storeBits r b v).Sound := by
  unfold State.storeBits
  grind [State.setReg_sound]

theorem State.clearOn_sound {s : State} {v : Word} {f : Fld} {regs : List Nat} (hs : s.Sound) :
    (s.clearOn v f regs).Sound := by
  unfold State.clearOn
  grind [State.setReg_sound, State.each_sound]

theorem State.writeRace_sound {s : State} {r : RegRow} {a : Nat} {v : Word} (hs : s.Sound) :
    (s.writeRace r a v).Sound := by
  unfold State.writeRace
  dsimp only
  repeat' split
  all_goals grind only [State.Sound, State.regsOk, State.memOk, State.setReg_sound, State.put_sound, execIsolate_sound, execReadmit_sound,
    execRaceDeadcntClear_sound, execRaceEccCeClear_sound, execRaceStctrlClear_sound, State.after_sound, State.storeBits_sound]

theorem State.writeFlm_sound {s : State} {who : Requester} {r : RegRow} {a : Nat} {v : Word} (hs : s.Sound) :
    (s.writeFlm who r a v).Sound := by
  unfold State.writeFlm
  grind [State.put_sound, execFlmQuiesceWrite_sound, execFlmCntClear_sound, execFlmSlackClear_sound, execFlmEccCeClear_sound,
    execFlmProbeEnable_sound, State.after_sound, State.storeBits_sound, State.clearOn_sound]

theorem State.writeMport_sound {s : State} {r : RegRow} {a : Nat} {v : Word} (hs : s.Sound) :
    (s.writeMport r a v).Sound := by
  unfold State.writeMport
  grind [execMportCntClear_sound, State.after_sound, State.storeBits_sound, State.clearOn_sound]

theorem State.writePart_sound {s : State} {r : RegRow} {a : Nat} {v : Word} {env : RegEnv} (hs : s.Sound) :
    (s.writePart r a v env).Sound := by
  unfold State.writePart
  grind [State.Sound, State.regsOk, State.memOk, State.modPart_sound, execPartVote_sound, execTurnCtrlClear_sound,
    execPartQmaskWrite_sound, State.after_sound, State.storeBits_sound]

theorem State.writeMill_sound {s : State} {r : RegRow} {a : Nat} {v : Word} (hs : s.Sound) :
    (s.writeMill r a v).Sound := by
  unfold State.writeMill
  grind [State.put_sound, execMillEccCeClear_sound, State.after_sound, State.storeBits_sound]

theorem State.writeDdrc_sound {s : State} {r : RegRow} {a : Nat} {v : Word} (hs : s.Sound) :
    (s.writeDdrc r a v).Sound := by
  unfold State.writeDdrc
  grind [State.put_sound, execDdrcTrain_sound, execDdrcOwnWrite_sound, execDdrcCeClear_sound, State.after_sound, State.storeBits_sound,
    State.clearOn_sound]

theorem State.writeSpk_sound {s : State} {r : RegRow} {a : Nat} {v : Word} (hs : s.Sound) :
    (s.writeSpk r a v).Sound := by
  unfold State.writeSpk
  grind [State.put_sound, execSpokeCtrlWrite_sound, execSpkLatClear_sound, State.settleHalt_sound, State.after_sound,
    State.storeBits_sound]

theorem State.writeLaneReg_sound {s : State} {r : RegRow} {a : Nat} {v : Word} (hs : s.Sound) :
    (s.writeLaneReg r a v).Sound := by
  unfold State.writeLaneReg
  grind [execLaneSlip_sound, State.after_sound, State.storeBits_sound]

theorem State.writeGov_sound {s : State} {r : RegRow} {a : Nat} {v : Word} {env : RegEnv} (hs : s.Sound) :
    (s.writeGov r a v env).Sound := by
  unfold State.writeGov
  grind [State.put_sound, State.railsInRange_sound, State.capOff_sound, execGovFreeze_sound, execGovVflumeWrite_sound, State.after_sound,
    State.storeBits_sound]

theorem State.writeCfg_sound {s : State} {who : Requester} {r : RegRow} {a : Nat} {v : Word} {env : RegEnv} (hs : s.Sound) :
    (s.writeCfg who r a v env).Sound := by
  unfold State.writeCfg
  dsimp only
  repeat' split
  all_goals grind only [State.Sound, State.regsOk, State.memOk, execLoad_sound, execStage_sound, execCommit_sound, execDiscard_sound,
    execUnload_sound, execHoldDoneWrite_sound, execBootHopper_sound, State.after_sound, State.storeBits_sound, State.clearOn_sound]

theorem State.writeKey_sound {s : State} {who : Requester} {r : RegRow} {a : Nat} {v : Word} (hs : s.Sound) :
    (s.writeKey who r a v).Sound := by
  unfold State.writeKey
  grind [State.setBit_sound, State.bump_sound, State.keyAllowed_sound, execKeyWrite_sound, execKeyZeroise_sound, execKeyZeroiseAll_sound,
    State.after_sound, State.storeBits_sound]

theorem State.writeBar4Ctl_sound {s : State} {who : Requester} {r : RegRow} {v : Word} (hs : s.Sound) :
    (s.writeBar4Ctl who r v).Sound := by
  unfold State.writeBar4Ctl
  grind [State.Sound, State.regsOk, State.memOk, State.flag_sound, State.storeBits_sound]

theorem State.writePcie_sound {s : State} {who : Requester} {r : RegRow} {a : Nat} {v : Word} (hs : s.Sound) :
    (s.writePcie who r a v).Sound := by
  unfold State.writePcie
  grind [State.Sound, State.regsOk, State.memOk, State.setReg_sound, State.put_sound, State.storeBits_sound, State.clearOn_sound,
    State.writeBar4Ctl_sound]

theorem State.writeRing_sound {s : State} {r : RegRow} {a : Nat} {v : Word} {env : RegEnv} (hs : s.Sound) :
    (s.writeRing r a v env).Sound := by
  unfold State.writeRing
  grind [execRingEnable_sound, execRingEngineEnable_sound, State.after_sound, State.storeBits_sound]

theorem State.writeSlcRing_sound {s : State} {r : RegRow} {k : Nat} {v : Word} (hs : s.Sound) :
    (s.writeSlcRing r k v).Sound := by
  unfold State.writeSlcRing
  grind [State.setRing_sound, State.storeBits_sound]

theorem State.writeSlc_sound {s : State} {who : Requester} {r : RegRow} {a : Nat} {v : Word} (hs : s.Sound) :
    (s.writeSlc who r a v).Sound := by
  unfold State.writeSlc
  grind [execSluiceEnable_sound, execSluiceDisable_sound, execSlcCmdDrop_sound, execSlcCntClear_sound, State.after_sound,
    State.storeBits_sound, State.writeSlcRing_sound]

theorem State.writeHop_sound {s : State} {who : Requester} {r : RegRow} {a : Nat} {v : Word} (hs : s.Sound) :
    (s.writeHop who r a v).Sound := by
  unfold State.writeHop
  grind [State.setReg_sound, State.handover_sound, execHopCntClear_sound, State.after_sound, State.storeBits_sound]

theorem State.writeSched_sound {s : State} {r : RegRow} {a : Nat} {v : Word} (hs : s.Sound) :
    (s.writeSched r a v).Sound := by
  unfold State.writeSched
  grind [execSchedCntClear_sound, State.after_sound, State.storeBits_sound]

theorem State.writeMlr_sound {s : State} {who : Requester} {r : RegRow} {a : Nat} {v : Word} (hs : s.Sound) :
    (s.writeMlr who r a v).Sound := by
  unfold State.writeMlr
  grind [State.Sound, State.regsOk, State.memOk, State.put_sound, State.setSchedCore_sound, State.resetCore_sound,
    execWatchdogKick_sound, execMillerRelease_sound, State.after_sound, State.storeBits_sound]

theorem State.writeGdef_sound {s : State} {r : RegRow} {v : Word} (hs : s.Sound) :
    (s.writeGdef r v).Sound := by
  unfold State.writeGdef
  grind [State.storeBits_sound]

theorem State.writeMillen_sound {s : State} {a : Nat} {v : Word} (hs : s.Sound) :
    (s.writeMillen a v).Sound := by
  unfold State.writeMillen
  exact State.writeMasked_sound hs

theorem State.writeAcq_sound {s : State} {r : RegRow} {a : Nat} {v : Word} (hs : s.Sound) :
    (s.writeAcq r a v).Sound := by
  unfold State.writeAcq
  dsimp only
  repeat' split
  all_goals grind only [State.Sound, State.regsOk, State.memOk, execCaptureEnable_sound, execCaptureDisable_sound, execAcqSwtrig_sound,
    execAcqCntClear_sound, State.after_sound, State.storeBits_sound, State.clearOn_sound, State.writeGdef_sound, State.writeMillen_sound]

theorem State.writeTrc_sound {s : State} {who : Requester} {r : RegRow} {a : Nat} {v : Word} (hs : s.Sound) :
    (s.writeTrc who r a v).Sound := by
  unfold State.writeTrc
  grind [State.setTrc_sound, State.trcCtrl_sound, execTraceSwTrigger_sound, execTraceFlush_sound, execTrcCntClear_sound,
    State.after_sound, State.storeBits_sound]

theorem State.writePg_sound {s : State} {r : RegRow} {a : Nat} {v : Word} (hs : s.Sound) :
    (s.writePg r a v).Sound := by
  unfold State.writePg
  grind [State.put_sound, State.setPgNext_sound, State.setPulse_sound, State.storeBits_sound]

theorem State.writeTb_sound {s : State} {who : Requester} {r : RegRow} {a : Nat} {v : Word} (hs : s.Sound) :
    (s.writeTb who r a v).Sound := by
  unfold State.writeTb
  grind [State.Sound, State.regsOk, State.memOk, State.put_sound, execTbStepSubmit_sound, execTbUnanchor_sound, execTbRateWrite_sound,
    State.after_sound, State.storeBits_sound, State.writePg_sound]

theorem State.writePtp_sound {s : State} {r : RegRow} {a : Nat} {v : Word} (hs : s.Sound) :
    (s.writePtp r a v).Sound := by
  unfold State.writePtp
  grind [execPtpTspop_sound, execPtpCntClear_sound, State.after_sound, State.storeBits_sound]

theorem State.writeClk_sound {s : State} {r : RegRow} {a : Nat} {v : Word} (hs : s.Sound) :
    (s.writeClk r a v).Sound := by
  unfold State.writeClk
  grind [State.setBit_sound, execPaceChange_sound, execClkDdrWrite_sound, State.after_sound, State.storeBits_sound]

theorem State.writePwr_sound {s : State} {r : RegRow} {a : Nat} {v : Word} (hs : s.Sound) :
    (s.writePwr r a v).Sound := by
  unfold State.writePwr
  grind [execPwrForceWrite_sound, execPwrCntClear_sound, State.after_sound, State.storeBits_sound, State.clearOn_sound]

theorem State.writeRst_sound {s : State} {who : Requester} {r : RegRow} {a : Nat} {v : Word} (hs : s.Sound) :
    (s.writeRst who r a v).Sound := by
  unfold State.writeRst
  grind [execRstCtrlCold_sound, execRstCtrlWarm_sound, State.after_sound, State.storeBits_sound]

theorem State.writeSens_sound {s : State} {r : RegRow} {a : Nat} {v : Word} (hs : s.Sound) :
    (s.writeSens r a v).Sound := by
  unfold State.writeSens
  grind [State.showTemps_sound, execSensPeakClear_sound, State.after_sound, State.storeBits_sound]

theorem State.writeHostEn_sound {s : State} {who : Requester} {f deny : Fld} {v : Word} (hs : s.Sound) :
    (s.writeHostEn who f deny v).Sound := by
  unfold State.writeHostEn
  grind [State.put_sound, State.bump_sound]

theorem State.writeGpio_sound {s : State} {who : Requester} {r : RegRow} {a : Nat} {v : Word} (hs : s.Sound) :
    (s.writeGpio who r a v).Sound := by
  unfold State.writeGpio
  grind [execPinFunctionChange_sound, execGpioOutWrite_sound, execGpioCntClear_sound, State.after_sound, State.storeBits_sound,
    State.writeHostEn_sound]

theorem State.writeTio_sound {s : State} {who : Requester} {r : RegRow} {a : Nat} {v : Word} (hs : s.Sound) :
    (s.writeTio who r a v).Sound := by
  unfold State.writeTio
  grind [State.tioOutWrite_sound, execTioModeChange_sound, execTioBankEnable_sound, execTioCntClear_sound, State.after_sound,
    State.storeBits_sound, State.clearOn_sound, State.writeHostEn_sound]

theorem execEvtRaise_sound {who : Requester} {value : Word} {s : State} (hs : s.Sound) :
    ∀ nx, execEvtRaise who value s = .next nx → nx.Sound := by
  unfold execEvtRaise
  grind [State.bump_sound, State.raise_sound]

theorem execEvtCntClear_sound {s : State} (hs : s.Sound) :
    ∀ nx, execEvtCntClear s = .next nx → nx.Sound := by
  unfold execEvtCntClear
  grind [State.Sound, State.regsOk, State.memOk, State.setReg_sound, State.each_sound]

theorem State.writeEvt_sound {s : State} {who : Requester} {r : RegRow} {a : Nat} {v : Word} (hs : s.Sound) :
    (s.writeEvt who r a v).Sound := by
  unfold State.writeEvt
  grind [State.after_sound, State.storeBits_sound, State.clearOn_sound, execEvtRaise_sound, execEvtCntClear_sound]

theorem State.writeGlb_sound {s : State} {who : Requester} {r : RegRow} {a : Nat} {v : Word} (hs : s.Sound) :
    (s.writeGlb who r a v).Sound := by
  unfold State.writeGlb
  grind [State.storeBits_sound]

theorem State.writeAuth_sound {s : State} {who : Requester} {port : Nat} {r : RegRow} {a : Nat} {v : Word} (hs : s.Sound) :
    (s.writeAuth who port r a v).Sound := by
  unfold State.writeAuth
  grind [State.put_sound, execAuthOpen_sound, State.writeResp_sound, execAuthResponseSubmit_sound, execAuthClose_sound,
    State.after_sound, State.storeBits_sound]

theorem State.writeCore_sound {s : State} {a k : Nat} {v : Word} (hs : s.Sound) :
    (s.writeCore a k v).Sound := by
  unfold State.writeCore
  grind [State.Sound, State.regsOk, State.memOk, State.setMiller_sound, State.csrWrite_sound]

theorem State.eachBit_sound {s : State} {v : Nat} {g : State → Fin 4 → State} (hs : s.Sound) (hg : ∀ t y1, t.Sound → (g t y1).Sound) :
    (s.eachBit v g).Sound := by
  unfold State.eachBit
  grind [State.each_sound]

theorem State.writeDbgRest_sound {s : State} {port : Nat} {r : RegRow} {a : Nat} {v : Word} (hs : s.Sound) :
    (s.writeDbgRest port r a v).Sound := by
  unfold State.writeDbgRest
  dsimp only
  repeat' split
  all_goals first
    | exact hs
    | exact State.clearOn_sound hs
    | exact State.storeBits_sound hs
    | exact State.ownerOk_sound hs (fun t ht => State.storeBits_sound ht)

theorem State.writeDbg_sound {s : State} {who : Requester} {port : Nat} {r : RegRow} {a : Nat} {v : Word} {env : RegEnv} (hs : s.Sound) :
    (s.writeDbg who port r a v env).Sound := by
  unfold State.writeDbg
  dsimp only
  repeat' (with_reducible apply ite_sound)
  all_goals grind only [State.setReg_sound, State.put_sound, State.each_sound, execDbgHaltreqHalt_sound, execDbgHaltreqRun_sound,
    execDbgHaltreqStep_sound, execDbgBreakenWrite_sound, State.writeWcfg_sound, execRearm_sound, execBackdoorAccess_sound,
    State.onCore_sound, execMillerHalt_sound, execMillerResume_sound, execMillerStep_sound, State.writeMrcfg_sound, State.after_sound,
    State.storeBits_sound, State.writeCore_sound, State.eachBit_sound, State.writeDbgRest_sound]

theorem State.writeReg_sound {s : State} {who : Requester} {r : RegRow} {a : Nat} {v : Word} {env : RegEnv} (hs : s.Sound) :
    (s.writeReg who r a v env).Sound := by
  unfold State.writeReg
  dsimp only
  repeat' (with_reducible apply ite_sound)
  all_goals grind [State.storeBits_sound, State.writeRace_sound, State.writeFlm_sound, State.writeMport_sound, State.writePart_sound,
    State.writeMill_sound, State.writeDdrc_sound, State.writeSpk_sound, State.writeLaneReg_sound, State.writeGov_sound,
    State.writeCfg_sound, State.writeKey_sound, State.writePcie_sound, State.writeRing_sound, State.writeSlc_sound, State.writeHop_sound,
    State.writeSched_sound, State.writeMlr_sound, State.writeAcq_sound, State.writeTrc_sound, State.writeTb_sound, State.writePtp_sound,
    State.writeClk_sound, State.writePwr_sound, State.writeRst_sound, State.writeSens_sound, State.writeGpio_sound, State.writeTio_sound,
    State.writeEvt_sound, State.writeGlb_sound]

theorem State.writeMsix_sound {s : State} {a : Nat} {v : Word} (hs : s.Sound) :
    (s.writeMsix a v).Sound := by
  unfold State.writeMsix
  dsimp only
  repeat' split
  all_goals grind only [State.Sound, State.regsOk, State.memOk, State.msixSend_sound]

theorem State.writeAny_sound {s : State} {who : Requester} {port a : Nat} {v : Word} {env : RegEnv} (hs : s.Sound) :
    (s.writeAny who port a v env).Sound := by
  unfold State.writeAny
  grind [State.Sound, State.regsOk, State.memOk, State.denied_sound, State.writeAuth_sound, State.writeDbg_sound, State.writeReg_sound,
    State.writeMsix_sound]

/-! ## RegAccess -/

theorem State.setHeld_sound {s : State} {dbg : Bool} {a : Nat} {w : Option Word} (hs : s.Sound) :
    (s.setHeld dbg a w).Sound := by
  unfold State.setHeld
  grind [State.Sound, State.regsOk, State.memOk]

theorem State.regEnqueue_sound {s : State} {env : RegEnv} (hs : s.Sound) :
    (s.regEnqueue env).2.Sound := by
  unfold State.regEnqueue
  grind [State.enqueue_sound]

theorem State.readAny_sound {s : State} {who : Requester} {dbg : Bool} {port a : Nat} {env : RegEnv} (hs : s.Sound) :
    (s.readAny who dbg port a env).2.Sound := by
  unfold State.readAny
  dsimp only
  repeat' split
  all_goals grind only [State.Sound, State.regsOk, State.memOk, State.setReg_sound, State.each_sound, execFlmRbdataRead_sound, State.denied_sound,
    execSrdataRead_sound, State.after_sound, State.setHeld_sound, State.regEnqueue_sound]

theorem State.rdataRead_sound {s : State} {who : Requester} {port : Nat} {env : RegEnv} (hs : s.Sound) :
    (s.rdataRead who port env).2.Sound := by
  unfold State.rdataRead
  grind [State.bump_sound, State.raise_sound, State.denied_sound, State.readAny_sound]

theorem State.rdataWrite_sound {s : State} {who : Requester} {port : Nat} {v : Word} {env : RegEnv} (hs : s.Sound) :
    (s.rdataWrite who port v env).Sound := by
  unfold State.rdataWrite
  grind [State.denied_sound, State.writeAny_sound]

theorem State.regRead_sound {s : State} {who : Requester} {a : Nat} {env : RegEnv} (hs : s.Sound) :
    (s.regRead who a env).2.Sound := by
  unfold State.regRead
  grind [State.Sound, State.regsOk, State.memOk, State.readAny_sound, State.rdataRead_sound]

theorem State.regWrite_sound {s : State} {who : Requester} {a : Nat} {v : Word} {env : RegEnv} (hs : s.Sound) :
    (s.regWrite who a v env).Sound := by
  unfold State.regWrite
  grind [State.Sound, State.regsOk, State.memOk, State.writeAny_sound, State.rdataWrite_sound]

/-! ## MilMem -/

theorem State.hopFail_sound {s : State} {k off : Nat} (hs : s.Sound) :
    (s.hopFail k off).Sound := by
  unfold State.hopFail
  grind [State.raiseIrq_sound, State.hopUe_sound]

theorem State.onHopper_sound {α : Type} {s : State} {k : Nat} {mach : Bool} {cause a off : Nat} {f : State → MRes α} (hs : s.Sound) (hf : ∀ t, t.Sound → (f t).Good) :
    (State.onHopper s k mach cause a off f).Good := by
  unfold State.onHopper
  grind [MRes.Good, State.bump_sound]

theorem State.milHopRead_sound {s : State} {k : Nat} {mach : Bool} {kind a off n : Nat} (hs : s.Sound) :
    (s.milHopRead k mach kind a off n).Good := by
  unfold State.milHopRead
  grind [MRes.Good, State.hopFail_sound, State.onHopper_sound]

theorem State.aliasWrite_sound {s : State} {k : Nat} {clear : Bool} {off : Nat} {bs : List Byte} (hs : s.Sound) :
    (s.aliasWrite k clear off bs).Sound := by
  unfold State.aliasWrite
  grind [State.Sound, State.regsOk, State.memOk, State.hopWrite_sound, State.hopFail_sound]

theorem State.setMsip_sound {s : State} {c : Nat} {b : Bool} (hs : s.Sound) :
    (s.setMsip c b).Sound := by
  unfold State.setMsip
  grind [State.Sound, State.regsOk, State.memOk, State.setMiller_sound, State.wakeCore_sound]

theorem State.clcWrite_sound {s : State} {k d : Nat} {v : BitVec 64} {from_ upto : Nat} (hs : s.Sound) :
    (s.clcWrite k d v from_ upto).Sound := by
  unfold State.clcWrite
  grind [State.Sound, State.regsOk, State.memOk, State.setMiller_sound, State.wakeCore_sound, State.setMsip_sound]

theorem State.pageRead_sound {s : State} {k page d : Nat} {full : Bool} (hs : s.Sound) :
    ∀ w t, s.pageRead k page d full = some (w, t) → t.Sound := by
  unfold State.pageRead
  grind [State.Sound, State.regsOk, State.memOk, State.portEnqueue_sound, State.portPut_sound, State.portGet_sound]

theorem State.pageWrite_sound {s : State} {k page d lo : Nat} {bs : List Byte} (hs : s.Sound) :
    (s.pageWrite k page d lo bs).Sound := by
  unfold State.pageWrite
  grind [State.Sound, State.regsOk, State.memOk, State.put_sound, State.setPort_sound, State.clcWrite_sound]

theorem State.setLine_sound {s : State} {k : Nat} {icache : Bool} {n : Nat} {v : Option (BitVec 512)} (hs : s.Sound) :
    (s.setLine k icache n v).Sound := by
  unfold State.setLine
  grind [State.Sound, State.regsOk, State.memOk, State.setMiller_sound]

theorem State.lineFill_sound {s : State} {k : Nat} {mach : Bool} {kind a : Nat} {ecc : RowEcc} (hs : s.Sound) :
    (s.lineFill k mach kind a ecc).Good := by
  unfold State.lineFill
  dsimp only
  with_reducible refine MRes.ite_good ?_ (State.milHopRead_sound hs)
  split
  · exact MRes.good_fault hs
  · with_reducible exact MRes.good_bus (State.busRead_sound hs) (State.busRead_sound hs)

theorem State.cachedRead_sound {s : State} {k : Nat} {mach : Bool} {kind a n : Nat} {ecc : RowEcc} (hs : s.Sound) :
    (s.cachedRead k mach kind a n ecc).Good := by
  unfold State.cachedRead
  grind [State.Sound, State.regsOk, State.memOk, MRes.Good, State.onHopper_sound, State.setLine_sound, State.lineFill_sound]

theorem State.cacheStore_sound {s : State} {k a : Nat} {bs : List Byte} (hs : s.Sound) :
    (s.cacheStore k a bs).Sound := by
  unfold State.cacheStore
  grind [State.Sound, State.regsOk, State.memOk, State.setLine_sound]

theorem State.milRead1_sound {s : State} {k : Nat} {mach : Bool} {kind a n : Nat} {env : RegEnv} (hs : s.Sound) :
    (s.milRead1 k mach kind a n env).Good := by
  unfold State.milRead1
  dsimp only
  have hd : (MRes.fault (accessFault kind) a s : MRes (List Byte)).Good := MRes.good_fault hs
  with_reducible refine MRes.ite_good hd (MRes.ite_good (MRes.ite_good (MRes.good_ok hs) hd) (MRes.ite_good (MRes.ite_good hd ?_) (MRes.ite_good
    (MRes.ite_good (MRes.good_ok ?_) hd) (MRes.ite_good (State.milHopRead_sound hs) (MRes.ite_good (State.cachedRead_sound hs) hd)))))
  · split
    · rename_i v t ht
      exact MRes.good_ok (State.pageRead_sound hs v t ht)
    · trivial
  · with_reducible exact State.regRead_sound hs

theorem State.milWrite1_sound {s : State} {k : Nat} {mach : Bool} {a : Nat} {bs : List Byte} {env : RegEnv} (hs : s.Sound) :
    (s.milWrite1 k mach a bs env).Good := by
  unfold State.milWrite1
  dsimp only
  have hd : (MRes.fault 7 a s : MRes Unit).Good := MRes.good_fault hs
  with_reducible refine MRes.ite_good hd (MRes.ite_good (MRes.ite_good hd (MRes.good_ok ?_)) (MRes.ite_good (MRes.ite_good (MRes.good_ok ?_) hd)
    (MRes.ite_good ?_ (MRes.ite_good ?_ (MRes.ite_good ?_ hd)))))
  · with_reducible exact State.pageWrite_sound hs
  · with_reducible exact State.regWrite_sound hs
  · with_reducible exact State.onHopper_sound hs (fun t ht => MRes.good_ok (State.cacheStore_sound (State.hopWrite_sound ht)))
  · with_reducible exact State.onHopper_sound hs (fun t ht => MRes.good_ok (State.aliasWrite_sound ht))
  · split
    · exact hd
    · with_reducible exact MRes.good_bus (State.cacheStore_sound (State.busWrite_sound hs)) (State.busWrite_sound hs)

theorem State.milRead_sound {s : State} {k : Nat} {mach : Bool} {kind a n : Nat} {env : RegEnv} (hs : s.Sound) :
    (s.milRead k mach kind a n env).Good := by
  unfold State.milRead
  grind [State.Sound, State.regsOk, State.memOk, MRes.Good, State.milRead1_sound]

theorem State.milWrite_sound {s : State} {k : Nat} {mach : Bool} {a : Nat} {bs : List Byte} {env : RegEnv} (hs : s.Sound) :
    (s.milWrite k mach a bs env).Good := by
  unfold State.milWrite
  grind [State.Sound, State.regsOk, State.memOk, MRes.Good, State.milWrite1_sound]

theorem State.amoAccess_sound {s : State} {k : Nat} {mach : Bool} {f5 : Nat} {wide : Bool} {a : Nat} {src : BitVec 64} (hs : s.Sound) :
    (s.amoAccess k mach f5 wide a src).Good := by
  unfold State.amoAccess
  grind [State.Sound, State.regsOk, State.memOk, MRes.Good, State.setMiller_sound, State.hopWrite_sound, State.hopFail_sound,
    State.onHopper_sound]

/-! ## Miller -/

theorem State.setX_sound {s : State} {k n : Nat} {v : BitVec 64} (hs : s.Sound) :
    (s.setX k n v).Sound := by
  unfold State.setX
  grind [State.Sound, State.regsOk, State.memOk, State.setMiller_sound]

theorem State.cycled_sound {s : State} {k n : Nat} (hs : s.Sound) :
    (s.cycled k n).Sound := by
  unfold State.cycled
  grind [State.setCsrRaw_sound]

theorem State.trcTarget_sound {s : State} {k : Nat} {pc : BitVec 64} (hs : s.Sound) :
    (s.trcTarget k pc).Sound := by
  unfold State.trcTarget
  grind [State.trcPacket_sound, State.trcRun_sound]

theorem State.milSystem_sound {s : State} {k i : Nat} {next : BitVec 64} {illegal : MRes Done} {cycles : Nat} (hs : s.Sound) (hillegal : illegal.Good) :
    (s.milSystem k i next illegal cycles).Good := by
  unfold State.milSystem
  grind [State.Sound, State.regsOk, State.memOk, MRes.Good, State.setMiller_sound, State.csrRead_sound, State.csrWrite_sound,
    State.mretMiller_sound, State.setX_sound, State.trcTarget_sound]

theorem State.milLoad_sound {s : State} {k i : Nat} {next : BitVec 64} {illegal : MRes Done} {env : RegEnv} (hs : s.Sound) (hillegal : illegal.Good) :
    (s.milLoad k i next illegal env).Good := by
  unfold State.milLoad
  grind [State.Sound, State.regsOk, State.memOk, MRes.Good, State.milRead_sound, State.setX_sound]

theorem State.milStore_sound {s : State} {k i : Nat} {next : BitVec 64} {illegal : MRes Done} {env : RegEnv} (hs : s.Sound) (hillegal : illegal.Good) :
    (s.milStore k i next illegal env).Good := by
  unfold State.milStore
  grind [State.Sound, State.regsOk, State.memOk, MRes.Good, State.milWrite_sound]

theorem State.milAmo_sound {s : State} {k i : Nat} {next : BitVec 64} {illegal : MRes Done} (hs : s.Sound) (hillegal : illegal.Good) :
    (s.milAmo k i next illegal).Good := by
  unfold State.milAmo
  grind [State.Sound, State.regsOk, State.memOk, MRes.Good, State.amoAccess_sound, State.setX_sound]

theorem State.runInstr_sound {s : State} {k i raw len : Nat} {obs : MilObs} (hs : s.Sound) :
    (s.runInstr k i raw len obs).Good := by
  unfold State.runInstr
  grind [State.Sound, State.regsOk, State.memOk, MRes.Good, State.setMiller_sound, State.trcBranch_sound, State.trcRun_sound,
    State.setX_sound, State.trcTarget_sound, State.milSystem_sound, State.milLoad_sound, State.milStore_sound, State.milAmo_sound]

theorem State.fetchRun_sound {s : State} {k : Nat} {obs : MilObs} (hs : s.Sound) :
    (s.fetchRun k obs).Good := by
  unfold State.fetchRun
  grind [State.Sound, State.regsOk, State.memOk, MRes.Good, State.milRead_sound, State.runInstr_sound]

theorem State.rangesHit_sound {s : State} {k : Nat} {data : Bool} {addr : Nat} {hits : List Nat} (hs : s.Sound) :
    (s.rangesHit k data addr hits).Sound := by
  unfold State.rangesHit
  grind [State.Sound, State.regsOk, State.memOk, State.setReg_sound, State.put64_sound, State.trcTrigger_sound, State.haltCore_sound]

theorem State.instrRanges_sound {s : State} {k : Nat} (hs : s.Sound) :
    (s.instrRanges k).Sound := by
  unfold State.instrRanges
  grind [State.Sound, State.regsOk, State.memOk, State.each_sound, State.rangesHit_sound]

theorem State.cacheLose_sound {s : State} {k : Nat} {parity : Bool} {l : List (Bool × Nat)} (hs : s.Sound) :
    (s.cacheLose k parity l).Sound := by
  unfold State.cacheLose
  grind [State.bump_sound, State.each_sound, State.setLine_sound]

theorem State.stepEnds_sound {s : State} {k : Nat} (hs : s.Sound) :
    (s.stepEnds k).Sound := by
  unfold State.stepEnds
  grind [State.haltCore_sound]

theorem State.milRetire_sound {s0 : State} {k : Nat} {obs : MilObs} {r : MRes Done} (hs : s0.Sound) (hr : r.Good) :
    (s0.milRetire k obs r).Sound := by
  unfold State.milRetire
  grind [State.Sound, State.regsOk, State.memOk, MRes.Good, State.setMiller_sound, State.retired_sound, State.trapMiller_sound,
    State.cycled_sound, State.rangesHit_sound, State.stepEnds_sound]

theorem State.milExec_sound {s : State} {k : Nat} {obs : MilObs} (hs : s.Sound) :
    (s.milExec k obs).Sound := by
  unfold State.milExec
  grind [State.Sound, State.regsOk, State.memOk, MRes.Good, State.setMiller_sound, State.trcRun_sound, State.fetchRun_sound,
    State.milRetire_sound]

/-! ## Packets -/

theorem State.takeRuns_sound {s : State} {pk : Pkt} (hs : s.Sound) :
    (s.takeRuns pk).2.Sound := by
  unfold State.takeRuns
  grind [State.countPoison_sound]

theorem State.reply_sound {s : State} {h : Unit128} {status : Nat} {units : List Unit128} (hs : s.Sound) :
    (s.reply h status units).Sound := by
  unfold State.reply
  grind [State.answer_sound]

theorem State.serveDoor_sound {s : State} {pk : Pkt} {e : RowEcc} (hs : s.Sound) :
    (s.serveDoor pk e).Sound := by
  unfold State.serveDoor
  dsimp only
  split
  · grind [State.answer_sound, State.doorRead_sound, State.doorWrite_sound, State.takeRuns_sound, State.reply_sound]
  · refine State.reply_sound (foldl_acc (P := fun x : Nat × State => x.2.Sound) (State.takeRuns_sound hs) (fun c e hc => ?_))
    exact State.doorWrite_sound hc

theorem State.serveMill_sound {s : State} {pk : Pkt} {e : RowEcc} (hs : s.Sound) :
    (s.serveMill pk e).Sound := by
  unfold State.serveMill
  grind [State.reply_sound, State.serveDoor_sound]

theorem State.serveDram_sound {s : State} {c : Nat} {pk : Pkt} {cycle : Nat} {e : RowEcc} (hs : s.Sound) :
    (s.serveDram c pk cycle e).Sound := by
  unfold State.serveDram
  grind [State.dramRequest_sound, State.dramCes_sound, State.reply_sound]

theorem State.serveHopper_sound {s : State} {pk : Pkt} (hs : s.Sound) :
    (s.serveHopper pk).Sound := by
  unfold State.serveHopper
  grind [State.bump_sound, State.each_sound, State.answer_sound, State.hopWrite_sound, State.hopUe_sound, State.takeRuns_sound,
    State.reply_sound]

theorem State.serveHost_sound {s : State} {pk : Pkt} (hs : s.Sound) :
    (s.serveHost pk).Sound := by
  unfold State.serveHost
  grind [State.Sound, State.regsOk, State.memOk, State.bump_sound, State.each_sound, State.faultTurn_sound, State.answer_sound,
    State.hostWrite_sound, State.takeRuns_sound]

theorem State.serveX_sound {s : State} {pk : Pkt} {cycle : Nat} {e : RowEcc} (hs : s.Sound) :
    (s.serveX pk cycle e).Sound := by
  unfold State.serveX
  grind [State.Sound, State.regsOk, State.memOk, State.sluiceRd_sound, State.sluiceWr_sound, State.reply_sound, State.serveDram_sound,
    State.serveHopper_sound, State.serveHost_sound]

theorem State.arrive_sound {s : State} {cmd : Nat} {pk : Pkt} {waited : Nat} {f : Pkt → State → State} (hs : s.Sound) (hf : ∀ y0 t, t.Sound → (f y0 t).Sound) :
    (s.arrive cmd pk waited f).Sound := by
  unfold State.arrive
  grind [State.wakeFor_sound, State.landed_sound, State.reqDelivered_sound, State.leaveRace_sound, State.malformed_sound,
    State.losePacket_sound, State.absorb_sound, State.reply_sound]

theorem State.serve_sound {s : State} {pk : Pkt} {cycle : Nat} {e : RowEcc} (hs : s.Sound) :
    (s.serve pk cycle e).Sound := by
  unfold State.serve
  grind [State.serveMill_sound, State.serveX_sound]

theorem State.farResponse_sound {s : State} {h : Unit128} {status cycle : Nat} {us : List Unit128} (hs : s.Sound) :
    (s.farResponse h status cycle us).Sound := by
  unfold State.farResponse
  grind [State.freeRSlot_sound, State.slotTimed_sound, State.slotData_sound, State.slotError_sound]

theorem State.response_sound {s : State} {cmd : Nat} {pk : Pkt} {cycle lat waited : Nat} (hs : s.Sound) :
    (s.response cmd pk cycle lat waited).Sound := by
  unfold State.response
  grind [State.statUnits_sound, State.statLat_sound, State.reqDone_sound, State.leaveRace_sound, State.malformed_sound,
    State.losePacket_sound, State.bar4Answer_sound, State.farResponse_sound]

/-! ## Step -/

theorem State.idle_sound {s : State} (hs : s.Sound) :
    (s.idle).Sound := by
  unfold State.idle
  grind [State.Sound, State.regsOk, State.memOk, State.drainEvents_sound, State.trcTick_sound, State.tick_sound, State.pinTick_sound,
    State.edgeTick_sound]

theorem State.withFetchWord_sound {s : State} {nbits w : Nat} (hs : s.Sound) :
    (s.withFetchWord nbits w).Sound := by
  unfold State.withFetchWord
  grind [State.Sound, State.regsOk, State.memOk]

end Sys2Proof.Machine
end

