-- ==== Sys2Proof/Laws/Stones.lean ====
section
/-!
SUPPORT. Laws/Stones.lean: what the shared operations of a BP op do when it executes and meets no store error: its context, the state it
starts from, a result, reading operands.
-/
namespace Sys2Proof.Machine

open Sys2Proof

/-- Step n of partition p executes with nothing of an earlier step left to do: the step is noted. -/
def State.stepped (s : State) (p n : Nat) : State :=
  (s.modPart p (fun x => { x with votePend := [] })).modPart p (fun x => { x with step := n })

/-- The state a BP op of partition p works on at step n: the step is noted, no error counted. -/
def State.atStep (s : State) (p : Nat) (m : Mill) (n : Nat) : State := (s.stepped p n).bump (F.MILL_ECC_ce_count m) 0

theorem State.votesDue_none {s : State} {p : Nat} (h : (s.part p).votePend = []) :
    s.votesDue p (fun _ => true) = s.modPart p (fun x => { x with votePend := [] }) := by
  simp [State.votesDue, State.modPart, State.each, h]

theorem State.enterStep_of {s : State} {p n : Nat} (h : s.Caught p n) : s.enterStep p n = s.stepped p n := by
  obtain ⟨h1, h2⟩ := h
  have h3 : (if (s.part p).step = n then s else s.raiseStoreErr p) = s := by
    split
    · rfl
    · rename_i hn
      unfold State.raiseStoreErr
      rw [h1.resolve_left hn]
  show ((if (s.part p).step = n then s else s.raiseStoreErr p).votesDue p (fun _ => true)).modPart p (fun x => { x with step := n }) = _
  rw [h3, State.votesDue_none h2, State.stepped]

theorem State.bpCtx_of (s : State) {p : Nat} {m : Mill} {n : Step} (st : Stone) (b : Nat) (h : s.Executes m n p) :
    s.bpCtx m st b n = some ⟨p, m, st, b, n, (s.part p).bank⟩ := by
  obtain ⟨h1, h2, h3, h4, h5, _⟩ := h
  unfold State.bpCtx
  rw [h1]
  simp [h2, h3, h4, h5]

theorem BpStill.refl (p : Nat) (s : State) : BpStill p s s := ⟨fun _ => rfl, rfl, fun _ _ => rfl, rfl, rfl, rfl, rfl⟩

theorem BpStill.trans {p : Nat} {s t u : State} (h : BpStill p s t) (h' : BpStill p t u) : BpStill p s u := by
  obtain ⟨a1, a2, a3, a4, a5, a6, a7⟩ := h
  obtain ⟨b1, b2, b3, b4, b5, b6, b7⟩ := h'
  refine ⟨fun a => (b1 a).trans (a1 a), ?_, fun q hq => (b3 q hq).trans (a3 q hq), ?_, b5.trans a5, b6.trans a6, b7.trans a7⟩
  · cases s; cases t; cases u; simp_all
  · rw [← a4, ← b4]

theorem State.atStep_part (s : State) (p q : Nat) (m : Mill) (n : Nat) :
    (s.atStep p m n).part q = if q = p then { s.part p with step := n, votePend := [] } else s.part q := by
  show ((s.modPart p (fun x => { x with votePend := [] })).modPart p (fun x => { x with step := n })).part q = _
  rw [State.part_modPart, State.part_modPart, State.part_modPart, if_pos rfl]
  split <;> rfl

theorem State.atStep_still {s : State} {p : Nat} (m : Mill) {n : Nat} (h : s.Caught p n) : BpStill p s (s.atStep p m n) := by
  refine ⟨?_, rfl, ?_, ?_, rfl, rfl, rfl⟩
  · intro a
    unfold State.atStep State.stepped
    rw [State.reg_bump_zero _ _ _ (by simp [F.MILL_ECC_ce_count])]
    rfl
  · intro q hq
    rw [State.atStep_part, if_neg hq]
  · have h2 : (s.part p).votePend = [] := h.2
    rw [State.atStep_part, if_pos rfl]
    cases hx : s.part p
    rw [hx] at h2
    cases h2
    rfl

@[simp] theorem State.atStep_stones (s : State) (p : Nat) (m : Mill) (n : Nat) : (s.atStep p m n).stones = s.stones := rfl

@[simp] theorem State.atStep_bank (s : State) (p : Nat) (m : Mill) (n : Nat) : ((s.atStep p m n).part p).bank = (s.part p).bank := by
  rw [State.atStep_part, if_pos rfl]

/-- A tap changes only the bits collected for capture. -/
theorem State.tap_spec (s : State) (c : BpCtx) (b : Nat) (w : IWord) (v : Bool) :
    BpStill c.p s (s.tap c b w v) ∧ (s.tap c b w v).stones = s.stones ∧ ((s.tap c b w v).part c.p).bank = (s.part c.p).bank := by
  unfold State.tap
  dsimp only
  split
  · refine ⟨⟨fun a => rfl, rfl, ?_, ?_, rfl, rfl, rfl⟩, rfl, ?_⟩
    · intro q hq; rw [State.part_modPart, if_neg hq]
    · rw [State.part_modPart, if_pos rfl]
    · rw [State.part_modPart, if_pos rfl]
  · exact ⟨BpStill.refl _ _, rfl, rfl⟩

/-- A result enters the BP's own lane of step row n; nothing else of the stones changes. -/
theorem State.result_spec (s : State) (c : BpCtx) (b : Nat) (w : IWord) (v : Bool) :
    BpStill c.p s (s.result c b w v) ∧
      (s.result c b w v).stones = { s.stones with writes := ⟨c.site, c.n, b, c.n, v⟩ :: s.stones.writes } ∧
      ((s.result c b w v).part c.p).bank = (s.part c.p).bank := by
  obtain ⟨h1, h2, h3⟩ := State.tap_spec (s.writeLane c.site c.n b c.n v) c b w v
  refine ⟨BpStill.trans ?_ h1, h2, h3⟩
  exact ⟨fun a => rfl, rfl, fun _ _ => rfl, rfl, rfl, rfl, rfl⟩

/-- Operand rows that hold no uncorrectable code word report nothing. -/
theorem State.reportRows_good (s : State) (c : BpCtx) (rs : List Nat)
    (h : ∀ r ∈ rs, (rowStored r && s.rowBad (siteOf c.m c.st) c.bank r c.n) = false) : s.reportRows c rs = s := by
  unfold State.reportRows State.each
  induction rs with
  | nil => rfl
  | cons r rs ih =>
    rw [List.foldl_cons, State.reportRow, if_neg (by rw [h r (by simp)]; simp)]
    exact ih (fun r' hr => h r' (by simp [hr]))

/-- An operand whose row is readable reads the row (R29). -/
theorem State.opnd_of {s t : State} {c : BpCtx} {x : BitVec 18} (hs : t.stones = s.stones)
    (h : (rowStored (rowOf x) && s.rowBad (siteOf c.m c.st) c.bank (rowOf x) c.n) = false) :
    t.opnd c x = s.readLane c.site c.bank (rowOf x) (laneOf x) c.n := by
  have h1 : ∀ a b r n, t.rowBad a b r n = s.rowBad a b r n := by intros; simp [State.rowBad, State.rowMark, State.rowWhole, hs]
  unfold State.opnd State.operand
  rw [h1, show c.site = siteOf c.m c.st from rfl, h]
  simp only [Bool.not_false, Bool.true_and]
  unfold State.readLane State.baseRow State.turnWrite
  rw [hs]

theorem State.stones_words {s t : State} (hs : t.stones = s.stones) :
    (∀ a b c, t.word a b c = s.word a b c) ∧ (∀ a b c, t.wordBad a b c = s.wordBad a b c) ∧
      (∀ a b r n, t.rowBad a b r n = s.rowBad a b r n) := by
  refine ⟨?_, ?_, ?_⟩ <;> intros <;> simp [State.word, State.wordBad, State.rowBad, State.rowMark, State.rowWhole, hs]

/-- A BP op that meets no store error runs on the state at its step. -/
theorem State.bpOp_of {s : State} {p : Nat} {m : Mill} {st : Stone} {b : Bp} {n : Step} {op : Nat} {f : State → BpCtx → IWord → State}
    (h : s.Executes m n p) (ho : opOf (s.word (siteOf m st) b n) = op) (hb : s.wordBad (siteOf m st) b n = false) :
    s.bpOp m st b n {} op f = f (s.atStep p m n) ⟨p, m, st, b, n, (s.part p).bank⟩ (s.word (siteOf m st) b n) := by
  unfold State.bpOp
  rw [State.bpCtx_of s st b h]
  have hw : (s.atStep p m n).wordBad (siteOf m st) b n = false := by
    rw [(State.stones_words (State.atStep_stones s p m n)).2.1, hb]
  show (if opOf (s.word (siteOf m st) b n) = op then
    (if (State.takeEcc (s.enterStep p n) m st _ n {}).wordBad (siteOf m st) b n then _ else
      f (State.takeEcc (s.enterStep p n) m st _ n {}) _ _) else s) = _
  rw [State.enterStep_of h.2.2.2.2.2]
  change (if opOf (s.word (siteOf m st) b n) = op then
    (if (s.atStep p m n).wordBad (siteOf m st) b n then _ else f (s.atStep p m n) _ _) else s) = _
  rw [if_pos ho]
  simp [hw]
  rfl

/-- The index of a truth table is its inputs read as a number. -/
theorem ttIndex_four (a b c d : Bool) : ttIndex [a, b, c, d] = 8 * d.toNat + 4 * c.toNat + 2 * b.toNat + a.toNat := by
  cases a <;> cases b <;> cases c <;> cases d <;> rfl

theorem ttIndex_three (a b c : Bool) : ttIndex [a, b, c] = 4 * c.toNat + 2 * b.toNat + a.toNat := by
  cases a <;> cases b <;> cases c <;> rfl

end Sys2Proof.Machine
end

