-- ==== Sys2Proof/Tests/Slice0.lean ====
section
/-!
SUPPORT. Tests/Slice0.lean: ill-formed commands are refused by the well-formedness check, small steps give what the spec's text and tables
say, and for every statement with hypotheses states and operands that meet them.
-/
namespace Sys2Proof.Tests

open Sys2Proof Sys2Proof.Machine

set_option linter.unusedVariables false

set_option Elab.async false

/-- The next state of an outcome; the state after reset where there is none. -/
def tNext (o : Out) : State :=
  match o with
  | .next t => t
  | _ => State.reset

/-! ## The well-formedness check refuses -/

/-- A header of a command with no unit of data, for the hopper. -/
def tHdr (cmd len : Nat) : Unit128 := mkHdr cmd len 0 0 0x223 77 0 0 5 8 4 0 0 0 0x100

theorem test_wf_rd : Instr.wf (.rd { hdr := tHdr 1 1 } 0 {} 0) = true ∧ Instr.wf (.rd { hdr := tHdr 2 1 } 0 {} 0) = false ∧
    Instr.wf (.rd { hdr := tHdr 1 1, data := [5], poison := [false] } 0 {} 0) = false := by decide +kernel

theorem test_wf_wr : Instr.wf (.wr { hdr := tHdr 2 1, data := [5], poison := [false] } 0 {} 0) = true ∧
    Instr.wf (.wr { hdr := tHdr 2 2, data := [5], poison := [false] } 0 {} 0) = false ∧
    Instr.wf (.wr { hdr := tHdr 3 1, data := [5], poison := [false] } 0 {} 0) = false := by decide +kernel

theorem test_wf_responses : Instr.wf (.wra { hdr := tHdr 2 1 } 0 {} 0) = false ∧ Instr.wf (.rdr { hdr := tHdr 1 1 } 0 0 0) = false ∧
    Instr.wf (.ack { hdr := tHdr 1 1 } 0 0) = false ∧ Instr.wf (.msg { hdr := tHdr 1 1 } 0) = false := by decide +kernel

theorem test_wf_bar4 : Instr.wf (.bar4Access 0x3F 2 none) = false ∧ Instr.wf (.bar4Access 0x3F 0 none) = false ∧
    Instr.wf (.bar4Access 0x3F 1 none) = true := by decide +kernel

theorem test_wf_pcie : Instr.wf (.pcieLinkUp 2 3 0 false true true) = false ∧ Instr.wf (.pollReturn [1, 2] [] none) = false := by decide +kernel

theorem test_wf_miller : Instr.wf (.amo 3 1 true 5 0x1004 0) = false ∧ Instr.wf (.amo 3 5 true 5 0x1000 0) = false ∧
    Instr.wf (.hopperAliasWrite 3 true 6 2 0) = false := by decide +kernel

theorem test_wf_registers : Instr.wf (.registerWrite .host 0x2090029 0 {}) = false ∧ Instr.wf (.registerRead .host 0x2090029 {}) = false ∧
    Instr.wf (.registerRead .host 0x2090028 {}) = true := by decide +kernel

theorem test_wf_sessions : Instr.wf (.authOpen .host 0) = false ∧ Instr.wf (.authResponseSubmit (.handler 3) 0) = false ∧
    Instr.wf (.authClose .host false) = false ∧ Instr.wf (.authOpen .jtag 0) = true := by decide +kernel

theorem test_wf_pins : Instr.wf (.jtagExtest [(384, true)]) = false ∧ Instr.wf (.spdReadComplete 3 (List.replicate 3 ⟨true, true, false, none, 2, 0, 4800⟩)) = false := by decide +kernel

/-! ## No word spells a command: the table gives no bits -/

theorem test_no_word : decodeTableWord 32 0x12A01E03 = none ∧ State.reset.withFetchWord 32 5 = State.reset := ⟨rfl, rfl⟩

/-! ## The worked examples of "Stones and Boolean processors" and "HOK images" -/

/-- The instruction word of the majority with enable. -/
def tMaj : IWord := 0x18E80012AF30149812A01E03

theorem test_majority_fields : opOf tMaj = 1 ∧ ttOf tMaj = 0xE800 ∧ (rowOf (opaOf tMaj), laneOf (opaOf tMaj)) = (0x078, 3) ∧
    (rowOf (opbOf tMaj), laneOf (opbOf tMaj)) = (0x812, 40) ∧ (rowOf (opcOf tMaj), laneOf (opcOf tMaj)) = (0xC05, 9) ∧
    (rowOf (opdOf tMaj), laneOf (opdOf tMaj)) = (0x12A, 60) := by decide +kernel

/-- Quadrant 2 is partition 0's, RUNNING at depth 512; the word stands at BP 17 of stone 5 of mill 141, step 300. -/
def tMajState : State :=
  let s := ((State.reset.put (F.PART_QMASK_qmask 0) 4).put (F.PART_STATE_state 0) 3).put (F.PART_PROFILE_depth 0) 0
  let s := { s with stones := { words := mset (fun _ => 0) [] (wordKey (siteOf 141 5) 17 300) tMaj } }
  ((s.setRow (siteOf 141 5) 0x078 (2 ^ 3)).setRow (siteOf 141 5) (physRow false 0x812) (2 ^ 40)).setRow (siteOf 141 5) 0x12A (2 ^ 60)

/-- x1 = 1, x2 = 1, x3 = 0, en = 1 give 1, into step row 300 lane 17. -/
theorem test_majority_result : (tNext (exec (.eval 141 5 17 300 {}) tMajState)).stones.writes = [⟨siteOf 141 5, 300, 17, 300, true⟩] := by
  decide +kernel

/-- The word reads back as the writes of its step stand in the row from step 302 on, not at step 301. -/
theorem test_majority_visible :
    let t := tNext (exec (.eval 141 5 17 300 {}) tMajState)
    t.readLane (siteOf 141 5) false 300 17 302 = true ∧ t.readLane (siteOf 141 5) false 300 17 301 = false := by decide +kernel

/-- The frame of that instruction's bits [95:64]. -/
theorem test_frame_address : frClass 0x0011AA4A = 0 ∧ frMill 0x0011AA4A = 141 ∧ frStone 0x0011AA4A = 5 ∧ frGroup 0x0011AA4A = 18 ∧
    0x0011AA4A % 4 = 2 := by decide +kernel

/-- The toggle's EVAL3_ST: t = 1 and q = 0 write 1 into the bank that is not committed, whose row q still reads 0 at step 300. -/
theorem test_toggle :
    let s := { tMajState with stones := { words := mset (fun _ => 0) [] (wordKey (siteOf 141 5) 17 200) (0x2000668000380000321e0000 : IWord) } }
    let s := s.setRow (siteOf 141 5) 0x032 (2 ^ 7)
    let t := tNext (exec (.eval3St 141 5 17 200 {}) s)
    t.readLane (siteOf 141 5) false 0x800 0 300 = false ∧
      (tNext (exec (.turnEnd 0) t)).readLane (siteOf 141 5) true 0x800 0 10 = true ∧ ((tNext (exec (.turnEnd 0) t)).part 0).bank = true := by decide +kernel

/-! ## Addresses and values the register chapters give -/

theorem test_ddrc_late_address : R.DDRC_LATE 9 = 0x2090028 := rfl

/-- Step of +3,200,000 ns: refused, because 3,200 µs exceeds 1,000 µs (chapter 16). -/
theorem test_step_refused :
    let s := ((State.reset.put (F.TBK_STATUS_anchored 0) 1).put F.TB_JUMPTHR_us 1000).setReg (R.TBK_STEP_LO 0) 3200000
    let t := tNext (exec (.tbStepSubmit (.shell 3) 0 0) s)
    t.slewOf 0 = 0 ∧ t.get F.EVT_RAISED_count = 1 := by decide +kernel

/-- Step of +400,000 ns: accepted as slew. -/
theorem test_step_slews :
    let s := ((State.reset.put (F.TBK_STATUS_anchored 0) 1).put F.TB_JUMPTHR_us 1000).setReg (R.TBK_STEP_LO 0) 400000
    (tNext (exec (.tbStepSubmit (.shell 3) 0 0) s)).slewOf 0 ≠ 0 := by decide +kernel

theorem test_idle_step : (tNext (step State.reset)).uptime = 1 ∧ (tNext (step State.reset)).baseCount 0 = 5 * 2 ^ 30 := by decide +kernel

/-! ## States for the witnesses -/

/-- Partition 0 on quadrant 0, RUNNING, depth 512, K = 64. -/
def wRun : State := (((State.reset.put (F.PART_QMASK_qmask 0) 1).put (F.PART_STATE_state 0) 3).put (F.PART_PROFILE_depth 0) 0).put (F.TURN_CONFIG_k 0) 64

/-- The same, HALTED, every pace allowed. -/
def wHalted : State := (wRun.put (F.PART_STATE_state 0) 4).put (F.PART_PROFILE_paces 0) 7

/-- An instruction word of its op, truth table and operand fields a to d. -/
def iw (op tt a b c d : Nat) : IWord := BitVec.ofNat 96 (op * 2 ^ 92 + tt * 2 ^ 72 + d * 2 ^ 54 + c * 2 ^ 36 + b * 2 ^ 18 + a)

/-- A state with an instruction word put into a BP's store. -/
def withWord (s : State) (site b n : Nat) (w : IWord) : State :=
  { s with stones := { s.stones with words := mset (fun _ => 0) s.stones.words (wordKey site b n) w } }

/-- wRun with a data row of a stone of mill 0. -/
def withRow (s : State) (site r : Nat) (v : Row) : State := s.setRow site r v

/-- Quadrant 0 running; region 0 in use. -/
def wQuad : State := (State.reset.setStage 0 3).setRegion 0 { used := true, launched := true, stage := 3 }

/-- wQuad, its block 5 in a mode. -/
def wBlock (mode occ : Nat) : State := wQuad.setBlock 0 5 { mode := mode, width := 16, occ := occ, rp := 3, wp := 7, delayN := 10, data := [(3, 77), (7, 78)] }

/-- A request of the PCIe interface (0x223) to the hopper, of the shell's context. -/
def wPkt (cmd len init : Nat) (data : List Unit128) : Pkt := { hdr := mkHdr cmd len 0 0 init 77 0 0 5 8 4 0 0 0 0x100, data := data }

/-- A response to a request. -/
def wResp (cmd init tag : Nat) (data : List Unit128) : Pkt := { hdr := mkHdr cmd data.length 0 0 init tag 0 0 0 0 4 0 0 0 0, data := data }

/-- A command descriptor. -/
def wDesc (op part haddr len daddr param : Nat) : BitVec 512 :=
  BitVec.ofNat 512 (op + part * 2 ^ 16 + 7 * 2 ^ 32 + haddr * 2 ^ 64 + len * 2 ^ 128 + daddr * 2 ^ 192 + param * 2 ^ 256)

/-- A state whose command ring runs with the descriptor next, its completion ring with room. -/
def wRing (s : State) (ring : Nat) (d : BitVec 512) : State :=
  (((((((s.put F.RING_CTRL_en 1).put F.PCIE_STATUS_up 1).put (F.RING_R_CFG_en ring) 1).put (F.RING_R_CFG_size ring) 2).put (F.RING_R_CFG_en (ring + 4)) 1).put
    (F.RING_R_CFG_size (ring + 4)) 2).setRing ring { fetched := [d, 0], dev := 5 }).setRing (ring + 4) { dev := 3, host := 1 }
/-- wRing, the completion ring full. -/
def wRingFull (s : State) (ring : Nat) (d : BitVec 512) : State := (wRing s ring d).setRing (ring + 4) { dev := 5, host := 1 }
/-- Channel 3 in service with 32 GiB owned by the shell. -/
def wDram : State := (((State.reset.put (F.DDRC_STATUS_state 3) 4).put (F.DDRC_CTRL_en 3) 1).put (F.DDRC_POP_slices 3) 2)
/-- Spoke 5 enabled. -/
def wSpk : State := (((wRun.put (F.SPK_CTRL_en 5) 1).put (F.SPK_CTRL_fom_low 5) 20).put (F.SPK_CTRL_tx_mode 5) 2)

def wFar : State := (((withRow (withWord wRun 0 3 5 (iw 5 0 (0x805 * 64) 1 0 0)) 0 2053 7).put (F.MPORT_BIND_kind.sel 0) 1).put (F.MPORT_SIZE_value.sel 0) 1).put (F.MPORT_BIND_width.sel 0) 1

def wFlm : State := (((((State.reset.put (F.FLM_PORTSTAT_mode.sel (portIdx 3 0 1)) 2).setStage 0 3).setRegion 0 { used := true, launched := true, launches := [25], lands := [25, 40], awaiting := [25, 40], stage := 3 }).setLaunchPort 3 1 { bits := 0xF0, last := 0x10 }).put (F.FLM_PORTSTAT_mode.sel (portIdx 3 1 1)) 1).setCell 7 { used := 1, inA := 0x38000 + 3 * 64 + 4 }

def wLand : State := ((wFlm.setLandPort 3 1 { bits := 0xF0, nets := [(4, 100), (5, 101)] }).setLandRow 3 0x3F).setCell 100 { used := 1, rail1 := true } |>.setCell 101 { used := 1, rail0 := true }

def wCell (u : BitVec 3) (a b c : DualRail) (full : Bool) : State :=
  let put (s : State) (i : Nat) (d : DualRail) : State := s.setCell i (match d with | .spacer => {} | .data v => { rail1 := v, rail0 := !v })
  ((put (put (put wQuad 1 a) 2 b) 3 c).setCell 9 { table := 0x96, used := u, inA := 1, inB := 2, inC := 3, rail1 := full, celem := full, ack := full })

def wMux (all : Bool) : State := ((((((wQuad.setCell 1 { rail1 := true }).setCell 2 { rail0 := true }).setCell 3 { rail0 := true }).setCell 8 { mux := 1, used := 7, inA := (if all then 3 else 4), inB := 1, inC := 2 }).setCell 9 { mux := 1, used := 7, inA := 3, inB := 1, inC := 2 }).setCell 10 { mux := 1, used := 7, inA := 3, inB := 1, inC := 2 }).setCell 11 { mux := 1, used := 7, inA := 3, inB := 1, inC := 2 }

def wIn (s : State) : State := (((s.setCell 1 { rail1 := true }).setCell 2 { rail0 := true }).setCell 3 { rail1 := true }).setBlock 0 5 { s.block 0 5 with insD := [1, 2, 3], insA := [3, 1], insW := [1] }

def wPin (o sy un : Bool) : State := { wQuad with flume := { wQuad.flume with cells := [(9, { rail1 := true })], pins := [(40, { used := true, out := o, sync := sy, net := 9, unserved := un })] } }

def wq (cmd len init : Nat) (data : List Unit128) : Pkt := { hdr := mkHdr cmd len 3 0 init 77 0 0 5 8 4 0 0 0 0x100, data := data }

def wBuf : State := { State.reset with race := { bufs := [⟨29, 4, 1, 0, wPkt 1 4 0x223 []⟩, ⟨29, 2, 1, 0, wq 1 4 0x225 []⟩, ⟨29, 2, 1, 0, wPkt 1 4 0x226 []⟩] } }

def wHop : State := State.reset.hopWrite 0x100 [1, 2, 3, 4, 5, 6, 7, 8, 9]

def wDoor : Pkt := { hdr := mkHdr 1 2 0 0 0x223 77 0 6 1 3 4 0 0 0 0x130 }

def wFp : State := ((wRun.setFarPort 6 { reqs := [⟨false, 0x12340, 4, 0, 2, 5, 3, 0, [], false⟩, ⟨true, 0x12340, 1, 0, 2, 5, 3, 0, [1,2], false⟩], prefetch := [⟨false, 0x12340, 4, 0, 2, 5, 3, 0, [], false⟩] }).put (F.MPORT_BIND_kind.sel 6) 1)

def wFpDead (b : Bool) : State := (wFp.setIsolated (htarget (wFp.fpHeader 6 ⟨false, 0x12340, 4, 0, 2, 5, 3, 0, [], b⟩ false)) true).setFarPort 6 { reqs := [⟨false, 0x12340, 4, 0, 2, 5, 3, 0, [], b⟩] }

def wReq (cmd id cyc : Nat) (data : List Unit128) : DramReq := { pk := { hdr := mkHdr cmd 1 0 0 id 5 0 0 2 8 0 0 0 0 0x40, data := data }, admitAt := cyc }

def wSrv : State := (State.reset.put (F.DDRC_STATUS_state 3) 4).setChan 3 { reads := [wReq 1 9 100 [], wReq 1 0x223 100 []] }

def wSrvLate : State := (((State.reset.put (F.DDRC_STATUS_state 3) 4).put (F.MPORT_TARGET_t.sel 9) 128).put (F.MPORT_TARGET_u.sel 9) 32).setChan 3 { reads := [{ wReq 1 9 100 [] with arrival := 5 }, wReq 1 0x223 100 []] }

def wScrub : State := ((State.reset.put (F.DDRC_SCRUB_period 15) 7).put (F.DDRC_STATUS_state 15) 4).put (F.DDRC_POP_slices 15) 16

def wRef (n : Nat) (l : List DramReq) : State := (((wScrub.put (F.DDRC_REF_steer_level 15) 4).put (F.DDRC_POP_rho 15) 1)).setChan 15 { postponed := [(0, n)], reads := l }

def wUrg : DramReq := { pk := { hdr := mkHdr 1 1 5 0 9 5 0 0 2 8 0 0 0 0 0x40 } }

def wLink : State := ((wSpk.put (F.PART_LINK_spoke_mask 0) 0x20).put (F.TURN_CONFIG_l 0) 40)

def ok (f : Frame) : Frame := { f with crc := f.check 0 }

def wMeas : State := ((wLink.put (F.PART_STATE_state 0) 4).modPart 0 (fun x => { x with syncStart := true, measure := true })).setSpoke 5 { rxNext := 16 }

def wAt (n : Nat) : State := wLink.setSpoke 5 { rxNext := n }

def wPend : State := wHalted.setPart 0 { startPend := true, turn0 := true, armed := some 7, causes := 4, invalidToTurn0 := true, waiters := [⟨1, 2, 0x22⟩] }

def wMulti : State := ((wRun.put (F.PART_LINK_module_count 0) 2).put (F.PART_LINK_spoke_mask 0) 0x20).put (F.TURN_CONFIG_l 0) 40

def wSync : State := ((((wMulti.put (F.PART_STATE_state 0) 4).setPart 0 { syncStart := true, measure := true, armed := some 9, turn0 := true }).setSpoke 5 { measuring := some 40}).put (F.SPK_STATUS_state 5) 3)

def wPeer : State := wSync.setSpoke 5 { wSync.spoke 5 with peerInfo := [(1, some (wSync.ownInfo 5 1)), (2, some (wSync.ownInfo 5 2))] }

def wOk : State := ((wPeer.put (F.SPK_CTRL_role 5) 2).put (F.SPK_PEER_peer_role 5) 3).put (F.SPK_PEER_peer_pace 5) 0

def wCap : State := wRun.put (F.ACQ_P_CTRL_en 0) 1

def wLoaded : State := (wHalted.put (F.PART_STATE_state 0) 2).setPart 0 { released := true }

def wLead : State := wHalted.put (F.PART_LINK_module_count 0) 2

def wSecond : State := wLead.put (F.PART_LINK_module_index 0) 1

def wHl (x : LineSt) : State := { wMulti with lines := { x with haltPending := true } }

def wEng : State := (State.reset.put F.RING_CTRL_en 1).put F.PCIE_STATUS_up 1

def wR4 : State := (((wEng.put (F.RING_R_CFG_en 4) 1).put (F.RING_R_CFG_size 4) 4).setRing 4 { dev := 6, host := 2 })

def wCopy (op len : Nat) : BitVec 512 := wDesc op 0xFF 0x1000 len (3 * 2 ^ 40 + 0x4000) 0

def wData : List Byte := (List.range 128).map (fun i => BitVec.ofNat 8 (i + 1))

def wRunning (s : State) (d : BitVec 512) : State := (wRing s 1 d).setRing 1 { dev := 5, running := some (9, d) }

def wBar4 : State := wDram.put F.PCIE_BAR4CTL_en 1 |>.put F.PCIE_BAR4CTL_target 3

def wHeld : State := { (wR4.setRing 4 { dev := 6, host := 2, held := [[1,2],[3]] }) with evt := { queue := [{ code := 0x1001, part := 0, anchored := false, tb0 := 1, tb1 := 2, data := [], num := 3 }] } }

def wPolled (s : State) (l : List (Nat × Nat)) : State := { s with host := { s.host with poll := some l } }

def wTwo : State := ((wR4.put (F.RING_R_CFG_en 2) 1).put (F.RING_R_CFG_size 2) 4)

def wR2 : State := (((wEng.put (F.RING_R_CFG_en 2) 1).put (F.RING_R_CFG_size 2) 4).setRing 2 { dev := 5, host := 8, fetched := [3] })

def wGovD : State := ((((((State.reset.put F.GOV_CTRL_dram_en 1).put F.GOV_DRAMCFG_interval 1).put F.GOV_DRAMCFG_min_bursts 1).put F.GOV_DRAMCFG_osc_per_step 8).put F.GOV_DRAMCFG_centre_thr 2).put (F.DDRC_STATUS_state 3) 4).put ((F.DPHY_RDEYE_centre 3).sel 33) 40 |>.put ((F.DPHY_WRDLY_delay 3).sel 33) 40

def wLane : State := ((((State.reset.put F.GOV_CTRL_lane_en 1).put F.GOV_LANECFG_interval 1).put F.GOV_LANECFG_fom_drop 4).put (F.SPK_STATUS_state 5) 3).put (F.LANE_STAT_fom 43) 30

def wTrial : State := { wLane with gov := { wLane.gov with trials := [(43, some (7, 25))], eqCode := [(43, 8)] } }

def wFlmJ : State := let s := ((((wRun.put F.GOV_FLMCFG_window 5).put F.GOV_CTRL_flume_en 1).put F.GOV_FLMCFG_raise_bin 3).put F.GOV_FLMLIM_up_step 10).put F.GOV_FLMLIM_ceiling 60
  { (s.setRegion 5 { used := true, launched := true }).put (F.GOV_VFLUME_target 0) 700 with gov := { s.gov with win := [(5*16+2, 9), (5*16+7, 3)], mov := [(600*16+7, 3)] } }

def wMis : State := (State.reset.put (F.RACE_DEADM_dead 0) 1)

def wFlmLow : State := let s := ((wFlmJ.put F.GOV_FLMCFG_lower_bin 6).put F.GOV_FLMLIM_down_step 5).put F.GOV_FLMCFG_min_fires 0; { s with gov := { s.gov with win := [(5*16+7, 9)], mov := [] } }

def wC : State := [R.RACE_DEADCNT, R.RACE_DROP, R.RACE_ECC, R.STAT_UNITS 3, R.STAT_LAT 3, R.RACE_UNITS_LO, R.RACE_PEAKWAIT, R.MILL_ECC 5, R.FLM_DROPCNT, R.FLM_ECC, R.MPORT_PFISSUE, R.MPORT_STATUS, R.MPORT_RANGE, selAddr R.MPORT_PSTAT 5, R.DDRC_CE 3, R.DDRC_LATE 3, R.SPK_LAT 5, R.SPK_ERR 5, selAddr R.SLC_DROPS 7, R.HOP_STALL 2, R.HOP_DENY, R.HOP_ECC, R.SCHED_REFCNT, R.SCHED_STATUS, selAddr R.ACQ_CNTDATA 4, R.TRC_LOST, R.TRC_CORE 3, R.PTP_RXFRAMES, R.PTP_RXERR, R.EVT_PARTCNT 1, R.EVT_DEVCNT, R.EVT_RAISED].foldl (fun s a => s.setReg a 0x00FF1234) State.reset

def wPow : State := (((State.reset.put F.PWR_CTRL_en 1).put (F.PART_QMASK_qmask 0) 1).put (F.PART_STATE_state 0) 4)

def wRow (s : State) : State := { s.setRow (9 * 16 + 3) 5 77 with dm := { s.dm with mem := [(9 * 16384 + 5, 8), (99 * 16384 + 5, 8)] } }

def wIdle : State := wRow (State.reset.put F.PWR_CTRL_en 1)

def wSens : State := (State.reset.put F.SENS_LIMITS_warn 90).put F.SENS_LIMITS_trip 110

def wLive : State := ((((wRing (wRow wRun) 2 0).put F.RST_STATUS_pwr_ok 1).put F.RST_STATUS_reset_n 1).put F.RST_SEQ_stage 5).put F.EVT_CTRL_hist_freeze 0

def wKey : State := { wLive with host := { wLive.host with table := [(3, 0)] }, dram := { mem := [(7, 9)] }, keys := State.reset.keys, uptime := 1600000000 }

def wBytes (l : List (Nat × Nat)) : State := { wDram with dram := { wDram.dram with mem := l.foldl (fun m e => mset dramByte m (dramKey 3 0x4000 + e.1) (BitVec.ofNat 8 e.2)) [] } }

def wImg (segs : Nat) : State := (({ wBytes ([(0, 0x48), (1, 0x4F), (2, 0x4B), (3, 0x31), (4, 1), (8, 4), (9, 1), (10, 1), (12, 255), (13, 1), (14, 1), (17, 7), (18, 2), (25, 1), (0x49, 0x10), (0x50, segs), (0x201, 0x10), (0x209, 0x10)]) with
  keys := { slots := [(0, some 99)] } }.put (F.PART_QMASK_qmask 0) 1).put (F.PART_STATE_state 0) 1)

def wJob (cmd pass : Nat) : LoadJob := { cmd := cmd, part := 0, chan := 3, addr := 0x4000, len := 0x2000, pass := pass }

def wAct (segs : Nat) (j : LoadJob) : State := { wImg segs with loader := { active := some j, locks := [⟨0, 3, 0x4000, 0x2000⟩] } }

def wQ (segs : Nat) (j : LoadJob) : State := { wImg segs with loader := { queue := [j], locks := [⟨0, 3, 0x4000, 0x2000⟩] } }

def wE : State := wDram.put (F.PART_QMASK_qmask 0) 1

def wStaged (s : State) : State := ({ s with loader := { staged := [(0, some ⟨3, 0x4000, 0x2000, [], []⟩)], locks := [⟨0, 3, 0x4000, 0x2000⟩, ⟨1, 3, 0x8000, 0x2000⟩] } }).put (F.CFG_P_PARTIAL_staged 0) 1

def wLd : BitVec 512 := wDesc 0x10 0 0 0x2000 (3 * 2 ^ 40 + 0x4000) 5

def wSt : BitVec 512 := wDesc 0x11 0 0 0x2000 (3 * 2 ^ 40 + 0x4000) 0

def wSl (k prod cons : Nat) : State := (State.reset.setReg (selAddr R.SLC_CFG k) (BitVec.ofNat 32 (2 ^ 31 + prod * 16 + cons)))

def wIt : SlItem := { prio := 2, len := 4, data := [1,2,3,4], order := 3 }

def wArr : Pkt := { hdr := mkHdr 1 4 0 0 0 77 0 0 5 8 4 0 0 0 48, data := [5, 6] }

def wArr0 : Pkt := { hdr := mkHdr 1 4 0 0 0 77 0 0 5 8 0 0 0 0 3, data := [5, 6] }

def wFull (k : Nat) : List SlItem := (List.range 8).map (fun i => { prio := 1, len := 960, data := List.replicate 960 1, order := i })

def wRdD : Unit128 := mkHdr 0 1 0 0 0 77 0 0 5 8 0 0 0 0 48

def wRdH : Unit128 := mkHdr 0 1 0 0 0 77 0 0 5 8 0 0 0 0 0

def wPort (s : State) (k : Nat) (l : List (Nat × BitVec 64)) : State := l.foldl (fun s e => s.setPort k e.1 e.2) s

def wWi : WItem := { w0 := 0x100, w1 := 5, w2 := 0, w3 := 6 }

def wOn (k : Nat) (c : SchedCore) : State := ({ State.reset with millers := [] }.put F.SCHED_CTRL_en 1).setSchedCore k c

def wPut : State := wPort ((wSl 7 4 3)) 2 [(4, 4 * 2 ^ 16 + 2 * 256 + 7), (5, 0x20000000)]

def wGet : State := (wPort ((wSl 7 3 4)) 2 [(4, 7), (5, 0x10000000)]).setSluice 7 { cur := some (wIt, 0) }

def wHopO (l : List (Nat × Nat)) (s : State) : State := l.foldl (fun s e => s.hopWrite e.1 (natLe 4 e.2)) s

def wMil (w : Nat) (l : List (Nat × BitVec 64)) : State :=
  (wHopO [(0x100, w)] (((State.reset.put F.RST_SEQ_stage 3).put (F.MLR_CTRL_hold 2) 0))).setMiller 2 { pc := 0x10000100, x := l, csr := [(0x305, 0x2001)], resv := some 8 }

def wAm : State := wHopO [(0x200, 0x80000001), (0x204, 0xFFFFFFFF)] (wMil 0x73 [(7, 5)]) |>.setMiller 2 { (wMil 0x73 [(7, 5)]).miller 2 with resv := some 8 } |>.setMiller 5 { resv := some 8 }

def wKeyP : State := { State.reset with keys := { slots := [(4, some 9)] } }

def wKey5 : State := { State.reset with keys := { slots := [(7, some 9)] } }

def wChal : State := wKeyP.setAuthPort 1 { chal := some 5, level := 1, scope := 3 }

def wSess : State := (((((wKeyP.setReg (sessReg 1) 0x80000003).setWatchOwner 2 3 1).put (F.DBG_WCFG_en.sel (watchIdx 2 3)) 1).setWatchOwner 2 4 2).put (coreOwnerFld 3) 1).setMiller 3 { halted := true }

def wFull3 (s : State) : State := s.setReg (sessReg 1) (BitVec.ofNat 32 (2 ^ 31 + 31))

def wObs (s : State) : State := s.setReg (sessReg 1) (BitVec.ofNat 32 (2 ^ 30 + 31))

def wFrz (s : State) : State := s.put F.GOV_CTRL_freeze 1

def wCore (m : MillerSt) : State := ((wFull3 State.reset).put F.DBG_MSEL_core 3).setMiller 3 m

def wRa (s : State) (a : Nat) : State := s.put F.DBG_RADDR_offset (a / 4)

def wBd (s : State) (a : Nat) : State := s.put F.DBG_BDADDR_LO_addr (a / 16)

def wDoorQ : State := wBd (wFull3 (wBytes [(0, 5), (1, 6), (13, 7)])) 0x4000

def wAcq : State := (((wDram.put (F.ACQ_P_RING_channel 0) 3).put (F.ACQ_P_HBUF_LO_size 0) 0).put (F.PART_QMASK_qmask 0) 1).put (F.PART_STATE_state 0) 3

def wEn (x : CapPart) : State := (wAcq.put (F.ACQ_P_CTRL_en 0) 1).setCap 0 x

def wItm (miss : List Nat) : CapItem := { kind := 1, turn := 5, mills := [3, 4], missing := miss }

def wPost : State := ((((wEn { written := 256, copied := 64, recs := [(0, 5, 1), (64, 3, 8), (128, 1, 9)] |>.tail }).put F.RING_CTRL_en 1).put F.PCIE_STATUS_up 1).put (F.RING_R_CFG_en 9) 1).put (F.RING_R_CFG_size 9) 2

def wLos (x : CapPart) : State := ((wEn x).put (F.TURN_CONFIG_k 0) 64).modPart 0 (fun y => { y with lossless := true })

def wT0 : State := (wDram.put ⟨R.TRC_RING, 28, 4⟩ 3).put (F.TRC_CORE_en 2) 1

def wT1 (x : TrcCore) : State := (((wT0.put F.TRC_CTRL_en 1).put F.TRC_CTRL_ctx_mask 31).setTrc 2 x).put F.TRC_STOPDLY_cycles 9

def wSyn : State := ((wT1 { buf := [5], resync := false }).setSchedCore 2 { stack := [⟨0x100, 0, 1, 0, 5⟩] }).put F.TRC_SYNC_period 4

def wTm (x : TimeSt) : State := { State.reset with time := x }

def wPg (n : Nat) : State := ((wTm { ns := [(0, 100), (2, 5)], next := [(3, 90)] }).put (F.TB_PGCFG_en.sel 3) 1).put (F.TB_PGCOUNT_count.sel 3) n

def wCapT (c : Nat) : State := (wTm { ns := [(0, 100), (2, 5)] }).put F.TB_CAPCFG_inputs (c * 16 ^ 5) |>.put (F.GPIO_PIN_func 21) 2

def wPtp : State := ((((State.reset.put F.PTP_CTRL_en 1).put F.PTP_CTRL_ts_rx_en 1).put F.PTP_CTRL_ts_tx_en 1).put F.PTP_FILTER_transports 7).put F.PTP_FILTER_any_domain 1

def wMsg (t : Fin 4) : PtpMsg := { mtype := t, domain := 5, seq := 77, clockId := 0x123456789ABC, port := 3, transport := 1 }

def wMlr0 : State := State.reset

def wBnk (mv tol : Nat) : State := (State.reset.put (F.SENS_VMON_mv 12) mv).put F.SENS_VTOL_permille tol

def wEv : State := ((State.reset.put (F.MLR_CTRL_events 3) 1).setReg (R.EVT_RDATA 2) 0x55).put F.EVT_RAISED_count 0xFFFFFFFF

def wTc : State := State.reset.put64 (R.TURN_COUNT_LO 1) (R.TURN_COUNT_HI 1) 0x1234567890

/-- The MAC that answers challenge 5 of port 1, level 1, scope 3 under key 9. -/
def wMac : BitVec 256 := Config.hmac 9 (authMessage 5 1 1 3)

/-- Word w of it. -/
def wMacWord (w : Nat) : Word := BitVec.ofNat 32 (wMac.toNat / 2 ^ (32 * w))

/-- Port 1 has a challenge and has written the first seven words of the answer. -/
def wSigned : State := wKeyP.setAuthPort 1 { chal := some 5, level := 1, scope := 3, resp := (List.range 7).map (fun w => (w, wMacWord w)) }

theorem wSigned_port : (wSigned.writeResp 1 7 (wMacWord 7)).authPort 1 =
    { wSigned.authPort 1 with resp := mset (fun _ => 0) ((List.range 7).map (fun w => (w, wMacWord w))) 7 (wMacWord 7) } := rfl

theorem wMac_words (w : Nat) (h : w < 8) :
    mget (fun _ => 0) (mset (fun _ => 0) ((List.range 7).map (fun w => (w, wMacWord w))) 7 (wMacWord 7)) w = wMacWord w := by
  rw [mget_mset]
  have e : w = 0 ∨ w = 1 ∨ w = 2 ∨ w = 3 ∨ w = 4 ∨ w = 5 ∨ w = 6 ∨ w = 7 := by omega
  rcases e with rfl | rfl | rfl | rfl | rfl | rfl | rfl | rfl <;> rfl

theorem words_fold (f : Nat → Word) (n : Nat) (hf : ∀ w, w < 8 → f w = BitVec.ofNat 32 (n / 2 ^ (32 * w))) (k : Nat) (hk : k ≤ 8) :
    (List.range k).foldl (fun a w => a + (f w).toNat * 2 ^ (32 * w)) 0 = n % 2 ^ (32 * k) := by
  induction k with
  | zero => simp [Nat.mod_one]
  | succ k ih =>
    rw [List.range_succ, List.foldl_append, ih (by omega)]
    simp only [List.foldl, hf k (by omega), BitVec.toNat_ofNat]
    rw [Nat.mul_succ, Nat.pow_add, Nat.mod_mul, Nat.mul_comm (2 ^ (32 * k))]

theorem wSigned_response : ((wSigned.writeResp 1 7 (wMacWord 7)).authPort 1).response = wMac := by
  rw [wSigned_port]
  unfold AuthPort.response
  rw [words_fold _ wMac.toNat wMac_words 8 (by decide)]
  apply BitVec.eq_of_toNat_eq
  rw [BitVec.toNat_ofNat, Nat.mod_mod, Nat.mod_eq_of_lt wMac.isLt]

/-- The hypotheses of the clause on a correct response, met. -/
theorem wSigned_meets :
    ∃ (s : State) (who : Requester) (value : Word) (port n : Nat) (c k : BitVec 256),
      let x := (s.writeResp port 7 value).authPort port
      s.dbgPort who = some port ∧ 1 ≤ port ∧ port ≤ 3 ∧ x.chal = some c ∧ n ∈ levelSlots x.level ∧ (x.level = 1 ∨ x.level = 2) ∧ x.scope < 32 ∧
      s.key n = some k ∧ Config.hmac k (authMessage c port x.level x.scope) = x.response ∧ s.sessLevel port = 0 :=
  ⟨wSigned, .jtag, wMacWord 7, 1, 4, 5, 9, by decide +kernel, by decide +kernel, by decide +kernel, by decide +kernel, by decide +kernel, by decide +kernel,
    by decide +kernel, by decide +kernel, wSigned_response.symm, by decide +kernel⟩

/-- A packet finds room in an empty buffer, whatever buffers hold beyond one packet. -/
theorem room_of_empty (s : State) (m i : Nat) (pk : Pkt)
    (he : s.race.bufs.filter (fun b => b.router == m && b.input == i && b.vc == virtualChannel m pk.hdr) = []) (hu : pk.units ≤ 33) :
    s.roomAt m i pk = true := by
  simp only [State.roomAt, he, List.foldl]
  exact decide_eq_true (by omega)

theorem wPkt_enters (cmd : Nat) (h : cmd = 1 ∨ cmd = 9) : State.reset.enters 29 4 (wPkt cmd 4 0x223 []) = true := by
  unfold State.enters
  rw [room_of_empty _ _ _ _ rfl (by rcases h with rfl | rfl <;> decide +kernel)]
  rcases h with rfl | rfl <;> decide +kernel

theorem wBuf_grants :
    wBuf.granted 29 0 (wBuf.roomAt 21 2) = some ⟨29, 2, 1, 0, wq 1 4 0x225 []⟩ := by
  have e : ∀ b ∈ wBuf.race.bufs, wBuf.roomAt 21 2 b.pkt = true := by
    intro b hb
    have hb' : b.router = 29 ∧ b.pkt.units ≤ 33 := by revert b; decide +kernel
    exact room_of_empty _ _ _ _ rfl hb'.2
  have f : wBuf.granted 29 0 (wBuf.roomAt 21 2) = wBuf.granted 29 0 (fun _ => true) := by
    unfold State.granted
    rw [List.filter_congr (q := fun b => b.router == 29 && b.output == 0 && wBuf.atHead b && true) (fun b hb => by rw [e b hb])]
  rw [f]
  decide +kernel

/-! ## The hypotheses of the statements can be met -/

theorem test_witness_EvalResult :
  (∃ (s : State) (p : Nat) (m : Mill) (st : Stone) (b : Bp) (n : Step),
    let w := s.word (siteOf m st) b n
    let i := 8 * s.bitAt p m st n (opdOf w) + 4 * s.bitAt p m st n (opcOf w) + 2 * s.bitAt p m st n (opbOf w) + s.bitAt p m st n (opaOf w)
    s.Executes m n p ∧ opOf (s.word (siteOf m st) b n) = 1 ∧ s.Readable p m st b n (rowsOf (s.word (siteOf m st) b n))) :=
  ⟨(withWord wRun 0 3 5 (iw 1 0x8001 0x10000 0x10001 0x10002 0x10003)), 0, 0, 0, 3, 5, by unfold State.Executes State.Caught State.Readable; dsimp only; decide +kernel⟩

theorem test_witness_ImportStateAndFuse :
  (∃ (s : State) (p : Nat) (m : Mill) (st : Stone) (b : Bp) (n : Step),
    let w := s.word (siteOf m st) b n
    let i := 4 * s.bitAt p m st n (opcOf w) + 2 * s.bitAt p m st n (opbOf w) + s.bitAt p m st n (opaOf w)
    let r := physRow (!(s.part p).bank) (rowOf (opdOf w))
    s.Executes m n p ∧ opOf w = 2 ∧ s.Readable p m st b n [rowOf (opaOf w), rowOf (opbOf w), rowOf (opcOf w)]) ∧
  (∃ (s : State) (p : Nat) (m : Mill) (st : Stone) (b : Bp) (n : Step),
    let w := s.word (siteOf m st) b n
    s.Executes m n p ∧ opOf w = 0 ∧ s.Readable p m st b n [] ∧ (opaOf w).toNat / 2 ^ 16 = 0) ∧
  (∃ (s : State) (p : Nat) (m : Mill) (st : Stone) (b : Bp) (n : Step),
    let w := s.word (siteOf m st) b n
    let src := m.val * 16 + (opaOf w).toNat / 64 % 16
    let l := (opaOf w).toNat % 64
    let v := match s.turnWrite src (n - 4) l (n - 4) with | some v => v | none => laneBit (s.baseRow src (n - 4)) l
    s.Executes m n p ∧ 4 ≤ n.val ∧ opOf w = 0 ∧ s.Readable p m st b n [] ∧ (opaOf w).toNat / 2 ^ 16 = 1) ∧
  (∃ (s : State) (p : Nat) (m : Mill) (st : Stone) (k : Fin 32) (n : Step),
    let site := siteOf m st
    let w0 := s.word site (2 * k) n
    let w1 := s.word site (2 * k + 1) n
    let i := 8 * s.bitAt p m st n (opdOf w0) + 4 * s.bitAt p m st n (opcOf w0) + 2 * s.bitAt p m st n (opbOf w0) + s.bitAt p m st n (opaOf w0)
    let v := if s.bitAt p m st n (opaOf w1) = 1 then (ttOf w1).getLsbD i else (ttOf w0).getLsbD i
    s.Executes m n p ∧ opOf w0 = 3 ∧ opOf w1 = 3 ∧ s.Readable p m st (2 * k) n (rowsOf w0) ∧ s.Readable p m st (2 * k + 1) n [rowOf (opaOf w1)]) ∧
  (∃ (s : State) (p : Nat) (m : Mill) (st : Stone) (k : Fin 16) (n : Step),
    let site := siteOf m st
    let w (j : Nat) := s.word site (4 * k + j) n
    let i := 8 * s.bitAt p m st n (opdOf (w 0)) + 4 * s.bitAt p m st n (opcOf (w 0)) + 2 * s.bitAt p m st n (opbOf (w 0)) + s.bitAt p m st n (opaOf (w 0))
    let q := 2 * s.bitAt p m st n (opbOf (w 1)) + s.bitAt p m st n (opaOf (w 1))
    let v := (ttOf (w q)).getLsbD i
    s.Executes m n p ∧ ((∀ j, j < 4 → opOf (w j) = 4)) ∧ opdOf (w 1) = 0x3803F ∧ s.Readable p m st (4 * k) n (rowsOf (w 0)) ∧
    s.Readable p m st (4 * k + 1) n [rowOf (opaOf (w 1)), rowOf (opbOf (w 1))] ∧ s.Readable p m st (4 * k + 2) n [] ∧
    s.Readable p m st (4 * k + 3) n []) ∧
  (∃ (s : State) (p : Nat) (m : Mill) (st : Stone) (k : Fin 16) (n : Step),
    let site := siteOf m st
    let w (j : Nat) := s.word site (4 * k + j) n
    let row := (ttOf (w 0)).toNat / 16
    let g := (ttOf (w 0)).toNat % 16
    let lane (j : Nat) : Nat := (s.readLane site (s.part p).bank row (4 * g + j) n).toNat
    let sel := lane 0 + 2 * lane 1 + 4 * lane 2 + 8 * lane 3
    let x := w (sel / 4)
    let f := match sel % 4 with | 0 => opaOf x | 1 => opbOf x | 2 => opcOf x | _ => opdOf x
    let v := s.bitAt p m st n f == 1
    s.Executes m n p ∧ ((∀ j, j < 4 → opOf (w j) = 4)) ∧ opdOf (w 1) ≠ 0x3803F ∧ s.Readable p m st (4 * k) n (row :: rowsOf (w 0)) ∧
    ((∀ j, j < 4 → s.Readable p m st (4 * k + j) n (rowsOf (w j))))) ∧
  (∃ (s : State) (p : Nat) (m : Mill) (st : Stone) (b : Bp) (n : Step),
    s.Executes m n p ∧ opOf (s.word (siteOf m st) b n) = 1 ∧ s.wordBad (siteOf m st) b n = true ∧ (s.part p).storeErr = none ∧
    (s.part p).storeUe = false) ∧
  (∃ (s : State) (p : Nat) (m : Mill) (st : Stone) (b : Bp) (n : Step),
    let site := siteOf m st
    let w := s.word site b n
    let bad (x : BitVec 18) : Bool := rowStored (rowOf x) && s.rowBad site (s.part p).bank (rowOf x) n
    let v (x : BitVec 18) : Nat := if bad x then 0 else s.bitAt p m st n x
    let i := 8 * v (opdOf w) + 4 * v (opcOf w) + 2 * v (opbOf w) + v (opaOf w)
    s.Executes m n p ∧ opOf w = 1 ∧ s.wordBad site b n = false ∧ (bad (opaOf w) || bad (opbOf w) || bad (opcOf w) || bad (opdOf w)) = true) ∧
  (∃ (s : State) (p : Nat) (m : Mill) (st : Stone) (b : Bp) (n : Step) (e : Nat × List Nat),
    s.millOwner m = some p ∧ s.running p = true ∧ s.stepClock = true ∧ s.on (F.TURN_STATUS_holding p) = false ∧ n.val < s.depth p ∧
    (s.part p).storeErr = some e ∧ (s.part p).step ≠ n.val ∧ (s.part p).votePend = [] ∧ s.word (siteOf m st) b n = 0 ∧
    s.wordBad (siteOf m st) b n = false) :=
  ⟨⟨(withWord wRun 0 3 5 (iw 2 0x8001 1 2 3 (0x801 * 64 + 7))), 0, 0, 0, 3, 5, by unfold State.Executes State.Caught State.Readable; dsimp only; decide +kernel⟩,
   ⟨(withWord wRun 0 3 5 (iw 0 0 0 0 0 0)), 0, 0, 0, 3, 5, by unfold State.Executes State.Caught State.Readable; dsimp only; decide +kernel⟩,
   ⟨(withRow (withWord wRun 0 3 5 (iw 0 0 (0x10000 + 2 * 64 + 9) 0 0 0)) 2 1 (2 ^ 9)), 0, 0, 0, 3, 5, by unfold State.Executes State.Caught State.Readable; dsimp only; decide +kernel⟩,
   ⟨(withWord (withWord wRun 0 2 5 (iw 3 0xFFFF 1 2 3 4)) 0 3 5 (iw 3 0 1 0 0 0)), 0, 0, 0, 1, 5, by unfold State.Executes State.Caught State.Readable; dsimp only; decide +kernel⟩,
   ⟨(withWord (withWord (withWord (withWord wRun 0 4 5 (iw 4 0xFFFF 1 2 3 4)) 0 5 5 (iw 4 0 1 2 0 0x3803F)) 0 6 5 (iw 4 0 1 0 0 0)) 0 7 5 (iw 4 0 1 0 0 0)), 0, 0, 0, 1, 5, by unfold State.Executes State.Caught State.Readable; dsimp only; decide +kernel⟩,
   ⟨(withWord (withWord (withWord (withWord wRun 0 4 5 (iw 4 0xFFFF 1 2 3 4)) 0 5 5 (iw 4 0 1 2 0 0)) 0 6 5 (iw 4 0 1 0 0 0)) 0 7 5 (iw 4 0 1 0 0 0)), 0, 0, 0, 1, 5, by unfold State.Executes State.Caught State.Readable; dsimp only; decide +kernel⟩,
   ⟨({ withWord wRun 0 3 5 (iw 1 0x8001 0x10000 0x10001 0x10002 0x10003) with stones := { (withWord wRun 0 3 5 (iw 1 0x8001 0x10000 0x10001 0x10002 0x10003)).stones with ueWords := [(wordKey 0 3 5, true)] } }), 0, 0, 0, 3, 5, by unfold State.Executes State.Caught; decide +kernel⟩,
   ⟨((withWord wRun 0 3 5 (iw 1 0x8001 (64 * 4) (64 * 7) 0x38040 0x10003)).markRow 0 4 1), 0, 0, 0, 3, 5, by unfold State.Executes State.Caught; dsimp only; decide +kernel⟩,
   ⟨((wRun.setPart 0 { storeErr := some (9, [1, 2, 1, 4, 5, 6]), step := 4 })), 0, 0, 0, 3, 5, (9, [1, 2, 1, 4, 5, 6]), by decide +kernel⟩⟩

theorem test_witness_BreakFires :
  (∃ (s : State) (p : Nat) (m : Mill) (st : Stone) (b : Bp) (n : Step),
    let w := s.word (siteOf m st) b n
    let i := 8 * s.bitAt p m st n (opdOf w) + 4 * s.bitAt p m st n (opcOf w) + 2 * s.bitAt p m st n (opbOf w) + s.bitAt p m st n (opaOf w)
    p < 4 ∧ s.Executes m n p ∧ opOf w = 10 ∧ s.Readable p m st b n (rowsOf w) ∧ (s.part p).breakEn = true ∧ (ttOf w).getLsbD i = true ∧
    s.get (F.DBG_BREAKREC_valid p) = 0) ∧
  (∃ (s : State) (p : Nat) (m : Mill) (st : Stone) (b : Bp) (n : Step),
    let w := s.word (siteOf m st) b n
    s.Executes m n p ∧ opOf w = 10 ∧ s.Readable p m st b n (rowsOf w) ∧ (s.part p).breakEn = false) :=
  ⟨⟨((withWord wRun 0 3 5 (iw 10 0xFFFF 1 2 3 4)).setPart 0 { breakEn := true }), 0, 0, 0, 3, 5, by unfold State.Executes State.Caught State.Readable; dsimp only; decide +kernel⟩,
   ⟨(withWord wRun 0 3 5 (iw 10 0xFFFF 1 2 3 4)), 0, 0, 0, 3, 5, by unfold State.Executes State.Caught State.Readable; dsimp only; decide +kernel⟩⟩

theorem test_witness_MillMemoryOps :
  (∃ (s : State) (p : Nat) (m : Mill) (st : Stone) (b : Bp) (n : Step) (row lsb : Nat),
    let w := s.word (siteOf m st) b n
    let a := (s.readRow (siteOf m st) (s.part p).bank (rowOf (opaOf w)) n).toNat
    let d := s.desc m (a / 2 ^ 60 % 16)
    s.Executes m n p ∧ opOf w = 5 ∧ s.Readable p m st b n [rowOf (opaOf w)] ∧ (opbOf w).toNat % 4 = 0 ∧ d.place (a % 2 ^ 23) = some (row, lsb)) ∧
  (∃ (s : State) (p : Nat) (m : Mill) (st : Stone) (b : Bp) (n : Step) (row lsb : Nat),
    let w := s.word (siteOf m st) b n
    let a := (s.readRow (siteOf m st) (s.part p).bank (rowOf (opaOf w)) n).toNat
    let d := s.desc m (a / 2 ^ 60 % 16)
    let r := rowOf (opbOf w)
    let count := (opcOf w).toNat % 8 + 1
    let data := (List.range count).foldr (fun i acc => (s.readRow (siteOf m st) (s.part p).bank (r + i) n).toNat + 2 ^ 64 * acc) 0
    s.Executes m n p ∧ opOf w = 6 ∧ s.Readable p m st b n (rowOf (opaOf w) :: (List.range count).map (r + ·)) ∧ (opdOf w).toNat % 4 = 0 ∧
    d.place (a % 2 ^ 23) = some (row, lsb) ∧ s.Unwatched p) ∧
  (∃ (s : State) (p : Nat) (m : Mill) (st : Stone) (b : Bp) (n : Step) (x : MmResult),
    let w := s.word (siteOf m st) b n
    let site := siteOf m st
    let count := (opbOf w).toNat % 8 + 1
    let row := rowOf (opdOf w)
    s.Executes m n p ∧ opOf w = 7 ∧ s.Readable p m st b n [] ∧ (opbOf (s.word site (laneOf (opaOf w)) (rowOf (opaOf w)))).toNat % 4 = 0 ∧
    (s.dm.results.find? (fun x => x.mill == m.val && x.stone == st.val && x.bp == laneOf (opaOf w) && x.step == rowOf (opaOf w)) = some x) ∧
    x.ue = false ∧ 0xF00 ≤ row ∧ s.Unwatched p) ∧
  (∃ (s : State) (p : Nat) (m : Mill) (st : Stone) (b : Bp) (n : Step) (x : MmResult),
    let w := s.word (siteOf m st) b n
    let site := siteOf m st
    let count := (opbOf w).toNat % 8 + 1
    let row := rowOf (opdOf w)
    s.Executes m n p ∧ opOf w = 7 ∧ s.Readable p m st b n [] ∧ (opbOf (s.word site (laneOf (opaOf w)) (rowOf (opaOf w)))).toNat % 4 = 0 ∧
    (s.dm.results.find? (fun x => x.mill == m.val && x.stone == st.val && x.bp == laneOf (opaOf w) && x.step == rowOf (opaOf w)) = some x) ∧
    x.ue = true ∧ 0xF00 ≤ row ∧ s.Unwatched p) ∧
  (∃ (s : State) (p : Nat) (m : Mill) (st : Stone) (b : Bp) (n : Step) (f : Fin 2) (j : Nat),
    let w := s.word (siteOf m st) b n
    let id := 2 * m.val + f.val
    let i := (s.readRow (siteOf m st) (s.part p).bank (rowOf (opaOf w)) n).toNat % 2 ^ 40
    let cyc := s.cycleOf p n
    let r := (s.dest id i).1
    let a := (s.dest id i).2
    let dead := s.isolated (targetKey true r)
    s.Executes m n p ∧ opOf w = 5 ∧ s.Readable p m st b n [rowOf (opaOf w)] ∧ (opbOf w).toNat % 4 = f.val + 1 ∧ s.fpKind id ≠ 0 ∧
    s.freeSlot id = some j ∧ s.fpOut id i s.hostSize = false ∧ (s.farPort id).reqs.length < 32 ∧ s.on (F.MPORT_BIND_stream.sel id) = false) ∧
  (∃ (s : State) (p : Nat) (m : Mill) (st : Stone) (b : Bp) (n : Step) (f : Fin 2) (j : Nat),
    let w := s.word (siteOf m st) b n
    let id := 2 * m.val + f.val
    let i := (s.readRow (siteOf m st) (s.part p).bank (rowOf (opaOf w)) n).toNat % 2 ^ 40
    s.Executes m n p ∧ opOf w = 5 ∧ s.Readable p m st b n [rowOf (opaOf w)] ∧ (opbOf w).toNat % 4 = f.val + 1 ∧ s.fpKind id ≠ 0 ∧
    s.freeSlot id = some j ∧ s.fpOut id i s.hostSize = true) ∧
  (∃ (s : State) (p : Nat) (m : Mill) (st : Stone) (b : Bp) (n : Step) (f : Fin 2),
    let w := s.word (siteOf m st) b n
    let id := 2 * m.val + f.val
    let i := (s.readRow (siteOf m st) (s.part p).bank (rowOf (opaOf w)) n).toNat % 2 ^ 40
    let r := rowOf (opbOf w)
    let count := (opcOf w).toNat % 8 + 1
    let v := (List.range count).foldr (fun k acc => (s.readRow (siteOf m st) (s.part p).bank (r + k) n).toNat + 2 ^ 64 * acc) 0
    let a := (s.dest id i).2
    let dead := s.isolated (targetKey true (s.dest id i).1)
    let len := (s.fpStride id + 15) / 16
    let data := unitBytes (unitsOf (a % 16) (s.fpStride id) (getBits (BitVec.ofNat 512 v) 0 (s.fpWidth id)))
    s.Executes m n p ∧ opOf w = 6 ∧ s.Readable p m st b n (rowOf (opaOf w) :: (List.range count).map (r + ·)) ∧ (opdOf w).toNat % 4 = f.val + 1 ∧
    s.fpKind id ≠ 0 ∧ s.fpOut id i s.hostSize = false ∧ (s.farPort id).reqs.length < 32 ∧ s.Unwatched p) ∧
  (∃ (s : State) (p : Nat) (m : Mill) (st : Stone) (b : Bp) (n : Step) (f : Fin 2) (j : Nat),
    let w := s.word (siteOf m st) b n
    let site := siteOf m st
    let id := 2 * m.val + f.val
    let count := (opbOf w).toNat % 8 + 1
    let row := rowOf (opdOf w)
    let v := getBits (s.slot id j).data 0 (s.fpWidth id)
    s.Executes m n p ∧ opOf w = 7 ∧ s.Readable p m st b n [] ∧ (opbOf (s.word site (laneOf (opaOf w)) (rowOf (opaOf w)))).toNat % 4 = f.val + 1 ∧
    s.slotOf id st (laneOf (opaOf w)) (rowOf (opaOf w)) = some j ∧ (s.slot id j).done = true ∧ s.atLimit p n = false ∧ 0xF00 ≤ row ∧ s.Unwatched p) :=
  ⟨⟨{ (withRow (withWord wRun 0 3 5 (iw 5 0 (0x805 * 64) 0 0 0)) 0 0x805 7) with dm := { descs := [(0, ⟨true, 0, 4, 64⟩)], mem := [(0, 12345 <<< 448)] } }, 0, 0, 0, 3, 5, 0, 448, by unfold State.Executes State.Caught State.Readable; dsimp only; decide +kernel⟩,
   ⟨{ (withRow (withWord wRun 0 3 5 (iw 6 0 (0x805 * 64) (0x802 * 64) 0 0)) 0 0x805 7) with dm := { descs := [(0, ⟨true, 0, 4, 64⟩)] } }, 0, 0, 0, 3, 5, 0, 448, by unfold State.Executes State.Caught State.Readable State.Unwatched; dsimp only; decide +kernel⟩,
   ⟨{ (withWord (withWord wRun 0 3 50 (iw 7 0 (5 * 64 + 2) 0 0 (0xF00 * 64))) 0 2 5 (iw 5 0 0 0 0 0)) with dm := { results := [⟨7, 0, 0, 2, 5, 64, 0xABCDE, false, 0⟩] } }, 0, 0, 0, 3, 50, ⟨7, 0, 0, 2, 5, 64, 0xABCDE, false, 0⟩, by unfold State.Executes State.Caught State.Readable State.Unwatched; dsimp only; decide +kernel⟩,
   ⟨{ (withWord (withWord wRun 0 3 50 (iw 7 0 (5 * 64 + 2) 0 0 (0xF00 * 64))) 0 2 5 (iw 5 0 0 0 0 0)) with dm := { results := [⟨7, 0, 0, 2, 5, 64, 0xABCDE, true, 0⟩] } }, 0, 0, 0, 3, 50, ⟨7, 0, 0, 2, 5, 64, 0xABCDE, true, 0⟩, by unfold State.Executes State.Caught State.Readable State.Unwatched; dsimp only; decide +kernel⟩,
   ⟨wFar, 0, 0, 0, 3, 5, 0, 0, by unfold State.Executes State.Caught State.Readable; dsimp only; decide +kernel⟩,
   ⟨(withRow wFar 0 2053 5000), 0, 0, 0, 3, 5, 0, 0, by unfold State.Executes State.Caught State.Readable; dsimp only; decide +kernel⟩,
   ⟨(withRow (withRow (withWord wFar 0 3 5 (iw 6 0 (0x805 * 64) (0x802 * 64) 1 1)) 0 2050 77) 0 2051 99), 0, 0, 0, 3, 5, 0, by unfold State.Executes State.Caught State.Readable State.Unwatched; dsimp only; decide +kernel⟩,
   ⟨((withWord (withWord wFar 0 3 50 (iw 7 0 (5 * 64 + 2) 1 0 (0xF00 * 64))) 0 2 5 (iw 5 0 0 1 0 0)).setSlot 0 4 { busy := true, done := true, ok := true, stone := 0, bp := 2, step := 5, data := 0xABC000000000000000000000000000012345 }), 0, 0, 0, 3, 50, 0, 4, by unfold State.Executes State.Caught State.Readable State.Unwatched; dsimp only; decide +kernel⟩⟩

theorem test_witness_LaunchAndLand :
  (∃ (s : State) (p : Nat) (m : Mill) (st : Stone) (b : Bp) (n : Step) (pads : List Nat),
    let w := s.word (siteOf m st) b n
    let l := laneOf (opdOf w)
    s.Executes m n p ∧ opOf w = 8 ∧ s.Readable p m st b n [rowOf (opaOf w)] ∧ ((∀ j, j < 8 → ¬(s.portMode m 0 j = 1 ∧
    (s.launchPort m j).bits.getLsbD l = true)))) ∧
  (∃ (s : State) (p : Nat) (m : Mill) (st : Stone) (b : Bp) (n : Step),
    let w := s.word (siteOf m st) b n
    let v := (s.landRow m).getLsbD (laneOf (opaOf w))
    s.Executes m n p ∧ opOf w = 9 ∧ s.Readable p m st b n [] ∧ s.landOwner m (laneOf (opaOf w)) = none) :=
  ⟨⟨(withWord wRun 0 3 5 (iw 8 0 0x10001 0 0 6)), 0, 0, 0, 3, 5, [], by unfold State.Executes State.Caught State.Readable; dsimp only; decide +kernel⟩,
   ⟨(withWord wRun 0 3 5 (iw 9 0 6 0 0 (0xE00 * 64 + 6))), 0, 0, 0, 3, 5, by unfold State.Executes State.Caught State.Readable; dsimp only; decide +kernel⟩⟩

theorem test_witness_LaunchAndLandingPorts :
  (∃ (s : State) (m : Mill) (j : Fin 8) (w : Row),
    let r := s.portRegion m 0 j
    (s.launchPort m j).held = some w ∧ s.regionIdle r = true) ∧
  (∃ (s : State) (m : Mill) (j : Fin 8),
    let r := s.portRegion m 0 j
    s.levelDue m j = true ∧ s.rstage (quadOfMill m) r = 3 ∧ s.quiescing (quadOfMill m) = false ∧ s.regionIdle r = true ∧
    m.val * 8 + j.val ∈ (s.region r).launches) ∧
  (∃ (s : State) (m : Mill) (j : Fin 8) (c : Nat),
    let r := s.portRegion m 1 j
    let x := s.landPort m j
    let w := s.landWord m j 0
    s.portMode m 1 j ≠ 0 ∧ s.rstage (quadOfMill m) r = 3 ∧ s.wordAt m j 0 = true ∧ x.accepted = false ∧ x.drain = false ∧ x.owes = false) ∧
  (∃ (s : State) (m : Mill) (j : Fin 8) (c : Nat),
    let r := s.portRegion m 1 j
    let x := s.landPort m j
    s.portMode m 1 j = 1 ∧ s.rstage (quadOfMill m) r = 3 ∧ s.wordAt m j 0 = true ∧ x.accepted = false ∧ x.drain = false ∧ x.owes = true) ∧
  (∃ (s : State) (m : Mill) (j : Fin 8),
    s.get F.FLM_STALLTO_timeout ≠ 0 ∧ (s.landPort m j).drain = false ∧ s.portMode m 1 j ≠ 0 ∧ s.wordAt m j 0 = true ∧
    ((s.portMode m 1 j = 1 → (s.landPort m j).accepted = false)) ∧ s.draining (quadOfMill m) = true) :=
  ⟨⟨(wFlm.setLaunchPort 3 1 { bits := 0xF0, held := some 0x30 }), 3, 1, 0x30, by dsimp only; decide +kernel⟩,
   ⟨wFlm, 3, 1, by dsimp only; decide +kernel⟩,
   ⟨wLand, 3, 1, 5, by dsimp only; decide +kernel⟩,
   ⟨(wLand.setLandPort 3 1 { wLand.landPort 3 1 with owes := true }), 3, 1, 5, by dsimp only; decide +kernel⟩,
   ⟨((wLand.setLandPort 5 0 { drain := true }).put F.FLM_STALLTO_timeout 9), 3, 1, by decide +kernel⟩⟩

theorem test_witness_TurnEnds :
  (∃ (s : State) (p : Part),
    let x := s.part p
    let valid := !(x.invalid || x.invalidToHalt || x.invalidToTurn0 || x.invalidToLoad)
    s.running p = true ∧ s.multi p = false ∧ x.causes = 0 ∧ x.storeErr = none ∧ x.votePend = [] ∧ s.on (F.ACQ_P_CTRL_en p) = false ∧
    s.get64 (R.DBG_RUNLEFT_LO p) (R.DBG_RUNLEFT_HI p) = 0 ∧ s.on (F.TURN_CTRL_clear p) = false) ∧
  (∃ (s : State) (p : Part) (r : Nat),
    let x := s.part p
    s.running p = true ∧ s.multi p = false ∧ x.storeErr = none ∧ x.votePend = [] ∧ s.on (F.ACQ_P_CTRL_en p) = false ∧ x.waiters = [] ∧
    s.get64 (R.DBG_RUNLEFT_LO p) (R.DBG_RUNLEFT_HI p) = 0 ∧ s.on (F.TURN_CTRL_clear p) = false ∧ r < 16 ∧ x.causes.testBit r = true ∧
    ((∀ k, k < 16 → r < k → x.causes.testBit k = false))) ∧
  (∃ (s : State) (p : Part),
    s.running p = false) :=
  ⟨⟨wRun, 0, by dsimp only; decide +kernel⟩,
   ⟨(wRun.setPart 0 { causes := 0x44, causeTurn := 7 }).put F.GOV_CTRL_freeze 1, 0, 6, by dsimp only; decide +kernel⟩,
   ⟨wHalted, 0, by decide +kernel⟩⟩

theorem test_witness_BrakesAndLimits :
  (∃ (s : State) (m : Mill) (st : Stone) (b : Bp) (n : Step) (p : Nat),
    let next := decide (n.val < s.horizon p)
    let w := s.word (siteOf m st) b n
    let k := (opbOf (s.word (siteOf m st) (laneOf (opaOf w)) (rowOf (opaOf w)))).toNat % 4
    let id := 2 * m.val + (k - 1)
    let c := if s.fpKind id = 2 then 1 else 0
    let o := s.cycleOf p (if next then s.depth p + n.val - s.horizon p else n.val - s.horizon p)
    s.millOwner m = some p ∧ s.running p = true ∧ s.multi p = false ∧ opOf w = 7 ∧ ((k = 1 ∨ k = 2)) ∧
    ((∀ j, s.slotOf id st (laneOf (opaOf w)) (rowOf (opaOf w)) = some j → (s.slot id j).done = false)) ∧
    ((next = true ∨ n.val ∉ (s.part p).limitSteps))) ∧
  (∃ (s : State) (m : Mill) (st : Stone) (b : Bp) (n : Step) (p : Nat) (r : Recheck),
    let w := s.word (siteOf m st) b n
    let k := (opbOf (s.word (siteOf m st) (laneOf (opaOf w)) (rowOf (opaOf w)))).toNat % 4
    let id := 2 * m.val + (k - 1)
    let c := if s.fpKind id = 2 then 1 else 0
    let rest := (s.part p).rechecks.erase r
    s.millOwner m = some p ∧ s.running p = true ∧ s.multi p = false ∧ opOf w = 7 ∧ ((k = 1 ∨ k = 2)) ∧
    ((s.part p).rechecks.find? (fun r => r.ref == (m.val * 16 + st.val) * 64 + b.val && r.hold == n.val) = some r) ∧
    ((r.next = true ∨ r.hold ∉ (s.part p).limitSteps))) ∧
  (∃ (s : State) (p : Part) (quanta : BitVec 8) (n : Step),
    let h := n.val + s.horizon p
    let hold := if h < s.depth p then h else h - s.depth p
    s.running p = true ∧ s.multi p = false ∧ (s.part p).limitSteps = [] ∧ s.on (F.TURN_STATUS_holding p) = false) ∧
  (∃ (s : State) (p : Part) (quanta : BitVec 8) (n : Step),
    s.running p = true ∧ s.on (F.TURN_STATUS_holding p) = true) ∧
  (∃ (s : State) (p : Part) (quanta : BitVec 8) (n : Step),
    s.running p = false) ∧
  (∃ (s : State) (p : Part) (n : Step),
    let h := n.val + s.horizon p
    let hold := if h < s.depth p then h else h - s.depth p
    let k := mget (fun _ => 0) s.gov.credit p + s.get F.GOV_CAPSTAT_h * (s.cycleOf p n - mget (fun _ => 0) s.gov.creditAt p)
    s.running p = true ∧ s.multi p = false ∧ (s.part p).limitSteps = [] ∧ 32 * 1024 ≤ k) ∧
  (∃ (s : State) (p : Part) (hold : Step) (round : Nat),
    let x := s.part p
    let vs := x.votes.filter (fun v => !v.next && v.hold == hold.val && v.round == round)
    let limit := s.get (F.TURN_CTRL_brake_limit p)
    s.running p = true ∧ x.votePend = [] ∧ vs ≠ [] ∧ ((limit = 0 ∨ (if x.hold = hold.val then x.served else 0) < limit))) ∧
  (∃ (s : State) (p : Part) (hold : Step) (round : Nat),
    let x := s.part p
    let limit := s.get (F.TURN_CTRL_brake_limit p)
    s.running p = true ∧ x.votePend = [] ∧ (x.votes.any (fun v => !v.next && v.hold == hold.val && v.round == round) = true) ∧ limit ≠ 0 ∧
    x.hold = hold.val ∧ limit ≤ x.served) :=
  ⟨⟨(withWord (withWord wRun 0 0 200 (iw 7 0 (100 * 64 + 1) 0 0 0)) 0 1 100 (iw 5 0 0 1 0 0)), 0, 0, 0, 200, 0, by dsimp only; decide +kernel⟩,
   ⟨((withWord (withWord wRun 0 0 200 (iw 7 0 (100 * 64 + 1) 0 0 0)) 0 1 100 (iw 5 0 0 1 0 0)).setPart 0 { rechecks := [⟨200, false, 3, 0, 5, 0⟩] }), 0, 0, 0, 200, 0, ⟨200, false, 3, 0, 5, 0⟩, by dsimp only; decide +kernel⟩,
   ⟨wRun, 0, 3, 500, by dsimp only; decide +kernel⟩,
   ⟨((wRun.put (F.TURN_STATUS_holding 0) 1).setPart 0 { hold := 77 }), 0, 3, 100, by decide +kernel⟩,
   ⟨wHalted, 0, 3, 100, by decide +kernel⟩,
   ⟨{ wRun with gov := { credit := [(0, 40000)] } }, 0, 500, by dsimp only; decide +kernel⟩,
   ⟨(wRun.setPart 0 { votes := [⟨100, false, 0, 6, false⟩, ⟨100, false, 1, 6, false⟩, ⟨100, false, 0, 2, false⟩], quanta := 3 }), 0, 100, 0, by dsimp only; decide +kernel⟩,
   ⟨((wRun.setPart 0 { votes := [⟨100, false, 0, 6, false⟩], hold := 100, served := 4, servedCauses := 2, quanta := 3 }).put (F.TURN_CTRL_brake_limit 0) 4), 0, 100, 0, by dsimp only; decide +kernel⟩⟩

theorem test_witness_PartitionRegistersAndPace :
  (∃ (s : State) (p : Part) (v : BitVec 4),
    let disabled := (List.range 4).any (fun q => v.getLsbD q && !s.quadEnabled q)
    let taken := (List.range 4).any (fun q => v.getLsbD q && (List.range 4).any (fun p' => p' != p.val && s.ownsQuad p' q))
    s.partExists p = true) ∧
  (∃ (s : State) (v : BitVec 2),
    v ≠ 3 ∧ v.toNat ≠ s.pace ∧ s.clk.paceWait = none ∧ s.clk.paceTo = none ∧ s.loaderBusy = false ∧ ((∀ p, p < 4 → s.pstate p = 0 ∨ (s.pstate p = 4 ∧
    s.bit (F.PART_PROFILE_paces p) v.toNat = true)))) ∧
  (∃ (s : State) (v : BitVec 2) (p : Part),
    let busy := partMask (fun p => s.pstate p != 0 && s.pstate p != 4)
    v ≠ 3 ∧ v.toNat ≠ s.pace ∧ s.clk.paceWait = none ∧ s.clk.paceTo = none ∧ s.pstate p ≠ 0 ∧ s.pstate p ≠ 4) ∧
  (∃ (s : State) (v : BitVec 2),
    let bad := partMask (fun p => s.pstate p != 0 && !s.bit (F.PART_PROFILE_paces p) v.toNat)
    v ≠ 3 ∧ v.toNat ≠ s.pace ∧ s.clk.paceWait = none ∧ s.clk.paceTo = none ∧ ((∀ p, p < 4 → s.pstate p = 0 ∨ s.pstate p = 4)) ∧
    ((s.loaderBusy = true ∨ bad ≠ 0))) ∧
  (∃ (s : State) (us : BitVec 16) (v : Nat),
    s.clk.paceTo = some v ∧ v < 3 ∧ ((∀ p, p < 4 → (s.part p).draining = false))) :=
  ⟨⟨(State.reset.put (F.PART_QMASK_qmask 1) 2), 0, 5, by dsimp only; decide +kernel⟩,
   ⟨(wHalted.put F.CLK_STATUS_pace 2), 1, by decide +kernel⟩,
   ⟨wRun, 1, 0, by dsimp only; decide +kernel⟩,
   ⟨(wHalted.put (F.PART_PROFILE_paces 0) 3), 2, by dsimp only; decide +kernel⟩,
   ⟨{ wHalted with clk := { paceTo := some 2 } }, 33, 2, by decide +kernel⟩⟩

theorem test_witness_FlumeCells :
  (∃ (s : State) (q : Quad) (cell : Fin 196608) (a b c : Bool),
    let k := q.val * 196608 + cell.val
    let x := s.cell k
    let bit (i : Nat) (v : Bool) : Nat := if x.used.getLsbD i && v then 2 ^ i else 0
    let o := x.table.getLsbD (bit 0 a + bit 1 b + bit 2 c)
    s.rstage q x.region = 3 ∧ x.mux = 0 ∧ x.used ≠ 0 ∧ x.ack = false ∧ s.netFree q cell = true ∧
    ((x.used.getLsbD 0 = true → s.netRail q x.inA = .data a)) ∧ ((x.used.getLsbD 1 = true → s.netRail q x.inB = .data b)) ∧
    ((x.used.getLsbD 2 = true → s.netRail q x.inC = .data c))) ∧
  (∃ (s : State) (q : Quad) (cell : Fin 196608),
    let k := q.val * 196608 + cell.val
    let x := s.cell k
    s.rstage q x.region = 3 ∧ x.mux = 0 ∧ x.used ≠ 0 ∧ x.ack = true ∧ s.netTaken q cell = true ∧
    ((x.used.getLsbD 0 = true → s.netRail q x.inA = .spacer)) ∧ ((x.used.getLsbD 1 = true → s.netRail q x.inB = .spacer)) ∧
    ((x.used.getLsbD 2 = true → s.netRail q x.inC = .spacer))) ∧
  (∃ (s : State) (q : Quad) (cell : Fin 196608) (b : Bool),
    let x := s.cell (q.val * 196608 + cell.val)
    s.rstage q x.region = 3 ∧ x.mux = 0 ∧ x.used.getLsbD 0 = true ∧ x.used.getLsbD 1 = true ∧ s.netRail q x.inA = .spacer ∧
    s.netRail q x.inB = .data b) ∧
  (∃ (s : State) (q : Quad) (cell : Fin 196608) (b c o : Bool),
    let g := cell.val / 4 * 4
    let key (i : Nat) := q.val * 196608 + g + i
    let x := s.cell (q.val * 196608 + cell.val)
    let chosen := b.toNat + 2 * c.toNat
    s.rstage q x.region = 3 ∧ x.used ≠ 0 ∧ x.mux = 1 ∧ s.netRail q (s.cell (key 0)).inB = .data b ∧ s.netRail q (s.cell (key 0)).inC = .data c ∧
    s.netRail q (s.cell (key chosen)).inA = .data o ∧ (s.cell (key 3)).rail0 = false ∧ (s.cell (key 3)).rail1 = false ∧
    (s.cell (key 3)).ack = false ∧ s.netFree q (g + 3) = true) ∧
  (∃ (s : State) (q : Quad) (cell : Fin 196608) (bad : BitVec 3),
    s.rstage q (s.cell (q.val * 196608 + cell.val)).region ≠ 3) :=
  ⟨⟨(wCell 7 (.data true) (.data false) (.data true) false), 0, 9, true, false, true, by dsimp only; decide +kernel⟩,
   ⟨(wCell 6 (.data true) .spacer .spacer true), 0, 9, by dsimp only; decide +kernel⟩,
   ⟨(wCell 3 .spacer (.data true) .spacer true), 0, 9, true, by dsimp only; decide +kernel⟩,
   ⟨(wMux true), 0, 9, true, false, false, by dsimp only; decide +kernel⟩,
   ⟨State.reset, 0, 9, 2, by decide +kernel⟩⟩

theorem test_witness_FlumeMemoryBlocks :
  (∃ (s : State) (q : Quad) (k : Fin 512),
    let x := s.block q k
    x.mode = 1 ∧ 2 ≤ s.rstage q x.region ∧ s.blockFull q x [] = true ∧ x.occ < x.entries) ∧
  (∃ (s : State) (q : Quad) (k : Fin 512) (bad : List Nat),
    (s.block q k).mode = 1 ∧ (s.block q k).entries ≤ (s.block q k).occ) ∧
  (∃ (s : State) (q : Quad) (k : Fin 512),
    let x := s.block q k
    x.mode = 1 ∧ x.occ ≠ 0 ∧ x.phase = 0 ∧ s.rstage q x.region = 3 ∧ s.quiescing q = false ∧ (mget (fun _ => false) x.ue x.rp = false)) ∧
  (∃ (s : State) (q : Quad) (k : Fin 512) (ecc : WordEcc),
    let x := s.block q k
    let i := s.netsNat q x.insW.length [] x.insA % x.entries
    x.mode = 2 ∧ 2 ≤ s.rstage q x.region ∧ s.blockFull q x [] = true ∧ x.phase = 0 ∧ s.netsNat q 0 [] x.insW = 1) ∧
  (∃ (s : State) (q : Quad) (k : Fin 512),
    let x := s.block q k
    let i := s.netsNat q x.insW.length [] x.insA % x.entries
    x.mode = 2 ∧ 2 ≤ s.rstage q x.region ∧ s.blockFull q x [] = true ∧ x.phase = 0 ∧ s.netsNat q 0 [] x.insW ≠ 1 ∧
    (mget (fun _ => false) x.ue i = false)) ∧
  (∃ (s : State) (q : Quad) (k : Fin 512),
    let x := s.block q k
    x.mode = 3 ∧ 2 ≤ s.rstage q x.region ∧ s.quiescing q = false ∧ s.blockFull q x [] = true ∧ x.phase = 0 ∧ (mget (fun _ => false) x.ue x.wp = false)) :=
  ⟨⟨(wIn (wBlock 1 4)), 0, 5, by dsimp only; decide +kernel⟩,
   ⟨(wIn (wBlock 1 16384)), 0, 5, [], by decide +kernel⟩,
   ⟨(wIn (wBlock 1 4)), 0, 5, by dsimp only; decide +kernel⟩,
   ⟨(wIn (wBlock 2 0)), 0, 5, .clean, by dsimp only; decide +kernel⟩,
   ⟨((wIn (wBlock 2 0)).setCell 1 { rail0 := true }), 0, 5, by dsimp only; decide +kernel⟩,
   ⟨(wIn (wBlock 3 0)), 0, 5, by dsimp only; decide +kernel⟩⟩

theorem test_witness_FlumePinsAndObservation :
  (∃ (s : State) (q : Quad) (pin : Fin 160) (v : Bool),
    let x := s.pinPort (pinKey q pin)
    x.used = true ∧ x.out = false ∧ x.sync = false ∧ x.phase = 0 ∧ s.rstage q x.region = 3 ∧ s.quiescing q = false) ∧
  (∃ (s : State) (q : Quad) (pin : Fin 160) (v : Bool) (c : Nat),
    let x := s.pinPort (pinKey q pin)
    x.used = true ∧ x.out = true ∧ s.rstage q x.region = 3 ∧ x.ack = false ∧ s.netRail q x.net = .data v ∧ ((x.sync = true → x.held = none))) ∧
  (∃ (s : State) (v : BitVec 4) (q : Nat),
    q < 4) ∧
  (∃ (s : State) (q : Quad),
    s.quiescing q = true ∧ s.quadIdle q = true) ∧
  (∃ (s : State) (q : Quad) (col : Fin 384),
    s.on F.FLM_CTRL_parity_scan = true ∧ s.dstate (32 + q.val) < 3 ∧ s.quadOwner q = none ∧ s.on F.FLM_ERR_fault_flag = false) :=
  ⟨⟨(wPin false false false), 0, 40, true, by dsimp only; decide +kernel⟩,
   ⟨(wPin true false false), 0, 40, true, 3, by dsimp only; decide +kernel⟩,
   ⟨wRun, 3, 0, by decide +kernel⟩,
   ⟨(wHalted.put F.FLM_QUIESCE_request 15), 2, by decide +kernel⟩,
   ⟨(State.reset.put F.FLM_CTRL_parity_scan 1), 2, 383, by decide +kernel⟩⟩

theorem test_witness_HeadersAtRouters :
  (∃ (s : State) (r : Mill) (i : Fin 6) (pk : Pkt) (n w : Nat),
    let h := pk.hdr
    let o := routePort r h
    let vc := (if hdrResponse h then 2 else 0) + (if hdq h = r.val / 64 then 1 else 0)
    feeder r i = none ∧ 4 ≤ i.val ∧ ((i.val = 4 → xEnd r ≠ .none)) ∧ s.enters r i pk = true ∧ hdrMalformed h = false) ∧
  (∃ (s : State) (r : Mill) (i : Fin 6) (pk : Pkt) (w : Nat),
    let h := pk.hdr
    feeder r i = none ∧ 4 ≤ i.val ∧ ((i.val = 4 → xEnd r ≠ .none)) ∧ s.enters r i pk = true ∧ hdrMalformed h = true) ∧
  (∃ (s : State) (r : Mill) (i : Fin 6) (pk : Pkt) (ch w : Nat),
    feeder r i = none ∧ 4 ≤ i.val ∧ ((i.val = 4 → xEnd r ≠ .none)) ∧ s.enters r i pk = true ∧ s.get F.RACE_ECC_ue_flag = 0) ∧
  (∃ (s : State) (r : Mill) (i : Fin 6) (pk : Pkt) (w m o : Nat) (b : BufPkt),
    feeder r i = some (m, o) ∧ s.granted m o (s.roomAt r i) = some b ∧ samePacket pk.hdr b.pkt.hdr = true ∧ hdrMalformed pk.hdr = false) ∧
  (∃ (s : State) (r : Mill) (i : Fin 6) (pk : Pkt) (e : HdrEcc) (w m o : Nat),
    feeder r i = some (m, o) ∧ s.granted m o (s.roomAt r i) = none) ∧
  (∃ (s : State) (m o : Nat) (room : Pkt → Bool) (b : BufPkt),
    s.granted m o room = some b) :=
  ⟨⟨State.reset, 29, 4, wPkt 1 4 0x223 [], 3, 9, by decide +kernel, by decide +kernel, by decide +kernel, wPkt_enters 1 (.inl rfl), by decide +kernel⟩,
   ⟨State.reset, 29, 4, wPkt 9 4 0x223 [], 9, by decide +kernel, by decide +kernel, by decide +kernel, wPkt_enters 9 (.inr rfl), by decide +kernel⟩,
   ⟨State.reset, 29, 4, wPkt 1 4 0x223 [], 1, 9, by decide +kernel, by decide +kernel, by decide +kernel, wPkt_enters 1 (.inl rfl), by decide +kernel⟩,
   ⟨wBuf, 21, 2, wq 1 4 0x225 [], 33, 29, 0, ⟨29, 2, 1, 0, wq 1 4 0x225 []⟩, by decide +kernel, wBuf_grants, by decide +kernel, by decide +kernel⟩,
   ⟨State.reset, 21, 2, wq 1 4 0x225 [], .clean, 33, 29, 0, by decide +kernel⟩,
   ⟨wBuf, 29, 0, wBuf.roomAt 21 2, ⟨29, 2, 1, 0, wq 1 4 0x225 []⟩, wBuf_grants⟩⟩

theorem test_witness_RequestsAtTargets :
  (∃ (s : State) (pk : Pkt) (c w : Nat) (e : RowEcc),
    let h := pk.hdr
    let n := 16 * hlen h
    hcmd h = 1 ∧ hdport h = 8 ∧ xEnd (hmill h) = .millers 0 ∧ hdrMalformed h = false ∧ s.isolated (htarget h) = false ∧ s.mayLand h s.passes = true ∧
    s.asLanded pk = pk ∧ s.answeredFor h = false ∧ 0x200 ≤ hinit h ∧ hlen h ≠ 0 ∧ haddr h % 16 = 0 ∧ htail h = 0 ∧ hpf h = false ∧
    haddr h + n ≤ 2 ^ 26 ∧ ctxOwner (hctx h) = some (s.hopOwner (hopBank (haddr h))) ∧
    ctxOwner (hctx h) = some (s.hopOwner (hopBank (haddr h + n - 1))) ∧ s.hopBad (haddr h) n = false) ∧
  (∃ (s : State) (pk : Pkt) (c w : Nat) (e : RowEcc) (u : Unit128),
    let h := pk.hdr
    ((hcmd h = 2 ∨ hcmd h = 3)) ∧ hdport h = 8 ∧ xEnd (hmill h) = .millers 0 ∧ hdrMalformed h = false ∧ s.isolated (htarget h) = false ∧
    s.mayLand h s.passes = true ∧ s.asLanded pk = pk ∧ s.answeredFor h = false ∧ 0x200 ≤ hinit h ∧ hlen h = 1 ∧ pk.data = [u] ∧ pk.poison = [] ∧
    haddr h % 16 = 0 ∧ htail h = 0 ∧ hpf h = false ∧ haddr h + 16 ≤ 2 ^ 26 ∧ ctxOwner (hctx h) = some (s.hopOwner (hopBank (haddr h)))) ∧
  (∃ (s : State) (pk : Pkt) (c w : Nat) (e : RowEcc),
    let h := pk.hdr
    let m := hmill h
    let n := 16 * hlen h
    let at_ := s.doorStep m
    hcmd h = 1 ∧ hdport h = 3 ∧ hdrMalformed h = false ∧ s.quadEnabled (hdq h) = true ∧ s.isolated (htarget h) = false ∧
    s.mayLand h s.passes = true ∧ s.asLanded pk = pk ∧ s.answeredFor h = false ∧ s.dstate (m / 8) = 0 ∧ hlen h ≠ 0 ∧ haddr h % 16 = 0 ∧ htail h = 0 ∧
    hpf h = false ∧ haddr h + n ≤ 2 ^ 20 ∧ e = {} ∧ ((∀ p, s.millOwner m = some p → s.Unwatched p)) ∧
    ((∀ i, i < n → s.mmBad m ((haddr h + i) / 64) ((haddr h + i) % 64 / 8) at_ = false))) ∧
  (∃ (s : State) (pk : Pkt) (c w : Nat) (e : RowEcc),
    let h := pk.hdr
    hcmd h = 2 ∧ hdrMalformed h = false ∧ s.noMill h = false ∧ s.isolated (htarget h) = true ∧ s.mayLand h s.passes = true ∧ s.asLanded pk = pk ∧
    0x200 ≤ hinit h) ∧
  (∃ (s : State) (pk : Pkt) (c w : Nat) (e : RowEcc),
    let h := pk.hdr
    hcmd h = 1 ∧ hdrMalformed h = false ∧ s.noMill h = false ∧ s.isolated (htarget h) = true ∧ s.mayLand h s.passes = true ∧ s.asLanded pk = pk ∧
    hpf h = false ∧ 0x200 ≤ hinit h) ∧
  (∃ (s : State) (pk : Pkt) (c w : Nat) (e : RowEcc) (p : Nat),
    let h := pk.hdr
    hcmd h = 2 ∧ hdrMalformed h = false ∧ s.noMill h = false ∧ s.isolated (htarget h) = true ∧ s.mayLand h s.passes = true ∧ s.asLanded pk = pk ∧
    hinit h < 0x200 ∧ hpf h = false ∧ s.fpPart (hinit h) = some p ∧ s.running p = true ∧
    (s.race.flight.any (fun f => samePacket f.hdr h && f.marked) = false)) ∧
  (∃ (s : State) (pk : Pkt) (w : Nat),
    let h := pk.hdr
    hcmd h = 6 ∧ hdrMalformed h = false ∧ s.noMill h = false ∧ s.isolated (htarget h) = false ∧ s.mayLand h s.passes = true ∧ s.asLanded pk = pk ∧
    s.targetReady h = true) ∧
  (∃ (s : State) (pk : Pkt) (c w : Nat) (e : RowEcc),
    let h := pk.hdr
    hdrMalformed h = false ∧ s.noMill h = false ∧ s.inOrder h = false) :=
  ⟨⟨wHop, wPkt 1 4 0x223 [], 0, 5, {}, by dsimp only; decide +kernel⟩,
   ⟨wHop, wPkt 2 1 0x223 [0x1234567890], 0, 5, {}, 0x1234567890, by dsimp only; decide +kernel⟩,
   ⟨{ State.reset with dm := { mem := [(mmKey 49 4, 0x123456789ABCDEF), (mmKey 49 5, 77)] } }, wDoor, 0, 5, {}, by unfold State.Unwatched; dsimp only; decide +kernel⟩,
   ⟨(wHop.setIsolated (256 + 5) true), wPkt 2 1 0x223 [0x1234567890], 0, 5, {}, by dsimp only; decide +kernel⟩,
   ⟨(wHop.setIsolated (256 + 5) true), wPkt 1 1 0x223 [], 0, 5, {}, by dsimp only; decide +kernel⟩,
   ⟨(wRun.setIsolated (256 + 5) true), wPkt 2 1 6 [0x1234567890], 0, 5, {}, 0, by dsimp only; decide +kernel⟩,
   ⟨wHop, wPkt 6 1 0x223 [7], 5, by dsimp only; decide +kernel⟩,
   ⟨{ wHop with race := { flight := [⟨(wPkt 2 1 0x223 []).hdr, 0, false⟩] } }, wPkt 1 1 0x223 [], 0, 5, {}, by dsimp only; decide +kernel⟩⟩

theorem test_witness_ResponsesAtInitiators :
  (∃ (s : State) (pk : Pkt) (c lat w : Nat),
    let h := pk.hdr
    let id := hinit h
    let j := htag h % 32
    let x := s.slot id j
    hcmd h = 4 ∧ hdrMalformed h = false ∧ (s.mayLand h (fun _ => true) = true) ∧ s.asLanded pk = pk ∧ s.awaits id (htag h) = true ∧ id < 0x200 ∧
    hstatus h = 0 ∧ pk.poison = [] ∧ x.busy = true ∧ x.owed = false ∧ x.done = false ∧ htag h / 32 = x.stamp ∧
    ((∀ k, k < 64 → s.on (F.RACE_STSEL_en k) = false))) ∧
  (∃ (s : State) (pk : Pkt) (c lat w : Nat) (p : Nat),
    let h := pk.hdr
    let id := hinit h
    let j := htag h % 32
    let x := s.slot id j
    hcmd h = 4 ∧ hdrMalformed h = false ∧ (s.mayLand h (fun _ => true) = true) ∧ s.asLanded pk = pk ∧ s.awaits id (htag h) = true ∧ id < 0x200 ∧
    hstatus h ≠ 0 ∧ pk.poison = [] ∧ x.busy = true ∧ x.owed = false ∧ x.done = false ∧ htag h / 32 = x.stamp ∧
    ((∀ k, k < 64 → s.on (F.RACE_STSEL_en k) = false)) ∧ s.fpPart id = some p ∧ s.running p = true ∧ s.get F.MPORT_ERR_flag = 0) ∧
  (∃ (s : State) (pk : Pkt) (lat w : Nat),
    let h := pk.hdr
    hcmd h = 5 ∧ hdrMalformed h = false ∧ (s.mayLand h (fun _ => true) = true) ∧ s.asLanded pk = pk ∧ s.awaits (hinit h) (htag h) = true ∧
    0x200 ≤ hinit h ∧ hinit h ≠ 0x220 ∧ ((∀ k, k < 64 → s.on (F.RACE_STSEL_en k) = false))) ∧
  (∃ (s : State) (pk : Pkt) (c lat w : Nat),
    let h := pk.hdr
    hcmd h = 4 ∧ hdrMalformed h = false ∧ (s.mayLand h (fun _ => true) = true) ∧ s.awaits (hinit h) (htag h) = false) ∧
  (∃ (s : State) (i : BitVec 10) (tag : BitVec 12),
    s.awaits i.toNat tag.toNat = true ∧ 0x200 ≤ i.toNat ∧ i.toNat ≠ 0x220) :=
  ⟨⟨({ State.reset with race := { reqs := [⟨mkHdr 1 1 0 0 6 35 0 0 5 8 0 0 0 0 0, true, false⟩] } }.setSlot 6 3 { busy := true, stamp := 1 }), wResp 4 6 35 [5], 100, 30, 2, by dsimp only; decide +kernel⟩,
   ⟨({ wRun with race := { reqs := [⟨mkHdr 1 1 0 0 6 35 0 0 5 8 0 0 0 0 0, true, false⟩] } }.setSlot 6 3 { busy := true, stamp := 1 }), { hdr := mkHdr 4 1 0 2 6 35 0 0 0 0 4 0 0 0 0, data := [6] }, 100, 30, 2, 0, by dsimp only; decide +kernel⟩,
   ⟨{ State.reset with race := { reqs := [⟨mkHdr 3 1 0 0 0x223 35 0 0 5 8 0 0 0 0 0, true, false⟩] } }, wResp 5 0x223 35 [], 30, 2, by dsimp only; decide +kernel⟩,
   ⟨State.reset, wResp 4 6 35 [5], 100, 30, 2, by dsimp only; decide +kernel⟩,
   ⟨{ State.reset with race := { reqs := [⟨mkHdr 3 1 0 0 0x223 35 0 0 5 8 0 0 0 0 0, true, false⟩] } }, 0x223, 35, by decide +kernel⟩⟩

theorem test_witness_RaceManagement :
  (∃ (s : State) (i : Nat) (b : BufPkt),
    let h := raiseUrg b.pkt.hdr
    s.race.bufs[i]? = some b ∧ s.on F.RACE_CTRL_age_en = true ∧ hurg b.pkt.hdr < 7 ∧ s.ageStep (hurg b.pkt.hdr) ≠ 0) ∧
  (∃ (s : State) (m : Mill) (credit : Bool),
    s.isolated m.val = false ∧ s.quadEnabled (m / 64) = true ∧ s.on F.RACE_CTRL_dead_en = true ∧ s.get F.RACE_DEADTO_timeout ≠ 0 ∧
    s.targetLate ⟨false, m⟩ credit = true) ∧
  (∃ (s : State) (m : Mill),
    s.isolated (256 + m.val) = false ∧ s.targetExists ⟨true, m⟩ = true) ∧
  (∃ (s : State) (t : RaceTarget),
    (s.isolated (tkey t) = true ∨ s.targetExists t = false)) ∧
  (∃ (s : State) (m : Mill),
    s.isolated m.val = true ∧ m.val ∉ s.race.readmitting) ∧
  (∃ (s : State) (m : Mill),
    m.val ∈ s.race.readmitting) ∧
  (∃ (s : State) (k : Nat),
    let a := mget (fun _ => {}) s.race.stats k
    k < 64 ∧ s.get F.RACE_STCTRL_window ≠ 0) :=
  ⟨⟨((({ State.reset with race := { bufs := [⟨9, 2, 0, 1, wPkt 1 4 0x223 []⟩] } }).put F.RACE_CTRL_age_en 1).put F.RACE_AGE0_step0 3), 0, ⟨9, 2, 0, 1, wPkt 1 4 0x223 []⟩, by dsimp only; decide +kernel⟩,
   ⟨(({ wRun with race := { bufs := [⟨49, 2, 1, 5, wDoor⟩] } }.put F.RACE_CTRL_dead_en 1).put F.RACE_DEADTO_timeout 9), 49, true, by decide +kernel⟩,
   ⟨{ wRun with race := { reqs := [⟨(wPkt 1 4 0x223 []).hdr, true, false⟩] } }, 5, by decide +kernel⟩,
   ⟨State.reset, ⟨true, 9⟩, by decide +kernel⟩,
   ⟨(wRun.setIsolated 33 true), 33, by decide +kernel⟩,
   ⟨(({ wRun with race := { readmitting := [33] } }).setIsolated 33 true), 33, by decide +kernel⟩,
   ⟨((({ State.reset with race := { stats := [(5, ⟨10, 3, 100, 70000, false⟩)] } }).put F.RACE_STCTRL_window 5).put (F.RACE_STSEL_en 5) 1), 5, by dsimp only; decide +kernel⟩⟩

theorem test_witness_FarPorts :
  (∃ (s : State) (m : Mill) (f : Fin 2) (r : FpReq) (rest : List FpReq),
    let id := 2 * m.val + f.val
    let h := s.fpHeader id r false
    let us := if r.write then bytesUnits r.len r.data else []
    (s.farPort id).reqs = r :: rest ∧ r.stamp < 128 ∧ r.slot < 32 ∧ ((∀ k, k < 64 → s.on (F.RACE_STSEL_en k) = false)) ∧
    ((r.marked = true ∨ s.isolated (htarget h) = false))) ∧
  (∃ (s : State) (m : Mill) (f : Fin 2) (r : FpReq) (rest : List FpReq) (p : Nat),
    let id := 2 * m.val + f.val
    let h := s.fpHeader id r false
    (s.farPort id).reqs = r :: rest ∧ r.marked = false ∧ s.isolated (htarget h) = true ∧ s.fpPart id = some p ∧ s.running p = true) ∧
  (∃ (s : State) (m : Mill) (f : Fin 2) (r : FpReq) (rest : List FpReq),
    let id := 2 * m.val + f.val
    let h := s.fpHeader id r true
    (s.farPort id).prefetch = r :: rest ∧ r.write = false ∧ ((∀ k, k < 64 → s.on (F.RACE_STSEL_en k) = false))) ∧
  (∃ (s : State) (m : Mill) (f : Fin 2) (j : Fin 32),
    let id := 2 * m.val + f.val
    let x := s.slot id j
    s.get F.MPORT_CTRL_timeout ≠ 0 ∧ x.busy = true ∧ x.owed = false ∧ x.done = false) ∧
  (∃ (s : State) (m : Mill) (f : Fin 2) (j : Fin 32),
    let id := 2 * m.val + f.val
    s.get F.MPORT_CTRL_timeout ≠ 0 ∧ (s.slot id j).busy = true ∧ (s.slot id j).owed = true) ∧
  (∃ (s : State) (m : Mill) (f : Fin 2) (j : Fin 32),
    s.get F.MPORT_CTRL_timeout = 0) :=
  ⟨⟨wFp, 3, 0, ⟨false, 0x12340, 4, 0, 2, 5, 3, 0, [], false⟩, [⟨true, 0x12340, 1, 0, 2, 5, 3, 0, [1,2], false⟩], by dsimp only; decide +kernel⟩,
   ⟨(wFpDead false), 3, 0, ⟨false, 0x12340, 4, 0, 2, 5, 3, 0, [], false⟩, [], 0, by dsimp only; decide +kernel⟩,
   ⟨wFp, 3, 0, ⟨false, 0x12340, 4, 0, 2, 5, 3, 0, [], false⟩, [], by dsimp only; decide +kernel⟩,
   ⟨(((wRun.put F.MPORT_CTRL_timeout 5).setSlot 7 31 { busy := true, step := 40 })), 3, 1, 31, by dsimp only; decide +kernel⟩,
   ⟨(((wRun.put F.MPORT_CTRL_timeout 5).setSlot 7 31 { busy := true, owed := true, step := 40 })), 3, 1, 31, by dsimp only; decide +kernel⟩,
   ⟨(wRun.put F.MPORT_CTRL_timeout 0), 3, 1, 31, by decide +kernel⟩⟩

theorem test_witness_AdmissionOrder :
  (∃ (s : State) (ch : Chan) (r1 r2 : DramReq),
    let h := r2.pk.hdr
    let x := s.chan ch
    ((x.waiting = [r1, r2] ∨ x.waiting = [r2, r1])) ∧ r1.held = false ∧ r2.held = false ∧ s.cstate ch ≠ 6 ∧ hcmd h = 1 ∧ hpf h = false ∧
    x.ahead = [] ∧ ((r2.admitAt < r1.admitAt ∨ (r2.admitAt = r1.admitAt ∧ (hcmd r1.pk.hdr ≠ 1 ∨ hinit h < hinit r1.pk.hdr))))) ∧
  (∃ (s : State) (ch : Chan) (r : DramReq) (u : Unit128),
    let h := r.pk.hdr
    (s.chan ch).waiting = [r] ∧ r.held = false ∧ s.cstate ch ≠ 6 ∧ hcmd h = 2 ∧ hlen h = 1 ∧ htail h = 0 ∧ haddr h % 16 = 0 ∧ haddr h + 16 ≤ 2 ^ 38 ∧
    r.pk.data = [u] ∧ r.pk.poison = []) ∧
  (∃ (s : State) (ch : Chan) (m : Mill) (f : Fin 2) (e : RunAhead),
    ((s.chan ch).ahead.find? (fun r => r.port == 2 * m.val + f.val && r.line == e.line) = some e)) :=
  ⟨⟨(State.reset.setChan 3 { waiting := [wReq 1 9 100 [], wReq 1 7 100 []] }), 3, wReq 1 9 100 [], wReq 1 7 100 [], by dsimp only; decide +kernel⟩,
   ⟨(State.reset.setChan 3 { waiting := [wReq 2 9 100 [0xABCDEF]], ahead := [⟨3, 1, 0, []⟩, ⟨3, 2, 0, []⟩] }), 3, wReq 2 9 100 [0xABCDEF], 0xABCDEF, by dsimp only; decide +kernel⟩,
   ⟨(State.reset.setChan 3 { ahead := [⟨3, 1, 0, []⟩, ⟨3, 2, 0, []⟩] }), 3, 1, 1, ⟨3, 2, 0, []⟩, by decide +kernel⟩⟩

theorem test_witness_DramPorts :
  (∃ (s : State) (ch : Chan) (sub : Fin 2) (line : Nat) (now closed : List Nat) (r : DramReq),
    let h := r.pk.hdr
    let x := s.chan ch
    let cyc := now.getD (hctx h) (s.cycleNow (hctx h))
    s.cstate ch = 4 ∧ (s.closeIdle ch closed).nextRead ch sub now = some r ∧ hpf h = false ∧ ((∀ l, s.lineBad ch l = false)) ∧
    s.isolated (htarget h) = false ∧ s.answeredFor h = false) ∧
  (∃ (s : State) (ch : Chan) (sub : Fin 2) (now closed : List Nat) (r : DramReq),
    let h := r.pk.hdr
    let part := if hinit h < 0x200 then hctx h else 0xFF
    s.cstate ch = 4 ∧ (s.closeIdle ch closed).nextRead ch sub now = some r ∧ hpf h = false ∧ hlen h = 1 ∧ haddr h % 16 = 0 ∧ haddr h < 2 ^ 38 ∧
    s.on (F.DDRC_UE_ue_flag ch) = false ∧ s.isolated (htarget h) = false ∧ s.answeredFor h = false) ∧
  (∃ (s : State) (ch : Chan) (sub : Fin 2) (line : Nat) (e : WordEcc) (now closed : List Nat),
    s.cstate ch ≠ 4) ∧
  (∃ (s : State) (ch : Chan) (line : Nat),
    s.get (F.DDRC_SCRUB_period ch) ≠ 0 ∧ s.get (F.DDRC_STATUS_state ch) = 4 ∧ 64 * line < s.chanSize ch ∧ s.lineBad ch line = false) ∧
  (∃ (s : State) (ch : Chan) (line : Nat),
    s.get (F.DDRC_SCRUB_period ch) ≠ 0 ∧ s.get (F.DDRC_STATUS_state ch) = 4 ∧ 64 * line < s.chanSize ch ∧ s.on (F.DDRC_UE_ue_flag ch) = false) ∧
  (∃ (s : State) (ch : Chan) (x : Spd) (dense : Bool),
    x.registered = true ∧ x.sideEcc = true ∧ x.x4 = true ∧ x.density = some dense ∧ ((x.height = 1 ∨ x.height = 2 ∨ x.height = 4)) ∧
    ((x.ranks = 1 ∨ x.ranks = 2)) ∧ (x.ranks * x.height * (if dense then 4 else 2) ≤ 16) ∧ 4800 ≤ x.rated) ∧
  (∃ (s : State) (ch : Chan) (x : Spd),
    let kind := !x.registered || !x.sideEcc || !([1, 2, 4].contains x.height)
    ((kind = true ∨ x.x4 = false ∨ x.density = none))) ∧
  (∃ (s : State) (ch : Chan),
    s.chanBusy ch = false ∧ 2 ≤ s.get (F.DDRC_STATUS_state ch) ∧ s.get (F.DDRC_STATUS_state ch) ≠ 3) ∧
  (∃ (s : State) (ch : Chan) (ms : BitVec 16),
    s.get (F.DDRC_STATUS_state ch) = 3) ∧
  (∃ (s : State) (ch : Chan) (ms : BitVec 16) (step : Fin 8) (rank : Fin 16) (lane : Fin 20),
    s.get (F.DDRC_STATUS_state ch) = 3) ∧
  (∃ (s : State) (ch : Chan) (hi : Bool) (v : Word),
    let a := if hi then R.DDRC_OWN_HI ch else R.DDRC_OWN_LO ch
    ((∀ i, i < 8 → v.toNat / 16 ^ i % 16 ≤ 4)) ∧ ((∀ p, p < 4 → s.pstate p = 0)) ∧ ((∀ i, i < 8 → (s.reg a).toNat / 16 ^ i % 16 ≤ 4)) ∧
    ((if hi then 16 else 8) ≤ s.get (F.DDRC_POP_slices ch))) ∧
  (∃ (s : State) (ch : Chan) (rank : Fin 16) (now : List Nat),
    let limit := if s.on (F.DDRC_CTRL_fgr ch) then 8 else 4
    let n := mget (fun _ => 0) (s.chan ch).postponed rank
    let m := mget (fun _ => 0)
    s.cstate ch = 4) ∧
  (∃ (s : State) (ch : Chan) (rank : Fin 16) (now : List Nat) (r : DramReq),
    let steer := s.get (F.DDRC_REF_steer_level ch)
    steer ≠ 0 ∧ r ∈ (s.chan ch).reads ∧ s.physRank ch (s.rankOf ch (haddr r.pk.hdr)) = rank.val ∧ steer ≤ hurg r.pk.hdr) ∧
  (∃ (s : State) (ch : Chan) (rank : Fin 16) (k : Nat) (now : List Nat),
    let n := mget (fun _ => 0) (s.chan ch).postponed rank
    n ≠ 0 ∧ k ≠ 0 ∧ s.cstate ch = 4 ∧ s.steered ch rank now = false) ∧
  (∃ (s : State) (ch : Chan) (rank : Fin 16),
    s.get (F.DDRC_PD_idle ch) ≠ 0 ∧ s.cstate ch = 4) :=
  ⟨⟨wSrv, 3, 1, 0, [], [3], wReq 1 9 100 [], by decide +kernel, by decide +kernel, by decide +kernel, fun _ => rfl, by decide +kernel, by decide +kernel⟩,
   ⟨wSrv, 3, 1, [], [], wReq 1 9 100 [], by dsimp only; decide +kernel⟩,
   ⟨State.reset, 3, 1, 0, .clean, [], [], by decide +kernel⟩,
   ⟨wScrub, 15, 4294967295, by decide +kernel⟩,
   ⟨wScrub, 15, 4294967295, by decide +kernel⟩,
   ⟨State.reset, 15, ⟨true, true, true, some true, 2, 2, 4800⟩, true, by decide +kernel⟩,
   ⟨State.reset, 15, ⟨false, true, true, some true, 2, 2, 6400⟩, by dsimp only; decide +kernel⟩,
   ⟨wScrub, 15, by decide +kernel⟩,
   ⟨(wScrub.put (F.DDRC_STATUS_state 15) 3), 15, 99, by decide +kernel⟩,
   ⟨(wScrub.put (F.DDRC_STATUS_state 15) 3), 15, 99, 7, 15, 19, by decide +kernel⟩,
   ⟨wScrub, 15, true, 0x43214321, by dsimp only; decide +kernel⟩,
   ⟨(wRef 3 [wUrg]), 15, 0, [], by dsimp only; decide +kernel⟩,
   ⟨(wRef 4 [wUrg]), 15, 0, [], wUrg, by dsimp only; decide +kernel⟩,
   ⟨(wScrub.setChan 15 { postponed := [(2, 4)] }), 15, 2, 9, [], by dsimp only; decide +kernel⟩,
   ⟨(wScrub.put (F.DDRC_PD_idle 15) 4), 15, 2, by decide +kernel⟩⟩

theorem test_witness_SpokeLanes :
  (∃ (s : State) (sp : Spoke) (v : Word),
    s.spokeExists sp = true) ∧
  (∃ (s : State) (sp : Spoke) (l : Fin 8) (block : BitVec 64) (skew : Nat),
    s.spokeExists sp = true ∧ s.on (F.SPK_CTRL_en sp) = true ∧ s.get (F.SPK_CTRL_tx_mode sp) ≠ 3 ∧ s.on (F.SPK_CTRL_loopback sp) = false ∧
    block.toNat % 2 ^ 16 = 0xD5 + l.val * 2 ^ 8 ∧ (s.laneSt sp l).plain = 3) ∧
  (∃ (s : State) (sp : Spoke) (l : Fin 8),
    s.spokeExists sp = true) ∧
  (∃ (s : State) (sp : Spoke) (l : Fin 8) (fom : BitVec 8),
    s.spokeExists sp = true ∧ fom.toNat < s.get (F.SPK_CTRL_fom_low sp) ∧ (s.spoke sp).lowSent = false) ∧
  (∃ (s : State) (sp : Spoke) (l : Fin 8) (fom : BitVec 8),
    s.spokeExists sp = true ∧ s.get (F.SPK_CTRL_fom_low sp) ≤ fom.toNat ∧
    ((∀ j, j < 8 → s.get (F.SPK_CTRL_fom_low sp) ≤ s.get (F.LANE_STAT_fom (laneIdx sp j))))) ∧
  (∃ (s : State) (sp : Spoke) (l : Fin 8),
    s.spokeExists sp = true ∧ s.on (F.SPK_CTRL_en sp) = true ∧ s.spokeOwner sp = none ∧ s.on (F.SPK_ERR_flag sp) = false) ∧
  (∃ (s : State) (sp : Spoke) (l : Fin 8) (p : Nat),
    s.spokeExists sp = true ∧ s.on (F.SPK_CTRL_en sp) = true ∧ s.spokeOwner sp = some p ∧ s.running p = true ∧ s.on (F.SPK_ERR_flag sp) = false) ∧
  (∃ (s : State) (sp : Spoke) (l : Fin 8) (sync : BitVec 2) (block : BitVec 64) (skew : Nat),
    let bits := lowBits 2 sync.toNat ++ lowBits 64 block.toNat
    let seen := if s.on (F.LANE_STAT_polarity (laneIdx sp l)) then bits.map not else bits
    s.spokeExists sp = true ∧ s.on (F.SPK_CTRL_en sp) = true ∧ s.get (F.SPK_CTRL_tx_mode sp) = 3 ∧ s.on (F.SPK_CTRL_loopback sp) = false) :=
  ⟨⟨wRun, 5, 0xFFFFFFFF, by decide +kernel⟩,
   ⟨(wSpk.setLaneSt 5 7 { plain := 3 }), 5, 7, 0x12345678000007D5, 3, by decide +kernel⟩,
   ⟨(wSpk.setLaneSt 5 7 { plain := 3, boundary := 65 }), 5, 7, by decide +kernel⟩,
   ⟨wSpk, 5, 7, 19, by decide +kernel⟩,
   ⟨((wSpk.put (F.SPK_CTRL_fom_low 5) 0).setSpoke 5 { lowSent := true }), 5, 7, 20, by decide +kernel⟩,
   ⟨wSpk, 5, 7, by decide +kernel⟩,
   ⟨wLink, 5, 7, 0, by decide +kernel⟩,
   ⟨(wSpk.put (F.SPK_CTRL_tx_mode 5) 3), 5, 7, 1, 0x1234567890ABCDEF, 0, by dsimp only; decide +kernel⟩⟩

theorem test_witness_SpokeFrames :
  (∃ (s : State) (sp : Spoke) (p : Nat),
    let x := s.spoke sp
    let kind := s.frameKind p sp
    let first := x.txNext
    let recs := if kind = 1 then s.dueRecords p sp first else []
    let words := (List.range (framePeriod s.pace)).map (fun i => if kind = 1 then s.cycleWords p sp (first + i) else (0, 0))
    let f : Frame := ⟨kind, if kind = 0 then 0 else first % 4096, words, recs.map (s.encodeRecord p first), 0⟩
    s.spokeOwner sp = some p ∧ s.get (F.SPK_CTRL_tx_mode sp) = 2 ∧ recs.length ≤ frameRecords s.pace) ∧
  (∃ (s : State) (sp : Spoke) (p : Nat),
    s.spokeOwner sp = some p ∧ s.get (F.SPK_CTRL_tx_mode sp) = 2 ∧ s.running p = true ∧
    frameRecords s.pace < (s.dueRecords p sp (s.spoke sp).txNext).length ∧ s.on (F.SPK_ERR_flag sp) = false) ∧
  (∃ (s : State) (sp : Spoke) (p ready : Nat) (f : Frame),
    let next := (s.spoke sp).rxNext
    s.spokeOwner sp = some p ∧ s.on (F.SPK_CTRL_en sp) = true ∧ s.on (F.SPK_CTRL_loopback sp) = false ∧ (s.part p).spokeFault = false ∧
    s.running p = true ∧ s.on (F.SPK_ERR_flag sp) = false) ∧
  (∃ (s : State) (sp : Spoke) (p ready : Nat) (f : Frame),
    let next := (s.spoke sp).rxNext
    let l := s.get (F.TURN_CONFIG_l p)
    let d := s.depth p
    let w (i : Nat) := f.payload.getD i (0, 0)
    s.spokeOwner sp = some p ∧ s.on (F.SPK_CTRL_en sp) = true ∧ s.on (F.SPK_CTRL_loopback sp) = false ∧ (s.part p).spokeFault = false ∧
    s.running p = true ∧ f.crc = f.check s.pace ∧ f.kind = 1 ∧ f.stamp = next % 4096 ∧ ready ≤ next + s.hopBudget p ∧ f.records = []) ∧
  (∃ (s : State) (sp : Spoke) (p ready : Nat) (f : Frame),
    let x := s.spoke sp
    s.spokeOwner sp = some p ∧ s.on (F.SPK_CTRL_en sp) = true ∧ s.on (F.SPK_CTRL_loopback sp) = false ∧ (s.part p).spokeFault = false ∧
    s.running p = false ∧ (s.part p).turnBase ≤ x.rxNext ∧ f.crc = f.check s.pace ∧ f.kind < 3) ∧
  (∃ (s : State) (sp : Spoke) (p : Nat),
    let next := (s.spoke sp).rxNext
    s.spokeOwner sp = some p ∧ (s.part p).spokeFault = false ∧ s.running p = true ∧ s.on (F.SPK_ERR_flag sp) = false) ∧
  (∃ (s : State) (sp : Spoke) (p ready : Nat) (f : Frame),
    s.spokeOwner sp = some p ∧ (s.part p).spokeFault = true) :=
  ⟨⟨wLink, 5, 0, by dsimp only; decide +kernel⟩,
   ⟨(((wLink.put F.CLK_STATUS_pace 1).setSpoke 5 { txNext := 8 }).modPart 0 (fun x => { x with outVotes := [{ raised := 0, hold := 70, causes := 4 }, { raised := 3, hold := 70, causes := 4 }, { raised := 5, hold := 70, causes := 4 }, { raised := 2, hold := 71, causes := 4 }] })), 5, 0, by decide +kernel⟩,
   ⟨wLink, 5, 0, 90, ⟨1, 0, [], [], 7⟩, by dsimp only; decide +kernel⟩,
   ⟨(wAt 48), 5, 0, 60, ok ⟨1, 48, [(3, 4), (5, 6)], [], 7⟩, by dsimp only; decide +kernel⟩,
   ⟨(wMeas), 5, 0, 40, ok ⟨2, 16, [], [], 7⟩, by dsimp only; decide +kernel⟩,
   ⟨(wAt 500), 5, 0, by dsimp only; decide +kernel⟩,
   ⟨(wLink.modPart 0 (fun x => { x with spokeFault := true })), 5, 0, 40, ok ⟨0, 16, [], [], 7⟩, by decide +kernel⟩⟩

theorem test_witness_RunRingAndStarts :
  (∃ (s : State) (ring : Fin 4) (d : BitVec 512) (step : Bool),
    let p := dPart d
    let op := if step then 0x22 else 0x20
    let n := if step then 1 else dParam d % 2 ^ 64
    let x := s.part p
    s.Begins ring d ∧ dOp d = op ∧ ((s.pstate p = 4 ∨ (s.pstate p = 2 ∧ x.released = true))) ∧ s.loaderHas p = false ∧ x.startPend = false ∧
    x.contextLost = false) ∧
  (∃ (s : State) (ring : Fin 4) (d : BitVec 512) (step : Bool),
    let p := dPart d
    let x := s.part p
    s.Begins ring d ∧ (dOp d = (if step then 0x22 else 0x20)) ∧ (((s.pstate p ≠ 2 ∧ s.pstate p ≠ 4) ∨ (s.pstate p = 2 ∧
    x.released = false) ∨ s.loaderHas p = true ∨ x.startPend = true ∨ x.contextLost = true))) ∧
  (∃ (s : State) (ring : Fin 4) (d : BitVec 512),
    let p := dPart d
    s.Begins ring d ∧ dOp d = 0x21 ∧ s.pstate p = 3) ∧
  (∃ (s : State) (ring : Fin 4) (d : BitVec 512),
    s.Begins ring d ∧ dOp d = 0x21 ∧ s.pstate (dPart d) ≠ 3) ∧
  (∃ (s : State) (p : Part) (edge : Nat),
    (s.part p).startPend = true ∧ s.multi p = false ∧ s.startReady p = true ∧ s.railsReady p = true ∧ s.paceSettled = true ∧
    (s.part p).pendInvalid = false ∧ ((s.part p).waiters.all (fun w => w.op != 0x20) = true) ∧
    ((∀ q, q < 4 → s.ownsQuad p q = true → ∀ j, j < 128 → ∀ k, k < 32 → (s.slot (128 * q + j) k).busy = true → (s.slot (128 * q + j) k).owed = false))) :=
  ⟨⟨(wRing wHalted 2 (wDesc 0x20 0 0 0 0 (2^64-1))), 2, (wDesc 0x20 0 0 0 0 (2^64-1)), false, by unfold State.Begins; dsimp only; decide +kernel⟩,
   ⟨(wRing wRun 2 (wDesc 0x20 0 0 0 0 6)), 2, (wDesc 0x20 0 0 0 0 6), false, by unfold State.Begins; dsimp only; decide +kernel⟩,
   ⟨(wRing wRun 0 (wDesc 0x21 0 0 0 0 0)), 0, (wDesc 0x21 0 0 0 0 0), by unfold State.Begins; dsimp only; decide +kernel⟩,
   ⟨(wRing wHalted 0 (wDesc 0x21 0 0 0 0 0)), 0, (wDesc 0x21 0 0 0 0 0), by unfold State.Begins; decide +kernel⟩,
   ⟨wPend, 0, 7, by decide +kernel⟩⟩

theorem test_witness_SystemHaltAndTriggerLines :
  (∃ (s : State) (line : Fin 5) (level : Bool) (cycles : Nat),
    s.bit F.GPIO_SYSCTRL_ignore line = true) ∧
  (∃ (s : State) (line : Fin 5) (level : Bool) (cycles : Nat),
    let f := if line.val = 0 then s.get F.GPIO_SYSFILT_trig_in else if line.val < 3 then s.get F.GPIO_SYSFILT_halt_n else s.get F.GPIO_SYSFILT_sync_n
    s.bit F.GPIO_SYSCTRL_ignore line = false ∧ 5 * cycles + 4 < 4 * f + 4) ∧
  (∃ (s : State) (line : Fin 5) (level : Bool) (cycles : Nat),
    let f := if line.val = 0 then s.get F.GPIO_SYSFILT_trig_in else if line.val < 3 then s.get F.GPIO_SYSFILT_halt_n else s.get F.GPIO_SYSFILT_sync_n
    let x := s.lines
    s.bit F.GPIO_SYSCTRL_ignore line = false ∧ 4 * f + 4 ≤ 5 * cycles + 4 ∧ s.syncParts = []) ∧
  (∃ (s : State) (cycles : Nat) (p : Part),
    s.bit F.GPIO_SYSCTRL_ignore 3 = false ∧ s.get F.GPIO_SYSFILT_sync_n * 4 + 4 ≤ 5 * cycles + 4 ∧ s.syncParts = [p.val]) ∧
  (∃ (s : State) (p : Part) (low : Bool) (edge : Nat),
    let fault := low || s.lines.haltHeld || s.lines.haltPulse
    let x := s.part p
    let later := s.cycleOf p (s.depth p) ≤ s.cycleOfEdge p edge
    let y := if s.lines.haltOwn then x else { x with causes := x.causes ||| 2 ^ 5, causeTurn := if x.causes = 0 then s.turns p + (if later then 1 else 0) else x.causeTurn }
    s.lines.haltPending = true ∧ s.multi p = true ∧ s.running p = true ∧ ((∀ q, q < 4 → q ≠ p.val → s.running q = false))) ∧
  (∃ (s : State) (low : Bool) (edge : Nat),
    s.lines.haltPending = false) ∧
  (∃ (s : State) (p : Part) (edge : Nat),
    let later := s.cycleOf p (s.depth p) ≤ s.cycleOfEdge p edge
    s.lines.trigInPending = true ∧ ((∀ q, q < 4 → q ≠ p.val → s.get (F.ACQ_P_CTRL_src_in q) = 0)) ∧ s.on (F.ACQ_P_CTRL_src_in p) = true ∧
    s.on (F.ACQ_P_CTRL_en p) = true ∧ s.on (F.ACQ_P_CTRL_drive_x p) = false ∧ s.running p = true ∧ (s.cap p).items = [] ∧ (s.cap p).staged = [] ∧
    s.on F.TRC_TRIG_src_in = false) ∧
  (∃ (s : State) (p : Part) (edge : Nat),
    s.lines.trigInPending = true ∧ ((∀ q, q < 4 → q ≠ p.val → s.get (F.ACQ_P_CTRL_src_in q) = 0)) ∧ s.on (F.ACQ_P_CTRL_src_in p) = true ∧
    s.on (F.ACQ_P_CTRL_en p) = true ∧ s.on (F.ACQ_P_CTRL_drive_x p) = true ∧ s.lines.trigXPulse = false ∧ s.lines.trigXPending = false ∧
    (s.cap p).items = [] ∧ (s.cap p).staged = [] ∧ s.on F.TRC_TRIG_src_in = false) ∧
  (∃ (s : State) (edge : Nat),
    s.lines.trigInPending = false) ∧
  (∃ (s : State) (p : Part) (edge : Nat),
    let later := s.cycleOf p (s.depth p) ≤ s.cycleOfEdge p edge
    let m := if s.lines.trigXOwn then 34 else 2
    s.lines.trigXPending = true ∧ ((∀ q, q < 4 → q ≠ p.val → s.get (F.ACQ_P_CTRL_src_x q) = 0)) ∧ s.on (F.ACQ_P_CTRL_src_x p) = true ∧
    s.on (F.ACQ_P_CTRL_en p) = true ∧ s.running p = true ∧ (s.cap p).items = [] ∧ (s.cap p).staged = [] ∧ s.on F.TRC_TRIG_src_x = false) ∧
  (∃ (s : State) (edge : Nat),
    s.lines.trigXPending = false) :=
  ⟨⟨(State.reset.put F.GPIO_SYSCTRL_ignore 31), 4, true, 1000, by decide +kernel⟩,
   ⟨(State.reset.put F.GPIO_SYSFILT_sync_n 255), 4, true, 203, by dsimp only; decide +kernel⟩,
   ⟨(State.reset.put F.GPIO_SYSFILT_sync_n 255), 4, true, 204, by dsimp only; decide +kernel⟩,
   ⟨wOk, 204, 0, by decide +kernel⟩,
   ⟨(wHl { haltPulse := true }), 0, false, 10, by dsimp only; decide +kernel⟩,
   ⟨wMulti, true, 4, by decide +kernel⟩,
   ⟨{ (wCap.put (F.ACQ_P_CTRL_src_in 0) 1) with lines := { trigInPending := true } }, 0, 0, by dsimp only; decide +kernel⟩,
   ⟨{ ((wCap.put (F.ACQ_P_CTRL_src_in 0) 1).put (F.ACQ_P_CTRL_drive_x 0) 1) with lines := { trigInPending := true } }, 0, 3, by decide +kernel⟩,
   ⟨wCap, 3, by decide +kernel⟩,
   ⟨{ (wCap.put (F.ACQ_P_CTRL_src_x 0) 1) with lines := { trigXPending := true, trigXOwn := true } }, 0, 0, by dsimp only; decide +kernel⟩,
   ⟨wCap, 3, by decide +kernel⟩⟩

theorem test_witness_StartTogether :
  (∃ (s : State) (p : Part) (sp : Spoke),
    s.lines.syncPending = true ∧ ((∀ q, q < 4 → q ≠ p.val → (s.part q).syncStart = false)) ∧ (s.part p).syncStart = true ∧
    (s.part p).measure = true ∧ s.spokesOf p = [sp.val]) ∧
  (∃ (s : State),
    s.lines.syncPending = false) ∧
  (∃ (s : State) (p : Part) (sp : Spoke) (m : Nat),
    let x := s.spoke sp
    let st := s.get (F.SPK_STATUS_state sp)
    let base := (s.part p).turnBase
    ((∀ q, q < 4 → q ≠ p.val → (s.part q).syncStart = false)) ∧ (s.part p).syncStart = true ∧ (s.part p).measure = true ∧ s.spokesOf p = [sp.val] ∧
    (mget (fun _ => none) x.peerInfo 1 = some (s.ownInfo sp 1)) ∧ (mget (fun _ => none) x.peerInfo 2 = some (s.ownInfo sp 2)) ∧
    s.get (F.SPK_PEER_peer_pace sp) = s.pace ∧ rolesPair (s.get (F.SPK_CTRL_role sp)) (s.get (F.SPK_PEER_peer_role sp)) = true ∧
    x.measuring = some m ∧ m < 4096 ∧ s.anyOwed p = false ∧ s.paceSettled = true ∧ s.on (F.SPK_ERR_flag sp) = false) ∧
  (∃ (s : State) (p : Part) (sp : Spoke),
    let x := s.spoke sp
    let peer := s.get (F.SPK_PEER_peer_pace sp)
    let others := mget (fun _ => none) x.peerInfo 1 = some (s.ownInfo sp 1) ∧ mget (fun _ => none) x.peerInfo 2 = some (s.ownInfo sp 2) ∧
    rolesPair (s.get (F.SPK_CTRL_role sp)) (s.get (F.SPK_PEER_peer_role sp)) = true
    ((∀ q, q < 4 → q ≠ p.val → (s.part q).syncStart = false)) ∧ (s.part p).syncStart = true ∧ (s.part p).measure = false ∧ s.spokesOf p = [sp.val] ∧
    ((¬ others ∨ peer ≠ s.pace)) ∧ s.on (F.SPK_ERR_flag sp) = false) ∧
  (∃ (s : State) (p : Part) (sp : Spoke) (edge : Nat),
    let base := (s.part p).turnBase
    ((∀ q, q < 4 → q ≠ p.val → (s.part q).syncStart = false)) ∧ (s.part p).syncStart = true ∧ s.syncParts = [p.val] ∧ s.spokesOf p = [sp.val] ∧
    s.lines.haltHeld = false ∧ s.lines.haltPulse = false ∧ s.lines.haltSinceSync = false ∧ (s.part p).pendInvalid = false ∧
    ((s.part p).waiters.all (fun w => w.op != 0x20) = true)) ∧
  (∃ (s : State) (p : Part) (high : Bool) (edge : Nat),
    ((∀ q, q < 4 → q ≠ p.val → (s.part q).syncStart = false)) ∧ (s.part p).syncStart = true ∧
    ((high = false ∨ s.lines.haltHeld = true ∨ s.lines.haltPulse = true ∨ s.lines.haltSinceSync = true)) ∧
    ((s.part p).waiters.all (fun w => w.op != 0x20 && w.op != 0x22) = true)) :=
  ⟨⟨{ wOk with lines := { wOk.lines with syncPending := true, syncPulse := true } }, 0, 5, by decide +kernel⟩,
   ⟨State.reset, by decide +kernel⟩,
   ⟨wOk, 0, 5, 40, by dsimp only; decide +kernel⟩,
   ⟨(wSync.modPart 0 (fun x => { x with measure := false })), 0, 5, by dsimp only; decide +kernel⟩,
   ⟨(wOk.put (F.SPK_STATUS_state 5) 4), 0, 5, 1000, by dsimp only; decide +kernel⟩,
   ⟨wOk, 0, false, 1000, by decide +kernel⟩⟩

theorem test_witness_HostRings :
  (∃ (s : State) (snap : List (Nat × Nat)) (w : Word),
    s.host.poll = some snap ∧ ((∀ n, n < 13 → n ≠ 4 → s.ringRuns n = false)) ∧ s.ringRuns 4 = true ∧ s.hostSluices = [] ∧ (s.ring 4).held = [] ∧
    s.outRings = [4] ∧ snap = [(4, (s.ring 4).dev)] ∧ s.ringMsix 4 = false ∧ countOk (2 ^ 32) (s.ring 4).host ((s.ring 4).dev % 2 ^ 32) w.toNat = true) ∧
  (∃ (s : State) (ring : Fin 4) (descs : List (BitVec 512)),
    let x := s.ring ring
    let want := (x.host + 2 ^ 32 - x.dev) % 2 ^ 32 - (x.fetched.length + if x.running.isSome then 1 else 0)
    s.ringRuns ring = true) ∧
  (∃ (s : State) (ring : Fin 4) (descs : List (BitVec 512)) (e : Option PcieErr),
    s.ringRuns ring = false) ∧
  (∃ (s : State) (ring : Fin 4) (descs : List (BitVec 512)) (e : PcieErr),
    s.ringRuns ring = true) ∧
  (∃ (s : State) (n : Fin 13) (value : Word),
    let size := value.toNat / 2 ^ 24 % 32
    value.getLsbD 31 = true ∧ 4 ≤ size ∧ size ≤ 16 ∧ s.on (F.RING_R_CFG_en n) = false) ∧
  (∃ (s : State) (n : Fin 13) (value : Word),
    let size := value.toNat / 2 ^ 24 % 32
    value.getLsbD 31 = true ∧ (size < 4 ∨ 16 < size)) ∧
  (∃ (s : State) (n : Fin 13) (value : Word),
    let size := value.toNat / 2 ^ 24 % 32
    (value.getLsbD 31 = false ∨ (s.on (F.RING_R_CFG_en n) = true ∧ 4 ≤ size ∧ size ≤ 16))) ∧
  (∃ (s : State) (ring : Fin 4) (d : BitVec 512),
    s.Begins ring d ∧ dOp d = 0) ∧
  (∃ (s : State) (ring : Fin 4) (d : BitVec 512),
    let part := if dPart d < 4 then dPart d else 0xFF
    s.ringRuns ring = true ∧ (s.ring ring).running = none ∧ (s.ring ring).fetched.head? = some d ∧ (s.ring (ring + 4)).held = [] ∧
    ringOps.contains (dOp d) = false) ∧
  (∃ (s : State) (ring : Fin 4),
    ((s.ring ring).fetched.head?.all (fun d => ringOps.contains (dOp d)) = true)) ∧
  (∃ (s : State) (ring : Fin 4) (d : BitVec 512),
    let part := if dPart d < 4 then dPart d else 0xFF
    s.ringRuns ring = true ∧ (s.ring ring).running = none ∧ (s.ring ring).fetched.head? = some d ∧ (s.ring (ring + 4)).held = [] ∧ dOp d = 0 ∧
    s.cmdFieldsOk d = false) ∧
  (∃ (s : State),
    s.on F.RING_CTRL_en = true ∧ s.on F.PCIE_STATUS_up = true ∧ s.host.poll = none) ∧
  (∃ (s : State),
    ((s.on F.RING_CTRL_en = false ∨ s.on F.PCIE_STATUS_up = false ∨ s.host.poll ≠ none))) ∧
  (∃ (s : State) (snap : List (Nat × Nat)) (words sluices : List Word),
    let limit (n : Nat) := if n < 4 then (s.ring n).dev + 2 ^ s.ringSize n else (s.ring n).dev
    s.host.poll = some snap) ∧
  (∃ (s : State) (snap : List (Nat × Nat)) (e : Nat × Nat) (words : List Word) (w : Word),
    let limit := if e.2 < 4 then (s.ring e.2).dev + 2 ^ s.ringSize e.2 else (s.ring e.2).dev
    s.host.poll = some snap ∧ e ∈ doorbellRings ∧ words[e.1]? = some w ∧ ((∀ n, n < 13 → n ≠ e.2 → s.ringRuns n = false)) ∧ s.ringRuns e.2 = true ∧
    s.hostSluices = [] ∧ countOk (2 ^ 32) (s.ring e.2).host (limit % 2 ^ 32) w.toNat = false) ∧
  (∃ (s : State) (snap : List (Nat × Nat)) (words sluices : List Word) (x : PcieErr),
    s.host.poll = some snap) ∧
  (∃ (s : State) (snap : List (Nat × Nat)) (words sluices : List Word) (x : PcieErr) (i : Fin 13),
    s.host.poll = some snap ∧ ((∀ n, n < 13 → n ≠ i.val → s.ringRuns n = false)) ∧ s.ringRuns i = true ∧ s.hostSluices = []) ∧
  (∃ (s : State) (words sluices : List Word) (e : Option PcieErr),
    s.host.poll = none) :=
  ⟨⟨{ wR4 with host := { wR4.host with poll := some [(4, 6)] } }, [(4, 6)], 5, by decide +kernel⟩,
   ⟨wR2, 2, [7, 8], by dsimp only; decide +kernel⟩,
   ⟨wR2, 1, [7, 8, 9, 10], some ⟨2, 77, 78⟩, by decide +kernel⟩,
   ⟨wR2, 2, [7, 8], ⟨2, 77, 78⟩, by decide +kernel⟩,
   ⟨(wEng.setRing 8 { dev := 5 }), 8, 0x84000000, by dsimp only; decide +kernel⟩,
   ⟨wEng, 3, 0x91000000, by dsimp only; decide +kernel⟩,
   ⟨wR4, 4, 0x0400FFFF, by dsimp only; decide +kernel⟩,
   ⟨(wRing State.reset 2 (wDesc 0 0xFF 1 2 3 0)), 2, (wDesc 0 0xFF 1 2 3 0), by unfold State.Begins; decide +kernel⟩,
   ⟨(wRing State.reset 2 (wDesc 0x50 0x1 1 2 3 0)), 2, (wDesc 0x50 0x1 1 2 3 0), by dsimp only; decide +kernel⟩,
   ⟨State.reset, 2, by decide +kernel⟩,
   ⟨(wRing State.reset 2 (wDesc 0 0x1 1 2 3 0)), 2, (wDesc 0 0x1 1 2 3 0), by dsimp only; decide +kernel⟩,
   ⟨wR4, by decide +kernel⟩,
   ⟨{ wEng with host := { wEng.host with poll := some [] } }, by decide +kernel⟩,
   ⟨(wPolled wTwo [(4, 6)]), [(4, 6)], [0, 0, 16, 0, 6], [], by dsimp only; decide +kernel⟩,
   ⟨(wPolled wR4 []), [], (4, 4), [0, 0, 16, 0, 1], 1, by dsimp only; decide +kernel⟩,
   ⟨(wPolled wTwo []), [], [], [], ⟨2, 77, 78⟩, by decide +kernel⟩,
   ⟨(wPolled wR4 []), [], [], [], ⟨2, 77, 78⟩, 4, by decide +kernel⟩,
   ⟨wR4, [1], [], none, by decide +kernel⟩⟩

theorem test_witness_HostCopies :
  (∃ (s : State) (ring : Fin 4) (d : BitVec 512),
    s.Begins ring d ∧ dOp d = 1 ∧ dLen d = 0) ∧
  (∃ (s : State) (ring : Fin 4) (d : BitVec 512),
    s.Begins ring d ∧ dOp d = 1 ∧ dLen d ≠ 0 ∧ s.copyOk d = true) ∧
  (∃ (s : State) (ring : Fin 4) (d : BitVec 512),
    s.Begins ring d ∧ dOp d = 1 ∧ dLen d ≠ 0 ∧ (dHaddr d % 64 ≠ 0 ∨ dLen d % 64 ≠ 0 ∨ dDaddr d % 64 ≠ 0 ∨ 2 ^ 36 < dLen d)) ∧
  (∃ (s : State) (ring : Fin 4) (d : BitVec 512),
    s.Begins ring d ∧ dOp d = 2 ∧ dLen d = 0) ∧
  (∃ (s : State) (ring : Fin 4) (d : BitVec 512),
    s.Begins ring d ∧ dOp d = 2 ∧ dLen d ≠ 0 ∧ s.copyOk d = true) ∧
  (∃ (s : State) (ring : Fin 4) (d : BitVec 512) (serial : Nat) (data : List Byte),
    let c := dDaddr d / 2 ^ 40
    let a := dDaddr d % 2 ^ 38
    (s.ring ring).running = some (serial, d) ∧ dDaddr d < 2 ^ 44 ∧ dOp d = 1 ∧ dLen d = 64 * (dLen d / 64) ∧ data.length = dLen d ∧ a % 64 = 0 ∧
    (s.ring (ring + 4)).held = [] ∧ s.race.lost = [] ∧ s.cstate c ≠ 7 ∧ ((∀ i, i < dLen d / 64 → s.busBlocked c (a + 64 * i) 5 = false ∧
    s.stageLocked c (a + 64 * i) 64 = false))) ∧
  (∃ (s : State) (ring : Fin 4) (d : BitVec 512) (serial : Nat) (data : List Byte),
    let c := dDaddr d / 2 ^ 40
    let a := dDaddr d % 2 ^ 38
    (s.ring ring).running = some (serial, d) ∧ dDaddr d < 2 ^ 44 ∧ dOp d = 1 ∧ 64 ≤ dLen d ∧ data.length = dLen d ∧ (s.ring (ring + 4)).held = [] ∧
    s.race.lost = [] ∧ s.cstate c ≠ 7 ∧ s.busBlocked c a 5 = false ∧ s.stageLocked c a 64 = true) ∧
  (∃ (s : State) (ring : Fin 4) (d : BitVec 512) (serial : Nat) (e : RowEcc),
    let c := dDaddr d / 2 ^ 40
    let a := dDaddr d % 2 ^ 38
    (s.ring ring).running = some (serial, d) ∧ dDaddr d < 2 ^ 44 ∧ dOp d = 2 ∧ dLen d = 64 * (dLen d / 64) ∧ dLen d ≠ 0 ∧
    (s.ring (ring + 4)).held = [] ∧ a % 64 = 0 ∧ s.race.lost = [] ∧ s.cstate c ≠ 7 ∧ e.ue = [] ∧
    ((∀ i, i < dLen d / 64 → s.busBlocked c (a + 64 * i) 5 = false ∧ s.lineBad c (a / 64 + i) = false))) :=
  ⟨⟨(wRing wDram 2 (wCopy 1 0)), 2, wCopy 1 0, by unfold State.Begins; decide +kernel⟩,
   ⟨(wRing wDram 2 (wCopy 1 128)), 2, wCopy 1 128, by unfold State.Begins; decide +kernel⟩,
   ⟨(wRing wDram 2 (wCopy 1 127)), 2, wCopy 1 127, by unfold State.Begins; decide +kernel⟩,
   ⟨(wRing wDram 2 (wCopy 2 0)), 2, wCopy 2 0, by unfold State.Begins; decide +kernel⟩,
   ⟨(wRing wDram 2 (wCopy 2 128)), 2, wCopy 2 128, by unfold State.Begins; decide +kernel⟩,
   ⟨(wRunning wDram (wCopy 1 128)), 1, wCopy 1 128, 9, wData, by dsimp only; decide +kernel⟩,
   ⟨{ wRunning wDram (wCopy 1 128) with loader := { locks := [⟨0, 3, 0x4000, 64⟩] } }, 1, wCopy 1 128, 9, wData, by dsimp only; decide +kernel⟩,
   ⟨((wRunning wDram (wCopy 2 128)).dramWrite 3 0x4000 wData 0 []), 1, wCopy 2 128, 9, {}, by dsimp only; decide +kernel⟩⟩

theorem test_witness_LinkAndApertures :
  (∃ (s : State) (wins : List HostWin),
    s.on F.RING_CTRL_en = false ∧ s.on F.PCIE_STATUS_up = true) ∧
  (∃ (s : State),
    s.on F.PCIE_STATUS_up = true ∧ s.sessLevel 3 = 0) ∧
  (∃ (s : State),
    s.on F.PCIE_STATUS_up = false) ∧
  (∃ (s : State) (speed : Fin 3) (width : Fin 17) (inverted : BitVec 16) (reversed msix fmask : Bool),
    ((s.on F.PCIE_STATUS_up = false ∨ s.on F.PCIE_CTRL_retrain = true)) ∧ (width.val = 1 ∨ width.val = 4 ∨ width.val = 8 ∨ width.val = 16)) ∧
  (∃ (s : State) (off : BitVec 24) (data : Option Word),
    let o := (s.get F.PCIE_BAR2SEL_group * 2 ^ 24 + off.toNat / 4 * 4) % 2 ^ 26
    s.hopOwner (hopBank o) ≠ 5) ∧
  (∃ (s : State) (off : BitVec 24) (w : Word),
    let o := (s.get F.PCIE_BAR2SEL_group * 2 ^ 24 + off.toNat / 4 * 4) % 2 ^ 26
    s.hopOwner (hopBank o) = 5) ∧
  (∃ (s : State) (off : BitVec 24),
    let o := (s.get F.PCIE_BAR2SEL_group * 2 ^ 24 + off.toNat / 4 * 4) % 2 ^ 26
    s.hopOwner (hopBank o) = 5 ∧ s.hopBad o 4 = false) ∧
  (∃ (s : State) (off : BitVec 36) (len : Fin 65) (data : Option (List Byte)),
    let x := s.bar4Target off.toNat
    ((s.on F.PCIE_BAR4CTL_en = false ∨ (data ≠ none ∧ s.on F.PCIE_BAR4CTL_write_en = false) ∨ s.bar4Owner (x.1 % 16) x.2 = false)) ∧
    s.get F.CFG_BOOT_state ≠ 2 ∧ len.val ≠ 0 ∧ off.toNat % 64 + len.val ≤ 64 ∧ s.host.barRaised = true) ∧
  (∃ (s : State) (off : BitVec 36) (len : Fin 65) (data : Option (List Byte)),
    let x := s.bar4Target off.toNat
    s.on F.PCIE_BAR4CTL_en = true ∧ ((data = none ∨ s.on F.PCIE_BAR4CTL_write_en = true)) ∧ s.get F.CFG_BOOT_state ≠ 2 ∧ len.val ≠ 0 ∧
    off.toNat % 64 + len.val ≤ 64 ∧ s.bar4Owner (x.1 % 16) x.2 = true) ∧
  (∃ (s : State) (i : Nat) (data : List Byte) (r : HostRead),
    s.host.reads[i]? = some r ∧ hpf r.hdr = false ∧ s.on F.PCIE_STATUS_up = true ∧ s.on F.RING_CTRL_en = true) ∧
  (∃ (s : State) (i : Nat) (data : List Byte) (r : HostRead) (e : PcieErr),
    s.host.reads[i]? = some r ∧ hpf r.hdr = false ∧ s.on F.PCIE_ERR_flag = false) :=
  ⟨⟨(wEng.put F.RING_CTRL_en 0), [{ haddr := 4, size := 3 }], by decide +kernel⟩,
   ⟨(wRing wRun 2 0), by decide +kernel⟩,
   ⟨State.reset, by decide +kernel⟩,
   ⟨State.reset, 2, 8, 0xF, true, true, false, by decide +kernel⟩,
   ⟨State.reset, 0x12345, none, by dsimp only; decide +kernel⟩,
   ⟨(State.reset.put (F.HOP_BANK_owner 0) 5), 0x12345, 0x11223344, by dsimp only; decide +kernel⟩,
   ⟨(State.reset.put (F.HOP_BANK_owner 0) 5), 0x12345, by dsimp only; decide +kernel⟩,
   ⟨{ State.reset with host := { barRaised := true } }, 0x12345, 8, none, by dsimp only; decide +kernel⟩,
   ⟨wBar4, 0x12345, 8, none, by dsimp only; decide +kernel⟩,
   ⟨{ wEng with host := { wEng.host with reads := [⟨mkHdr 1 4 0 0 0x102 77 0 0 5 8 4 0 0 0 0x100, 5⟩] } }, 0, wData.take 64, ⟨mkHdr 1 4 0 0 0x102 77 0 0 5 8 4 0 0 0 0x100, 5⟩, by decide +kernel⟩,
   ⟨{ wEng with host := { wEng.host with reads := [⟨mkHdr 1 4 0 0 0x102 77 0 0 5 8 4 0 0 0 0x100, 5⟩] } }, 0, [], ⟨mkHdr 1 4 0 0 0x102 77 0 0 5 8 4 0 0 0 0x100, 5⟩, ⟨2, 77, 78⟩, by decide +kernel⟩⟩

theorem test_witness_GovernorDramAndLanes :
  (∃ (s : State) (ch : Chan) (rank : Fin 8) (lane : Fin 20) (m : LaneMeas),
    let c := ch.val
    s.on F.GOV_CTRL_dram_en = true ∧ s.get F.GOV_DRAMCFG_interval ≠ 0 ∧
    (s.get (F.DDRC_STATUS_state c) ≠ 4 ∨ s.on (F.DPHY_CTRL_freeze c) = true ∨ 3 ≤ s.get (F.PWR_DSTAT_state (36 + c / 4)))) ∧
  (∃ (s : State) (ch : Chan) (rank : Fin 8) (lane : Fin 20) (m : LaneMeas),
    let c := ch.val
    let n := rank.val * 32 + lane.val
    let err : Int := (m.right.toNat : Int) - (m.left.toNat : Int)
    let old := s.get ((F.DPHY_RDEYE_centre c).sel n)
    let new := if 0 < err then old + 1 else old - 1
    s.on F.GOV_CTRL_dram_en = true ∧ s.get F.GOV_DRAMCFG_interval ≠ 0 ∧ s.get (F.DDRC_STATUS_state c) = 4 ∧ s.on (F.DPHY_CTRL_freeze c) = false ∧
    s.get (F.PWR_DSTAT_state (36 + c / 4)) < 3 ∧ s.govFrozen = false ∧ m.probeUe = none ∧ m.osc = none ∧
    64 * s.get F.GOV_DRAMCFG_min_bursts ≤ m.bursts ∧ 2 * max 1 (s.get F.GOV_DRAMCFG_centre_thr) ≤ err.natAbs ∧ 0 < old ∧ old < 255) ∧
  (∃ (s : State) (ch : Chan) (rank : Fin 8) (lane : Fin 20) (m : LaneMeas) (osc : BitVec 16),
    let c := ch.val
    let n := rank.val * 32 + lane.val
    let ref := mget (fun _ => 0) s.gov.oscAt (c * 512 + n)
    let old := s.get ((F.DPHY_WRDLY_delay c).sel n)
    let per := s.get F.GOV_DRAMCFG_osc_per_step
    let rise := decide (ref + per ≤ osc.toNat)
    let new := if rise = mget (fun _ => false) s.gov.oscUp (c * 512 + n) then old + 1 else old - 1
    s.on F.GOV_CTRL_dram_en = true ∧ s.get F.GOV_DRAMCFG_interval ≠ 0 ∧ s.get (F.DDRC_STATUS_state c) = 4 ∧ s.on (F.DPHY_CTRL_freeze c) = false ∧
    s.get (F.PWR_DSTAT_state (36 + c / 4)) < 3 ∧ s.govFrozen = false ∧ m.probeUe = none ∧ m.osc = some osc ∧
    m.bursts < 64 * s.get F.GOV_DRAMCFG_min_bursts ∧ 0 < per ∧ ((rise = true ∨ osc.toNat + per ≤ ref)) ∧ 0 < old ∧ old < 255) ∧
  (∃ (s : State) (sp : Spoke) (lane : Fin 8) (tapEnd : Bool) (code : BitVec 8),
    s.on (F.SPK_CTRL_eq_freeze sp) = true) ∧
  (∃ (s : State) (sp : Spoke) (lane : Fin 8) (code : BitVec 8),
    let n := laneIdx sp lane
    let dn := mget (fun _ => false) s.gov.up n
    let new := if dn then code.toNat - 1 else code.toNat + 1
    s.on F.GOV_CTRL_lane_en = true ∧ s.govFrozen = false ∧ s.get F.GOV_LANECFG_interval ≠ 0 ∧ s.get F.GOV_LANECFG_fom_drop ≠ 0 ∧
    s.on (F.SPK_CTRL_eq_freeze sp) = false ∧ 2 ≤ s.get (F.SPK_STATUS_state sp) ∧ s.get (F.SPK_STATUS_state sp) ≤ 5 ∧
    (mget (fun _ => none) s.gov.trials n = none) ∧ (s.get (F.LANE_STAT_fom n) + s.get F.GOV_LANECFG_fom_drop ≤ mget (fun _ => 0) s.gov.foms n) ∧
    ((if dn then 0 < code.toNat else code.toNat < 255))) ∧
  (∃ (s : State) (sp : Spoke) (lane : Fin 8) (tapEnd : Bool) (code : BitVec 8),
    let n := laneIdx sp lane
    s.on F.GOV_CTRL_lane_en = true ∧ s.govFrozen = false ∧ s.get F.GOV_LANECFG_interval ≠ 0 ∧ s.get F.GOV_LANECFG_fom_drop ≠ 0 ∧
    s.on (F.SPK_CTRL_eq_freeze sp) = false ∧ 2 ≤ s.get (F.SPK_STATUS_state sp) ∧ s.get (F.SPK_STATUS_state sp) ≤ 5 ∧
    (mget (fun _ => none) s.gov.trials n = none) ∧
    ((tapEnd = false ∨ mget (fun _ => 0) s.gov.foms n < s.get (F.LANE_STAT_fom n) + s.get F.GOV_LANECFG_fom_drop ∨ (if mget (fun _ => false) s.gov.up n then code.toNat = 0 else code.toNat = 255)))) ∧
  (∃ (s : State) (sp : Spoke) (lane : Fin 8),
    s.on (F.SPK_CTRL_eq_freeze sp) = true) ∧
  (∃ (s : State) (sp : Spoke) (lane : Fin 8) (code fom : Nat),
    let n := laneIdx sp lane
    let now := mget (fun _ => 0) s.gov.eqCode n
    (mget (fun _ => none) s.gov.trials n = some (code, fom)) ∧ s.on (F.SPK_CTRL_eq_freeze sp) = false ∧ s.govFrozen = false ∧
    s.on F.GOV_STATUS_frozen = false) :=
  ⟨⟨State.reset, 3, 1, 1, ⟨64, 10, 20, 0, none, none⟩, by dsimp only; decide +kernel⟩,
   ⟨wGovD, 3, 1, 1, ⟨64, 10, 20, 1, none, none⟩, by dsimp only; decide +kernel⟩,
   ⟨{ wGovD with gov := { wGovD.gov with oscUp := [(3*512+33, true)] } }, 3, 1, 1, ⟨63, 24, 20, 1, some 9, none⟩, 9, by dsimp only; decide +kernel⟩,
   ⟨(wLane.put (F.SPK_CTRL_eq_freeze 5) 1), 5, 3, true, 7, by decide +kernel⟩,
   ⟨{ wLane with gov := { wLane.gov with foms := [(43, 34)] } }, 5, 3, 254, by dsimp only; decide +kernel⟩,
   ⟨{ wLane with gov := { wLane.gov with foms := [(43, 34)] } }, 5, 3, true, 255, by dsimp only; decide +kernel⟩,
   ⟨(wTrial.put (F.SPK_CTRL_eq_freeze 5) 1), 5, 3, by decide +kernel⟩,
   ⟨wTrial, 5, 3, 7, 25, by dsimp only; decide +kernel⟩⟩

theorem test_witness_GovernorFlume :
  (∃ (s : State) (q : Quad),
    s.gov.ramp.testBit q = true) ∧
  (∃ (s : State) (q : Quad) (p b : Nat),
    let old := s.get (F.GOV_VFLUME_target q)
    let new := s.inRange q (old + s.get F.GOV_FLMLIM_up_step)
    s.gov.ramp.testBit q = false ∧ s.get F.GOV_FLMCFG_window ≠ 0 ∧ s.quadEnabled q = true ∧ s.get (F.PWR_DSTAT_state (32 + q.val)) = 0 ∧
    s.on F.GOV_CTRL_flume_en = true ∧ s.govFrozen = false ∧ s.launchedRegions q ≠ [] ∧ s.quadOwner q = some p ∧ s.running p = true ∧
    s.lowestBin q = some b ∧ b ≤ s.get F.GOV_FLMCFG_raise_bin ∧ old < s.flumeCeiling ∧ new ≠ old) ∧
  (∃ (s : State) (q : Quad) (b : Nat),
    let old := s.get (F.GOV_VFLUME_target q)
    let new := s.inRange q (old - s.get F.GOV_FLMLIM_down_step)
    let lower := s.get F.GOV_FLMCFG_lower_bin
    s.gov.ramp.testBit q = false ∧ s.get F.GOV_FLMCFG_window ≠ 0 ∧ s.quadEnabled q = true ∧ s.get (F.PWR_DSTAT_state (32 + q.val)) = 0 ∧
    s.on F.GOV_CTRL_flume_en = true ∧ s.govFrozen = false ∧ s.launchedRegions q ≠ [] ∧
    ((∀ p, s.quadOwner q = some p → s.pstate p ≠ 4 ∨ s.multi p = true)) ∧ s.lowestBin q = some b ∧ s.get F.GOV_FLMCFG_raise_bin < b ∧ lower ≠ 0 ∧
    lower ≤ b ∧ (mget (fun _ => 0) s.gov.holdoff q ≤ 1) ∧ s.get F.GOV_FLMLIM_down_step ≠ 0 ∧ s.firedInWindow q = true ∧
    ((∀ r ∈ s.launchedRegions q, 16 * s.get F.GOV_FLMCFG_min_fires ≤ ((List.range 16).map (s.winFires r)).sum)) ∧ new ≠ old) ∧
  (∃ (s : State) (q : Quad),
    let old := s.get (F.GOV_VFLUME_target q)
    let new := s.flumeFloor q
    s.gov.ramp.testBit q = false ∧ s.get F.GOV_FLMCFG_window ≠ 0 ∧ s.quadEnabled q = true ∧ s.get (F.PWR_DSTAT_state (32 + q.val)) = 0 ∧
    s.on F.GOV_CTRL_flume_en = true ∧ s.govFrozen = false ∧
    ((s.launchedRegions q = [] ∨ (s.quadOwner q).any (fun p => s.pstate p == 4 && !s.multi p) = true)) ∧ new ≠ old) ∧
  (∃ (s : State) (q : Quad),
    s.gov.ramp.testBit q = true ∧ s.gov.ramp < 16 ∧ s.govFrozen = false ∧ s.on F.GOV_STATUS_frozen = false) ∧
  (∃ (s : State) (q : Quad) (value : Word),
    let v := value.toNat / 256 % 4096
    s.quadEnabled q = true ∧ s.on F.GOV_STATUS_frozen = true ∧ s.flumeFloor q ≤ v ∧ v ≤ s.flumeCeiling ∧ v ≠ s.get (F.GOV_VFLUME_target q)) ∧
  (∃ (s : State) (q : Quad) (value : Word),
    let v := value.toNat / 256 % 4096
    (s.quadEnabled q = false ∨ s.on F.GOV_STATUS_frozen = false ∨ v < s.flumeFloor q ∨ s.flumeCeiling < v)) :=
  ⟨⟨{ wFlmJ with gov := { wFlmJ.gov with ramp := 1 } }, 0, by decide +kernel⟩,
   ⟨wFlmJ, 0, 0, 2, by dsimp only; decide +kernel⟩,
   ⟨wFlmLow, 0, 7, by dsimp only; decide +kernel⟩,
   ⟨(wFlmJ.put (F.PART_STATE_state 0) 4), 0, by dsimp only; decide +kernel⟩,
   ⟨{ wFlmJ with gov := { wFlmJ.gov with ramp := 3 } }, 0, by decide +kernel⟩,
   ⟨(wFlmJ.put F.GOV_STATUS_frozen 1), 0, 0x00032000, by dsimp only; decide +kernel⟩,
   ⟨wFlmJ, 0, 0x00032000, by dsimp only; decide +kernel⟩⟩

theorem test_witness_GovernorPower :
  (∃ (s : State) (rails : List RailRead) (cycles : List Nat),
    let power := ((List.range 8).map (fun r => match rails.getD r none with | some x => x.1.toNat * x.2.toNat | none => s.get (F.GOV_RAIL_low r) * s.get (F.GOV_RAIL_high r))).sum
    let ps := (power :: s.gov.power).take 10
    let cap := 1000 * ps.length * s.get F.GOV_CAP_watts
    let h := s.get F.GOV_CAPSTAT_h
    let h' := if s.get F.GOV_CAP_watts = 0 ∨ s.on F.GOV_CTRL_cap_en = false then 0 else if cap < ps.sum then min 960 (h + 8) else if 100 * ps.sum < 98 * cap then h - 4 else h
    ((∀ p, p < 4 → s.running p = false)) ∧ h ≤ 960) ∧
  (∃ (s : State) (unit : Fin 44),
    ((∀ u, u < 44 → s.misBit u = true → s.unitMismatch u = true)) ∧ s.unitMismatch unit = true ∧ s.misBit unit = false) ∧
  (∃ (s : State) (unit : Fin 44),
    ((∀ u, u < 44 → s.misBit u = true → s.unitMismatch u = true)) ∧ s.unitMismatch unit = false) :=
  ⟨⟨((State.reset.put F.GOV_CAP_watts 50).put F.GOV_CTRL_cap_en 1), [some (800, 100), none, some (750, 30)], [], by dsimp only; decide +kernel⟩,
   ⟨wMis, 0, by decide +kernel⟩,
   ⟨wMis, 1, by decide +kernel⟩⟩

theorem test_witness_Clocks :
  (∃ (s : State) (speed : Bool),
    ((∃ c, c < 16 ∧ (s.on (F.DDRC_CTRL_en c) = true ∨ s.get (F.DDRC_STATUS_state c) = 3)))) ∧
  (∃ (s : State) (speed : Bool),
    ((∀ c, c < 16 → s.on (F.DDRC_CTRL_en c) = false ∧ s.get (F.DDRC_STATUS_state c) ≠ 3))) ∧
  (∃ (s : State) (v : Nat),
    s.clk.paceWait = some v) ∧
  (∃ (s : State) (mv : BitVec 16),
    s.gov.vcoreRamp = true) ∧
  (∃ (s : State) (m : Fin 25) (freq : BitVec 20),
    let e := s.expectedFreq m
    m.val < 24 ∧ s.on F.CLK_CTRL_mon_en = true ∧ (100 * freq.toNat < 99 * e ∨ 101 * e < 100 * freq.toNat) ∧ s.on F.CLK_STATUS_switching = false ∧
    s.on (F.CLK_MON_fault m) = false) ∧
  (∃ (s : State) (m : Fin 25) (freq : BitVec 20),
    let e := s.expectedFreq m
    m.val < 24 ∧ 99 * e ≤ 100 * freq.toNat ∧ 100 * freq.toNat ≤ 101 * e) ∧
  (∃ (s : State) (freq : BitVec 20),
    s.on F.CLK_CTRL_mon_en = true ∧ (freq.toNat < 99400 ∨ 100030 < freq.toNat)) :=
  ⟨⟨(State.reset.put (F.DDRC_CTRL_en 3) 1), true, by decide +kernel⟩,
   ⟨((State.reset.put (F.DDRC_STATUS_state 3) 4).put (F.DDRC_STATUS_state 4) 6), true, by decide +kernel⟩,
   ⟨{ State.reset with clk := { paceWait := some 2 } }, 2, by decide +kernel⟩,
   ⟨{ State.reset with gov := { vcoreRamp := true }, clk := { paceWait := some 2 } }, 700, by decide +kernel⟩,
   ⟨(State.reset.put F.CLK_CTRL_mon_en 1), 0, 94000, by dsimp only; decide +kernel⟩,
   ⟨(State.reset.put F.CLK_CTRL_mon_en 1), 0, 96500, by dsimp only; decide +kernel⟩,
   ⟨(State.reset.put F.CLK_CTRL_mon_en 1), 100031, by decide +kernel⟩⟩

theorem test_witness_PowerAndSensors :
  (∃ (s : State) (u : Fin 80) (st : Fin 6),
    u.val < 48 ∧ s.on F.PWR_CTRL_en = true ∧ ((u.val < 44 → s.unitExists u = true)) ∧ s.on (F.PWR_DOM_force_en u) = false ∧
    s.on (F.PWR_DSTAT_waking u) = false ∧ takesState u st = true ∧ s.domHeld u false = false ∧ st.val ≤ s.maxState u ∧ st.val ≤ s.domCap u ∧
    s.dstate u < st.val ∧ st.val < 4 ∧ u.val < 32) ∧
  (∃ (s : State) (u : Fin 80) (st : Fin 6),
    u.val < 32 ∧ s.on F.PWR_CTRL_en = true ∧ s.unitExists u = true ∧ s.on (F.PWR_DOM_force_en u) = false ∧ s.on (F.PWR_DSTAT_waking u) = false ∧
    s.domHeld u false = false ∧ st.val ≤ s.maxState u ∧ st.val ≤ s.domCap u ∧ s.dstate u < st.val ∧ 4 ≤ st.val) ∧
  (∃ (s : State) (u : Fin 80) (st : Fin 6),
    u.val < 48 ∧ s.domHeld u false = true) ∧
  (∃ (s : State) (k : Core),
    s.on F.PWR_CTRL_en = true ∧ s.bit F.PWR_CORECFG_cores k = true ∧ (s.miller k).wfi = true ∧ s.napping k = false ∧ s.traced k = false ∧
    s.napWorth k = true) ∧
  (∃ (s : State) (u : Fin 80),
    u.val < 48 ∧ s.unitExists u = true ∧ s.dstate u ≠ 0 ∧ s.on (F.PWR_DOM_force_en u) = false) ∧
  (∃ (s : State) (u : Fin 80),
    u.val < 48 ∧ s.unitExists u = true ∧ s.dstate u ≠ 0 ∧ s.on (F.PWR_DOM_force_en u) = false ∧ (32 ≤ u.val ∨ s.dstate u < 4)) ∧
  (∃ (s : State) (u : Fin 80),
    u.val < 32 ∧ 4 ≤ s.dstate u) ∧
  (∃ (s : State) (u : Fin 80),
    u.val < 48 ∧ s.unitExists u = true ∧ s.on (F.PWR_DSTAT_waking u) = true ∧ ((∀ c, c < 16 → (s.chan c).waiting.all (fun r => !r.held) = true))) ∧
  (∃ (s : State) (k : Core),
    s.napping k = true) ∧
  (∃ (s : State) (d : Fin 48) (value : Word),
    let force := (F.PWR_DOM_force d).of value
    force < 6 ∧ ((d.val < 44 → s.unitExists d = true)) ∧ (F.PWR_DOM_force_en d).of value = 1 ∧ (takesState d force = false ∨ (0 < force ∧
    s.domHeld d (s.on F.PCIE_STATUS_up) = true))) ∧
  (∃ (s : State) (d : Fin 48) (value : Word),
    let force := (F.PWR_DOM_force d).of value
    force < 6 ∧ ((d.val < 44 → s.unitExists d = true)) ∧ (F.PWR_DOM_force_en d).of value = 1 ∧ takesState d force = true ∧
    (force = 0 ∨ s.domHeld d (s.on F.PCIE_STATUS_up) = false) ∧ force < 4) ∧
  (∃ (s : State) (d : Fin 48) (value : Word) (p : Nat),
    let force := (F.PWR_DOM_force d).of value
    d.val < 32 ∧ s.unitExists d = true ∧ (F.PWR_DOM_force_en d).of value = 1 ∧ 4 ≤ force ∧ force < 6 ∧ s.domHeld d (s.on F.PCIE_STATUS_up) = false ∧
    s.domOwner d = some p ∧ ((s.pstate p = 4 ∨ s.pstate p = 2)) ∧ s.dstate d < force) ∧
  (∃ (s : State) (d : Fin 48),
    s.on (F.PWR_DSTAT_waking d) = true ∧ s.on F.PWR_FAULT_flag = false) ∧
  (∃ (s : State) (i : Fin 40) (temp : BitVec 16),
    let hot := decide ((16 * s.get F.SENS_LIMITS_warn : Int) ≤ temp.toInt)
    i.val < 24 ∧ temp.toInt < 16 * s.get F.SENS_LIMITS_trip ∧ s.get F.SENS_LIMITS_warn ≠ 0 ∧ s.power.warned = false) ∧
  (∃ (s : State) (i : Fin 40) (temp : BitVec 16),
    i.val < 24 ∧ 16 * s.get F.SENS_LIMITS_trip ≤ temp.toInt ∧ s.sessLevel 1 = 0 ∧ s.sessLevel 2 = 0 ∧ s.sessLevel 3 = 0) ∧
  (∃ (s : State) (c : Fin 16) (temp : BitVec 16),
    let deg := (temp.toInt / 16).toNat
    s.get (F.DDRC_TEMP_limit c) ≠ 0 ∧ s.get (F.DDRC_TEMP_limit c) < deg ∧ deg < 256 ∧ (s.chan c).hot = false) ∧
  (∃ (s : State) (m : Fin 16) (mv : BitVec 16),
    let target := s.vmonTarget m
    let dev := if mv.toNat < target then target - mv.toNat else mv.toNat - target
    s.vmonChecked m = true ∧ target * s.get F.SENS_VTOL_permille < 1000 * dev ∧ s.bit F.SENS_VFAULT_monitors m = false) ∧
  (∃ (s : State) (m : Fin 16) (mv : BitVec 16),
    ((s.bit F.SENS_VFAULT_monitors m = true ∨ s.vmonChecked m = false))) :=
  ⟨⟨wIdle, 1, 3, by decide +kernel⟩,
   ⟨wIdle, 1, 4, by decide +kernel⟩,
   ⟨(wRun), 1, 4, by decide +kernel⟩,
   ⟨(({ State.reset with millers := [(3, { wfi := true })] }.put F.PWR_CTRL_en 1).put F.PWR_CORECFG_cores 8), 3, by decide +kernel⟩,
   ⟨(State.reset.put (F.PWR_DSTAT_state 33) 3), 33, by decide +kernel⟩,
   ⟨(State.reset.put (F.PWR_DSTAT_state 33) 5), 33, by decide +kernel⟩,
   ⟨(State.reset.put (F.PWR_DSTAT_state 3) 4), 3, by decide +kernel⟩,
   ⟨((((State.reset.put (F.PWR_DSTAT_state 37) 3).put (F.PWR_DSTAT_target 37) 1).put (F.PWR_DSTAT_waking 37) 1).put (F.DDRC_STATUS_state 6) 7), 37, by decide +kernel⟩,
   ⟨(State.reset.put F.PWR_CORENAP_cores 8), 3, by decide +kernel⟩,
   ⟨wRun, 1, (BitVec.ofNat 32 ((F.PWR_DOM_force 1).into ((F.PWR_DOM_force_en 1).into 0 1) 3).toNat), by dsimp only; decide +kernel⟩,
   ⟨wIdle, 1, (BitVec.ofNat 32 ((F.PWR_DOM_force 1).into ((F.PWR_DOM_force_en 1).into 0 1) 3).toNat), by dsimp only; decide +kernel⟩,
   ⟨(wRow wPow), 1, (BitVec.ofNat 32 ((F.PWR_DOM_force 1).into ((F.PWR_DOM_force_en 1).into 0 1) 5).toNat), 0, by dsimp only; decide +kernel⟩,
   ⟨(State.reset.put (F.PWR_DSTAT_waking 33) 1), 33, by decide +kernel⟩,
   ⟨wSens, 3, 1439, by dsimp only; decide +kernel⟩,
   ⟨(wSens.put (F.PART_STATE_state 0) 3), 3, 1760, by decide +kernel⟩,
   ⟨(wSens.put (F.DDRC_TEMP_limit 7) 85), 7, 1376, by dsimp only; decide +kernel⟩,
   ⟨(((State.reset.put F.SENS_VTOL_permille 50).put (F.GOV_VFLUME_target 1) 800).put F.RST_SEQ_stage 5), 5, 759, by dsimp only; decide +kernel⟩,
   ⟨(State.reset.put F.SENS_VFAULT_monitors 32), 5, 759, by decide +kernel⟩⟩

theorem test_witness_Resets :
  (∃ (s : State),
    s.sessLevel 1 = 0 ∧ s.sessLevel 2 = 0 ∧ s.sessLevel 3 = 0) ∧
  (∃ (s : State),
    s.sessLevel 1 = 0 ∧ s.sessLevel 2 = 0 ∧ s.sessLevel 3 = 0) ∧
  (∃ (s : State),
    s.sessLevel 1 = 0 ∧ s.sessLevel 2 = 0 ∧ s.sessLevel 3 = 0) ∧
  (∃ (s : State),
    s.sessLevel 1 = 0 ∧ s.sessLevel 2 = 0 ∧ s.sessLevel 3 = 0) ∧
  (∃ (s : State),
    s.sessLevel 1 = 0 ∧ s.sessLevel 2 = 0 ∧ s.sessLevel 3 = 0) ∧
  (∃ (s : State),
    s.sessLevel 1 = 0 ∧ s.sessLevel 2 = 0 ∧ s.sessLevel 3 = 0) ∧
  (∃ (s : State),
    s.sessLevel 3 = 0 ∧ s.on F.PCIE_STATUS_up = true) ∧
  (∃ (s : State),
    s.sessLevel 3 = 0 ∧ s.on F.PCIE_STATUS_up = true) ∧
  (∃ (s : State),
    s.sessLevel 3 = 0) ∧
  (∃ (s : State),
    s.on F.RST_STATUS_pwr_ok = true ∧ s.get F.RST_SEQ_stage ≤ 1) ∧
  (∃ (s : State) (f : Fuses),
    s.on F.RST_STATUS_reset_n = true ∧ s.on F.RST_STATUS_pwr_ok = true ∧ ((s.get F.RST_SEQ_stage = 1 ∨ s.get F.RST_SEQ_stage = 2))) :=
  ⟨⟨wKey, by decide +kernel⟩,
   ⟨wKey, by decide +kernel⟩,
   ⟨wKey, by decide +kernel⟩,
   ⟨wKey, by decide +kernel⟩,
   ⟨wKey, by decide +kernel⟩,
   ⟨wKey, by decide +kernel⟩,
   ⟨wKey, by decide +kernel⟩,
   ⟨wKey, by decide +kernel⟩,
   ⟨wKey, by decide +kernel⟩,
   ⟨(wKey.put F.RST_SEQ_stage 1), by decide +kernel⟩,
   ⟨(wKey.put F.RST_SEQ_stage 2), ⟨0xFFFFFFFF,2,0xFFFFFFFF,0xFFFFFFFF,5,6,some 3⟩, by decide +kernel⟩⟩

theorem test_witness_LoaderCommands :
  (∃ (s : State) (ring : Fin 4) (d : BitVec 512) (wins : List HostWin),
    let p := dPart d
    let named := dParam d % 2 = 1
    let j : LoadJob := { cmd := 1, part := p, chan := dDaddr d / 2 ^ 40, addr := dDaddr d % 2 ^ 40, len := dLen d, m := if named then some (dParam d / 2 % 4) else none, waiter := some ⟨ring, s.host.serial, 0x10⟩ }
    s.Begins ring d ∧ dOp d = 0x10 ∧ dDaddr d % 4096 = 0 ∧ dLen d % 4096 = 0 ∧ dDaddr d / 2 ^ 38 % 4 = 0 ∧ s.pstate p = 0 ∧
    s.get (F.PART_QMASK_qmask p) ≠ 0) ∧
  (∃ (s : State) (p : Part) (wins : List HostWin),
    let x := s.sourceOf p
    let m := if s.on (F.CFG_P_STATE_m_named p) then some (s.get (F.CFG_P_STATE_m p)) else none
    s.partExists p = true ∧ s.pstate p = 0 ∧ s.get (F.PART_QMASK_qmask p) ≠ 0) ∧
  (∃ (s : State) (ring : Fin 4) (d : BitVec 512) (wins : List HostWin),
    s.Begins ring d ∧ dOp d = 0x10 ∧ dDaddr d % 4096 = 0 ∧ dLen d % 4096 = 0 ∧ s.pstate (dPart d) ≠ 0) ∧
  (∃ (s : State) (p : Part) (wins : List HostWin),
    s.partExists p = true ∧ s.pstate p ≠ 0) ∧
  (∃ (s : State) (p : Part),
    s.partExists p = true ∧ (s.pstate p = 3 ∨ s.pstate p = 4) ∧ (mget (fun _ => none) s.loader.staged p = none)) ∧
  (∃ (s : State) (ring : Fin 4) (d : BitVec 512),
    s.Begins ring d ∧ dOp d = 0x11 ∧ dDaddr d % 4096 = 0 ∧ dLen d % 4096 = 0 ∧ dDaddr d / 2 ^ 38 % 4 = 0 ∧
    (s.pstate (dPart d) = 3 ∨ s.pstate (dPart d) = 4)) ∧
  (∃ (s : State) (p : Part) (wins : List HostWin),
    s.partExists p = true ∧ s.pstate p = 4 ∧ s.on (F.CFG_P_PARTIAL_staged p) = true) ∧
  (∃ (s : State) (ring : Fin 4) (d : BitVec 512) (wins : List HostWin),
    s.Begins ring d ∧ dOp d = 0x12 ∧ s.pstate (dPart d) = 4 ∧ s.on (F.CFG_P_PARTIAL_staged (dPart d)) = true) ∧
  (∃ (s : State) (p : Part) (g : Staged),
    s.partExists p = true ∧ (mget (fun _ => none) s.loader.staged p = some g) ∧ s.loader.queue = [] ∧ s.loader.active = none) ∧
  (∃ (s : State) (ring : Fin 4) (d : BitVec 512),
    s.Begins ring d ∧ dOp d = 0x13 ∧ (mget (fun _ => none) s.loader.staged (dPart d) = none) ∧ s.loader.queue = [] ∧ s.loader.active = none) ∧
  (∃ (s : State) (p : Part),
    s.partExists p = true ∧ s.pstate p ≠ 3 ∧ s.loader.queue = [] ∧ s.loader.active = none ∧ (mget (fun _ => none) s.loader.staged p = none) ∧
    (s.part p).waiters = [] ∧ p.val ∉ s.loader.emptying) ∧
  (∃ (s : State) (ring : Fin 4) (d : BitVec 512),
    s.Begins ring d ∧ dOp d = 0x14 ∧ s.pstate (dPart d) ≠ 3 ∧ s.loader.queue = [] ∧ s.loader.active = none ∧
    (mget (fun _ => none) s.loader.staged (dPart d) = none) ∧ (s.part (dPart d)).waiters = []) :=
  ⟨⟨(wRing wE 2 wLd), 2, wLd, [{ haddr := 4, size := 3 }], by unfold State.Begins; dsimp only; decide +kernel⟩,
   ⟨(wE.put (F.CFG_P_SRC_LO_addr 0) 4), 0, [], by dsimp only; decide +kernel⟩,
   ⟨(wRing wRun 2 wLd), 2, wLd, [], by unfold State.Begins; decide +kernel⟩,
   ⟨wRun, 0, [], by decide +kernel⟩,
   ⟨wRun, 0, by decide +kernel⟩,
   ⟨(wStaged (wRing wHalted 2 wSt)), 2, wSt, by unfold State.Begins; decide +kernel⟩,
   ⟨(wStaged wHalted), 0, [], by decide +kernel⟩,
   ⟨(wStaged (wRing wHalted 2 (wDesc 0x12 0 0 0 0 0))), 2, (wDesc 0x12 0 0 0 0 0), [], by unfold State.Begins; decide +kernel⟩,
   ⟨(wStaged wHalted), 0, ⟨3, 0x4000, 0x2000, [], []⟩, by decide +kernel⟩,
   ⟨(wRing wHalted 2 (wDesc 0x13 0 0 0 0 0)), 2, (wDesc 0x13 0 0 0 0 0), by unfold State.Begins; decide +kernel⟩,
   ⟨wHalted, 0, by decide +kernel⟩,
   ⟨(wRing wHalted 2 (wDesc 0x14 0 0 0 0 0)), 2, (wDesc 0x14 0 0 0 0 0), by unfold State.Begins; decide +kernel⟩⟩

theorem test_witness_LoaderPasses :
  (∃ (s : State) (j : LoadJob) (rest : List LoadJob) (ecc : RowEcc) (us : Word),
    s.loader.active = none ∧ s.loader.queue = j :: rest ∧ j.cmd = 1 ∧ j.part < 4 ∧ j.len = 0 ∧ j.waiter = none) ∧
  (∃ (s : State) (j : LoadJob) (rest : List LoadJob) (ecc : RowEcc) (us : Word),
    s.loader.active = none ∧ s.loader.queue = j :: rest ∧ (j.cmd = 1 ∨ j.cmd = 2) ∧ j.part < 4 ∧ j.len ≠ 0 ∧ j.locked = false ∧ j.waiter = none) ∧
  (∃ (s : State) (j : LoadJob) (rest : List LoadJob) (ecc : RowEcc) (us : Word) (key : BitVec 256) (m : Nat),
    let rd := s.stageReader j.chan j.addr
    let h := rd 0 512
    let k0 := firstKey key h
    let ok := k0.isSome && hTagOk (k0.getD 0) h
    s.loader.active = none ∧ s.loader.queue = j :: rest ∧ j.cmd = 1 ∧ j.part < 4 ∧ j.len ≠ 0 ∧ j.waiter = none ∧ j.modules = 0 ∧ j.locked = true ∧
    ecc.ue = [] ∧ s.Answers j.chan j.addr 512 ∧ s.Answers j.chan (j.addr + 512) (48 * hSegs h) ∧ s.sourceKey (hKeySource h) = some key ∧
    s.identityOk j rd h = true ∧ s.profileOk h = true ∧ (hPaces h).testBit s.pace = true ∧
    bindingOf (compiledSet (hQuads h) (hPair h)) (s.get (F.PART_QMASK_qmask j.part)) j.m = some m ∧ hLen h ≤ j.len) ∧
  (∃ (s : State) (j : LoadJob) (ecc : RowEcc) (us : Word),
    let rd := s.stageReader j.chan j.addr
    let h := rd 0 512
    let e := segEnt rd j.seg
    let o := openSeg j.key rd h e
    let pt := o.getD []
    s.loader.active = some j ∧ j.pass = 2 ∧ j.cmd = 2 ∧ j.part < 4 ∧ j.seg < hSegs h ∧ j.abandon = false ∧ j.waiter = none ∧ ecc.ue = [] ∧
    s.Answers j.chan (j.addr + e.off) e.len) ∧
  (∃ (s : State) (j : LoadJob) (us : Word),
    let h := s.stageReader j.chan j.addr 0 512
    s.loader.active = some j ∧ j.pass = 2 ∧ j.cmd = 2 ∧ j.part < 4 ∧ j.seg = hSegs h ∧ j.abandon = false ∧ j.waiter = none ∧
    s.contentFault j.part (s.imageSet j h) (j.m.getD 0) h j.frames (s.jobFrames j) = none) ∧
  (∃ (s : State) (j : LoadJob) (us : Word),
    let h := s.stageReader j.chan j.addr 0 512
    let p := j.part
    s.loader.active = some j ∧ j.pass = 3 ∧ j.cmd = 1 ∧ p < 4 ∧ j.seg = hSegs h ∧ j.abandon = false ∧ j.waiter = none) ∧
  (∃ (s : State) (p : Part),
    p.val ∈ s.loader.emptying ∧ s.on (F.ACQ_P_CTRL_en p) = false ∧ s.loader.unloads = []) ∧
  (∃ (s : State),
    s.lines.cfgPending = true) ∧
  (∃ (s : State),
    s.lines.cfgPending = false) ∧
  (∃ (s : State) (p : Part),
    s.releaseStage p = some 0 ∧ s.loader.active = none ∧ s.gpiosOf p = [] ∧
    ((∀ k, k < 640 → (mget (fun _ => {}) s.flume.pins k : PinPort).used = false))) ∧
  (∃ (s : State) (p : Part),
    s.releaseStage p = some 1 ∧ s.loader.active = none) ∧
  (∃ (s : State) (p : Part) (us : Word),
    s.releaseStage p = some 2 ∧ s.loader.active = none) :=
  ⟨⟨(wQ 0 { wJob 1 0 with len := 0 }), { wJob 1 0 with len := 0 }, [], {}, 77, by decide +kernel⟩,
   ⟨(wQ 0 (wJob 1 0)), (wJob 1 0), [], {}, 77, by decide +kernel⟩,
   ⟨(wQ 0 { wJob 1 0 with locked := true }), { wJob 1 0 with locked := true }, [], { ce := 2 }, 77, 99, 0, by unfold State.Answers; dsimp only; decide +kernel⟩,
   ⟨(wAct 1 (wJob 2 2)), (wJob 2 2), { ce := 2 }, 77, by unfold State.Answers; dsimp only; decide +kernel⟩,
   ⟨(wAct 0 (wJob 2 2)), (wJob 2 2), 77, by dsimp only; decide +kernel⟩,
   ⟨(wAct 0 { wJob 1 3 with locked := true }), { wJob 1 3 with locked := true }, 77, by dsimp only; decide +kernel⟩,
   ⟨{ (wSpk.setRegion 5 { used := true, launched := true }).put (F.PART_LINK_spoke_mask 0) 3 with loader := { emptying := [0] } }, 0, by decide +kernel⟩,
   ⟨{ (wRun.put (F.PART_LINK_module_count 0) 2).put (F.PART_STATE_state 0) 2 with lines := { cfgPending := true } }, by decide +kernel⟩,
   ⟨State.reset, by decide +kernel⟩,
   ⟨{ wRun with loader := { release := [(0, some 0)] } }, 0, by decide +kernel⟩,
   ⟨{ wRun with loader := { release := [(0, some 1)] } }, 0, by decide +kernel⟩,
   ⟨{ wRun with loader := { release := [(0, some 2)] } }, 0, 7, by decide +kernel⟩⟩

theorem test_witness_BootAndKeys :
  (∃ (s : State) (stream : Fin 3) (image : List Byte) (ms : BitVec 16),
    let s' := ((s.put F.CFG_BOOT_streams (min 3 (s.get F.CFG_BOOT_streams + 1))).put F.CFG_XSPI_mode_8d 1).put F.CFG_XSPI_clock 200
    let golden := decide (stream.val = 2)
    let r := s'.checkShell (listReader image) image.length (if golden then [2] else [1])
    let code := match r.2 with | .ok _ => 0 | .error e => e
    s.get F.CFG_BOOT_state = 0 ∧ s.get (F.CFG_BOOTLOG_source 0) = 0) ∧
  (∃ (s : State) (ms : BitVec 16),
    let n := s.get F.CFG_RECOV_length
    let r := s.checkShell (fun o k => s.hopRead (2 ^ 25 + o) (min k (4096 * n - o))) (4096 * n) [1, 2, 3]
    let code := match r.2 with | .ok _ => 0 | .error e => e
    s.get F.CFG_BOOT_state = 2 ∧ s.get (F.CFG_BOOTLOG_source 0) = 0 ∧ 0 < n ∧ n ≤ 8192) ∧
  (∃ (s : State) (ms : BitVec 16),
    s.get F.CFG_BOOT_state ≠ 2) ∧
  (∃ (s : State) (k : Core) (n : Fin 8),
    s.on (F.KEY_SLOT_lock n) = false) ∧
  (∃ (s : State) (k : Core) (n : Fin 8),
    s.on (F.KEY_SLOT_lock n) = true) ∧
  (∃ (s : State) (k : Core) (n : Fin 8),
    s.on (F.KEY_SLOT_lock n) = false) :=
  ⟨⟨State.reset, 0, [1, 2], 50, by dsimp only; decide +kernel⟩,
   ⟨((State.reset.put F.CFG_BOOT_state 2).put F.CFG_RECOV_length 1), 50, by dsimp only; decide +kernel⟩,
   ⟨State.reset, 50, by decide +kernel⟩,
   ⟨(State.reset.put ⟨R.KEY_WDATA 3, 0, 32⟩ 77), 3, 6, by decide +kernel⟩,
   ⟨(State.reset.put (F.KEY_SLOT_lock 6) 1), 3, 6, by decide +kernel⟩,
   ⟨({ State.reset with keys := { slots := [(6, some 9), (2, some 8)] } }.put (F.KEY_SLOT_valid 6) 1), 3, 6, by decide +kernel⟩⟩

theorem test_witness_Sluices :
  (∃ (s : State) (k : Sluice) (v : Word),
    s.slEn k = false ∧ v.getLsbD 31 = true ∧ s.slRefuses k v = false) ∧
  (∃ (s : State) (k : Sluice) (v : Word),
    s.slEn k = false ∧ v.getLsbD 31 = true ∧ (6 ≤ v.toNat / 16 % 8 ∨ 6 ≤ v.toNat % 8 ∨ (v.toNat / 16 % 8 = 5 ∧ v.toNat % 8 = 5))) ∧
  (∃ (s : State) (k : Sluice) (pk : Pkt) (rest : List Pkt),
    let x := s.sluice k
    let n := s.fpWidth (hinit pk.hdr) / 8
    let i : SlItem := { prio := haddr pk.hdr / 16 % 8, len := n, data := (unitBytes pk.data).take n, tb0 := s.tb0, order := x.next }
    x.arrive = pk :: rest ∧ s.slEn k = true ∧ pk.poison = [] ∧ s.slConsumer k ≠ 4 ∧
    (bankUse (x.fill.filter (fun i => !i.gap)) + itemSpace n + 64 ≤ s.slBank k)) ∧
  (∃ (s : State) (k : Sluice) (pk : Pkt) (rest : List Pkt),
    let x := s.sluice k
    let n := s.fpWidth (hinit pk.hdr) / 8
    let i : SlItem := { prio := 7, len := 0, gap := true, drops := 1, tb0 := s.tb0, order := x.next }
    x.arrive = pk :: rest ∧ s.slEn k = true ∧ pk.poison = [] ∧ s.slConsumer k ≠ 4 ∧ x.fill.any (·.gap) = false ∧
    (s.slBank k < bankUse (x.fill.filter (fun i => !i.gap)) + itemSpace n + 64)) ∧
  (∃ (s : State) (k : Sluice) (h : Unit128) (i : SlItem) (off : Nat),
    let n := s.fpWidth (hinit h) / 8 - 8
    let last := decide (i.len ≤ off + n)
    let x := s.sluice k
    x.waits = [h] ∧ s.slEn k = true ∧ s.slConsumer k = hctx h ∧ haddr h / 32 % 2 = 0 ∧ hpf h = false ∧ s.isolated (htarget h) = false ∧
    s.answeredFor h = false ∧ x.cur = some (i, off) ∧ i.gap = false ∧ i.data.length = i.len) ∧
  (∃ (s : State) (k : Sluice) (h : Unit128) (i : SlItem) (off : Nat),
    let x := s.sluice k
    x.waits = [h] ∧ s.slEn k = true ∧ s.slConsumer k = hctx h ∧ haddr h / 16 % 4 = 3 ∧ hpf h = false ∧ s.isolated (htarget h) = false ∧
    s.answeredFor h = false ∧ x.cur = some (i, off) ∧ x.drain = [] ∧ x.fill = []) ∧
  (∃ (s : State) (k : Sluice) (h : Unit128),
    let x := s.sluice k
    x.waits = [h] ∧ (s.slEn k = false ∨ s.slConsumer k ≠ hctx h) ∧ s.on F.SLC_ERR_flag = false ∧ hpf h = false ∧ s.isolated (htarget h) = false ∧
    s.answeredFor h = false) ∧
  (∃ (s : State) (k : Sluice) (pk : Pkt) (rest : List Pkt),
    let p := hctx pk.hdr
    (s.sluice k).arrive = pk :: rest ∧ s.slEn k = false ∧ p < 4 ∧ s.running p = true ∧ s.on F.SLC_ERR_flag = false) ∧
  (∃ (s : State) (k : Sluice) (desc : BitVec 512) (data : List Byte),
    let n := 16 + k.val
    let x := s.sluice k
    let a := s.ringAddr n (s.ring n).dev
    let i : SlItem := { prio := dField desc 10 1 % 8, len := data.length, data := data, tb0 := s.tb0, order := x.next }
    s.ringRuns n = true ∧ s.hostProduces k = true ∧ (s.ring n).host ≠ (s.ring n).dev ∧ x.hostIn = none ∧ s.slEn k = true ∧
    dField desc 8 2 = data.length ∧ 0 < data.length ∧ data.length ≤ 4096 ∧ dField desc 0 8 % 64 = 0 ∧ s.slConsumer k ≠ 4 ∧
    (bankUse (x.fill.filter (fun i => !i.gap)) + itemSpace data.length + 64 ≤ s.slBank k)) ∧
  (∃ (s : State) (k : Sluice) (desc : BitVec 512) (i : SlItem),
    let n := 16 + k.val
    let a := s.ringAddr n (s.ring n).dev
    s.ringRuns n = true ∧ s.hostConsumes k = true ∧ s.slEn k = true ∧ (s.ring n).posts ≠ (s.ring n).dev ∧ dField desc 0 8 % 4096 = 0 ∧
    (s.sluice k).cur = some (i, 0) ∧ i.data.length = i.len ∧ i.data ≠ [] ∧ i.gap = false) ∧
  (∃ (s : State) (ring : Fin 4) (d : BitVec 512) (k : Sluice) (i : SlItem),
    s.Begins ring d ∧ dOp d = 0x30 ∧ dParam d % 65536 = k.val ∧ s.slEn k = true ∧ s.hostConsumes k = true ∧ (s.sluice k).cur = some (i, 0)) ∧
  (∃ (s : State) (k : Sluice) (i : SlItem) (off : Nat),
    s.slConsumer k ≠ 5 ∧ (s.sluice k).cur = some (i, off)) ∧
  (∃ (s : State) (k : Sluice),
    let i := s.hopItem ((s.get F.SCHED_NTBASE_offset * 8192 + 32 * k.val) % 2 ^ 26)
    (s.sluice k).notify = true ∧ s.on F.SCHED_NTBASE_en = true ∧ i.delay = 0 ∧ i.w0 ≠ 0 ∧ i.valid none = true ∧ s.sched.ready.length < 4096) ∧
  (∃ (s : State) (k : Sluice),
    (s.sluice k).notify = false) ∧
  (∃ (s : State) (k : Core) (o : Nat),
    let sel := (s.portWord k 4).toNat
    let len := sel / 2 ^ 16 % 8192
    let sl := s.selSluice k
    let x := s.sluice sl
    let i : SlItem := { prio := sel / 256 % 8, len := len, data := s.hopRead o len, tb0 := s.tb0, order := x.next }
    s.portSide k sl true = true ∧ 0 < len ∧ len ≤ 4096 ∧ s.portBuf k len = some o ∧ s.slConsumer sl ≠ 4 ∧
    (bankUse (x.fill.filter (fun i => !i.gap)) + itemSpace len + 64 ≤ s.slBank sl)) ∧
  (∃ (s : State) (k : Core),
    s.portSide k (s.selSluice k) true = false) ∧
  (∃ (s : State) (k : Core) (o off : Nat) (i : SlItem),
    let sl := s.selSluice k
    s.portSide k sl false = true ∧ s.portBuf k 4096 = some o ∧ (s.portWord k 4).getLsbD 31 = false ∧ (s.sluice sl).cur = some (i, off) ∧
    i.gap = false ∧ i.data.length = i.len ∧ off < i.len ∧ i.len ≤ off + 4096) ∧
  (∃ (s : State) (k : Core) (o off : Nat) (i : SlItem),
    let sl := s.selSluice k
    s.portSide k sl false = true ∧ s.portBuf k 4096 = some o ∧ (s.portWord k 4).getLsbD 31 = false ∧ (s.sluice sl).cur = some (i, off) ∧
    i.gap = false ∧ i.data.length = i.len ∧ off < i.len ∧ i.len ≤ off + 4096) ∧
  (∃ (s : State) (k : Core) (o : Nat),
    s.portSide k (s.selSluice k) false = true ∧ s.portBuf k 4096 = some o ∧ (s.portWord k 4).getLsbD 31 = false ∧ s.slEmpty (s.selSluice k) = true) ∧
  (∃ (s : State) (k : Core) (o : Nat),
    s.portSide k (s.selSluice k) false = true ∧ s.portBuf k 4096 = some o ∧ (s.portWord k 4).getLsbD 31 = false ∧ s.slEmpty (s.selSluice k) = true) :=
  ⟨⟨State.reset, 7, 0x80000003, by decide +kernel⟩,
   ⟨State.reset, 7, 0x80000063, by decide +kernel⟩,
   ⟨((wSl 7 0 3).setSluice 7 { arrive := [wArr] }), 7, wArr, [], by dsimp only; decide +kernel⟩,
   ⟨((wSl 7 0 3).setSluice 7 { arrive := [wArr], fill := wFull 7, next := 9 }), 7, wArr, [], by dsimp only; decide +kernel⟩,
   ⟨((wSl 7 3 0).setSluice 7 { waits := [wRdH], cur := some (wIt, 0) }), 7, wRdH, wIt, 0, by dsimp only; decide +kernel⟩,
   ⟨((wSl 7 3 0).setSluice 7 { waits := [wRdD], cur := some (wIt, 1) }), 7, wRdD, wIt, 1, by dsimp only; decide +kernel⟩,
   ⟨(State.reset.setSluice 7 { waits := [wRdD], fill := [wIt] }), 7, wRdD, by dsimp only; decide +kernel⟩,
   ⟨(wRun.setSluice 7 { arrive := [wArr0] }), 7, wArr0, [], by dsimp only; decide +kernel⟩,
   ⟨((((wSl 7 5 3).put F.RING_CTRL_en 1).put F.PCIE_STATUS_up 1).put (F.SLC_RINGCFG_en.sel 7) 1 |>.setRing 23 { host := 1 }), 7, (BitVec.ofNat 512 (0x1000 + 4 * 2 ^ 64 + 3 * 2 ^ 80)), [1,2,3,4], by dsimp only; decide +kernel⟩,
   ⟨((((wSl 7 3 5).put F.RING_CTRL_en 1).put F.PCIE_STATUS_up 1).put (F.SLC_RINGCFG_en.sel 7) 1 |>.setRing 23 { posts := 1 } |>.setSluice 7 { cur := some (wIt, 0) }), 7, (BitVec.ofNat 512 0x1000), wIt, by dsimp only; decide +kernel⟩,
   ⟨(wRing ((wSl 7 3 5).setSluice 7 { cur := some (wIt, 0) }) 2 (wDesc 0x30 0xFF 0 0 0 7)), 2, (wDesc 0x30 0xFF 0 0 0 7), 7, wIt, by unfold State.Begins; decide +kernel⟩,
   ⟨((wSl 7 3 4).setSluice 7 { cur := some ({ wIt with data := [1,2] }, 1), drain := [wIt] }), 7, { wIt with data := [1,2] }, 1, by decide +kernel⟩,
   ⟨({ ((wSl 7 3 4).put F.SCHED_NTBASE_en 1).setSluice 7 { notify := true, fill := [wIt] } with hop := { State.reset.hop with mem := [(225, 16)] } }), 7, by dsimp only; decide +kernel⟩,
   ⟨State.reset, 7, by decide +kernel⟩,
   ⟨wPut, 2, 0, by dsimp only; decide +kernel⟩,
   ⟨(State.reset), 2, by decide +kernel⟩,
   ⟨wGet, 2, 0, 0, wIt, by dsimp only; decide +kernel⟩,
   ⟨wGet, 2, 0, 0, wIt, by dsimp only; decide +kernel⟩,
   ⟨(wPort ((wSl 7 3 4)) 2 [(4, 7), (5, 0x10000000)]), 2, 0, by decide +kernel⟩,
   ⟨(wPort ((wSl 7 3 4)) 2 [(4, 7), (5, 0x10000000)]), 2, 0, by decide +kernel⟩⟩

theorem test_witness_HopperBanks :
  (∃ (s : State) (k : Core) (bank : Fin 16) (owner : Fin 8) (scrub : Bool),
    owner.val < 6) ∧
  (∃ (s : State) (bank : Fin 16) (owner : Fin 8) (scrub : Bool),
    owner.val < 6 ∧ s.hopOwner bank ≠ 5) ∧
  (∃ (s : State) (who : Requester) (bank : Fin 16) (owner : Fin 8) (scrub : Bool),
    6 ≤ owner.val) ∧
  (∃ (s : State) (bank : Fin 16) (owner : Nat),
    (mget (fun _ => none) s.hop.heir bank = some (owner, false)) ∧ owner < 6) ∧
  (∃ (s : State) (bank : Fin 16) (owner : Nat),
    (mget (fun _ => none) s.hop.heir bank = some (owner, true)) ∧ owner < 6) ∧
  (∃ (s : State) (bank : Fin 16),
    (mget (fun _ => none) s.hop.heir bank = none)) ∧
  (∃ (s : State),
    s.on F.HOP_CTRL_test_en = true ∧ s.get F.HOP_TEST_region < 262143) ∧
  (∃ (s : State),
    let r := s.get F.HOP_TEST_region
    s.on F.HOP_CTRL_test_en = true ∧ r < 262143 ∧ s.get (F.HOP_BANK_spares_used (r / 16384)) < 16) :=
  ⟨⟨State.reset, 2, 3, 4, true, by decide +kernel⟩,
   ⟨State.reset, 3, 4, true, by decide +kernel⟩,
   ⟨State.reset, (.shell 1), 3, 7, true, by decide +kernel⟩,
   ⟨{ State.reset with hop := { State.reset.hop with heir := [(3, some (2, false))] } }, 3, 2, by decide +kernel⟩,
   ⟨{ State.reset with hop := { State.reset.hop with heir := [(3, some (2, true))], mem := [(5, 3), (3 * 2 ^ 22 + 5, 9)] } }, 3, 2, by decide +kernel⟩,
   ⟨(State.reset.setBit F.HOP_STATUS_scrubbing 3 true), 3, by decide +kernel⟩,
   ⟨(State.reset.put F.HOP_CTRL_test_en 1), by decide +kernel⟩,
   ⟨((State.reset.put F.HOP_CTRL_test_en 1).put F.HOP_TEST_region 20000), by dsimp only; decide +kernel⟩⟩

theorem test_witness_Scheduling :
  (∃ (s : State) (k : Core) (full : Bool),
    let i : WItem := { w0 := s.portWord k 0, w1 := s.portWord k 1, w2 := s.portWord k 2, w3 := s.portWord k 3 }
    let seq := ((Config.freeBits 10 0).toNat + s.sched.count) % 2 ^ 32
    i.valid (s.userCtx k) = true ∧ i.delay = 0 ∧ s.sched.ready.length < 4096) ∧
  (∃ (s : State) (k : Core),
    let i : WItem := { w0 := s.portWord k 0, w1 := s.portWord k 1, w2 := s.portWord k 2, w3 := s.portWord k 3 }
    let seq := ((Config.freeBits 10 0).toNat + s.sched.count) % 2 ^ 32
    i.valid (s.userCtx k) = true ∧ i.delay ≠ 0 ∧ s.sched.delayed.length < 4096) ∧
  (∃ (s : State) (k : Core) (full : Bool),
    let i : WItem := { w0 := s.portWord k 0, w1 := s.portWord k 1, w2 := s.portWord k 2, w3 := s.portWord k 3 }
    i.valid (s.userCtx k) = true ∧ i.delay = 0 ∧ 4096 ≤ s.sched.ready.length) ∧
  (∃ (s : State),
    ((∀ d, d ∈ s.sched.delayed → s.sched.ticks + 1 < d.due))) ∧
  (∃ (s : State) (d : DelayItem),
    s.sched.delayed = [d] ∧ d.list < 4 ∧ d.due ≤ s.sched.ticks + 1 ∧ s.sched.ready.length < 4096) ∧
  (∃ (s : State) (k : Core) (r : ReadyItem),
    s.on F.SCHED_CTRL_en = true ∧ s.readyOrder.head? = some r ∧ s.placeItem r.item = some k.val ∧ s.coreIdle k = true ∧ s.traced k = false) ∧
  (∃ (s : State) (k : Core) (e : WItem),
    (s.schedCore k).stack = [e] ∧ s.slotItem k = none ∧ s.traced k = false) ∧
  (∃ (s : State) (k : Core),
    s.wdogOn k = true ∧ (s.schedCore k).expired = false) ∧
  (∃ (s : State) (k : Core),
    let seqs := (s.schedCore k).stack.map (·.seq)
    s.wdogOn k = true ∧ (s.schedCore k).expired = true ∧ s.traced k = false) ∧
  (∃ (s : State) (k : Core),
    (s.miller k).wfi = true ∧ s.wakes k = true) ∧
  (∃ (s : State) (k : Core),
    (s.miller k).wfi = false) ∧
  (∃ (s : State) (k : Core) (v : Word),
    (s.miller k).wfi = false) ∧
  (∃ (s : State) (k : Core),
    s.on (F.MLR_CTRL_hold k) = true) :=
  ⟨⟨(wPort State.reset 2 [(0, 0x100), (1, 7)]), 2, true, by dsimp only; decide +kernel⟩,
   ⟨(wPort State.reset 2 [(0, 0x100), (2, 7 * 2 ^ 32)]), 2, by dsimp only; decide +kernel⟩,
   ⟨({ wPort State.reset 2 [(0, 0x100), (1, 7)] with sched := { (wPort State.reset 2 [(0, 0x100), (1, 7)]).sched with ready := List.replicate 4096 ⟨wWi, none⟩ } }), 2, true, by dsimp only; decide +kernel⟩,
   ⟨State.reset, by decide +kernel⟩,
   ⟨{ State.reset with sched := { delayed := [⟨wWi, 1, 1⟩] } }, ⟨wWi, 1, 1⟩, by decide +kernel⟩,
   ⟨{ (State.reset.put F.SCHED_CTRL_en 1).put (F.MLR_CTRL_hold 0) 0 with sched := { ready := [⟨wWi, none⟩] } }, 0, ⟨wWi, none⟩, by decide +kernel⟩,
   ⟨(wOn 2 { stack := [wWi] }), 2, wWi, by decide +kernel⟩,
   ⟨((wOn 2 { stack := [wWi] }).put (F.MLR_WDOG_timeout 2) 9), 2, by decide +kernel⟩,
   ⟨((wOn 2 { stack := [wWi], expired := true }).put (F.MLR_WDOG_timeout 2) 9), 2, by dsimp only; decide +kernel⟩,
   ⟨((wOn 2 {}).setMiller 2 { wfi := true, pc := 8, msip := true, csr := [(0x304, 8)] }), 2, by decide +kernel⟩,
   ⟨State.reset, 2, by decide +kernel⟩,
   ⟨State.reset, 2, 1, by decide +kernel⟩,
   ⟨(State.reset.put (F.MLR_CTRL_hold 2) 1), 2, by decide +kernel⟩⟩

theorem test_witness_Millers :
  (∃ (s : State) (k : Core) (n : Nat) (v : BitVec 64),
    let i := leNat (s.hopRead ((s.miller k).pc.toNat % 2 ^ 26) 4)
    s.Fetches k i ∧ i % 128 = 0x33 ∧ opResult false (fld i 25 7) (fld i 12 3) (s.x k (fld i 15 5)) (s.x k (fld i 20 5)) = some v) ∧
  (∃ (s : State) (k : Core) (n : Nat) (v : BitVec 64),
    let i := leNat (s.hopRead ((s.miller k).pc.toNat % 2 ^ 26) 4)
    s.Fetches k i ∧ i % 128 = 0x13 ∧ immResult false i (s.x k (fld i 15 5)) = some v) ∧
  (∃ (s : State) (k : Core) (n : Nat) (taken : Bool),
    let i := leNat (s.hopRead ((s.miller k).pc.toNat % 2 ^ 26) 4)
    s.Fetches k i ∧ i % 128 = 0x63 ∧ branchOp (fld i 12 3) (s.x k (fld i 15 5)) (s.x k (fld i 20 5)) = some taken) ∧
  (∃ (s : State) (k : Core) (n : Nat),
    let i := leNat (s.hopRead ((s.miller k).pc.toNat % 2 ^ 26) 4)
    let a := (s.x k (fld i 15 5) + immI i).toNat
    let w := 2 ^ (fld i 12 3 % 4)
    let v := leNat (s.hopRead (a % 2 ^ 26) w)
    s.Fetches k i ∧ i % 128 = 0x03 ∧ fld i 12 3 ≠ 7 ∧ s.dataMode k = true ∧ 0x10000000 ≤ a ∧ a < 0x14000000 ∧ a % 64 + w ≤ 64 ∧
    s.pmpOk k true a w 0 = true ∧ s.hopBusy (a % 2 ^ 26) = false ∧ s.hopBad (a % 2 ^ 26) w = false) ∧
  (∃ (s : State) (k : Core) (n : Nat),
    let i := leNat (s.hopRead ((s.miller k).pc.toNat % 2 ^ 26) 4)
    let a := (s.x k (fld i 15 5) + immS i).toNat
    let w := 2 ^ fld i 12 3
    s.Fetches k i ∧ i % 128 = 0x23 ∧ fld i 12 3 ≤ 3 ∧ s.dataMode k = true ∧ 0x10000000 ≤ a ∧ a < 0x14000000 ∧ a % 64 + w ≤ 64 ∧
    s.pmpOk k true a w 1 = true ∧ s.hopBusy (a % 2 ^ 26) = false ∧ s.line k false (a / 64) = none) ∧
  (∃ (s : State) (k : Core) (n : Nat),
    s.Fetches k 0x73) ∧
  (∃ (s : State) (k : Core) (obs : MilObs),
    s.on (F.MLR_CTRL_hold k) = true) ∧
  (∃ (s : State) (k : Core) (wide : Bool) (rd : Fin 32) (addr src : BitVec 64),
    let a := addr.toNat
    let w := if wide then 8 else 4
    let v := BitVec.ofNat 64 (leNat (s.hopRead (a % 2 ^ 26) w))
    s.coreRuns k = true ∧ s.dataMode k = true ∧ 0x10000000 ≤ a ∧ a < 0x14000000 ∧ a % w = 0 ∧ s.pmpOk k true a w 0 = true ∧
    s.hopBusy (a % 2 ^ 26) = false ∧ s.hopBad (a % 2 ^ 26) w = false) ∧
  (∃ (s : State) (k : Core) (wide : Bool) (rd : Fin 32) (addr src : BitVec 64),
    let a := addr.toNat
    let w := if wide then 8 else 4
    s.coreRuns k = true ∧ s.dataMode k = true ∧ 0x10000000 ≤ a ∧ a < 0x14000000 ∧ a % w = 0 ∧ s.pmpOk k true a w 1 = true ∧
    s.hopBusy (a % 2 ^ 26) = false ∧ (s.miller k).resv = some (a % 2 ^ 26 / 64)) ∧
  (∃ (s : State) (k : Core) (wide : Bool) (rd : Fin 32) (addr src : BitVec 64),
    let a := addr.toNat
    let w := if wide then 8 else 4
    s.coreRuns k = true ∧ s.dataMode k = true ∧ 0x10000000 ≤ a ∧ a < 0x14000000 ∧ a % w = 0 ∧ s.pmpOk k true a w 1 = true ∧
    s.hopBusy (a % 2 ^ 26) = false ∧ (s.miller k).resv ≠ some (a % 2 ^ 26 / 64)) ∧
  (∃ (s : State) (k : Core) (f5 : Fin 32) (rd : Fin 32) (addr src : BitVec 64),
    let a := addr.toNat
    let v := BitVec.ofNat 64 (leNat (s.hopRead (a % 2 ^ 26) 8))
    s.coreRuns k = true ∧ s.dataMode k = true ∧ f5.val ∈ [0, 1, 4, 8, 12, 16, 20, 24, 28] ∧ 0x10000000 ≤ a ∧ a < 0x14000000 ∧ a % 8 = 0 ∧
    s.pmpOk k true a 8 0 = true ∧ s.pmpOk k true a 8 1 = true ∧ s.hopBusy (a % 2 ^ 26) = false ∧ s.hopBad (a % 2 ^ 26) 8 = false) ∧
  (∃ (s : State) (k : Core) (wide : Bool) (rd : Fin 32) (addr src : BitVec 64),
    s.coreRuns k = true ∧ s.traced k = false ∧ addr.toNat % 8 = 0 ∧ (addr.toNat < 0x10000000 ∨ 0x14000000 ≤ addr.toNat)) ∧
  (∃ (s : State) (k : Core) (clear : Bool) (off : BitVec 26) (size : Fin 4) (data : BitVec 64),
    let o := off.toNat
    let a := (if clear then 0x18000000 else 0x14000000) + o
    let w := 2 ^ size.val
    s.coreRuns k = true ∧ o % 8 + w ≤ 8 ∧ s.pmpOk k (s.dataMode k) a w 1 = true ∧ s.hopMay k (s.dataMode k) o = true ∧ s.hopBusy o = false ∧
    s.hopBad o w = false) :=
  ⟨⟨(wMil (mkR 0x20 6 5 0 7 0x33) [(5, 100), (6, 3)]), 2, 3, 97, by unfold State.Fetches; dsimp only; decide +kernel⟩,
   ⟨(wMil (mkI 0xFFF 5 0 0 0x13) [(5, 100), (6, 3)]), 2, 3, 99, by unfold State.Fetches; dsimp only; decide +kernel⟩,
   ⟨(wMil (mkB 16 5 1) [(5, 100), (6, 3)]), 2, 3, true, by unfold State.Fetches; dsimp only; decide +kernel⟩,
   ⟨(wMil (mkI 0xFFC 5 3 7 0x03) [(5, 0x10000204), (6, 3)]), 2, 3, by unfold State.Fetches; dsimp only; decide +kernel⟩,
   ⟨(wHopO [(0x200, 0x80)] (wMil (mkS 0xFFC 6 5 1) [(5, 0x10000204), (6, 3)])), 2, 3, by unfold State.Fetches; dsimp only; decide +kernel⟩,
   ⟨(wMil 0x73 []), 2, 3, by unfold State.Fetches; decide +kernel⟩,
   ⟨(State.reset.put (F.MLR_CTRL_hold 2) 1), 2, {}, by decide +kernel⟩,
   ⟨wAm, 2, true, 7, 0x10000200, 5, by dsimp only; decide +kernel⟩,
   ⟨wAm, 2, true, 7, 0x10000208, 5, by dsimp only; decide +kernel⟩,
   ⟨wAm, 2, false, 7, 0x10000304, 5, by dsimp only; decide +kernel⟩,
   ⟨wAm, 2, 0, 7, 0x10000200, 5, by dsimp only; decide +kernel⟩,
   ⟨wAm, 2, true, 7, 0x20000200, 5, by decide +kernel⟩,
   ⟨wAm, 2, true, 0x204, 1, 0x0F0F, by dsimp only; decide +kernel⟩⟩

theorem test_witness_Sessions :
  (∃ (s : State) (who : Requester) (value : Word) (port : Nat),
    let level := F.AUTH_CTRL_level.of value
    s.dbgPort who = some port ∧ 1 ≤ port ∧ port ≤ 3 ∧ (level = 1 ∨ level = 2) ∧ s.bit F.AUTH_STATUS_locked (port - 1) = false ∧
    ((levelSlots level).any (fun n => (s.key n).isSome) = true)) ∧
  (∃ (s : State) (who : Requester) (value : Word) (port : Nat),
    s.dbgPort who = some port ∧ 1 ≤ port ∧ port ≤ 3 ∧ s.bit F.AUTH_STATUS_locked (port - 1) = true) ∧
  (∃ (s : State) (who : Requester) (value : Word) (port : Nat),
    let level := F.AUTH_CTRL_level.of value
    s.dbgPort who = some port ∧ 1 ≤ port ∧ port ≤ 3 ∧ (level = 1 ∨ level = 2) ∧ s.bit F.AUTH_STATUS_locked (port - 1) = false ∧
    ((levelSlots level).any (fun n => (s.key n).isSome) = false) ∧ s.get (runFld port) < 3) ∧
  (∃ (s : State) (who : Requester) (value : Word) (port n : Nat) (c k : BitVec 256),
    let x := (s.writeResp port 7 value).authPort port
    s.dbgPort who = some port ∧ 1 ≤ port ∧ port ≤ 3 ∧ x.chal = some c ∧ n ∈ levelSlots x.level ∧ (x.level = 1 ∨ x.level = 2) ∧ x.scope < 32 ∧
    s.key n = some k ∧ Config.hmac k (authMessage c port x.level x.scope) = x.response ∧ s.sessLevel port = 0) ∧
  (∃ (s : State) (who : Requester) (value : Word) (port : Nat),
    s.dbgPort who = some port ∧ 1 ≤ port ∧ port ≤ 3 ∧ (s.authPort port).chal = none ∧ s.get (runFld port) < 3) ∧
  (∃ (s : State) (who : Requester) (value : Word) (port : Nat),
    s.dbgPort who = some port ∧ 1 ≤ port ∧ port ≤ 3 ∧ (s.authPort port).chal = none ∧ s.get (runFld port) = 3 ∧ (s.authPort port).lock = 0 ∧
    1 ≤ s.get F.AUTH_LOCKOUT_base ∧ s.get F.AUTH_LOCKOUT_base ≤ 1024 ∧ s.bit F.AUTH_STATUS_locked (port - 1) = false) ∧
  (∃ (s : State) (who : Requester) (ended : Bool) (port : Nat),
    s.dbgPort who = some port ∧ 1 ≤ port ∧ port ≤ 3 ∧ s.sessLevel port ≠ 0) ∧
  (∃ (s : State) (who : Requester) (ended : Bool) (port : Nat),
    s.dbgPort who = some port ∧ port ≤ 3 ∧ (port = 0 ∨ s.sessLevel port = 0)) ∧
  (∃ (s : State) (port : Fin 3),
    s.get F.AUTH_IDLE_seconds ≠ 0 ∧ s.sessLevel (port + 1) ≠ 0) ∧
  (∃ (s : State) (port : Fin 3),
    s.get F.AUTH_IDLE_seconds = 0) ∧
  (∃ (s : State),
    s.sessLevel 1 ≠ 0) ∧
  (∃ (s : State),
    s.sessLevel 1 = 0) :=
  ⟨⟨wKeyP, .jtag, (BitVec.ofNat 32 (2 ^ 31 + 16)), 1, by dsimp only; decide +kernel⟩,
   ⟨(wKeyP.setBit F.AUTH_STATUS_locked 0 true), .jtag, (BitVec.ofNat 32 (2 ^ 31 + 16)), 1, by decide +kernel⟩,
   ⟨wKeyP, .jtag, (BitVec.ofNat 32 (2 ^ 31 + 32)), 1, by dsimp only; decide +kernel⟩,
   wSigned_meets,
   ⟨wKeyP, .jtag, 0, 1, by decide +kernel⟩,
   ⟨((wKeyP.put (runFld 1) 3).put F.AUTH_LOCKOUT_base 30), .jtag, 0, 1, by decide +kernel⟩,
   ⟨wSess, .jtag, false, 1, by decide +kernel⟩,
   ⟨wKeyP, .jtag, false, 1, by decide +kernel⟩,
   ⟨(wSess.put F.AUTH_IDLE_seconds 5), 0, by decide +kernel⟩,
   ⟨(wSess.put F.AUTH_IDLE_seconds 0), 0, by decide +kernel⟩,
   ⟨wSess, by decide +kernel⟩,
   ⟨wKeyP, by decide +kernel⟩⟩

theorem test_witness_DebugOfPartitions :
  (∃ (s : State) (who : Requester) (port : Nat) (p : Part),
    s.mayDebug who port 2 (some p.val) ∧ s.running p = true ∧ s.multi p = false) ∧
  (∃ (s : State) (who : Requester) (port : Nat) (p : Part),
    s.dbgPort who = some port ∧ s.sessLevel port < 2) ∧
  (∃ (s : State) (who : Requester) (port : Nat) (p : Part),
    s.dbgPort who = some port ∧ s.inScope port (some p.val) = false ∧ 2 ≤ s.sessLevel port) ∧
  (∃ (s : State) (who : Requester) (port : Nat) (p : Part),
    s.mayDebug who port 2 (some p.val) ∧ s.pstate p = 4 ∧ s.multi p = false ∧ s.loaderHas p = false ∧ (s.part p).startPend = false ∧
    (s.part p).contextLost = false ∧ s.govFrozen = true) ∧
  (∃ (s : State) (who : Requester) (port : Nat) (p : Part),
    s.mayDebug who port 2 (some p.val) ∧ s.pstate p = 4 ∧ s.multi p = false ∧ s.loaderHas p = false ∧ (s.part p).startPend = false ∧
    (s.part p).contextLost = false ∧ s.govFrozen = true) ∧
  (∃ (s : State) (who : Requester) (port : Nat) (p : Part),
    s.mayDebug who port 2 (some p.val) ∧ s.pstate p = 0) ∧
  (∃ (s : State) (who : Requester) (port : Nat) (value : BitVec 4),
    s.mayDebug who port 2 none ∧ ((∀ p, p < 4 → s.inScope port (some p) = true))) ∧
  (∃ (s : State) (who : Requester) (port : Nat) (value : Word),
    let p := s.get F.DBG_WSEL_part
    let u := s.get F.DBG_WSEL_unit
    let n := watchIdx p u
    (s.mayDebug who port (if F.DBG_WCFG_action.of value % 2 = 1 then 2 else 1) (some p)) ∧ 1 ≤ port ∧ s.sessLevel port ≠ 0 ∧
    (s.watchOwner p u = 0 ∨ s.watchOwner p u = port) ∧ F.DBG_WCFG_kind.of value ≠ 3 ∧ (u ≠ 0 ∨ F.DBG_WCFG_link.of value = 0)) ∧
  (∃ (s : State) (who : Requester) (port : Nat) (value : Word),
    let p := s.get F.DBG_WSEL_part
    let u := s.get F.DBG_WSEL_unit
    s.dbgPort who = some port ∧ 1 ≤ port ∧ s.sessLevel port ≠ 0 ∧ s.watchOwner p u ≠ 0 ∧ s.watchOwner p u ≠ port) ∧
  (∃ (s : State) (who : Requester) (port : Nat),
    let p := s.get F.DBG_WSEL_part
    s.mayDebug who port 1 (some p)) :=
  ⟨⟨(wFull3 wRun), .jtag, 1, 0, by unfold State.mayDebug; decide +kernel⟩,
   ⟨(wObs wRun), .jtag, 1, 0, by decide +kernel⟩,
   ⟨(wRun.setReg (sessReg 1) (BitVec.ofNat 32 (2 ^ 31 + 30))), .jtag, 1, 0, by decide +kernel⟩,
   ⟨(wFrz ((wFull3 wHalted).put64 (R.DBG_RUNLEFT_LO 0) (R.DBG_RUNLEFT_HI 0) 7)), .jtag, 1, 0, by unfold State.mayDebug; decide +kernel⟩,
   ⟨(wFrz (wFull3 wHalted)), .jtag, 1, 0, by unfold State.mayDebug; decide +kernel⟩,
   ⟨(wFull3 State.reset), .jtag, 1, 2, by unfold State.mayDebug; decide +kernel⟩,
   ⟨(wFull3 (wRun.put F.DBG_BREAKEN_en 9)), .jtag, 1, 3, by unfold State.mayDebug; decide +kernel⟩,
   ⟨(((wFull3 wRun).put F.DBG_WSEL_part 2).put F.DBG_WSEL_unit 5), .jtag, 1, 0x70001FFF, by unfold State.mayDebug; dsimp only; decide +kernel⟩,
   ⟨((((wFull3 wRun).put F.DBG_WSEL_part 2).put F.DBG_WSEL_unit 5).setWatchOwner 2 5 3), .jtag, 1, 0x70001FFF, by dsimp only; decide +kernel⟩,
   ⟨{ ((((wFull3 wRun).put F.DBG_WSEL_part 2).put (F.DBG_WCOUNT_count.sel (watchIdx 2 3)) 8)) with watchFirst := [(3, some 5), (35, some 7)] }, .jtag, 1, by unfold State.mayDebug; dsimp only; decide +kernel⟩⟩

theorem test_witness_DebugOfMillers :
  (∃ (s : State) (who : Requester) (port : Nat),
    let k := s.get F.DBG_MSEL_core
    let m := s.miller k
    s.mayDebug who port 2 none ∧ (s.coreOwner k = 0 ∨ s.coreOwner k = port) ∧ 1 ≤ port ∧ m.halted = false ∧ s.traced k = false) ∧
  (∃ (s : State) (who : Requester) (port : Nat),
    let k := s.get F.DBG_MSEL_core
    s.dbgPort who = some port ∧ 2 ≤ s.sessLevel port ∧ s.inScope port none = true ∧ 1 ≤ port ∧ s.coreOwner k ≠ 0 ∧ s.coreOwner k ≠ port) ∧
  (∃ (s : State) (who : Requester) (port : Nat),
    let k := s.get F.DBG_MSEL_core
    s.mayDebug who port 2 none ∧ (s.coreOwner k = 0 ∨ s.coreOwner k = port) ∧ (s.miller k).halted = true ∧ s.traced k = false ∧
    (s.trc k).stopped = none ∧ ((∀ n, n ∈ rangesOf k → s.get (F.DBG_MRCFG_en.sel n) = 0))) ∧
  (∃ (s : State) (who : Requester) (port : Nat),
    let k := s.get F.DBG_MSEL_core
    s.mayDebug who port 2 none ∧ (s.coreOwner k = 0 ∨ s.coreOwner k = port) ∧ (s.miller k).halted = true) ∧
  (∃ (s : State) (who : Requester) (port n : Nat) (value : Word),
    let k := s.get F.DBG_MSEL_core
    s.mayDebug who port 2 none ∧ (s.coreOwner k = 0 ∨ s.coreOwner k = port) ∧ 1 ≤ port ∧ s.selRange = some n) ∧
  (∃ (s : State) (drive : List (Nat × Bool)),
    ((∀ p, p < 4 → s.pstate p = 0)) ∧ 2 ≤ s.sessLevel 1 ∧ s.inScope 1 none = true ∧ (drive.map (·.1)).Nodup) ∧
  (∃ (s : State) (drive : List (Nat × Bool)) (p : Part),
    s.pstate p ≠ 0) :=
  ⟨⟨(wCore { resv := some 5, wfi := true, pc := 8 }), .jtag, 1, by unfold State.mayDebug; dsimp only; decide +kernel⟩,
   ⟨((wCore { pc := 8 }).put (coreOwnerFld 3) 2), .jtag, 1, by dsimp only; decide +kernel⟩,
   ⟨(((((wCore { pc := 8, halted := true }).put (coreOwnerFld 3) 1).put (F.DBG_MSTATUS_cause.sel 3) 1).setBit F.DBG_MHALTED_cores 3 true).setSchedCore 3 { expired := true }), .jtag, 1, by unfold State.mayDebug; dsimp only; decide +kernel⟩,
   ⟨(((wCore { pc := 8, halted := true }).put (coreOwnerFld 3) 1).setSchedCore 3 { expired := true }), .jtag, 1, by unfold State.mayDebug; dsimp only; decide +kernel⟩,
   ⟨{ (wCore {}).put F.DBG_MRSEL_index 2 with dbg := { rangeHit := [(50, true), (51, true)] } }, .jtag, 1, 50, 0x43210000, by unfold State.mayDebug; dsimp only; decide +kernel⟩,
   ⟨(wFull3 State.reset), [(70, true), (3, false)], by decide +kernel⟩,
   ⟨wRun, [(70, true), (3, false)], 0, by decide +kernel⟩⟩

theorem test_witness_DebugAccesses :
  (∃ (s : State) (who : Requester) (port : Nat) (x : Word),
    let a := s.raddr
    s.dbgPort who = some port ∧ 1 ≤ s.sessLevel port ∧ s.inScope port (s.regScope a) = true ∧ readClears a = false ∧ a ∉ loRegs ∧ a ∉ coreRegs ∧
    a ∉ [R.DBG_RDATA, R.FLM_RBDATA, R.SCHED_ENQSTAT] ∧ s.held true a = none) ∧
  (∃ (s : State) (who : Requester) (port : Nat) (x : Word),
    let a := s.raddr
    s.dbgPort who = some port ∧ 1 ≤ s.sessLevel port ∧ s.inScope port (s.regScope a) = true ∧ readClears a = true) ∧
  (∃ (s : State) (who : Requester) (port : Nat) (v : Word) (p : Part),
    s.raddr = R.TURN_CTRL p ∧ s.mayDebug who port 2 (some p.val) ∧ s.partExists p = true ∧ v.getLsbD 31 = false) ∧
  (∃ (s : State) (who : Requester) (port : Nat) (v : Word),
    s.dbgPort who = some port ∧ s.sessLevel port < 2 ∧ s.raddr ≠ R.PCIE_BAR4CTL) ∧
  (∃ (s : State) (who : Requester) (port : Nat) (v : Word),
    let c := F.DBG_BDCTRL_target.of v % 16
    let a := s.get F.DBG_BDADDR_LO_addr * 16 + s.get F.DBG_BDADDR_HI_addr_hi * 2 ^ 32
    s.dbgPort who = some port ∧ 1 ≤ s.sessLevel port ∧ F.DBG_BDCTRL_write.of v = 0 ∧ F.DBG_BDCTRL_kind.of v = 0 ∧
    s.doorScope port 0 (F.DBG_BDCTRL_target.of v) a = true ∧ s.race.lost = [] ∧ s.cstate c ≠ 7 ∧ s.busBlocked c a 6 = false ∧
    s.lineBad c (a / 64) = false) ∧
  (∃ (s : State) (who : Requester) (port : Nat) (v : Word),
    let c := F.DBG_BDCTRL_target.of v % 16
    let a := s.get F.DBG_BDADDR_LO_addr * 16 + s.get F.DBG_BDADDR_HI_addr_hi * 2 ^ 32
    s.dbgPort who = some port ∧ s.sessLevel port = 2 ∧ F.DBG_BDCTRL_write.of v = 1 ∧ F.DBG_BDCTRL_kind.of v = 0 ∧
    s.doorScope port 0 (F.DBG_BDCTRL_target.of v) a = true ∧ s.race.lost = [] ∧ s.cstate c ≠ 7 ∧ s.busBlocked c a 6 = false ∧
    s.stageLocked c a 16 = false) ∧
  (∃ (s : State) (who : Requester) (port p : Nat) (v : Word),
    let m := F.DBG_BDCTRL_target.of v
    let a := s.get F.DBG_BDADDR_LO_addr * 16 + s.get F.DBG_BDADDR_HI_addr_hi * 2 ^ 32
    let step := s.doorStep m
    s.dbgPort who = some port ∧ 1 ≤ s.sessLevel port ∧ F.DBG_BDCTRL_write.of v = 0 ∧ F.DBG_BDCTRL_kind.of v = 1 ∧ s.millOwner m = some p ∧
    (s.sessScope port).testBit p = true ∧ a + 16 ≤ 2 ^ 20 ∧ s.quadEnabled (m / 64) = true ∧ s.isolated (targetKey false m) = false ∧
    (s.dstate (m / 8) = 0 ∨ (s.dstate (m / 8) < 4 ∧ s.on (F.PWR_DOM_force_en (m / 8)) = false)) ∧ s.Unwatched p ∧ (s.cap p).items = [] ∧
    ((∀ j, j < 2 → s.mmBad m (a / 64) (a % 64 / 8 + j) step = false))) ∧
  (∃ (s : State) (who : Requester) (port : Nat) (v : Word) (i : SlItem),
    let k := F.DBG_BDCTRL_target.of v
    let a := s.get F.DBG_BDADDR_LO_addr * 16 + s.get F.DBG_BDADDR_HI_addr_hi * 2 ^ 32
    s.dbgPort who = some port ∧ 1 ≤ s.sessLevel port ∧ F.DBG_BDCTRL_write.of v = 0 ∧ F.DBG_BDCTRL_kind.of v = 2 ∧ s.doorScope port 2 k a = true ∧
    s.slHead k = some i ∧ a + 16 ≤ i.data.length) ∧
  (∃ (s : State) (who : Requester) (port : Nat) (v : Word) (e : RowEcc),
    let k := F.DBG_BDCTRL_target.of v
    let a := s.get F.DBG_BDADDR_LO_addr * 16 + s.get F.DBG_BDADDR_HI_addr_hi * 2 ^ 32
    s.dbgPort who = some port ∧ 1 ≤ s.sessLevel port ∧ F.DBG_BDCTRL_write.of v = 0 ∧ (F.DBG_BDCTRL_kind.of v = 0 ∨ F.DBG_BDCTRL_kind.of v = 2) ∧
    s.doorScope port (F.DBG_BDCTRL_kind.of v) k a = false) ∧
  (∃ (s : State) (who : Requester) (port p : Nat),
    let m := s.get F.DBG_SRSEL_mill
    let row := s.get F.DBG_SRSEL_row
    let v : Row := if row = 0xE01 then BitVec.allOnes 64 else if 0xE00 ≤ row ∧
    row < 0xF00 then 0 else s.baseRow (m * 16 + s.get F.DBG_SRSEL_stone) (physRow (s.part p).bank row)
    s.millOwner m = some p ∧ s.mayDebug who port 1 (some p) ∧ s.pstate p = 4) ∧
  (∃ (s : State) (who : Requester) (port p : Nat),
    s.millOwner (s.get F.DBG_SRSEL_mill) = some p ∧ s.mayDebug who port 1 (some p) ∧ s.pstate p ≠ 4) :=
  ⟨⟨(wRa (wObs wRun) (R.PART_STATE 0)), .jtag, 1, 5, by dsimp only; decide +kernel⟩,
   ⟨(wRa (wObs wRun) R.RING_EVLOST), .jtag, 1, 5, by dsimp only; decide +kernel⟩,
   ⟨(wRa (wFull3 wRun) (R.TURN_CTRL 0)), .jtag, 1, 0x7FFF1234, 0, by unfold State.mayDebug; decide +kernel⟩,
   ⟨(wRa (wObs wRun) (R.TURN_CTRL 0)), .jtag, 1, 0x7FFF1234, by decide +kernel⟩,
   ⟨wDoorQ, .jtag, 1, 0x00030000, by dsimp only; decide +kernel⟩,
   ⟨((wDoorQ.setReg (R.DBG_BDDATA 1) 0x1234)), .jtag, 1, 0x40030000, by dsimp only; decide +kernel⟩,
   ⟨((wBd (wFull3 wRun) 0x80).put (F.PWR_DSTAT_state 0) 0), .jtag, 1, 0, 0x10030000, by unfold State.Unwatched; dsimp only; decide +kernel⟩,
   ⟨((wBd (wFull3 ((wSl 7 4 0).setSluice 7 { drain := [{ wIt with data := (List.range 40).map (BitVec.ofNat 8), len := 40 }] })) 16)), .jtag, 1, 0x20070000, { wIt with data := (List.range 40).map (BitVec.ofNat 8), len := 40 }, by dsimp only; decide +kernel⟩,
   ⟨((wDoorQ.setReg (sessReg 1) 0x40000001)), .jtag, 1, 0x00030000, {}, by dsimp only; decide +kernel⟩,
   ⟨((wFull3 (withRow wHalted 3 5 0xABCDEF0123456789)).setReg R.DBG_SRSEL 0x00030005), .jtag, 1, 0, by unfold State.mayDebug; dsimp only; decide +kernel⟩,
   ⟨((wFull3 wRun).setReg R.DBG_SRSEL 0x00030E01), .jtag, 1, 0, by unfold State.mayDebug; decide +kernel⟩⟩

theorem test_witness_Capture :
  (∃ (s : State) (p : Part) (value : Word),
    let ring := s.reg (R.ACQ_P_RING p)
    let area := s.get (F.ACQ_P_HBUF_LO_size p)
    let ch := s.get (F.ACQ_P_RING_channel p)
    let base := s.get (F.ACQ_P_RING_base p) * 2 ^ 20
    s.on (F.ACQ_P_CTRL_en p) = false ∧ s.partExists p = true ∧ s.capRingOk ring = true ∧ s.capRingFree p ring = true ∧ area ≤ 10 ∧
    s.get64 (R.ACQ_P_HBUF_LO p) (R.ACQ_P_HBUF_HI p) / 2 ^ 20 % 2 ^ area = 0 ∧ s.race.lost = [] ∧ s.cstate ch ≠ 7 ∧ s.busBlocked ch base 7 = false ∧
    s.stageLocked ch base 64 = false) ∧
  (∃ (s : State) (p : Part) (value : Word),
    s.on (F.ACQ_P_CTRL_en p) = false ∧ s.partExists p = true ∧
    (s.capRingOk (s.reg (R.ACQ_P_RING p)) = false ∨ s.capRingFree p (s.reg (R.ACQ_P_RING p)) = false)) ∧
  (∃ (s : State) (p : Part),
    let x := s.cap p
    let ch := s.get (F.ACQ_P_RING_channel p)
    let a := s.get (F.ACQ_P_RING_base p) * 2 ^ 20 + x.written % s.capSize p
    s.on (F.ACQ_P_CTRL_en p) = true ∧ x.items = [] ∧ x.iTurns = 0 ∧ x.gap = none ∧ x.staged = [] ∧ x.written % 64 = 0 ∧
    s.capUsed p + 64 ≤ s.capSize p ∧ s.race.lost = [] ∧ s.cstate ch ≠ 7 ∧ s.busBlocked ch a 7 = false ∧ s.stageLocked ch a 64 = false) ∧
  (∃ (s : State) (p : Part),
    s.on (F.ACQ_P_CTRL_en p) = false) ∧
  (∃ (s : State) (parts : BitVec 4),
    ((∀ p, p < 4 → parts.getLsbD p = true → s.on (F.ACQ_P_CTRL_en p) = true ∧ s.running p = true ∧ s.on (F.ACQ_P_CTRL_drive_x p) = false ∧
    (s.cap p).items = []))) ∧
  (∃ (s : State) (p : Part),
    s.on (F.ACQ_P_CTRL_en p) = true ∧ s.on (F.ACQ_P_CTRL_drive_x p) = true ∧ s.lines.trigXPulse = false ∧ s.lines.trigXPending = false ∧
    (s.cap p).items = []) ∧
  (∃ (s : State) (m : Mill) (p : Part) (i : CapItem),
    (s.cap p).items = [i] ∧ i.kind = 1 ∧ m.val ∈ i.missing ∧ i.missing.erase m.val ≠ [] ∧ ((∀ q, q < p.val → (s.cap q).items = []))) ∧
  (∃ (s : State) (m : Mill) (p : Part) (i : CapItem),
    let x := s.cap p
    let n := 1 + 2 * i.mills.length
    let ch := s.get (F.ACQ_P_RING_channel p)
    let base := s.get (F.ACQ_P_RING_base p) * 2 ^ 20
    x.items = [i] ∧ i.kind = 1 ∧ i.missing = [m.val] ∧ ((∀ q, q < p.val → (s.cap q).items = [])) ∧ s.get (F.ACQ_P_CTRL_interval p) = 0 ∧
    x.gap = none ∧ x.staged = [] ∧ x.written % 64 = 0 ∧ i.mills.length ≤ 256 ∧ s.capUsed p + 64 * n ≤ s.capSize p - 2048 ∧ s.race.lost = [] ∧
    s.cstate ch ≠ 7 ∧ ((∀ k, k < n → s.busBlocked ch (base + (x.written + 64 * k) % s.capSize p) 7 = false ∧
    s.stageLocked ch (base + (x.written + 64 * k) % s.capSize p) 64 = false))) ∧
  (∃ (s : State) (m : Mill),
    ((∀ p, p < 4 → (s.cap p).items = []))) ∧
  (∃ (s : State) (p : Part) (ecc : RowEcc),
    let n := 9 + p.val
    let x := s.cap p
    let area := s.capArea p
    let len := min (min 65536 (s.capUsed p)) (area - x.copied % area)
    let ch := s.get (F.ACQ_P_RING_channel p)
    let lines := (List.range (len / 64)).map (fun i => s.get (F.ACQ_P_RING_base p) * 2 ^ 20 + (x.copied + 64 * i) % s.capSize p)
    let haddr := s.get64 (R.ACQ_P_HBUF_LO p) (R.ACQ_P_HBUF_HI p) / 2 ^ 20 * 2 ^ 20 + x.copied % area
    let a := s.ringAddr n (s.ring n).dev
    let mine := x.recs.filter (fun r => decide (r.1 < x.copied + len))
    len ≠ 0 ∧ s.ringRoom n = true ∧ s.capHeld p + len ≤ area ∧ s.race.lost = [] ∧ s.cstate ch ≠ 7 ∧ ecc.ue = [] ∧
    (lines.all (fun l => !s.busBlocked ch l 7) = true) ∧ (lines.all (fun l => !s.lineBad ch (l / 64)) = true) ∧ x.staged = [] ∧ mine ≠ []) ∧
  (∃ (s : State) (p : Part) (n : Step),
    let h := n.val + s.horizon p
    let hold := if h < s.depth p then h else h - s.depth p
    let next := !decide (h < s.depth p)
    s.running p = true ∧ s.multi p = false ∧ (s.part p).lossless = true ∧ s.on (F.ACQ_P_CTRL_en p) = true ∧ (s.part p).limitSteps = [] ∧
    max 1 (s.get F.ACQ_HWM_level) * s.capSize p ≤ 16 * s.capUsed p ∧ ((s.part p).rechecks.find? (fun r => r.ref == capRef) = none)) ∧
  (∃ (s : State) (p : Part) (n : Step),
    s.running p = true ∧ (s.part p).lossless = true ∧ s.on (F.ACQ_P_CTRL_en p) = true ∧
    16 * s.capUsed p < max 1 (s.get F.ACQ_HWM_level) * s.capSize p ∧ ((∀ i, i ∈ (s.cap p).items → i.missing = []))) :=
  ⟨⟨(wAcq.setCap 0 { seq := 5, written := 7 }), 0, 0xFE001234, by dsimp only; decide +kernel⟩,
   ⟨(wAcq.put (F.ACQ_P_RING_base 0) 1), 0, 0xFE001234, by decide +kernel⟩,
   ⟨(wEn { written := 128, seq := 2, marks := 3, units := 1, post := some 4 }), 0, by dsimp only; decide +kernel⟩,
   ⟨wAcq, 0, by decide +kernel⟩,
   ⟨(wEn { units := 1, step := 7 }), 1, by decide +kernel⟩,
   ⟨((wEn {}).put (F.ACQ_P_CTRL_drive_x 0) 1), 0, by decide +kernel⟩,
   ⟨(wEn { items := [wItm [3, 4]] }), 4, 0, wItm [3, 4], by decide +kernel⟩,
   ⟨(wEn { items := [wItm [4]] }), 4, 0, wItm [4], by dsimp only; decide +kernel⟩,
   ⟨wAcq, 4, by decide +kernel⟩,
   ⟨wPost, 0, { ce := 2 }, by dsimp only; decide +kernel⟩,
   ⟨(wLos { written := 2 ^ 22 }), 0, 5, by dsimp only; decide +kernel⟩,
   ⟨(wLos { written := 64 }), 0, 500, by decide +kernel⟩⟩

theorem test_witness_MillerTrace :
  (∃ (s : State) (who : Requester) (value : Word),
    s.on F.TRC_CTRL_en = false ∧ F.TRC_CTRL_full_auth.of value = 0 ∧ s.capRingOk (s.reg R.TRC_RING) = true ∧ s.capRingFree 4 (s.reg R.TRC_RING) = true) ∧
  (∃ (s : State) (who : Requester) (port : Nat) (value : Word),
    s.on F.TRC_CTRL_en = true ∧ F.TRC_CTRL_full_auth.of value = 1 ∧ sessOf who = some port ∧ 1 ≤ port ∧ s.sessLevel port = 2 ∧
    (s.sessScope port).testBit 4 = true) ∧
  (∃ (s : State) (who : Requester) (value : Word),
    s.on F.TRC_CTRL_en = true ∧ F.TRC_CTRL_full_auth.of value = 1 ∧ (sessOf who = none ∨ sessOf who = some 0)) ∧
  (∃ (s : State) (who : Requester) (value : Word),
    s.on F.TRC_CTRL_en = false ∧ F.TRC_CTRL_full_auth.of value = 0 ∧
    (s.capRingOk (s.reg R.TRC_RING) = false ∨ s.capRingFree 4 (s.reg R.TRC_RING) = false)) ∧
  (∃ (s : State),
    s.on F.TRC_CTRL_en = true ∧ s.on F.TRC_STATUS_triggered = false ∧ s.get F.TRC_STOPDLY_cycles ≠ 0 ∧
    ((∀ k, k ∈ s.tracedCores → (s.trc k).held = 0 ∧ (s.trc k).repeats = 0 ∧ (s.trc k).lost = 0 ∧ (s.trc k).buf.length < 256 ∧ s.trcDelta k ≤ 8191))) ∧
  (∃ (s : State),
    (s.on F.TRC_CTRL_en = false ∨ s.on F.TRC_STATUS_triggered = true)) ∧
  (∃ (s : State) (k : Core),
    let buf := (s.trc k).buf
    let ch := s.trcRing.1
    let size := s.trcRing.2.2
    let a := s.trcRing.2.1 + 64 * (s.get F.TRC_WPOS_blocks % (size / 64))
    s.tracedCores = [k.val] ∧ buf ≠ [] ∧ buf.length ≤ 8 ∧ s.race.lost = [] ∧ s.cstate ch ≠ 7 ∧ s.busBlocked ch a 7 = false ∧
    s.stageLocked ch a 64 = false) ∧
  (∃ (s : State) (k : Core),
    let buf := (s.trc k).buf
    let ch := s.trcRing.1
    let size := s.trcRing.2.2
    let a := s.trcRing.2.1 + 64 * (s.get F.TRC_WPOS_blocks % (size / 64))
    s.traced k = true ∧ buf ≠ [] ∧ buf.length ≤ 8 ∧ s.race.lost = [] ∧ s.cstate ch ≠ 7 ∧ s.busBlocked ch a 7 = false ∧ s.stageLocked ch a 64 = false) ∧
  (∃ (s : State) (k : Core),
    s.traced k = false) ∧
  (∃ (s : State),
    s.get F.TRC_SYNC_period ≠ 0 ∧ ((∀ k, k ∈ s.tracedCores → (s.trc k).stopped = none → (s.trc k).held = 0 ∧ (s.trc k).repeats = 0 ∧
    (s.trc k).lost = 0 ∧ (s.trc k).buf.length < 255 ∧ (s.trc k).resync = false)) ∧
    ((∀ k, k ∈ s.tracedCores → ∀ c, s.trcCtx k = some c → s.trcSel c (s.miller k).machine = true))) ∧
  (∃ (s : State),
    s.get F.TRC_SYNC_period = 0) ∧
  (∃ (s : State) (k : Core),
    let x := s.trc k
    let buf := x.buf ++ [k.val * 2 ^ 59 + 14 * 2 ^ 55 + s.trcDelta k * 2 ^ 42]
    let ch := s.trcRing.1
    let size := s.trcRing.2.2
    let pos := (s.get F.TRC_WPOS_blocks + 1) % 2 ^ F.TRC_WPOS_blocks.width
    let a := s.trcRing.2.1 + 64 * (s.get F.TRC_WPOS_blocks % (size / 64))
    s.on F.TRC_STATUS_triggered = true ∧ s.tracedCores = [k.val] ∧ x.held = 0 ∧ x.repeats = 0 ∧ x.lost = 0 ∧ x.buf.length ≤ 7 ∧ s.trcDelta k ≤ 8191 ∧
    s.race.lost = [] ∧ s.cstate ch ≠ 7 ∧ s.busBlocked ch a 7 = false ∧ s.stageLocked ch a 64 = false) ∧
  (∃ (s : State),
    (s.on F.TRC_CTRL_en = false ∨ s.on F.TRC_STATUS_triggered = false)) :=
  ⟨⟨((wT0.setTrc 2 { held := 4 }).put F.TRC_WPOS_blocks 4), (.shell 0), 0x8000001F, by decide +kernel⟩,
   ⟨((wT1 {}).setReg (sessReg 2) 0x8000001F), .mgmt, 2, (F.TRC_CTRL_full_auth.into 0 1), by decide +kernel⟩,
   ⟨(wT1 {}), (.shell 3), (F.TRC_CTRL_full_auth.into 7 1), by decide +kernel⟩,
   ⟨(wT0.put ⟨R.TRC_RING, 0, 18⟩ 3), (.shell 3), 7, by decide +kernel⟩,
   ⟨{ wT1 { buf := [5] } with uptime := 70 }, by decide +kernel⟩,
   ⟨wT0, by decide +kernel⟩,
   ⟨((wT1 { buf := [5, 6, 7] }).put F.TRC_WPOS_blocks 65537), 2, by dsimp only; decide +kernel⟩,
   ⟨((wT1 { buf := [5, 6, 7] }).put F.TRC_WPOS_blocks 65537), 2, by dsimp only; decide +kernel⟩,
   ⟨(wT1 {}), 3, by decide +kernel⟩,
   ⟨{ wSyn.setMiller 2 { machine := false, pc := 0x2468 } with uptime := 70 }, by decide +kernel⟩,
   ⟨((wT1 {}).put F.TRC_SYNC_period 0), by decide +kernel⟩,
   ⟨({ wT1 { buf := [5] } with uptime := 70 }.put F.TRC_STATUS_triggered 1), 2, by dsimp only; decide +kernel⟩,
   ⟨(wT1 {}), by decide +kernel⟩⟩

theorem test_witness_TimeBasesAndStamps :
  (∃ (s : State) (who : Requester) (k : Fin 3) (hi : Word),
    let raw := (s.reg (R.TBK_STEP_LO k)).toNat + 2 ^ 32 * hi.toNat
    s.tbAllowed who k = true ∧ s.on (F.TBK_STATUS_anchored k) = false ∧ ((∀ g, g < 8 → s.on (F.TB_PGCFG_en.sel g) = false))) ∧
  (∃ (s : State) (who : Requester) (k : Fin 3) (hi : Word),
    let off := (BitVec.ofNat 64 ((s.reg (R.TBK_STEP_LO k)).toNat + 2 ^ 32 * hi.toNat)).toInt
    s.tbAllowed who k = true ∧ s.on (F.TBK_STATUS_anchored k) = true ∧ s.get F.TB_JUMPTHR_us ≠ 0 ∧
    off.natAbs * 2 ^ 32 + (s.slewOf k).natAbs ≤ s.get F.TB_JUMPTHR_us * 1000 * 2 ^ 32) ∧
  (∃ (s : State) (who : Requester) (k : Fin 3) (hi : Word),
    let raw := (s.reg (R.TBK_STEP_LO k)).toNat + 2 ^ 32 * hi.toNat
    let off := (BitVec.ofNat 64 raw).toInt
    s.tbAllowed who k = true ∧ s.on (F.TBK_STATUS_anchored k) = true ∧
    (s.get F.TB_JUMPTHR_us = 0 ∨ s.get F.TB_JUMPTHR_us * 1000 * 2 ^ 32 < off.natAbs * 2 ^ 32 + (s.slewOf k).natAbs)) ∧
  (∃ (s : State) (who : Requester) (k : Fin 3) (hi : Word),
    s.tbAllowed who k = false) ∧
  (∃ (s : State),
    s.on (F.TBK_CFG_source 0) = false) ∧
  (∃ (s : State) (who : Requester) (k : Fin 3),
    s.tbAllowed who k = true) ∧
  (∃ (s : State) (who : Requester) (k : Fin 3) (v : Word),
    s.tbAllowed who k = true ∧ -549755814 ≤ v.toInt ∧ v.toInt ≤ 549755814) ∧
  (∃ (s : State) (who : Requester) (k : Fin 3) (v : Word),
    s.tbAllowed who k = true ∧ (v.toInt < -549755814 ∨ 549755814 < v.toInt)) ∧
  (∃ (s : State) (k : Fin 3),
    s.on (F.TBK_CFG_follow 1) = false ∧ s.on (F.TBK_CFG_follow 2) = false) ∧
  (∃ (s : State) (g : Fin 8),
    let core := s.get (F.TB_PGCFG_core.sel g)
    let n := s.get (F.TB_PGCOUNT_count.sel g)
    let target := mget (fun _ => 0) s.time.next g
    let value := if s.get (F.TB_PGCFG_tb.sel g) = 3 then s.turns (s.get (F.TB_PGCFG_part.sel g)) else s.baseNs (s.get (F.TB_PGCFG_tb.sel g))
    s.on (F.TB_PGCFG_en.sel g) = true ∧ (value + 2 ^ 64 - target % 2 ^ 64) % 2 ^ 64 < 2 ^ 63) ∧
  (∃ (s : State) (g : Fin 8),
    (s.on (F.TB_PGCFG_en.sel g) = false ∨ s.pgPeriod g = 0 ∨ s.get (F.TB_PGCFG_tb.sel g) = 3 ∨ max 1 (s.get (F.TB_PGCFG_width.sel g)) * 100 < s.pgPeriod g)) ∧
  (∃ (s : State) (i : Fin 8) (rising : Bool),
    let cfg := s.get F.TB_CAPCFG_inputs / 16 ^ i.val % 16
    s.tcapPin i = true ∧ cfg / 4 ≠ 3 ∧ ((cfg % 4).testBit (if rising then 0 else 1) = true) ∧ s.bit F.TB_EVSTAT_captured i = false) ∧
  (∃ (s : State) (i : Fin 8) (rising : Bool),
    let cfg := s.get F.TB_CAPCFG_inputs / 16 ^ i.val % 16
    s.tcapPin i = true ∧ cfg / 4 ≠ 3 ∧ ((cfg % 4).testBit (if rising then 0 else 1) = true) ∧ s.bit F.TB_EVSTAT_captured i = true ∧
    s.time.overran.testBit i = false) ∧
  (∃ (s : State) (i : Fin 8) (rising : Bool),
    ((s.get F.TB_CAPCFG_inputs / 16 ^ i.val % 4).testBit (if rising then 0 else 1) = false ∨ s.get F.TB_CAPCFG_inputs / 16 ^ i.val % 16 / 4 = 3 ∨ s.tcapPin i = false)) ∧
  (∃ (s : State) (m : PtpMsg),
    let at_ := (((s.baseCount 0 : Int) - (s.get F.PTP_RXLAT_ps * 2 ^ 32 / 1000 : Nat)) % 2 ^ 96).toNat
    let e : PtpStamp := ⟨at_, BitVec.ofNat 32 (m.mtype.val * 2 ^ 28 + m.domain.toNat * 2 ^ 20 + m.seq.toNat), m.clockId, m.port⟩
    s.on F.PTP_CTRL_en = true ∧ s.on F.PTP_CTRL_ts_rx_en = true ∧ s.bit F.PTP_FILTER_transports (2 - m.transport.val) = true ∧
    (s.on F.PTP_FILTER_any_domain = true ∨ s.get F.PTP_FILTER_domain = m.domain.toNat) ∧ s.time.rx.length < 64) ∧
  (∃ (s : State) (m : PtpMsg),
    let at_ := (((s.baseCount 0 : Int) + (s.get F.PTP_TXLAT_ps * 2 ^ 32 / 1000 : Nat)) % 2 ^ 96).toNat
    let e : PtpStamp := ⟨at_, BitVec.ofNat 32 (m.mtype.val * 2 ^ 28 + m.domain.toNat * 2 ^ 20 + m.seq.toNat), m.clockId, m.port⟩
    s.on F.PTP_CTRL_en = true ∧ s.on F.PTP_CTRL_ts_tx_en = true ∧ s.bit F.PTP_FILTER_transports (2 - m.transport.val) = true ∧
    (s.on F.PTP_FILTER_any_domain = true ∨ s.get F.PTP_FILTER_domain = m.domain.toNat) ∧ s.time.tx.length < 64) ∧
  (∃ (s : State) (m : PtpMsg),
    s.on F.PTP_CTRL_en = true ∧ s.on F.PTP_CTRL_ts_rx_en = true ∧ s.bit F.PTP_FILTER_transports (2 - m.transport.val) = true ∧
    s.on F.PTP_FILTER_any_domain = false ∧ s.get F.PTP_FILTER_domain ≠ m.domain.toNat) ∧
  (∃ (s : State) (m : PtpMsg),
    s.on F.PTP_CTRL_en = true ∧ s.on F.PTP_CTRL_ts_rx_en = true ∧ s.bit F.PTP_FILTER_transports (2 - m.transport.val) = true ∧
    s.on F.PTP_FILTER_any_domain = true ∧ 64 ≤ s.time.rx.length) ∧
  (∃ (s : State) (dir : Bool) (e : PtpStamp) (rest : List PtpStamp),
    ((if dir then s.time.tx else s.time.rx) = e :: rest)) ∧
  (∃ (s : State) (dir : Bool),
    ((if dir then s.time.tx else s.time.rx) = [])) :=
  ⟨⟨((wTm { ns := [(0, 100)], frac := [(0, 5)] }).setReg (R.TBK_STEP_LO 0) 0xFFFFFFFE), (.shell 0), 0, 0xFFFFFFFF, by dsimp only; decide +kernel⟩,
   ⟨((((wTm { ns := [(0, 100)] }).setReg (R.TBK_STEP_LO 1) 0xFFFFFFFE).put (F.TBK_STATUS_anchored 1) 1).put F.TB_JUMPTHR_us 3), (.host), 1, 0xFFFFFFFF, by dsimp only; decide +kernel⟩,
   ⟨((((wTm { ns := [(0, 100)] }).setReg (R.TBK_STEP_LO 1) 0xFFFFFFFE).put (F.TBK_STATUS_anchored 1) 1).put F.TB_JUMPTHR_us 3), (.host), 1, 5, by dsimp only; decide +kernel⟩,
   ⟨State.reset, (.host), 0, 5, by decide +kernel⟩,
   ⟨State.reset, by decide +kernel⟩,
   ⟨(State.reset.put (F.TBK_STATUS_anchored 1) 1), .host, 1, by decide +kernel⟩,
   ⟨(State.reset.put (F.TBK_STATUS_clamped 1) 1), .host, 1, 0xFFFFFFF0, by decide +kernel⟩,
   ⟨State.reset, .host, 1, 0x80000000, by decide +kernel⟩,
   ⟨(wTm { ns := [(0, 100), (2, 5)], slew := [(2, -12345)] }), 2, by decide +kernel⟩,
   ⟨(((wPg 0).put (F.TB_PGCFG_irq.sel 3) 1).put (F.TB_PGCFG_core.sel 3) 7), 3, by dsimp only; decide +kernel⟩,
   ⟨(wTm { pulse := 255 }), 3, by decide +kernel⟩,
   ⟨(wCapT 1), 5, true, by dsimp only; decide +kernel⟩,
   ⟨((wCapT 3).setBit F.TB_EVSTAT_captured 5 true), 5, false, by dsimp only; decide +kernel⟩,
   ⟨(wCapT 1), 5, false, by decide +kernel⟩,
   ⟨(wPtp.put F.PTP_RXLAT_ps 5000), wMsg 0, by dsimp only; decide +kernel⟩,
   ⟨(wPtp.put F.PTP_TXLAT_ps 5000), wMsg 0, by dsimp only; decide +kernel⟩,
   ⟨(wPtp.put F.PTP_FILTER_any_domain 0), wMsg 0, by decide +kernel⟩,
   ⟨{ wPtp with time := { rx := List.replicate 64 ⟨1, 2, 3, 4⟩ } }, wMsg 1, by decide +kernel⟩,
   ⟨{ wPtp with time := { rx := List.replicate 3 ⟨2 ^ 40 + 5, 2, 3, 4⟩ } }, false, ⟨2 ^ 40 + 5, 2, 3, 4⟩, List.replicate 2 ⟨2 ^ 40 + 5, 2, 3, 4⟩, by decide +kernel⟩,
   ⟨wPtp, true, by decide +kernel⟩⟩

theorem test_witness_Pins :
  (∃ (s : State) (who : Requester) (n : Fin 48) (v : Word),
    let f := v.toNat % 16
    s.shellWriter who = true ∧ v.toNat / 2 ^ 24 % 8 < 6 ∧ funcOk n f = true ∧ f ≠ s.get (F.GPIO_PIN_func n) ∧ s.pinSeq n = 0) ∧
  (∃ (s : State) (who : Requester) (n : Fin 48) (v : Word),
    s.shellWriter who = true ∧ v.toNat / 2 ^ 24 % 8 < 6 ∧ v.toNat % 16 = s.get (F.GPIO_PIN_func n) ∧ funcOk n (v.toNat % 16) = true ∧ s.pinSeq n = 0) ∧
  (∃ (s : State) (who : Requester) (n : Fin 48) (v : Word),
    s.pinSeq n = 0 ∧ s.shellWriter who = false ∧ v.toNat / 2 ^ 24 % 8 < 6 ∧ v.toNat / 2 ^ 24 ≠ (s.reg (R.GPIO_PIN n)).toNat / 2 ^ 24) ∧
  (∃ (s : State) (who : Requester) (n : Fin 48) (v : Word),
    s.pinSeq n = 0 ∧ v.toNat / 2 ^ 24 % 8 < 6 ∧ (s.shellWriter who = true ∨ v.toNat / 2 ^ 24 = (s.reg (R.GPIO_PIN n)).toNat / 2 ^ 24) ∧
    (s.gpioWriter who n = false ∨ 10 ≤ v.toNat % 16)) ∧
  (∃ (s : State) (who : Requester) (n : Fin 48) (v : Word),
    s.pinSeq n ≠ 0) ∧
  (∃ (s : State) (who : Requester) (oe : Bool) (g : Fin 3) (mask value : BitVec 16),
    ((∀ j, j < 16 → mask.getLsbD j = true → s.gpioWriter who (16 * g + j) = true ∧ s.pinSeq (16 * g + j) = 0))) ∧
  (∃ (s : State) (who : Requester) (oe : Bool) (g : Fin 3) (j : Fin 16) (value : BitVec 16),
    s.gpioWriter who (16 * g + j) = false ∧ s.pinSeq (16 * g + j) = 0) ∧
  (∃ (s : State) (b : Fin 5) (v : Word),
    let volt := v.toNat / 2 ^ 28 % 4
    let mv := s.get (F.SENS_VMON_mv (10 + b))
    let want := if volt = 0 then 1200 else if volt = 1 then 1800 else 3300
    s.on (F.TIO_BANK_en b) = false ∧ v.getLsbD 31 = true ∧ volt ≠ 3 ∧ want ≤ mv + want * s.get F.SENS_VTOL_permille / 1000 ∧
    mv ≤ want + want * s.get F.SENS_VTOL_permille / 1000) ∧
  (∃ (s : State) (b : Fin 5) (v : Word),
    let volt := v.toNat / 2 ^ 28 % 4
    let mv := s.get (F.SENS_VMON_mv (10 + b))
    let want := if volt = 0 then 1200 else if volt = 1 then 1800 else 3300
    s.on (F.TIO_BANK_en b) = false ∧ v.getLsbD 31 = true ∧ volt ≠ 3 ∧ s.get F.SENS_VTOL_permille ≠ 0 ∧ s.on F.TIO_ERR_flag = false ∧
    (mv + want * s.get F.SENS_VTOL_permille / 1000 < want ∨ want + want * s.get F.SENS_VTOL_permille / 1000 < mv)) ∧
  (∃ (s : State) (b : Fin 5) (v : Word),
    s.on (F.TIO_BANK_en b) = true ∧ v.getLsbD 31 = false ∧ v.toNat / 2 ^ 28 % 4 ≠ 3 ∧
    ((∀ j, j < 32 → s.tioOwner (32 * b + j) = 0 ∨ s.pstate (s.tioOwner (32 * b + j) - 1) = 0))) ∧
  (∃ (s : State) (who : Requester) (p : Fin 160) (v : Word),
    let a := selAddr R.TIO_PINCFG p
    let old := s.tioMode p
    s.shellWriter who = true ∧ s.pinSeq (64 + p) = 0 ∧ v.toNat / 2 ^ 28 % 8 < 5 ∧ (s.tioOwner p = 0 ∨ s.pstate (s.tioOwner p - 1) = 0) ∧
    (v.toNat / 2 ^ 26 % 4 = old ∨ (old ≠ 1 ∧ old ≠ 2))) ∧
  (∃ (s : State) (who : Requester) (p : Fin 160) (v : Word),
    let a := selAddr R.TIO_PINCFG p
    s.shellWriter who = true ∧ s.pinSeq (64 + p) = 0 ∧ v.toNat / 2 ^ 28 % 8 < 5 ∧ (s.tioOwner p = 0 ∨ s.pstate (s.tioOwner p - 1) = 0) ∧
    v.toNat / 2 ^ 26 % 4 ≠ s.tioMode p ∧ (s.tioMode p = 1 ∨ s.tioMode p = 2)) ∧
  (∃ (s : State) (who : Requester) (p : Fin 160) (v : Word),
    s.pinSeq (64 + p) = 0 ∧ v.toNat / 2 ^ 28 % 8 < 5 ∧ s.tioOwner p ≠ 0 ∧ s.pstate (s.tioOwner p - 1) ≠ 0 ∧
    v.toNat / 2 ^ 24 % 128 ≠ (s.reg (selAddr R.TIO_PINCFG p)).toNat / 2 ^ 24 % 128) :=
  ⟨⟨(State.reset.setReg (R.GPIO_PIN 5) 0x00064000), (.shell 3), 5, 0x0D3FF003, by dsimp only; decide +kernel⟩,
   ⟨State.reset, (.shell 3), 5, 0x0D3FF000, by decide +kernel⟩,
   ⟨State.reset, .host, 5, 0x0D3FF000, by decide +kernel⟩,
   ⟨State.reset, .host, 5, 0x003FF000, by decide +kernel⟩,
   ⟨{ State.reset with pins := { seq := [(5, 2)] } }, (.shell 3), 5, 0x003FF00A, by decide +kernel⟩,
   ⟨(State.reset.put (F.GPIO_OUT_value 1) 0xFF00), (.shell 3), false, 1, 0x0FF0, 0x0550, by decide +kernel⟩,
   ⟨State.reset, .host, true, 2, 5, 0x1234, by decide +kernel⟩,
   ⟨(wBnk 1810 50), 2, 0x90000000, by dsimp only; decide +kernel⟩,
   ⟨(wBnk 1910 50), 2, 0x90000000, by dsimp only; decide +kernel⟩,
   ⟨(State.reset.put (F.TIO_BANK_en 2) 1), 2, 0x10000000, by decide +kernel⟩,
   ⟨State.reset, (.shell 3), 7, 0x0C000000, by dsimp only; decide +kernel⟩,
   ⟨(State.reset.put (F.TIO_PINCFG_mode.sel 7) 1), (.shell 3), 7, 0x0C000000, by dsimp only; decide +kernel⟩,
   ⟨((wRun.put (F.TIO_PINCFG_owner.sel 7) 1)), (.shell 3), 7, 0x0C000000, by decide +kernel⟩⟩

theorem test_witness_RaiseByFirmware :
  (∃ (s : State) (who : Requester) (v : Word) (env : RegEnv),
    (who = .host ∨ isShell who = true)) ∧
  (∃ (s : State) (k : Core) (v : Word),
    let code := v.toNat % 65536
    let part := v.toNat / 65536 % 256
    code ∈ eventCodes ∧ code ∉ statusOnly) ∧
  (∃ (s : State) (who : Requester) (v : Word),
    ((∀ k, who ≠ .shell k) ∨ v.toNat % 65536 ∉ eventCodes ∨ v.toNat % 65536 ∈ statusOnly)) :=
  ⟨⟨wEv, (.shell 3), 0x00022005, {}, by decide +kernel⟩,
   ⟨wEv, 3, 0x00022005, by dsimp only; decide +kernel⟩,
   ⟨wEv, .host, 0x00FF0001, by decide +kernel⟩⟩

theorem test_witness_EventRecords :
  (∃ (s : State) (code part : Nat) (data : List Nat),
    let cls := code / 0x1000
    let t := s.raise code part data
    let r : EvRec := { code := code, part := part, anchored := s.on (F.TBK_STATUS_anchored 0), tb0 := s.tb0, tb1 := if part < 4 then s.turns part else 0, data := (data ++ [0, 0, 0, 0, 0, 0]).take 6, num := (s.get F.EVT_RAISED_count + 1) % 2 ^ 32 }
    let hit := (List.range 32).filter (fun k => s.on (F.MLR_CTRL_events k))
    cls < 12 ∧ code < 65536 ∧ part < 256) :=
  ⟨wEv, 0x2005, 1, [4, 5], by dsimp only; decide +kernel⟩

theorem test_witness_AbsentRegisters :
  (∃ (s : State) (who : Requester) (a : BitVec 26) (env : RegEnv),
    (who = .host ∨ (isShell who = true ∧ inDbg a.toNat = false)) ∧ ((locateReg a.toNat = none ∧
    s.msixRead a.toNat = none) ∨ (s.regAbsent a.toNat = true ∧ inDbg a.toNat = false)) ∧ s.held false a.toNat = none) ∧
  (∃ (s : State) (who : Requester) (a : BitVec 26) (v : Word) (env : RegEnv),
    (who = .host ∨ (isShell who = true ∧ inDbg a.toNat = false)) ∧ ((locateReg a.toNat = none ∧
    s.msixRead a.toNat = none) ∨ (s.regAbsent a.toNat = true ∧ inDbg a.toNat = false))) :=
  ⟨⟨State.reset, .host, 0x2F00000, {}, by decide +kernel⟩,
   ⟨State.reset, .host, 0x2F00000, 5, {}, by decide +kernel⟩⟩

theorem test_witness_HoldingRegisters :
  (∃ (s : State) (who : Requester) (a : BitVec 26) (env : RegEnv),
    (who = .host ∨ isShell who = true) ∧ a.toNat ∈ loRegs ∧ inDbg a.toNat = false ∧ s.held false a.toNat = none) ∧
  (∃ (s : State) (who : Requester) (a : BitVec 26) (w : Word) (env : RegEnv),
    (who = .host ∨ isShell who = true) ∧ inAuth a.toNat = false ∧ inDbg a.toNat = false ∧ s.held false a.toNat = some w) ∧
  (∃ (s : State) (who : Requester) (port : Nat) (x : Word),
    let a := s.raddr
    s.dbgPort who = some port ∧ 1 ≤ s.sessLevel port ∧ s.inScope port (s.regScope a) = true ∧ readClears a = false ∧ a ∈ loRegs ∧ a ∉ coreRegs ∧
    a ≠ R.DBG_SRDATA_LO ∧ s.held true a = none) :=
  ⟨⟨wTc, .host, (BitVec.ofNat 26 (R.TURN_COUNT_LO 1)), {}, by decide +kernel⟩,
   ⟨(wTc.setHeld false (R.TURN_COUNT_HI 1) (some 7)), .host, (BitVec.ofNat 26 (R.TURN_COUNT_HI 1)), 7, {}, by decide +kernel⟩,
   ⟨((wTc.setReg (sessReg 1) 0x4000001F).put F.DBG_RADDR_offset (R.TURN_COUNT_LO 1 / 4)), .jtag, 1, 0, by dsimp only; decide +kernel⟩⟩

theorem test_witness_RegisterAccess :
  (∃ (s : State) (p : Part) (v : Word) (env : RegEnv),
    s.partExists p = true ∧ v.getLsbD 31 = false) ∧
  (∃ (s : State) (a : BitVec 26) (r : RegRow) (b c : Nat) (v : Word) (env : RegEnv),
    locateReg a.toNat = some (r, b, c) ∧ a.toNat / 0x10000 = 5 ∧ a.toNat ≠ R.SENS_CTRL ∧ a.toNat ≠ R.SENS_LIMITS) ∧
  (∃ (s : State) (a : BitVec 26) (r : RegRow) (b c : Nat) (env : RegEnv),
    locateReg a.toNat = some (r, b, c) ∧ a.toNat / 0x10000 = 5 ∧ (a.toNat < R.SENS_VMON 0 ∨ R.SENS_VMON 16 ≤ a.toNat) ∧ s.held false a.toNat = none) ∧
  (∃ (s : State) (n : Fin 16) (env : RegEnv),
    s.held false (R.SENS_VMON n) = none) ∧
  (∃ (s : State) (env : RegEnv),
    s.held false R.RING_EVLOST = none) ∧
  (∃ (s : State) (a : BitVec 26) (v : Word) (env : RegEnv),
    (inAuth a.toNat = true ∨ inDbg a.toNat = true)) ∧
  (∃ (s : State) (a : BitVec 26) (v : Word) (env : RegEnv),
    inAuth a.toNat = false ∧ inDbg a.toNat = false ∧ 0x28 ≤ a.toNat) :=
  ⟨⟨State.reset, 2, 0x7FFF1234, {}, by decide +kernel⟩,
   ⟨State.reset, (BitVec.ofNat 26 R.SENS_VTOL), (((locateReg R.SENS_VTOL).getD (⟨0,0,0,0,0,0,0,0,0,0⟩,0,0)).1), (((locateReg R.SENS_VTOL).getD (⟨0,0,0,0,0,0,0,0,0,0⟩,0,0)).2.1), (((locateReg R.SENS_VTOL).getD (⟨0,0,0,0,0,0,0,0,0,0⟩,0,0)).2.2), 0xFFFFFFFF, {}, by decide +kernel⟩,
   ⟨State.reset, (BitVec.ofNat 26 R.SENS_VTOL), (((locateReg R.SENS_VTOL).getD (⟨0,0,0,0,0,0,0,0,0,0⟩,0,0)).1), (((locateReg R.SENS_VTOL).getD (⟨0,0,0,0,0,0,0,0,0,0⟩,0,0)).2.1), (((locateReg R.SENS_VTOL).getD (⟨0,0,0,0,0,0,0,0,0,0⟩,0,0)).2.2), {}, by decide +kernel⟩,
   ⟨State.reset, 5, {}, by decide +kernel⟩,
   ⟨(State.reset.setReg R.RING_EVLOST 5), {}, by decide +kernel⟩,
   ⟨State.reset, 0x2600000, 5, {}, by decide +kernel⟩,
   ⟨State.reset, 0x60000, 5, {}, by decide +kernel⟩⟩

theorem test_witness_IdleStep :
  (∃ (s : State) (k : Fin 3),
    s.pending = [] ∧ s.get F.TB_CTRL_spread = 0 ∧ s.rateOf k = 0 ∧ s.slewOf k = 0 ∧ s.on (F.TBK_CFG_follow k) = false) ∧
  (∃ (s : State),
    s.pending = [] ∧ s.pins.seq = [] ∧ s.tracedCores = [] ∧ s.evt.queue = [] ∧ s.evt.lost = 0 ∧
    ((∀ n, n < 48 → s.gpioLevel n = mget padDefault s.pins.seen n))) ∧
  (∃ (s : State) (n : Fin 48),
    let v := s.gpioLevel n
    let flag := if n.val < 32 then F.GPIO_EDGE0_flag else F.GPIO_EDGE1_flag
    s.pending = [] ∧ s.pins.seq = [] ∧ s.tracedCores = [] ∧ s.evt.queue = [] ∧ s.evt.lost = 0) ∧
  (∃ (s : State) (r : EvRec),
    let seq := s.get F.RING_EVSEQ_seq
    let now := if seq = 0xFFFFFFFF then 1 else seq + 1
    let a := s.ringAddr 8 (s.ring 8).dev
    s.pending = [] ∧ s.pins.seq = [] ∧ s.tracedCores = [] ∧ s.evt.queue = [r] ∧ s.evt.lost = 0 ∧ s.ringRoom 8 = true) :=
  ⟨⟨State.reset, 2, by decide +kernel⟩,
   ⟨State.reset, by decide +kernel⟩,
   ⟨{ (State.reset.put (F.GPIO_PIN_edge 5) 1) with pins := { pad := [(5, true)] } }, 5, by dsimp only; decide +kernel⟩,
   ⟨{ ((((((State.reset.put F.RING_CTRL_en 1).put F.PCIE_STATUS_up 1).put (F.RING_R_CFG_en 8) 1).put (F.RING_R_CFG_size 8) 4).put F.RING_EVSEQ_seq 0xFFFFFFFF).setRing 8 { dev := 17, host := 3 }) with evt := { queue := [{ code := 0x3001, part := 2, anchored := false, tb0 := 7, tb1 := 8, data := [1, 2], num := 3 }] } }, { code := 0x3001, part := 2, anchored := false, tb0 := 7, tb1 := 8, data := [1, 2], num := 3 }, by dsimp only; decide +kernel⟩⟩

theorem test_witness_StepKeepsSound :
  (∃ (s t : State),
    s.Sound ∧ step s = .next t) :=
  ⟨State.reset, State.reset.idle, ⟨by decide +kernel, by decide +kernel⟩, rfl⟩

end Sys2Proof.Tests
end

section
/-!
PROOFS. How a register access runs: which path lets it through to the map, what reaches a register of the map, and what the two general
effects, the plain write and the plain read, are (R10, R325, R326). The rules that the proofs about single registers use.
-/
namespace Sys2Proof.Machine

open Sys2Proof

/-! ## The two commands -/

theorem exec_registerRead (who : Requester) (a : BitVec 26) (env : RegEnv) (s : State) :
    exec (.registerRead who a env) s =
      .next { (s.regRead who a.toNat env).2 with readData := (s.regRead who a.toNat env).1 } := rfl

theorem exec_registerWrite (who : Requester) (a : BitVec 26) (v : Word) (env : RegEnv) (s : State) :
    exec (.registerWrite who a v env) s = .next (s.regWrite who a.toNat v env) := rfl

/-! ## The paths (R325, R326) -/

variable {s : State} {who : Requester} {dbg : Bool} {port a : Nat} {v : Word} {env : RegEnv}

theorem State.regRead_host (ha : inAuth a = false) (hd : inDbg a = false) : s.regRead .host a env = s.readAny .host false 0 a env := by
  simp [State.regRead, State.dbgPort, sessOf, ha, hd]

theorem State.regWrite_host (ha : inAuth a = false) (hd : inDbg a = false) : s.regWrite .host a v env = s.writeAny .host 0 a v env := by
  simp [State.regWrite, State.dbgPort, sessOf, ha, hd]

theorem State.regRead_host_debug (h : inAuth a = true ∨ inDbg a = true) : s.regRead .host a env = (0, s) := by
  rcases h with h | h <;> simp [State.regRead, State.dbgPort, sessOf, h]

theorem State.regWrite_host_debug (h : inAuth a = true ∨ inDbg a = true) : s.regWrite .host a v env = s := by
  rcases h with h | h <;> simp [State.regWrite, State.dbgPort, sessOf, h]

theorem State.regRead_handler (k : Core) : s.regRead (.handler k) a env = (0, s) := by
  simp [State.regRead, State.dbgPort, sessOf]

theorem State.regWrite_handler (k : Core) : s.regWrite (.handler k) a v env = s := by
  simp [State.regWrite, State.dbgPort, sessOf]

theorem State.regRead_jtag_outside (ha : inAuth a = false) (hd : inDbg a = false) (hg : glbIdentity a = false) :
    s.regRead .jtag a env = (0, s) := by
  simp [State.regRead, State.dbgPort, sessOf, isShell, ha, hd, hg]

theorem State.regWrite_jtag_outside (ha : inAuth a = false) (hd : inDbg a = false) : s.regWrite .jtag a v env = s := by
  simp [State.regWrite, State.dbgPort, sessOf, isShell, ha, hd]

/-! ## Reaching a register of the map -/

theorem State.msixRead_none (h : a < 0x3000000) : s.msixRead a = none := by
  rw [State.msixRead, if_neg (by omega), if_neg (by omega)]

theorem State.writeAny_of_locate {x : RegRow × Nat × Nat} (hl : locateReg a = some x) (hp : s.regAbsent a = false)
    (ha : inAuth a = false) (hd : inDbg a = false) : s.writeAny who port a v env = s.writeReg who x.1 a v env := by
  simp [State.writeAny, hl, hp, ha, hd]

theorem State.peekReg_of_locate {x : RegRow × Nat × Nat} {w : Word} (hl : locateReg a = some x) (hm : s.msixRead a = none)
    (hp : s.regAbsent a = false) (ha : inAuth a = false) (hd : inDbg a = false) :
    s.peekReg port a w = s.showReg a w &&& ~~~(BitVec.ofNat 32 x.1.wo) := by
  simp [State.peekReg, hl, hm, hp, ha, hd]

/-- A row without write-only bits shows the whole word. -/
theorem and_not_writeOnly_zero (w : Word) : w &&& ~~~(BitVec.ofNat 32 0) = w := BitVec.and_allOnes

/-- The blocks, the MILL blocks aside, with registers of a quadrant's units or of P3 (R2, R445). -/
def unitBlocks : List Nat := [2, 4, 9, 0xA, 0xB, 0x220, 0x221, 0x260, 0x262, 0x270, 0x281]

/-- Every part holds the registers of the other blocks. -/
theorem State.regAbsent_otherBlock (hb : a / 0x10000 ∉ unitBlocks) (hm : a / 0x100000 ≠ 0x10) : s.regAbsent a = false := by
  simp only [unitBlocks, List.mem_cons, List.not_mem_nil, not_or] at hb
  simp only [State.regAbsent]
  repeat rw [if_neg (by
    simp [R.CFG_P_STATE, R.ACQ_P_CTRL, R.TB1_TURNS_LO, R.TB1_STATUS, R.DBG_BREAKREC, R.DBG_HALTCAUSE, R.DBG_RUNLEFT_LO, R.DBG_RUNLEFT_HI,
      R.DBG_WHIT, R.DBG_WOWNER, R.TIO_PART, R.GOV_VFLUME, R.ACQ_MILLEN, R.PWR_DOM, R.PWR_DSTAT]
    omega)]

theorem inDbg_of_mem_coreRegs : ∀ a ∈ coreRegs, inDbg a = true := by decide

theorem not_mem_coreRegs (hd : inDbg a = false) : a ∉ coreRegs := fun h => by
  simp [inDbg_of_mem_coreRegs a h] at hd

/-- A read outside the DBG block that no holding register answers and that starts nothing returns what the register shows, and copies what its
_HI registers show (R81). -/
theorem State.readAny_shows (hd : inDbg a = false) (hh : s.held dbg a = none) (hr : a ≠ R.FLM_RBDATA) (hq : a ≠ R.SCHED_ENQSTAT)
    (hl : a ≠ R.RING_EVLOST) :
    s.readAny who dbg port a env = (s.peekReg port a env.sampled,
      s.each (heldBy a) (fun t h => t.setHeld dbg h (some (t.peekReg port h env.sampled)))) := by
  have hc := not_mem_coreRegs hd
  have h1 : a ≠ R.DBG_RDATA := by rintro rfl; exact absurd hd (by decide)
  have h2 : a ≠ R.DBG_SRDATA_LO := by rintro rfl; exact absurd hd (by decide)
  simp [State.readAny, hd, hc, hh, h1, h2, hr, hq, hl]

/-- The driver's read of RING_EVLOST returns what it shows and clears it (R10, R279). -/
theorem State.readAny_evlost (hh : s.held false R.RING_EVLOST = none) :
    s.readAny who false port R.RING_EVLOST env = (s.peekReg port R.RING_EVLOST env.sampled, s.setReg R.RING_EVLOST 0) := by
  have hb : heldBy R.RING_EVLOST = [] := by decide +kernel
  have hc : R.RING_EVLOST ∉ coreRegs := not_mem_coreRegs (by decide)
  have h0 : inDbg R.RING_EVLOST = false := by decide
  have h1 : R.RING_EVLOST ≠ R.DBG_RDATA := by decide
  have h2 : R.RING_EVLOST ≠ R.DBG_SRDATA_LO := by decide
  have h3 : R.RING_EVLOST ≠ R.FLM_RBDATA := by decide
  have h4 : R.RING_EVLOST ≠ R.SCHED_ENQSTAT := by decide
  simp [State.readAny, h0, hc, hh, h1, h2, h3, h4, hb, State.each]

/-! ## The plain write (R10) -/

/-- A one-bit field of the value written is that bit. -/
theorem wrote1_bit (v : Word) {f : Fld} (hf : f.width = 1) : wrote1 v f = v.getLsbD f.lsb := by
  rw [wrote1, Fld.of, hf, BitVec.getLsbD, Nat.testBit_eq_decide_div_mod_eq, Bool.eq_iff_iff, bne_iff_ne, decide_eq_true_eq]
  omega

/-- The bits of a register after a plain write: W1S over W1C over the writable ones, and the others as they were. -/
theorem State.reg_storeBits_bit (s : State) (r : RegRow) (b : Nat) (v : Word) {j : Nat} (hj : j < 32) :
    ((s.storeBits r b v).reg b).getLsbD j =
      (if r.w1s.testBit j && v.getLsbD j then true else if r.w1c.testBit j && v.getLsbD j then false
       else if r.rw.testBit j || r.wo.testBit j then v.getLsbD j else (s.reg b).getLsbD j) := by
  simp only [State.storeBits, State.reg_setReg_same, BitVec.getLsbD_or, BitVec.getLsbD_and, BitVec.getLsbD_not, BitVec.getLsbD_ofNat,
    hj, decide_true, Bool.true_and]
  generalize (r.rw.testBit j || r.wo.testBit j) = taken
  cases v.getLsbD j with
  | false => cases taken <;> simp
  | true =>
    cases r.w1s.testBit j with
    | true => simp
    | false => cases r.w1c.testBit j <;> cases taken <;> simp

theorem State.storeBits_regsBut (s : State) (r : RegRow) (b : Nat) (v : Word) : RegsBut [b] s (s.storeBits r b v) :=
  fun _ h => State.reg_setReg_ne s _ (List.ne_of_not_mem_cons h)

theorem State.storeBits_onlyRegs (s : State) (r : RegRow) (b : Nat) (v : Word) : OnlyRegs s (s.storeBits r b v) := rfl

/-- A field all of whose bits are plain RW reads what a plain write gave it. -/
theorem State.get_storeBits_rw (s : State) (r : RegRow) (f : Fld) (v : Word) (hf : f.lsb + f.width ≤ 32)
    (hb : ∀ i, i < f.width → r.rw.testBit (f.lsb + i) = true ∧ r.w1c.testBit (f.lsb + i) = false ∧ r.w1s.testBit (f.lsb + i) = false) :
    (s.storeBits r f.addr v).get f = f.of v := by
  apply Nat.eq_of_testBit_eq
  intro i
  rw [State.get, Fld.of_testBit, Fld.of_testBit]
  by_cases hi : i < f.width
  · obtain ⟨hrw, hc, hs⟩ := hb i hi
    have h := State.reg_storeBits_bit s r f.addr v (j := f.lsb + i) (by omega)
    simp only [hrw, hc, hs, Bool.false_and, Bool.true_or, Bool.false_eq_true, if_false, if_true] at h
    rw [← BitVec.getLsbD, ← BitVec.getLsbD, h]
  · simp [hi]

end Sys2Proof.Machine
end

section
/-!
PROOFS. The access types of the registers (R10, R80, R82, R279, R325, R326, R421): the SENS block, TURN_CTRL and RING_EVLOST on the map, and
the obligation about them.
-/
namespace Sys2Proof.Machine

open Sys2Proof

variable {s : State} {a : Nat} {v : Word} {env : RegEnv}

/-- An address of BAR0 as a command carries it. -/
theorem bar0_toNat (h : a < 0x4000000) : (BitVec.ofNat 26 a).toNat = a :=
  (BitVec.toNat_ofNat a 26).trans (Nat.mod_eq_of_lt h)

/-! ## The SENS block -/

section
variable (hb : a / 0x10000 = 5)
include hb

theorem inAuth_sens : inAuth a = false := by simp [inAuth, hb]

theorem inDbg_sens : inDbg a = false := by simp [inDbg, hb]

/-- No SENS register belongs to a quadrant or to P3. -/
theorem State.regAbsent_sens : s.regAbsent a = false :=
  State.regAbsent_otherBlock (by rw [hb]; decide) (by omega)

theorem heldBy_sens : heldBy a = [] := by
  have hlo : ∀ x ∈ loRegs, x / 0x10000 ≠ 5 := by decide +kernel
  have hn : a ∉ loRegs := fun h => hlo a h hb
  simp [heldBy, hn]

/-- A host write of a SENS register that starts nothing is a plain write. -/
theorem State.regWrite_sens {x : RegRow × Nat × Nat} (hl : locateReg a = some x) (hc : a ≠ R.SENS_CTRL) (hm : a ≠ R.SENS_LIMITS) :
    s.regWrite .host a v env = s.storeBits x.1 a v := by
  rw [State.regWrite_host (inAuth_sens hb) (inDbg_sens hb),
    State.writeAny_of_locate hl (State.regAbsent_sens hb) (inAuth_sens hb) (inDbg_sens hb)]
  simp [State.writeReg, hb, State.writeSens, hc, hm]

/-- A host read of a SENS register returns what it shows but for its write-only bits, and changes nothing. -/
theorem State.regRead_sens {x : RegRow × Nat × Nat} (hl : locateReg a = some x) (hh : s.held false a = none) :
    s.regRead .host a env = (s.showSens a &&& ~~~(BitVec.ofNat 32 x.1.wo), s) := by
  have hne (y : Nat) (hy : y / 0x10000 ≠ 5) : a ≠ y := by rintro rfl; exact hy hb
  rw [State.regRead_host (inAuth_sens hb) (inDbg_sens hb),
    State.readAny_shows (inDbg_sens hb) hh (hne _ (by decide)) (hne _ (by decide)) (hne _ (by decide)), heldBy_sens hb,
    State.peekReg_of_locate hl (State.msixRead_none (by omega)) (State.regAbsent_sens hb) (inAuth_sens hb) (inDbg_sens hb)]
  simp [State.showReg, hb, State.each]

end

theorem State.showSens_stored (h : a < R.SENS_VMON 0 ∨ R.SENS_VMON 16 ≤ a) : s.showSens a = s.reg a := by
  rw [State.showSens, if_neg (by omega)]

theorem State.showSens_vmon (n : Fin 16) :
    s.showSens (R.SENS_VMON n) = (F.SENS_VMON_target n).into (s.reg (R.SENS_VMON n)) (s.vmonTarget n) := by
  have hn := n.isLt
  have hi : (R.SENS_VMON n - R.SENS_VMON 0) / 4 = n := by simp only [R.SENS_VMON]; omega
  rw [State.showSens, if_pos (by simp only [R.SENS_VMON]; omega), hi]
  rfl

/-- The row of SENS_VMON (R415). -/
def sensVmonRow : RegRow := { off := 0x80, count := 16, stride := 4, reset := 0 }

theorem locateReg_vmon : ∀ n : Fin 16, locateReg (R.SENS_VMON n) = some (sensVmonRow, 0, n.val) := by
  decide +kernel

/-- A host read of a monitor's register returns its stored reading beside the level commanded now (R415). -/
theorem State.regRead_vmon (n : Fin 16) (hh : s.held false (R.SENS_VMON n) = none) :
    s.regRead .host (R.SENS_VMON n) env = ((F.SENS_VMON_target n).into (s.reg (R.SENS_VMON n)) (s.vmonTarget n), s) := by
  have hn := n.isLt
  have hb : R.SENS_VMON n / 0x10000 = 5 := by simp only [R.SENS_VMON]; omega
  rw [State.regRead_sens hb (locateReg_vmon n) hh, State.showSens_vmon, show sensVmonRow.wo = 0 from rfl, and_not_writeOnly_zero]

/-! ## TURN_CTRL -/

/-- The row of TURN_CTRL (R80). -/
def turnCtrlRow : RegRow := { off := 0x3C, count := 1, stride := 0, reset := 0x7A12, rw := 0xFFFF, sc := 0x80000000 }

theorem locateReg_turnCtrl : ∀ p : Part, locateReg (R.TURN_CTRL p) = some (turnCtrlRow, p.val, 0) := by
  decide +kernel

/-- TURN_CTRL of a partition the part has: of the four only P3's can be absent. -/
theorem State.regAbsent_turnCtrl (p : Part) (hp : s.partExists p = true) : s.regAbsent (R.TURN_CTRL p) = false := by
  match p, hp with
  | 0, _ | 1, _ | 2, _ => rfl
  | 3, hp =>
    change (!s.partExists 3) = false
    exact congrArg (!·) hp

/-- A write of TURN_CTRL that does not clear the records is a plain write. -/
theorem State.writePart_turnCtrl (r : RegRow) (p : Part) (hv : v.getLsbD 31 = false) :
    s.writePart r (R.TURN_CTRL p) v env = s.storeBits r (R.TURN_CTRL p) v := by
  have hw : wrote1 v (F.TURN_CTRL_clear p) = false := (wrote1_bit v rfl).trans hv
  have hn := p.isLt
  have hi : (R.TURN_CTRL p / 0x1000) % 4 = p := by simp only [R.TURN_CTRL]; omega
  have hp : (Fin.ofNat 4 (R.TURN_CTRL p / 0x1000) : Part) = p := Fin.ext hi
  have h1 : R.TURN_CTRL p ≠ R.PART_QMASK p := by simp only [R.TURN_CTRL, R.PART_QMASK]; omega
  have h2 : R.TURN_CTRL p ≠ R.PART_MODE p := by simp only [R.TURN_CTRL, R.PART_MODE]; omega
  have h3 : R.TURN_CTRL p ≠ R.PART_VOTE p := by simp only [R.TURN_CTRL, R.PART_VOTE]; omega
  simp only [State.writePart, hp, h1, h2, h3, hw, if_false, Bool.false_eq_true, ite_self]

theorem State.regWrite_turnCtrl (p : Part) (hp : s.partExists p = true) (hv : v.getLsbD 31 = false) :
    s.regWrite .host (R.TURN_CTRL p) v env = s.storeBits turnCtrlRow (R.TURN_CTRL p) v := by
  have hn := p.isLt
  have hb : R.TURN_CTRL p / 0x10000 = 0xB := by simp only [R.TURN_CTRL]; omega
  have ha : inAuth (R.TURN_CTRL p) = false := by simp [inAuth, hb]
  have hd : inDbg (R.TURN_CTRL p) = false := by simp [inDbg, hb]
  rw [State.regWrite_host ha hd, State.writeAny_of_locate (locateReg_turnCtrl p) (State.regAbsent_turnCtrl p hp) ha hd]
  simp [State.writeReg, hb, State.writePart_turnCtrl _ p hv]

theorem State.get_storeBits_brakeLimit (p : Part) :
    (s.storeBits turnCtrlRow (R.TURN_CTRL p) v).get (F.TURN_CTRL_brake_limit p) = v.toNat % 65536 := by
  have h := State.get_storeBits_rw s turnCtrlRow (F.TURN_CTRL_brake_limit p) v (show 0 + 16 ≤ 32 by decide)
    (by change ∀ i, i < 16 → turnCtrlRow.rw.testBit (0 + i) = true ∧ turnCtrlRow.w1c.testBit (0 + i) = false ∧ turnCtrlRow.w1s.testBit (0 + i) = false
        decide)
  simpa [Fld.of, F.TURN_CTRL_brake_limit] using h

/-! ## RING_EVLOST -/

theorem State.peekReg_evlost (port : Nat) (w : Word) : s.peekReg port R.RING_EVLOST w = s.reg R.RING_EVLOST := by
  have hl : locateReg R.RING_EVLOST = some ({ off := 0x18, count := 1, stride := 0, reset := 0, rc := 0xFFFF }, 0, 0) := by decide +kernel
  rw [State.peekReg_of_locate hl (State.msixRead_none (by decide)) (State.regAbsent_otherBlock (by decide) (by decide)) (by decide) (by decide)]
  have hs : s.showReg R.RING_EVLOST w = s.reg R.RING_EVLOST := by
    simp [State.showReg, State.showRing, R.RING_EVLOST, R.RING_HRDY]
  rw [hs, and_not_writeOnly_zero]

theorem State.regRead_evlost (hh : s.held false R.RING_EVLOST = none) :
    s.regRead .host R.RING_EVLOST env = (s.reg R.RING_EVLOST, s.setReg R.RING_EVLOST 0) := by
  rw [State.regRead_host (by decide) (by decide), State.readAny_evlost hh, State.peekReg_evlost]

/-! ## The obligation -/

/-- Settles O55: each clause is the rule for its path, with the plain write or the plain read of the register it names. The clauses on every
bit of a write and of a read are about the SENS block; TURN_CTRL, the monitors and RING_EVLOST have clauses of their own. -/
theorem registerAccess : Obligations.RegisterAccess := by
  refine ⟨?turnCtrl, ?sensWrite, ?sensRead, ?vmon, ?evlost, ?debugBlocks, ?handler, ?jtag⟩
  case turnCtrl =>
    intro s p v env hp hv
    have hn := p.isLt
    rw [exec_registerWrite, bar0_toNat (by simp only [R.TURN_CTRL]; omega), State.regWrite_turnCtrl p hp hv]
    exact ⟨_, rfl, State.get_storeBits_brakeLimit p, State.storeBits_regsBut s _ _ v, State.storeBits_onlyRegs s _ _ v⟩
  case sensWrite =>
    intro s a r b c v env hl hb hc hm
    rw [exec_registerWrite, State.regWrite_sens hb hl hc hm]
    exact ⟨_, rfl, fun j hj => State.reg_storeBits_bit s r _ v hj, State.storeBits_regsBut s _ _ v, State.storeBits_onlyRegs s _ _ v⟩
  case sensRead =>
    intro s a r b c env hl hb hv hh
    rw [exec_registerRead, State.regRead_sens hb hl hh, State.showSens_stored hv]
    exact ⟨_, rfl, rfl, rfl⟩
  case vmon =>
    intro s n env hh
    have hn := n.isLt
    rw [exec_registerRead, bar0_toNat (by simp only [R.SENS_VMON]; omega), State.regRead_vmon n hh]
    refine ⟨_, rfl, ?mv, ?target, rfl⟩
    case mv => exact Fld.of_into_other (F.SENS_VMON_target n) (F.SENS_VMON_mv n) _ _ (Nat.le_refl 32) (Or.inr (Nat.le_refl 16))
    case target => exact Fld.of_into_same (F.SENS_VMON_target n) _ _ (Nat.le_refl 32)
  case evlost =>
    intro s env hh
    rw [exec_registerRead, bar0_toNat (by decide), State.regRead_evlost hh]
    exact ⟨_, rfl, rfl, State.reg_setReg_same .., fun _ h => State.reg_setReg_ne s _ (List.ne_of_not_mem_cons h), rfl⟩
  case debugBlocks =>
    intro s a v env h
    rw [exec_registerWrite, exec_registerRead, State.regWrite_host_debug h, State.regRead_host_debug h]
    exact ⟨rfl, rfl⟩
  case handler =>
    intro s k a v env
    rw [exec_registerWrite, exec_registerRead, State.regWrite_handler, State.regRead_handler]
    exact ⟨rfl, rfl⟩
  case jtag =>
    intro s a v env ha hd hg
    rw [exec_registerWrite, exec_registerRead, State.regWrite_jtag_outside ha hd,
      State.regRead_jtag_outside ha hd (by simpa [glbIdentity] using hg)]
    exact ⟨rfl, rfl⟩

end Sys2Proof.Machine
end

section
/-!
PROOFS. How votes, quanta and checks change a partition (R17, R68 to R77): the rules for the shared operations, and the obligation about them.
-/
namespace Sys2Proof.Machine

open Sys2Proof

variable {s t u : State}

/-! ## The commands -/

theorem exec_brakeCheck (m : Mill) (st : Stone) (b : Bp) (n : Step) (next : Bool) (s : State) :
    exec (.brakeCheck m st b n next) s = execBrakeCheck m st b n next s := rfl

theorem exec_brakeRecheck (m : Mill) (st : Stone) (b : Bp) (n : Step) (s : State) :
    exec (.brakeRecheck m st b n) s = execBrakeRecheck m st b n s := rfl

theorem exec_partVote (p : Part) (quanta : BitVec 8) (n : Step) (s : State) :
    exec (.partVote p quanta n) s = execPartVote p quanta n s := rfl

theorem exec_powerVote (p : Part) (n : Step) (s : State) : exec (.powerVote p n) s = execPowerVote p n s := rfl

theorem exec_voteTakesEffect (p : Part) (hold : Step) (round : Nat) (s : State) :
    exec (.voteTakesEffect p hold round) s = execVoteTakesEffect p hold round s := rfl

/-! ## A change of one partition's record -/

/-- From s to t the record of partition p has become x, and nothing else has changed. -/
structure PartBecomes (p : Nat) (x : PartSt) (s t : State) : Prop where
  part : t.part p = x
  only : OnlyPart p s t
  rest : { t with parts := s.parts } = s

theorem State.setPart_becomes (s : State) (p : Nat) (x : PartSt) : PartBecomes p x s (s.setPart p x) :=
  ⟨by simp, fun _ hq => by simp [hq], rfl⟩

theorem State.modPart_becomes (s : State) (p : Nat) (f : PartSt → PartSt) : PartBecomes p (f (s.part p)) s (s.modPart p f) :=
  s.setPart_becomes p _

namespace PartBecomes

variable {p : Nat} {x y : PartSt}

theorem refl (p : Nat) (s : State) : PartBecomes p (s.part p) s s := ⟨rfl, fun _ _ => rfl, rfl⟩

theorem trans (h : PartBecomes p x s t) (h' : PartBecomes p y t u) : PartBecomes p y s u where
  part := h'.part
  only := fun q hq => (h'.only q hq).trans (h.only q hq)
  rest := (congrArg (fun v : State => { v with parts := s.parts }) h'.rest).trans h.rest

/-- A further change of the record, from what it has become. -/
theorem modPart (h : PartBecomes p x s t) (f : PartSt → PartSt) : PartBecomes p (f x) s (t.modPart p f) := by
  have h' := h.trans (t.modPart_becomes p f)
  rwa [h.part] at h'

theorem regs (h : PartBecomes p x s t) : t.regs = s.regs := (congrArg State.regs h.rest :)

theorem reg (h : PartBecomes p x s t) (a : Nat) : t.reg a = s.reg a := by
  rw [State.reg, h.regs, ← State.reg]

theorem get (h : PartBecomes p x s t) (f : Fld) : t.get f = s.get f := by
  rw [State.get, h.reg, ← State.get]

theorem multi (h : PartBecomes p x s t) (q : Nat) : t.multi q = s.multi q := by
  rw [State.multi, h.get, ← State.multi]

end PartBecomes

/-! ## Votes (R71) -/

section
variable {p hold : Nat} {next : Bool}

/-- A vote of a single-module partition, for a step at which the limit was not reached, joins the votes. -/
theorem State.vote_becomes (hm : s.multi p = false) (hl : next = true ∨ hold ∉ (s.part p).limitSteps) (round cause origin : Nat) :
    PartBecomes p { s.part p with votes := (s.part p).votes ++ [{ hold, next, round, cause }] } s (s.vote p hold next round cause origin) := by
  have hn : (!next && (s.part p).limitSteps.contains hold) = false := by
    rcases hl with h | h <;> simp [h]
  have hv := s.modPart_becomes p (fun x => { x with votes := x.votes ++ [{ hold, next, round, cause }] })
  rw [State.vote, hn, if_neg Bool.false_ne_true, State.announce, hv.multi, hm, if_neg Bool.false_ne_true]
  exact hv

/-- Rounds 0 to n − 1 join the votes, in order. -/
theorem State.voteRounds_becomes (hm : s.multi p = false) (hl : next = true ∨ hold ∉ (s.part p).limitSteps) (n cause origin : Nat) :
    PartBecomes p { s.part p with votes := (s.part p).votes ++ (List.range n).map (fun i => { hold, next, round := i, cause }) } s
      (s.voteRounds p hold next n cause origin) := by
  induction n with
  | zero =>
    simp only [List.range_zero, List.map_nil, List.append_nil]
    exact PartBecomes.refl p s
  | succ n ih =>
    have hv := State.vote_becomes (next := next) (hold := hold) ((ih.multi p).trans hm) (by rw [ih.part]; exact hl) n cause origin
    have h := ih.trans hv
    rw [ih.part] at h
    simpa [State.voteRounds, State.each, List.range_succ] using h

end

/-- The hold step of a vote raised at step n, and whether it lies in the next turn (R69). -/
theorem State.holdOf_eq (s : State) (p n : Nat) :
    s.holdOf p n = (if n + s.horizon p < s.depth p then n + s.horizon p else n + s.horizon p - s.depth p,
      !decide (n + s.horizon p < s.depth p)) := by
  by_cases h : n + s.horizon p < s.depth p <;> simp [State.holdOf, h]

/-- With no PART_VOTE write waiting, none becomes due. -/
theorem State.votesDue_of_none {p : Nat} (h : (s.part p).votePend = []) (due : Nat → Bool) :
    s.votesDue p due = s.setPart p (s.part p) := by
  cases hx : s.part p
  rw [hx] at h
  cases h
  simp [State.votesDue, State.modPart, State.each, hx]

/-! ## Power votes (R233) -/

/-- The credit of a partition up to partition cycle c, and what is left of it when 32 cycles are taken. -/
def State.takeCredit (s : State) (p c : Nat) : State :=
  let u := s.accrue p c
  { u with gov := { u.gov with credit := mset (fun _ => 0) u.gov.credit p (mget (fun _ => 0) u.gov.credit p - 32 * 1024) } }

theorem State.takeCredit_part (s : State) (p c q : Nat) : (s.takeCredit p c).part q = s.part q := rfl

/-- A POWER vote whose credit suffices takes it, and is one round for the hold step. -/
theorem execPowerVote_of {p : Part} {n : Step} (hr : s.running p = true)
    (hk : 32 * 1024 ≤ mget (fun _ => 0) s.gov.credit p + s.get F.GOV_CAPSTAT_h * (s.cycleOf p n - mget (fun _ => 0) s.gov.creditAt p)) :
    execPowerVote p n s = .next ((s.takeCredit p (s.cycleOf p n)).voteRounds p (s.holdOf p n).1 (s.holdOf p n).2 1 4 (s.cycleOf p n)) := by
  have hc : 32 * 1024 ≤ mget (fun _ => 0) (s.accrue p (s.cycleOf p n)).gov.credit p := by simpa [State.accrue] using hk
  unfold execPowerVote
  rw [if_pos hr]
  exact if_pos hc

theorem State.credit_takeCredit (s : State) (p c : Nat) : mget (fun _ => 0) (s.takeCredit p c).gov.credit p =
    mget (fun _ => 0) s.gov.credit p + s.get F.GOV_CAPSTAT_h * (c - mget (fun _ => 0) s.gov.creditAt p) - 32 * 1024 := by
  simp [State.takeCredit, State.accrue]

/-! ## Checks (R17, R68) -/

section
variable {m st b n p : Nat}

/-- The check of a WAIT of a far port passes when the read's slot of the response queue is done; its cause is the window's. -/
theorem State.checkOf_wait (hop : opOf (s.word (m * 16 + st) b n) = 7) (ready : Bool) :
    let w := s.word (m * 16 + st) b n
    let k := (opbOf (s.word (m * 16 + st) (laneOf (opaOf w)) (rowOf (opaOf w)))).toNat % 4
    let id := 2 * m + (k - 1)
    (k = 1 ∨ k = 2) → (ready = true ↔ ∃ j, s.slotOf id st (laneOf (opaOf w)) (rowOf (opaOf w)) = some j ∧ (s.slot id j).done = true) →
      s.checkOf p m st b n = .far (if s.fpKind id = 2 then 1 else 0) ready := by
  intro w k id hk hr
  rw [State.checkOf]
  simp only [hop]
  rw [if_pos hk]
  congr 1
  rw [Bool.eq_iff_iff, hr]
  change (match s.slotOf id st (laneOf (opaOf w)) (rowOf (opaOf w)) with | some j => (s.slot id j).done | _ => false) = true ↔ _
  cases s.slotOf id st (laneOf (opaOf w)) (rowOf (opaOf w)) <;> simp

end

/-! ## Quanta (R72) -/

/-- The causes of a set of votes are the bits of its mask. -/
theorem causeMask_testBit (vs : List Vote) (c : Nat) : (causeMask vs).testBit c = vs.any (fun v => v.cause == c) := by
  suffices h : ∀ a, (vs.foldl (fun a (v : Vote) => a ||| 2 ^ v.cause) a).testBit c = (a.testBit c || vs.any (fun v => v.cause == c)) by
    exact (h 0).trans (by simp)
  intro a
  induction vs generalizing a with
  | nil => simp
  | cons v vs ih =>
    rw [List.foldl_cons, ih, Nat.testBit_or, Nat.testBit_two_pow, List.any_cons, Bool.or_assoc]
    rfl

/-- TURN_STATUS shows whether the partition is held, and the causes. -/
def State.showHold (s : State) (p holding causes : Nat) : State :=
  (s.put (F.TURN_STATUS_holding p) holding).put (F.TURN_STATUS_hold_causes p) causes

theorem exec_brakeQuantumEnd (p : Part) (s : State) : exec (.brakeQuantumEnd p) s = .next (s.showHold p 0 0) := rfl

section
variable (s : State) (p holding causes : Nat)

theorem State.showHold_holding : (s.showHold p holding causes).get (F.TURN_STATUS_holding p) = holding % 2 := by
  rw [State.showHold, State.get_put_bits _ _ (show 8 + 8 ≤ 32 by decide) (Or.inr (show 1 + 1 ≤ 8 by decide)),
    State.get_put_same _ _ _ (show 1 + 1 ≤ 32 by decide)]
  rfl

theorem State.showHold_causes : (s.showHold p holding causes).get (F.TURN_STATUS_hold_causes p) = causes % 256 := by
  rw [State.showHold, State.get_put_same _ _ _ (show 8 + 8 ≤ 32 by decide)]
  rfl

/-- The fields beside them keep what they show. -/
theorem State.showHold_beside {f : Fld} (h : f.lsb + f.width ≤ 1 ∨ 16 ≤ f.lsb) : (s.showHold p holding causes).get f = s.get f := by
  rw [State.showHold, State.get_put_bits _ _ (show 8 + 8 ≤ 32 by decide) (by simp only [F.TURN_STATUS_hold_causes]; omega),
    State.get_put_bits _ _ (show 1 + 1 ≤ 32 by decide) (by simp only [F.TURN_STATUS_holding]; omega)]

theorem State.showHold_part (q : Nat) : (s.showHold p holding causes).part q = s.part q := rfl

theorem State.showHold_regsBut : RegsBut [R.TURN_STATUS p] s (s.showHold p holding causes) := by
  intro a ha
  have h : a ≠ R.TURN_STATUS p := List.ne_of_not_mem_cons ha
  rw [State.showHold, State.reg_put_ne _ _ h, State.reg_put_ne _ _ h]

end

/-- A quantum begins: one more of the turn, and of those held before its step; the status shows its causes. -/
theorem State.beginQuantum_spec (s : State) (p hold mask own : Nat) :
    let x := s.part p
    ∃ u y, PartBecomes p y s u ∧ s.beginQuantum p hold mask own = u.showHold p 1 mask ∧ y.quanta = x.quanta + 1 ∧ y.hold = hold ∧
      y.served = (if x.served ≠ 0 ∧ x.hold = hold then x.served + 1 else 1) ∧ y.votes = x.votes := by
  refine ⟨_, _, s.setPart_becomes p _, rfl, rfl, rfl, ?served, rfl⟩
  simp

/-- The vote is one of a round for a hold step of the turn in progress. -/
def Vote.inRound (hold round : Nat) (v : Vote) : Bool := !v.next && v.hold == hold && v.round == round

section
variable {p : Part} {hold : Step} {round : Nat} {x : PartSt} {vs : List Vote}
  (hr : s.running p = true) (hx : s.part p = x) (hp : x.votePend = []) (hvs : x.votes.filter (Vote.inRound hold round) = vs) (hv : vs ≠ [])
include hr hx hp hvs hv

/-- A round of a running partition that takes effect, no PART_VOTE write waiting: at the limit it is ignored, else it is a quantum (R72, R74). -/
theorem execVoteTakesEffect_of : execVoteTakesEffect p hold round s =
    if s.get (F.TURN_CTRL_brake_limit p) ≠ 0 ∧ s.get (F.TURN_CTRL_brake_limit p) ≤ (if x.hold = hold.val then x.served else 0) then
      .next ((s.setPart p x).brakeLimit p hold (causeMask vs))
    else .next (((s.setPart p x).modPart p (fun x => { x with votes := x.votes.filter (fun v => !Vote.inRound hold round v) })).beginQuantum p hold
      (causeMask vs) (causeMask (vs.filter (fun v => !(v.cause == 6 && v.remote))))) := by
  have hx' : (s.setPart p x).part p = x := by simp
  have he : (!(s.setPart p x).running p || vs.isEmpty) = false := by
    rw [show (s.setPart p x).running p = true from hr]
    simpa using hv
  subst hvs
  unfold execVoteTakesEffect
  rw [State.votesDue_of_none (hx ▸ hp), hx]
  dsimp only
  rw [hx']
  exact if_neg (fun h => Bool.false_ne_true (he.symm.trans h))

/-- Below the limit the round's votes become one quantum. -/
theorem execVoteTakesEffect_quantum
    (hl : s.get (F.TURN_CTRL_brake_limit p) = 0 ∨ (if x.hold = hold.val then x.served else 0) < s.get (F.TURN_CTRL_brake_limit p)) :
    ∃ u y, PartBecomes p y s u ∧ execVoteTakesEffect p hold round s = .next (u.showHold p 1 (causeMask vs)) ∧ y.quanta = x.quanta + 1 ∧
      y.hold = hold ∧ y.served = (if x.served ≠ 0 ∧ x.hold = hold.val then x.served + 1 else 1) ∧
      y.votes = x.votes.filter (fun v => !Vote.inRound hold round v) := by
  have hb := (s.setPart_becomes p x).modPart (fun x => { x with votes := x.votes.filter (fun v => !Vote.inRound hold round v) })
  obtain ⟨u, y, hu, hq, hquanta, hhold, hserved, hvotes⟩ :=
    State.beginQuantum_spec _ p hold (causeMask vs) (causeMask (vs.filter (fun v => !(v.cause == 6 && v.remote))))
  rw [hb.part] at hquanta hserved hvotes
  refine ⟨u, y, hb.trans hu, ?_, hquanta, hhold, hserved, hvotes⟩
  rw [execVoteTakesEffect_of hr hx hp hvs hv, if_neg (by omega), hq]

end

/-! ## The brake limit (R74) -/

/-- At the limit the votes for the step are dropped, BRAKE_LIMIT is raised, and the turn is invalid. -/
theorem State.brakeLimit_spec (s : State) (p hold mask : Nat) (hp : p < 4) :
    let x := s.part p
    let t := s.brakeLimit p hold mask
    RaisedOne s t 0x2001 p [hold, if x.hold = hold then x.served else 0, mask, s.get (F.TURN_COUNT_LO_value p)] ∧
      ((t.part p).invalid = true ∧ (t.part p).causes = x.causes ||| 2 ^ 6 ∧ (t.part p).quanta = x.quanta ∧
        (t.part p).votes = x.votes.filter (fun v => v.next || v.hold != hold) ∧ (t.part p).limitSteps = hold :: x.limitSteps) ∧
      RegsBut (evtRegs 0x2001 p) s t ∧ OnlyPart p s t ∧ { t with regs := s.regs, parts := s.parts, evt := s.evt, mlipend := s.mlipend } = s := by
  intro x t
  let u := s.modPart p (fun x => { x with
    votes := x.votes.filter (fun v => v.next || v.hold != hold), rechecks := x.rechecks.filter (fun v => v.next || v.hold != hold),
    limitSteps := hold :: x.limitSteps })
  have hparts : ∀ data q, (u.raise 0x2001 p data).part q = u.part q := fun data q => by rw [State.part, State.raise_parts, ← State.part]
  refine ⟨?raised, ?part, ?regs, ?only, ?rest⟩
  case raised => exact RaisedOne.of_raise (u := u) (by decide) (by omega) rfl rfl rfl
  case part => simp [t, State.brakeLimit, State.haltCause, hparts, u, x]
  case regs => exact u.raise_reg 0x2001 p _
  case only => intro q hq; simp [t, State.brakeLimit, State.haltCause, hparts, u, hq]
  case rest => exact congrArg (fun v : State => { v with parts := s.parts }) (u.raise_rest 0x2001 p _)

/-! ## The obligation -/

/-- Settles O8: each clause is the rule of the shared operation its command runs, a check, a vote, a quantum or the limit, on the record of the
partition. -/
theorem brakesAndLimits : Obligations.BrakesAndLimits := by
  refine ⟨?check, ?recheck, ?software, ?held, ?stopped, ?power, ?quantum, ?quantumEnd, ?limit⟩
  case check =>
    intro s m st b n p next w k id c o ho hr hm hop hk hslot hl
    have hready : ¬∃ j, s.slotOf id st (laneOf (opaOf w)) (rowOf (opaOf w)) = some j ∧ (s.slot id j).done = true :=
      fun ⟨j, hj, hd⟩ => Bool.false_ne_true ((hslot j hj).symm.trans hd)
    have hc : s.checkOf p m st b n = .far c false := State.checkOf_wait hop false hk (iff_of_false Bool.false_ne_true hready)
    have hv := (State.vote_becomes hm hl 0 c o).modPart
      (fun x => { x with rechecks := x.rechecks ++ [⟨n, next, 0, c, o, (m.val * 16 + st.val) * 64 + b.val⟩] })
    refine ⟨_, ?_, hv.part, hv.only, hv.rest⟩
    rw [exec_brakeCheck]
    simp [execBrakeCheck, ho, hr, hc, Check.fails, next, o]
  case recheck =>
    intro s m st b n p r w k id c rest ho hr hm hop hk hf hl
    by_cases hready : ∃ j, s.slotOf id st (laneOf (opaOf w)) (rowOf (opaOf w)) = some j ∧ (s.slot id j).done = true
    case pos =>
      have hc : s.checkOf p m st b n = .far c true := State.checkOf_wait hop true hk (iff_of_true rfl hready)
      have hv := s.modPart_becomes p (fun x => { x with rechecks := rest })
      refine ⟨_, ?_, hv.only, hv.rest, fun hs => ?_, fun _ _ _ => hv.part⟩
      · rw [exec_brakeRecheck]
        simp [execBrakeRecheck, ho, hf, hr, hc, Check.fails, rest]
      · obtain ⟨j, hj, hd⟩ := hready
        exact absurd hd (by simp [hs j hj])
    case neg =>
      have hc : s.checkOf p m st b n = .far c false := State.checkOf_wait hop false hk (iff_of_false Bool.false_ne_true hready)
      have hv := (State.vote_becomes hm hl (r.round + 1) c r.origin).modPart
        (fun x => { x with rechecks := rest ++ [{ r with round := r.round + 1, cause := c }] })
      refine ⟨_, ?_, hv.only, hv.rest, fun _ => hv.part, fun j hj hd => absurd ⟨j, hj, hd⟩ hready⟩
      rw [exec_brakeRecheck]
      simp [execBrakeRecheck, ho, hf, hr, hc, Check.fails, rest]
  case software =>
    intro s p quanta n h hold hr hm hl hh
    have hv := State.voteRounds_becomes (hold := hold) (next := !decide (h < s.depth p)) hm (Or.inr (by simp [hl])) quanta.toNat 6 (s.cycleOf p n)
    refine ⟨_, ?_, hv.part, hv.only, hv.rest⟩
    rw [exec_partVote]
    simp [execPartVote, hr, hh, State.holdOf_eq, hold, h]
  case held =>
    intro s p quanta n hr hh
    have hv := s.modPart_becomes p (fun x => { x with votePend := x.votePend ++ [(quanta.toNat, x.hold)] })
    refine ⟨_, ?_, hv.part, hv.only, hv.rest⟩
    rw [exec_partVote]
    simp [execPartVote, hr, hh]
  case stopped =>
    intro s p quanta n hr
    rw [exec_partVote]
    simp [execPartVote, hr]
  case power =>
    intro s p n h hold k hr hm hl hk
    have hv := State.voteRounds_becomes (s := s.takeCredit p (s.cycleOf p n)) (hold := hold) (next := !decide (h < s.depth p)) hm
      (Or.inr (by simp [State.takeCredit_part, hl])) 1 4 (s.cycleOf p n)
    refine ⟨_, ?_, hv.part, ?_, hv.only, congrArg (fun v : State => { v with parts := s.parts, gov := s.gov }) hv.rest⟩
    · rw [exec_powerVote, execPowerVote_of hr hk, State.holdOf_eq]
    · exact (congrArg (fun v : State => mget (fun _ => 0) v.gov.credit p) hv.rest).trans (s.credit_takeCredit p _)
  case quantum =>
    intro s p hold round x vs limit hr hp hv hl
    obtain ⟨u, y, hu, he, hquanta, hhold, hserved, hvotes⟩ := execVoteTakesEffect_quantum hr rfl hp rfl hv hl
    refine ⟨_, (exec_voteTakesEffect ..).trans he, ?_⟩
    rw [State.showHold_part, hu.part]
    refine ⟨hquanta, hhold, hserved, hvotes, State.showHold_holding .., fun c hc => ?_, ?_, fun a ha => ?_, hu.only,
      congrArg (fun v : State => { v with regs := s.regs }) hu.rest⟩
    · rw [State.bit, State.showHold_causes, show 256 = 2 ^ 8 from rfl, Nat.testBit_mod_two_pow, causeMask_testBit, decide_eq_true (by omega : c < 8)]
      rfl
    · rw [State.showHold_beside _ _ _ _ (Or.inr (Nat.le_refl 16)), hu.get]
    · rw [State.showHold_regsBut _ _ _ _ a ha, hu.reg]
  case quantumEnd =>
    intro s p
    exact ⟨_, exec_brakeQuantumEnd p s, s.showHold_holding p 0 0, s.showHold_causes p 0 0, s.showHold_beside p 0 0 (Or.inr (Nat.le_refl 16)),
      s.showHold_beside p 0 0 (Or.inl (Nat.le_refl 1)), s.showHold_regsBut p 0 0, rfl⟩
  case limit =>
    intro s p hold round x limit hr hp hv h0 hh hl
    have hvs : x.votes.filter (Vote.inRound hold round) ≠ [] := by
      simpa [List.filter_eq_nil_iff, Vote.inRound, and_assoc] using hv
    obtain ⟨hraised, ⟨hinv, hcauses, hquanta, hvotes, hlimit⟩, hregs, honly, hrest⟩ :=
      (s.setPart p x).brakeLimit_spec p hold (causeMask (x.votes.filter (Vote.inRound hold round))) p.isLt
    rw [State.part_setPart, if_pos rfl] at hraised hcauses hquanta hvotes hlimit
    rw [if_pos hh] at hraised
    refine ⟨_, ?_, hraised, hinv, hcauses, hquanta, fun v hm => ?_, ?_, hregs, ?_, ?_⟩
    · rw [exec_voteTakesEffect, execVoteTakesEffect_of hr rfl hp rfl hvs, if_pos ⟨h0, by rw [if_pos hh]; exact hl⟩]
    · rw [hvotes] at hm
      simpa using (List.mem_filter.mp hm).2
    · rw [hlimit]; exact List.mem_cons_self
    · exact fun q hq => (honly q hq).trans (by simp [hq])
    · exact congrArg (fun v : State => { v with parts := s.parts }) hrest

end Sys2Proof.Machine
end

section
/-!
PROOFS. The end of a turn (R22, R338): what the halt of a partition with spokes does to their frames, and the obligation about it.
-/
namespace Sys2Proof.Machine

open Sys2Proof

theorem exec_turnEnd {s : State} {p : Part} (h : s.running p = true) :
    exec (.turnEnd p) s = .next ((s.turnEnd p).edgeOrder s) := if_pos h

/-- Partition 0, RUNNING turns of 512 steps on one module, whose spoke 0 has faulted in the turn that ends: it owes a halt with reason 6. -/
def haltingSpokeFault : State :=
  (((State.reset.put (F.PART_STATE_state 0) 3).put (F.PART_PROFILE_depth 0) 0).put (F.PART_LINK_spoke_mask 0) 1).setPart 0
    { causes := 2 ^ 6, spokeFault := true }

/-- The halt has the spoke's frames begin anew at the next turn, cycle 512 (R187, R197). -/
theorem haltingSpokeFault_rxNext : (((haltingSpokeFault.turnEnd 0).edgeOrder haltingSpokeFault).spoke 0).rxNext = 512 := by
  decide +kernel

/-- Refutes O7 by its second clause. The clause lets only registers, partition records, stones, design memory, received words, the governor and
events change when a single-module partition halts, and does not ask that no spoke of the partition has faulted. In `haltingSpokeFault` one has, and
the halt changes its record. (Loading an image of one module leaves PART_LINK.spoke_mask 0, R172, so bring-up does not lead to this state: the clause
lacks a premise, `spokeFault = false` or an empty spoke mask.) -/
theorem not_turnEnds : ¬ Obligations.TurnEnds := by
  unfold Obligations.TurnEnds
  rintro ⟨-, hhalts, -⟩
  have hr : haltingSpokeFault.running 0 = true := by decide +kernel
  obtain ⟨t, ht, -, -, -, -, -, -, -, hframe, -⟩ := hhalts haltingSpokeFault 0 6 hr (by decide +kernel) (by decide +kernel) (by decide +kernel)
    (by decide +kernel) (by decide +kernel) (by decide +kernel) (by decide +kernel) (by decide) (by decide +kernel) (by decide +kernel)
  have he : t = (haltingSpokeFault.turnEnd 0).edgeOrder haltingSpokeFault := Host.Outcome.next.inj (ht.symm.trans (exec_turnEnd hr))
  have hs : (t.spoke 0).rxNext = (haltingSpokeFault.spoke 0).rxNext := (congrArg (fun v : State => (v.spoke 0).rxNext) hframe :)
  rw [he, haltingSpokeFault_rxNext] at hs
  exact absurd hs (by decide +kernel)

end Sys2Proof.Machine
end

section
/-!
PROOFS. A BP op at its step (R29, R33): its command, what it leaves alone, the writes it makes and what its operands read, from the shared rules of
Laws/Stones.lean; and the obligation about EVAL.
-/
namespace Sys2Proof.Machine

open Sys2Proof

variable {s t u : State} {p : Nat} {m : Mill} {st : Stone} {n : Step}

/-! ## The commands -/

theorem exec_eval (m : Mill) (st : Stone) (b : Bp) (n : Step) (e : StoreEcc) (s : State) :
    exec (.eval m st b n e) s = .next (s.bpOp m st b n e 1 State.doEval) := rfl

theorem exec_eval3St (m : Mill) (st : Stone) (b : Bp) (n : Step) (e : StoreEcc) (s : State) :
    exec (.eval3St m st b n e) s = .next (s.bpOp m st b n e 2 State.doEval3) := rfl

theorem exec_nop (m : Mill) (st : Stone) (b : Bp) (n : Step) (e : StoreEcc) (lk : LinkEcc) (s : State) :
    exec (.nop m st b n e lk) s = .next (s.bpOp m st b n e 0 (fun s c w => s.doNop lk c w)) := rfl

theorem exec_fuse2 (m : Mill) (st : Stone) (k : Fin 32) (n : Step) (e : StoreEcc) (s : State) :
    exec (.fuse2 m st k n e) s = .next (s.groupOp m st [2 * k.val, 2 * k.val + 1] n e 3 fuse2Value fuse2Rows) := rfl

theorem exec_fuse4 (m : Mill) (st : Stone) (k : Fin 16) (n : Step) (e : StoreEcc) (s : State) :
    exec (.fuse4 m st k n e) s =
      .next (s.groupOp m st [4 * k.val, 4 * k.val + 1, 4 * k.val + 2, 4 * k.val + 3] n e 4 fuse4Value fuse4Rows) := rfl

theorem exec_break (m : Mill) (st : Stone) (b : Bp) (n : Step) (e : StoreEcc) (s : State) :
    exec (.break_ m st b n e) s = .next (s.bpOp m st b n e 10 State.doBreak) := rfl

theorem exec_launch (m : Mill) (st : Stone) (b : Bp) (n : Step) (e : StoreEcc) (pads : List Nat) (s : State) :
    exec (.launch m st b n e pads) s = .next (s.bpOp m st b n e 8 (fun s c w => s.doLaunch pads c w)) := rfl

theorem exec_land (m : Mill) (st : Stone) (b : Bp) (n : Step) (e : StoreEcc) (s : State) :
    exec (.land m st b n e) s = .next (s.bpOp m st b n e 9 State.doLand) := rfl

/-! ## Runs over a list -/

theorem State.each_nil {α : Type} (s : State) (f : State → α → State) : s.each [] f = s := rfl

theorem State.each_fixed {α : Type} {l : List α} {f : State → α → State} (h : ∀ x ∈ l, f s x = s) : s.each l f = s := by
  unfold State.each
  induction l with
  | nil => rfl
  | cons x l ih =>
    rw [List.foldl_cons, h x List.mem_cons_self]
    exact ih (fun y hy => h y (List.mem_cons_of_mem _ hy))

/-! ## What a BP op that stays in its stone leaves alone -/

theorem BpStill.regsSame : BpStill p s t → RegsSame s t := fun ⟨hregs, _⟩ => hregs

theorem BpStill.rest : BpStill p s t → { t with regs := s.regs, parts := s.parts, stones := s.stones } = s := fun ⟨_, hrest, _⟩ => hrest

theorem BpStill.onlyPart : BpStill p s t → OnlyPart p s t := fun ⟨_, _, honly, _⟩ => honly

theorem BpStill.part : BpStill p s t → { t.part p with step := (s.part p).step, taps := (s.part p).taps } = s.part p :=
  fun ⟨_, _, _, hpart, _⟩ => hpart

theorem BpStill.get (h : BpStill p s t) (f : Fld) : t.get f = s.get f := congrArg f.of (h.regsSame f.addr)

theorem BpStill.flume (h : BpStill p s t) : t.flume = s.flume := (congrArg State.flume h.rest :)

theorem BpStill.evt (h : BpStill p s t) : t.evt = s.evt := (congrArg State.evt h.rest :)

theorem BpStill.causes (h : BpStill p s t) : (t.part p).causes = (s.part p).causes := (congrArg PartSt.causes h.part :)

theorem BpStill.invalid (h : BpStill p s t) : (t.part p).invalid = (s.part p).invalid := (congrArg PartSt.invalid h.part :)

theorem BpStill.storeErr (h : BpStill p s t) : (t.part p).storeErr = (s.part p).storeErr := (congrArg PartSt.storeErr h.part :)

theorem BpStill.storeUe (h : BpStill p s t) : (t.part p).storeUe = (s.part p).storeUe := (congrArg PartSt.storeUe h.part :)

theorem BpStill.running (h : BpStill p s t) (q : Nat) : t.running q = s.running q := congrArg (· == stRunning) (h.get _)

/-- From s to t a BP op of partition p has made the writes ws of this turn, newest first, and has left everything else alone. -/
structure BpWrites (p : Nat) (ws : List TurnWrite) (s t : State) : Prop where
  writes : t.stones.writes = ws ++ s.stones.writes
  rows : t.stones.rows = s.stones.rows
  still : BpStill p s t

theorem BpWrites.trans {ws ws' : List TurnWrite} (h : BpWrites p ws s t) (h' : BpWrites p ws' t u) : BpWrites p (ws' ++ ws) s u where
  writes := by rw [h'.writes, h.writes, List.append_assoc]
  rows := h'.rows.trans h.rows
  still := h.still.trans h'.still

theorem State.atStep_writes (m : Mill) (h : s.Caught p n) : BpWrites p [] s (s.atStep p m n) := ⟨rfl, rfl, State.atStep_still m h⟩

theorem State.writeLane_writes (s : State) (p site r l k : Nat) (v : Bool) : BpWrites p [⟨site, r, l, k, v⟩] s (s.writeLane site r l k v) :=
  have hstill : BpStill p s (s.writeLane site r l k v) :=
    ⟨fun _ => rfl, rfl, fun _ _ => rfl, rfl, rfl, rfl, rfl⟩
  ⟨rfl, rfl, hstill⟩

theorem State.result_writes (s : State) (c : BpCtx) (b : Nat) (w : IWord) (v : Bool) :
    BpWrites c.p [⟨c.site, c.n, b, c.n, v⟩] s (s.result c b w v) := by
  obtain ⟨hstill, hstones, -⟩ := s.result_spec c b w v
  exact ⟨by rw [hstones]; rfl, by rw [hstones], hstill⟩

/-- One result that enters the lanes of several BPs: the last BP's write is the newest. -/
theorem State.results_writes (c : BpCtx) (w : State → Nat → IWord) (v : Bool) (bs : List Nat) (s : State) :
    BpWrites c.p (bs.map (fun b => ⟨c.site, c.n, b, c.n, v⟩)).reverse s (s.each bs (fun s b => s.result c b (w s b) v)) := by
  induction bs generalizing s with
  | nil => exact ⟨rfl, rfl, BpStill.refl _ _⟩
  | cons b bs ih =>
    rw [List.map_cons, List.reverse_cons]
    exact (s.result_writes c b (w s b) v).trans (ih _)

/-! ## Operands -/

theorem State.wordBad_congr (hs : t.stones = s.stones) (site b k : Nat) : t.wordBad site b k = s.wordBad site b k := by
  obtain ⟨-, hbad, -⟩ := State.stones_words hs
  exact hbad ..

theorem State.rowBad_congr (hs : t.stones = s.stones) (site : Nat) (bank : Bool) (r k : Nat) : t.rowBad site bank r k = s.rowBad site bank r k := by
  obtain ⟨-, -, hbad⟩ := State.stones_words hs
  exact hbad ..

/-- The context in which a BP of partition p executes step n. -/
abbrev State.ctxAt (s : State) (p : Nat) (m : Mill) (st : Stone) (b n : Nat) : BpCtx := ⟨p, m, st, b, n, (s.part p).bank⟩

theorem State.ctxAt_site (s : State) (p : Nat) (m : Mill) (st : Stone) (b k : Nat) : (s.ctxAt p m st b k).site = siteOf m st := rfl

/-- The row is stored, and uncorrectable for a read of the BP at step n. -/
abbrev State.operandBad (s : State) (p : Nat) (m : Mill) (st : Stone) (n r : Nat) : Bool :=
  rowStored r && s.rowBad (siteOf m st) (s.part p).bank r n

/-- What an operand field reads at step n, uncorrectable rows included: 0 when its row is one (R57). -/
def State.operandAt (s : State) (p : Nat) (m : Mill) (st : Stone) (n : Nat) (x : BitVec 18) : Nat :=
  if s.operandBad p m st n (rowOf x) then 0 else s.bitAt p m st n x

section
variable (hs : t.stones = s.stones) (b : Nat)
include hs

theorem State.opnd_toNat (x : BitVec 18) : (t.opnd (s.ctxAt p m st b n) x).toNat = s.operandAt p m st n x := by
  unfold State.operandAt
  by_cases hb : s.operandBad p m st n (rowOf x) = true
  · rw [if_pos hb]
    unfold State.opnd State.operand
    rw [State.rowBad_congr hs]
    simp [BpCtx.site, hb]
  · have hgood : s.operandBad p m st n (rowOf x) = false := eq_false_of_ne_true hb
    rw [if_neg hb, State.opnd_of (c := s.ctxAt p m st b n) hs hgood]
    rfl

/-- The table index of the four operands of a word (R33). -/
theorem State.index4_eq (w : IWord) :
    t.index4 (s.ctxAt p m st b n) w = 8 * s.operandAt p m st n (opdOf w) + 4 * s.operandAt p m st n (opcOf w) +
      2 * s.operandAt p m st n (opbOf w) + s.operandAt p m st n (opaOf w) := by
  rw [State.index4, ttIndex_four, State.opnd_toNat hs, State.opnd_toNat hs, State.opnd_toNat hs, State.opnd_toNat hs]

theorem State.opnd_readable {x : BitVec 18} (h : s.operandBad p m st n (rowOf x) = false) :
    (t.opnd (s.ctxAt p m st b n) x).toNat = s.bitAt p m st n x := by
  rw [State.opnd_toNat hs, State.operandAt, h, if_neg Bool.false_ne_true]

theorem State.opnd_readable_eq {x : BitVec 18} (h : s.operandBad p m st n (rowOf x) = false) :
    t.opnd (s.ctxAt p m st b n) x = (s.bitAt p m st n x == 1) := by
  rw [← State.opnd_readable hs b h]
  cases t.opnd (s.ctxAt p m st b n) x <;> rfl

/-- The index when the four rows are readable. -/
theorem State.index4_readable {w : IWord} (h : ∀ r ∈ rowsOf w, s.operandBad p m st n r = false) :
    t.index4 (s.ctxAt p m st b n) w =
      8 * s.bitAt p m st n (opdOf w) + 4 * s.bitAt p m st n (opcOf w) + 2 * s.bitAt p m st n (opbOf w) + s.bitAt p m st n (opaOf w) := by
  simp only [rowsOf, List.forall_mem_cons] at h
  obtain ⟨ha, hb, hc, hd, -⟩ := h
  rw [State.index4, ttIndex_four, State.opnd_readable hs b ha, State.opnd_readable hs b hb, State.opnd_readable hs b hc,
    State.opnd_readable hs b hd]

end

theorem getLsbD_setLane (r : Row) {l : Nat} (hl : l < 64) (v : Bool) (j : Nat) :
    (setLane r l v).getLsbD j = if j = l then v else r.getLsbD j := by
  unfold setLane
  by_cases h : j < 64
  · have hm : (BitVec.ofNat 64 (2 ^ l)).getLsbD j = decide (l = j) := by
      rw [BitVec.getLsbD_ofNat, Nat.testBit_two_pow, decide_eq_true h, Bool.true_and]
    cases v
    · rw [if_neg Bool.false_ne_true, BitVec.getLsbD_and, BitVec.getLsbD_not, hm]
      by_cases e : j = l
      · simp [e]
      · simp [e, Ne.symm e, h]
    · rw [if_pos rfl, BitVec.getLsbD_or, hm]
      by_cases e : j = l
      · simp [e]
      · simp [e, Ne.symm e]
  · rw [BitVec.getLsbD_of_ge _ _ (by omega), if_neg (by omega), BitVec.getLsbD_of_ge _ _ (by omega)]

/-- A row assembled lane by lane reads, at each lane, what was put there. -/
theorem laneBit_foldl_setLane (f : Nat → Bool) (k : Nat) (hk : k ≤ 64) (j : Nat) :
    laneBit ((List.range k).foldl (fun acc l => setLane acc l (f l)) 0) j = (decide (j < k) && f j) := by
  induction k with
  | zero => simp [laneBit]
  | succ k ih =>
    rw [List.range_succ, List.foldl_append, List.foldl_cons, List.foldl_nil, laneBit, getLsbD_setLane _ (by omega), ← laneBit, ih (by omega)]
    split
    · next hj => rw [hj, decide_eq_true (Nat.lt_succ_self k), Bool.true_and]
    · rw [decide_eq_decide.mpr (by omega : j < k ↔ j < k + 1)]

theorem State.laneBit_readRow (s : State) (site : Nat) (bank : Bool) (r k : Nat) {l : Nat} (hl : l < 64) :
    laneBit (s.readRow site bank r k) l = s.readLane site bank r l k := by
  rw [State.readRow, laneBit_foldl_setLane _ 64 (Nat.le_refl _), decide_eq_true hl, Bool.true_and]

/-! ## Ops that meet no store error -/

theorem State.Executes.caught (h : s.Executes m n p) : s.Caught p n := by
  obtain ⟨-, -, -, -, -, hc⟩ := h
  exact hc

theorem State.Executes.running (h : s.Executes m n p) : s.running p = true := by
  obtain ⟨-, hr, -⟩ := h
  exact hr

/-- Operand rows that are readable report nothing at the step. -/
theorem State.reportRows_readable (b : Nat) {rs : List Nat} (h : ∀ r ∈ rs, s.operandBad p m st n r = false) :
    (s.atStep p m n).reportRows (s.ctxAt p m st b n) rs = s.atStep p m n := State.reportRows_good _ _ _ h

/-- The result of an op, in the state at its step. -/
theorem State.result_atStep (hx : s.Executes m n p) (st : Stone) (b : Nat) (w : IWord) (v : Bool) :
    BpWrites p [⟨siteOf m st, n, b, n, v⟩] s ((s.atStep p m n).result (s.ctxAt p m st b n) b w v) :=
  (State.atStep_writes m hx.caught).trans (State.result_writes _ (s.ctxAt p m st b n) b w v)

/-- Settles O1: the op runs on the state at its step, where its rows report nothing and its operands read as in s. -/
theorem evalResult : Obligations.EvalResult := by
  intro s p m st b n hx ho hr w i
  obtain ⟨hword, hrows⟩ := hr
  have hrun : s.bpOp m st b n {} 1 State.doEval = (s.atStep p m n).result (s.ctxAt p m st b n) b w ((ttOf w).getLsbD i) := by
    rw [State.bpOp_of hx ho hword, State.doEval, State.reportRows_readable b hrows, State.index4_readable (s.atStep_stones p m n) b hrows]
  have h := State.result_atStep hx st b w ((ttOf w).getLsbD i)
  rw [exec_eval, hrun]
  exact ⟨_, rfl, h.writes, h.rows, h.still⟩

end Sys2Proof.Machine
end

section
/-!
PROOFS. BREAK (R53, R337, R338): the record it enters and the halt it asks for, and the obligation about it.
-/
namespace Sys2Proof.Machine

open Sys2Proof

theorem State.haltPulse_regs (s : State) : s.haltPulse.regs = s.regs := by
  unfold State.haltPulse
  split <;> rfl

theorem State.haltPulse_parts (s : State) : s.haltPulse.parts = s.parts := by
  unfold State.haltPulse
  split <;> rfl

theorem State.haltPulse_part (s : State) (q : Nat) : s.haltPulse.part q = s.part q := by
  rw [State.part, State.haltPulse_parts, ← State.part]

theorem State.haltPulse_rest (s : State) : { s.haltPulse with lines := s.lines } = s := by
  unfold State.haltPulse
  split <;> rfl

/-- BREAK at a BP enters the record register of its partition (R53). -/
def State.recordBreak (s : State) (c : BpCtx) : State :=
  ((((s.put (F.DBG_BREAKREC_valid c.p) 1).put (F.DBG_BREAKREC_mill c.p) c.m).put (F.DBG_BREAKREC_stone c.p) c.st).put
    (F.DBG_BREAKREC_lane c.p) c.b).put (F.DBG_BREAKREC_step c.p) c.n

theorem State.recordBreak_fields (s : State) (c : BpCtx) :
    (s.recordBreak c).get (F.DBG_BREAKREC_valid c.p) = 1 ∧ (s.recordBreak c).get (F.DBG_BREAKREC_mill c.p) = c.m ∧
      (s.recordBreak c).get (F.DBG_BREAKREC_stone c.p) = c.st ∧ (s.recordBreak c).get (F.DBG_BREAKREC_lane c.p) = c.b % 64 ∧
      (s.recordBreak c).get (F.DBG_BREAKREC_step c.p) = c.n % 2048 := by
  unfold State.recordBreak
  refine ⟨?valid, ?mill, ?stone, ?lane, ?step⟩
  case valid =>
    rw [State.get_put_bits, State.get_put_bits, State.get_put_bits, State.get_put_bits, State.get_put_same] <;>
      simp [F.DBG_BREAKREC_valid, F.DBG_BREAKREC_mill, F.DBG_BREAKREC_stone, F.DBG_BREAKREC_lane, F.DBG_BREAKREC_step]
  case mill =>
    rw [State.get_put_bits, State.get_put_bits, State.get_put_bits, State.get_put_same] <;>
      simp [F.DBG_BREAKREC_mill, F.DBG_BREAKREC_stone, F.DBG_BREAKREC_lane, F.DBG_BREAKREC_step, Nat.mod_eq_of_lt]
  case stone =>
    rw [State.get_put_bits, State.get_put_bits, State.get_put_same] <;>
      simp [F.DBG_BREAKREC_stone, F.DBG_BREAKREC_lane, F.DBG_BREAKREC_step, Nat.mod_eq_of_lt]
  case lane => rw [State.get_put_bits, State.get_put_same] <;> simp [F.DBG_BREAKREC_lane, F.DBG_BREAKREC_step]
  case step => rw [State.get_put_same] <;> simp [F.DBG_BREAKREC_step]

theorem State.recordBreak_regsBut (s : State) (c : BpCtx) : RegsBut [R.DBG_BREAKREC c.p] s (s.recordBreak c) := by
  intro a ha
  have h : a ≠ R.DBG_BREAKREC c.p := List.ne_of_not_mem_cons ha
  rw [State.recordBreak, State.reg_put_ne _ _ h, State.reg_put_ne _ _ h, State.reg_put_ne _ _ h, State.reg_put_ne _ _ h, State.reg_put_ne _ _ h]

/-- What the first BREAK of a turn does before a pulse is launched: it is recorded, and asks for a halt with reason 3 (R53, R338). -/
def State.firstBreak (s : State) (c : BpCtx) : State :=
  ((s.recordBreak c).modPart c.p (fun x => { x with breakKey := some (((c.n * 256 + c.m.val) * 16 + c.st.val) * 64 + c.b) })).haltCause c.p 3

/-- While the record is clear, a BREAK that fires is the first; a multi-module partition launches a pulse as well (R337). -/
theorem State.breakFires_clear (s : State) (c : BpCtx) (hv : s.get (F.DBG_BREAKREC_valid c.p) = 0) :
    s.breakFires c = if (s.firstBreak c).multi c.p then (s.firstBreak c).haltPulse else s.firstBreak c := by
  unfold State.breakFires
  simp only [hv, if_true]
  rfl

theorem State.firstBreak_causes (s : State) (c : BpCtx) : ((s.firstBreak c).part c.p).causes = (s.part c.p).causes ||| 2 ^ 3 := by
  rw [State.firstBreak, State.haltCause, State.part_modPart, State.part_modPart, if_pos rfl, if_pos rfl]
  rfl

/-- The pulse changes the system lines only, so what a first BREAK does besides is what stands before it. -/
theorem State.breakFires_spec (s : State) (c : BpCtx) (hv : s.get (F.DBG_BREAKREC_valid c.p) = 0) :
    (s.breakFires c).regs = (s.recordBreak c).regs ∧ ((s.breakFires c).part c.p).causes = (s.part c.p).causes ||| 2 ^ 3 ∧
      { s.breakFires c with regs := s.regs, parts := s.parts, lines := s.lines } = s := by
  rw [s.breakFires_clear c hv]
  split
  · refine ⟨(s.firstBreak c).haltPulse_regs, ?_, ?_⟩
    · rw [State.haltPulse_part, State.firstBreak_causes]
    · exact (congrArg (fun v : State => { v with regs := s.regs, parts := s.parts, lines := s.lines }) (s.firstBreak c).haltPulse_rest :)
  · exact ⟨rfl, s.firstBreak_causes c, rfl⟩

/-- Settles O3: a BREAK runs on the state at its step, and fires only when its table selects 1 and the partition's BREAK ops are enabled. -/
theorem breakFires : Obligations.BreakFires := by
  refine ⟨?fires, ?disabled⟩
  case fires =>
    intro s p m st b n w i hp hx ho hr hen htt hv
    obtain ⟨hword, hrows⟩ := hr
    have hstill := State.atStep_still m hx.caught
    have hen' : ((s.atStep p m n).part p).breakEn = true := (congrArg PartSt.breakEn hstill.part).trans hen
    have hrun : s.bpOp m st b n {} 10 State.doBreak = (s.atStep p m n).breakFires (s.ctxAt p m st b n) := by
      rw [State.bpOp_of hx ho hword, State.doBreak, State.reportRows_readable b hrows, State.index4_readable (s.atStep_stones p m n) b hrows]
      exact if_pos (by rw [hen', Bool.and_true]; exact htt)
    obtain ⟨hregs, hc, hrest⟩ := (s.atStep p m n).breakFires_spec (s.ctxAt p m st b n) ((hstill.get _).trans hv)
    obtain ⟨hvalid, hmill, hstone, hlane, hstep⟩ := (s.atStep p m n).recordBreak_fields (s.ctxAt p m st b n)
    have hget : ∀ f : Fld, ((s.atStep p m n).breakFires (s.ctxAt p m st b n)).get f =
        ((s.atStep p m n).recordBreak (s.ctxAt p m st b n)).get f := fun f => by rw [State.get, State.reg, hregs]; rfl
    rw [exec_break, hrun]
    refine ⟨_, rfl, (hget _).trans hvalid, (hget _).trans hmill, (hget _).trans hstone, (hget _).trans (hlane.trans (Nat.mod_eq_of_lt b.isLt)),
      (hget _).trans (hstep.trans (Nat.mod_eq_of_lt n.isLt)), hc.trans (by rw [hstill.causes]), fun a ha => ?regs, ?stones, ?rest⟩
    case regs =>
      rw [State.reg, hregs]
      exact ((s.atStep p m n).recordBreak_regsBut (s.ctxAt p m st b n) a ha).trans (hstill.regsSame a)
    case stones => exact (congrArg State.stones hrest :)
    case rest => exact (congrArg (fun v : State => { v with regs := s.regs, parts := s.parts, lines := s.lines }) hrest :)
  case disabled =>
    intro s p m st b n w hx ho hr hen
    obtain ⟨hword, hrows⟩ := hr
    have hstill := State.atStep_still m hx.caught
    have hen' : ((s.atStep p m n).part p).breakEn = false := (congrArg PartSt.breakEn hstill.part).trans hen
    have hrun : s.bpOp m st b n {} 10 State.doBreak = s.atStep p m n := by
      rw [State.bpOp_of hx ho hword, State.doBreak, State.reportRows_readable b hrows]
      exact if_neg (by rw [hen', Bool.and_false]; exact Bool.false_ne_true)
    rw [exec_break, hrun]
    exact ⟨_, rfl, rfl, hstill⟩

end Sys2Proof.Machine
end

section
/-!
PROOFS. LAUNCH and LAND of bits that no port claims (R50, R51), and the obligation about them.
-/
namespace Sys2Proof.Machine

open Sys2Proof

variable {s t : State} {p : Nat}

/-- A launch bit that no fire-mode port claims takes the value, and no port sees it (R50). -/
theorem State.driveLaunch_unclaimed (s : State) (m l : Nat) (v : Bool) (cyc : Nat) (pads : List Nat)
    (h : ∀ j, j < 8 → ¬(s.portMode m 0 j = 1 ∧ (s.launchPort m j).bits.getLsbD l = true)) :
    s.driveLaunch m l v cyc pads =
      { s with flume := { s.flume with launchBits := mset (fun _ => 0) s.flume.launchBits m (setLane (s.launchRow m) l v) } } :=
  State.each_fixed fun j hj => if_neg (h j (List.mem_range.mp hj))

/-- A landing bit that no port claims: a LAND of it takes no word. -/
theorem State.takeLanding_unclaimed {q l k : Nat} (h : s.landOwner q l = none) (limit : Bool) : s.takeLanding p q l k limit = s := by
  unfold State.takeLanding
  rw [h]

theorem BpStill.portMode (h : BpStill p s t) (q dir j : Nat) : t.portMode q dir j = s.portMode q dir j := h.get _

theorem BpStill.launchPort (h : BpStill p s t) (q j : Nat) : t.launchPort q j = s.launchPort q j := by
  rw [State.launchPort, h.flume, ← State.launchPort]

theorem BpStill.landOwner (h : BpStill p s t) (q l : Nat) : t.landOwner q l = s.landOwner q l := by
  unfold State.landOwner State.landPort
  simp only [h.portMode, h.flume]

/-- Settles O5: LAUNCH changes its launch bit alone, and LAND makes the two writes, as no port claims either bit. -/
theorem launchAndLand : Obligations.LaunchAndLand := by
  refine ⟨?launch, ?land⟩
  case launch =>
    intro s p m st b n pads w l hx ho hr hport
    obtain ⟨hword, hrows⟩ := hr
    have hstill := State.atStep_still m hx.caught
    have hv := State.opnd_readable_eq (s.atStep_stones p m n) b (hrows _ List.mem_cons_self)
    rw [exec_launch, State.bpOp_of hx ho hword]
    dsimp only
    rw [State.doLaunch, State.reportRows_readable b hrows, hv,
      State.driveLaunch_unclaimed _ _ _ _ _ _ (fun j hj => by rw [hstill.portMode, hstill.launchPort]; exact hport j hj)]
    exact ⟨_, rfl, mget_mset_same .., fun k hk => mget_mset_ne _ _ _ hk, rfl, hstill.regsSame, hstill.onlyPart, rfl⟩
  case land =>
    intro s p m st b n w v hx ho hr hport
    obtain ⟨hword, -⟩ := hr
    have h := ((State.atStep_writes m hx.caught).trans
      (State.writeLane_writes _ p (siteOf m st) (rowOf (opdOf w)) (laneOf (opdOf w)) n v)).trans (State.result_writes _ (s.ctxAt p m st b n) b w v)
    have hrun : s.bpOp m st b n {} 9 State.doLand = ((s.atStep p m n).writeLane (siteOf m st) (rowOf (opdOf w)) (laneOf (opdOf w)) n v).result
        (s.ctxAt p m st b n) b w v := by
      rw [State.bpOp_of hx ho hword]
      exact State.takeLanding_unclaimed ((h.still.landOwner _ _).trans hport) _
    rw [exec_land, hrun]
    exact ⟨_, rfl, h.writes, h.rows, h.still⟩

end Sys2Proof.Machine
end

section
/-!
PROOFS. EVAL3_ST, NOP and the fused ops when the store shows no error (R14, R35 to R46).
-/
namespace Sys2Proof.Machine

open Sys2Proof

variable {s t u : State} {p : Nat} {m : Mill} {st : Stone} {n : Step}

/-! ## EVAL3_ST and NOP -/

theorem State.writeShadow_still (s : State) (p site : Nat) (bank : Bool) (r l : Nat) (v : Bool) : BpStill p s (s.writeShadow site bank r l v) :=
  ⟨fun _ => rfl, rfl, fun _ _ => rfl, rfl, rfl, rfl, rfl⟩

theorem State.doEval3_of {b : Nat} {w : IWord}
    (h : ∀ r ∈ [rowOf (opaOf w), rowOf (opbOf w), rowOf (opcOf w)], s.operandBad p m st n r = false) :
    let i := 4 * s.bitAt p m st n (opcOf w) + 2 * s.bitAt p m st n (opbOf w) + s.bitAt p m st n (opaOf w)
    (s.atStep p m n).doEval3 (s.ctxAt p m st b n) w = ((s.atStep p m n).writeShadow (siteOf m st) (s.part p).bank (rowOf (opdOf w))
      (laneOf (opdOf w)) ((ttOf w).getLsbD i)).tap (s.ctxAt p m st b n) b w ((ttOf w).getLsbD i) := by
  intro i
  have hi : ttIndex [(s.atStep p m n).opnd (s.ctxAt p m st b n) (opaOf w), (s.atStep p m n).opnd (s.ctxAt p m st b n) (opbOf w),
      (s.atStep p m n).opnd (s.ctxAt p m st b n) (opcOf w)] = i := by
    simp only [List.forall_mem_cons] at h
    obtain ⟨ha, hb, hc, -⟩ := h
    rw [ttIndex_three, State.opnd_readable (s.atStep_stones p m n) b ha, State.opnd_readable (s.atStep_stones p m n) b hb,
      State.opnd_readable (s.atStep_stones p m n) b hc]
  rw [State.doEval3, State.reportRows_readable b h, hi]
  rfl

/-- A NOP whose word names no import (R35). -/
theorem State.doNop_idle (s : State) (lk : LinkEcc) (c : BpCtx) {w : IWord} (h : (opaOf w).toNat / 2 ^ 16 = 0) : s.doNop lk c w = s := by
  have hk : ((opaOf w).extractLsb' 16 2).toNat = 0 := by
    rw [BitVec.extractLsb'_toNat, Nat.shiftRight_eq_div_pow, h]
  unfold State.doNop
  dsimp only
  rw [hk]
  rfl

/-- A NOP that imports from the crossbar takes the source lane as it stood four steps before (R36). -/
theorem State.doNop_crossbar (s : State) (lk : LinkEcc) (c : BpCtx) {w : IWord} (h : (opaOf w).toNat / 2 ^ 16 = 1) (hn : 4 ≤ c.n) :
    let src := c.m.val * 16 + (opaOf w).toNat / 64 % 16
    let l := (opaOf w).toNat % 64
    s.doNop lk c w = s.result c c.b w
      (match s.turnWrite src (c.n - 4) l (c.n - 4) with | some v => v | none => laneBit (s.baseRow src (c.n - 4)) l) := by
  have hk : ((opaOf w).extractLsb' 16 2).toNat = 1 := by
    rw [BitVec.extractLsb'_toNat, Nat.shiftRight_eq_div_pow, h]
  have hsrc : ((opaOf w).extractLsb' 6 4).toNat = (opaOf w).toNat / 64 % 16 := by
    rw [BitVec.extractLsb'_toNat, Nat.shiftRight_eq_div_pow]
  have hl : ((opaOf w).extractLsb' 0 6).toNat = (opaOf w).toNat % 64 := by
    rw [BitVec.extractLsb'_toNat, Nat.shiftRight_zero]
  unfold State.doNop State.crossbar
  dsimp only
  rw [hk, hsrc, hl, if_pos hn]
  rfl

/-! ## FUSE2 and FUSE4 -/

/-- A step at which the store shows no error begins with the step noted (R57). -/
theorem State.takeEcc_none (s : State) (p : Nat) (m : Mill) (st : Stone) (bank : Bool) (k : Nat) :
    (s.stepped p k).takeEcc m st bank k {} = s.atStep p m k := rfl

theorem State.member_of {c : BpCtx} (hs : t.stones = s.stones) {b : Nat} (h : s.wordBad c.site b c.n = false) :
    t.member c b = s.word c.site b c.n := by
  obtain ⟨hword, -⟩ := State.stones_words hs
  rw [State.member, State.wordBad_congr hs, h, hword]
  rfl

/-- A group op whose members' words and operand rows are readable writes its value into the lanes of all members (R42, R46). -/
theorem State.groupOp_writes {bs : List Nat} {op : Nat} {value : State → BpCtx → Bool} {rows : State → BpCtx → List (Nat × Nat)} {v : Bool}
    (hx : s.Executes m n p) (ho : ∀ b ∈ bs, opOf (s.word (siteOf m st) b n) = op) (hw : ∀ b ∈ bs, s.wordBad (siteOf m st) b n = false)
    (hr : ∀ r ∈ rows (s.atStep p m n) (s.ctxAt p m st (bs.headD 0) n), s.operandBad p m st n r.2 = false)
    (hv : value (s.atStep p m n) (s.ctxAt p m st (bs.headD 0) n) = v) :
    BpWrites p (bs.map (fun b => ⟨siteOf m st, n, b, n, v⟩)).reverse s (s.groupOp m st bs n {} op value rows) := by
  have hall : bs.all (fun b => opOf (s.word (siteOf m st) b n) == op) = true := by simpa using ho
  have hbad : bs.filter (fun b => (s.atStep p m n).wordBad (siteOf m st) b n) = [] := by
    simpa [State.wordBad_congr (s.atStep_stones p m n)] using hw
  have hgood : bs.filter (fun b => !(s.atStep p m n).wordBad (siteOf m st) b n) = bs := by
    simpa [State.wordBad_congr (s.atStep_stones p m n)] using hw
  have hreport : (s.atStep p m n).each (rows (s.atStep p m n) (s.ctxAt p m st (bs.headD 0) n))
      (fun t r => t.reportRow p m st (s.part p).bank r.2 n r.1) = s.atStep p m n :=
    State.each_fixed fun r h => if_neg (by rw [State.rowBad_congr (s.atStep_stones p m n)]; simpa using hr r h)
  have hrun : s.groupOp m st bs n {} op value rows = (s.atStep p m n).each bs
      (fun t b => t.result (s.ctxAt p m st (bs.headD 0) n) b (t.word (siteOf m st) b n) v) := by
    unfold State.groupOp
    rw [State.bpCtx_of s st _ hx]
    refine (if_pos hall).trans ?_
    simp only [State.enterStep_of hx.caught, State.takeEcc_none, BpCtx.site, hbad, State.each_nil, hreport, hgood, hv]
  rw [hrun]
  have h := (State.atStep_writes m hx.caught).trans
    (State.results_writes (s.ctxAt p m st (bs.headD 0) n) (fun t b => t.word (siteOf m st) b n) v bs (s.atStep p m n))
  rwa [List.append_nil] at h

theorem ttIndex_two (a b : Bool) : ttIndex [a, b] = 2 * b.toNat + a.toNat := by
  cases a <;> cases b <;> rfl

theorem State.bitAt_le_one (s : State) (p : Nat) (m : Mill) (st : Stone) (k : Nat) (x : BitVec 18) : s.bitAt p m st k x ≤ 1 := Bool.toNat_le _

/-- Operand field j of an instruction word. -/
def fieldOf (x : IWord) (j : Nat) : BitVec 18 :=
  match j with | 0 => opaOf x | 1 => opbOf x | 2 => opcOf x | _ => opdOf x

theorem rowOf_fieldOf_mem (x : IWord) (j : Nat) : rowOf (fieldOf x j) ∈ rowsOf x := by
  unfold fieldOf
  split <;> simp [rowsOf]

/-- The four rows of a word's operands, and those of one in particular. -/
theorem State.field_readable {x : IWord} (h : ∀ r ∈ rowsOf x, s.operandBad p m st n r = false) (j : Nat) :
    s.operandBad p m st n (rowOf (fieldOf x j)) = false := h _ (rowOf_fieldOf_mem x j)

/-- What a FUSE2 pair writes (R42). -/
theorem fuse2Value_of {b : Nat} {w0 w1 : IWord} (h0 : (s.atStep p m n).member (s.ctxAt p m st b n) b = w0)
    (h1 : (s.atStep p m n).member (s.ctxAt p m st b n) (b + 1) = w1) (hr : ∀ r ∈ rowsOf w0, s.operandBad p m st n r = false)
    (he : s.operandBad p m st n (rowOf (opaOf w1)) = false) :
    let i := 8 * s.bitAt p m st n (opdOf w0) + 4 * s.bitAt p m st n (opcOf w0) + 2 * s.bitAt p m st n (opbOf w0) + s.bitAt p m st n (opaOf w0)
    fuse2Value (s.atStep p m n) (s.ctxAt p m st b n) =
      if s.bitAt p m st n (opaOf w1) = 1 then (ttOf w1).getLsbD i else (ttOf w0).getLsbD i := by
  intro i
  unfold fuse2Value
  dsimp only
  rw [h0, h1, State.index4_readable (s.atStep_stones p m n) b hr, State.opnd_readable_eq (s.atStep_stones p m n) b he]
  simp only [beq_iff_eq]
  rfl

/-- The BPs of a FUSE4 group are those at offsets 0 to 3 (R43). -/
theorem forall_mem_group {P : Nat → Prop} {b : Nat} (h : ∀ j, j < 4 → P (b + j)) : ∀ x ∈ [b, b + 1, b + 2, b + 3], P x := by
  simp only [List.forall_mem_cons]
  exact ⟨h 0 (by decide), h 1 (by decide), h 2 (by decide), h 3 (by decide), by simp⟩

section
variable {b : Nat} {w : Nat → IWord} (hm : ∀ j, j < 4 → (s.atStep p m n).member (s.ctxAt p m st b n) (b + j) = w j)
include hm

/-- What a FUSE4 group in six-input mode writes (R44). -/
theorem fuse4Value_sixInput (hmark : opdOf (w 1) = fuse4Marker) (hr : ∀ r ∈ rowsOf (w 0), s.operandBad p m st n r = false)
    (he : s.operandBad p m st n (rowOf (opaOf (w 1))) = false) (hf : s.operandBad p m st n (rowOf (opbOf (w 1))) = false) :
    let i := 8 * s.bitAt p m st n (opdOf (w 0)) + 4 * s.bitAt p m st n (opcOf (w 0)) + 2 * s.bitAt p m st n (opbOf (w 0)) +
      s.bitAt p m st n (opaOf (w 0))
    let q := 2 * s.bitAt p m st n (opbOf (w 1)) + s.bitAt p m st n (opaOf (w 1))
    fuse4Value (s.atStep p m n) (s.ctxAt p m st b n) = (ttOf (w q)).getLsbD i := by
  intro i q
  have hq : q < 4 := by
    have h1 := s.bitAt_le_one p m st n (opbOf (w 1))
    have h2 := s.bitAt_le_one p m st n (opaOf (w 1))
    omega
  have h0 : (s.atStep p m n).member (s.ctxAt p m st b n) b = w 0 := hm 0 (by decide)
  unfold fuse4Value
  dsimp only
  rw [hm 1 (by decide), h0, if_pos hmark, ttIndex_two, State.opnd_readable (s.atStep_stones p m n) b he,
    State.opnd_readable (s.atStep_stones p m n) b hf, hm q hq, State.index4_readable (s.atStep_stones p m n) b hr]

/-- What a FUSE4 group in multiplexer mode writes (R45): the select's lanes are those of one group of four of its row. -/
theorem fuse4Value_multiplexer (hmark : opdOf (w 1) ≠ fuse4Marker) (hs : s.operandBad p m st n ((ttOf (w 0)).toNat / 16) = false)
    (hr : ∀ j, j < 4 → ∀ r ∈ rowsOf (w j), s.operandBad p m st n r = false) :
    let lane (j : Nat) : Nat := (s.readLane (siteOf m st) (s.part p).bank ((ttOf (w 0)).toNat / 16) (4 * ((ttOf (w 0)).toNat % 16) + j) n).toNat
    let sel := lane 0 + 2 * lane 1 + 4 * lane 2 + 8 * lane 3
    fuse4Value (s.atStep p m n) (s.ctxAt p m st b n) = (s.bitAt p m st n (fieldOf (w (sel / 4)) (sel % 4)) == 1) := by
  intro lane sel
  have hlane : ∀ j, j < 4 → (laneBit ((s.atStep p m n).operandRow (siteOf m st) (s.part p).bank ((ttOf (w 0)).toNat / 16) n)
      (4 * ((ttOf (w 0)).toNat % 16) + j)).toNat = lane j := by
    intro j hj
    rw [State.operandRow, State.rowBad_congr (s.atStep_stones p m n), if_neg (by simpa using hs), State.laneBit_readRow _ _ _ _ _ (by omega)]
    rfl
  have hsel : ttIndex ((List.range 4).map (fun j => laneBit ((s.atStep p m n).operandRow (siteOf m st) (s.part p).bank
      ((ttOf (w 0)).toNat / 16) n) (4 * ((ttOf (w 0)).toNat % 16) + j))) = sel := by
    rw [show List.range 4 = [0, 1, 2, 3] from rfl, List.map_cons, List.map_cons, List.map_cons, List.map_cons, List.map_nil, ttIndex_four,
      hlane 0 (by decide), hlane 1 (by decide), hlane 2 (by decide), hlane 3 (by decide)]
    omega
  have hlt : sel / 4 < 4 := by
    have h : ∀ j, lane j ≤ 1 := fun j => Bool.toNat_le _
    have h0 := h 0
    have h1 := h 1
    have h2 := h 2
    have h3 := h 3
    omega
  have hfield : fuse4Field (s.atStep p m n) (s.ctxAt p m st b n) sel = fieldOf (w (sel / 4)) (sel % 4) := by
    rw [← hm _ hlt]
    rfl
  have h0 : (s.atStep p m n).member (s.ctxAt p m st b n) b = w 0 := hm 0 (by decide)
  unfold fuse4Value
  dsimp only [BpCtx.site]
  rw [hm 1 (by decide), h0, if_neg hmark, hsel, hfield, State.opnd_readable_eq (s.atStep_stones p m n) b (State.field_readable (hr _ hlt) _)]

theorem fuse4Rows_sixInput (hmark : opdOf (w 1) = fuse4Marker) : fuse4Rows (s.atStep p m n) (s.ctxAt p m st b n) =
    (rowsOf (w 0)).map (fun r => (b, r)) ++ [rowOf (opaOf (w 1)), rowOf (opbOf (w 1))].map (fun r => (b + 1, r)) := by
  have h0 : (s.atStep p m n).member (s.ctxAt p m st b n) b = w 0 := hm 0 (by decide)
  unfold fuse4Rows
  dsimp only
  rw [hm 1 (by decide), h0, if_pos hmark]
  rfl

theorem fuse4Rows_multiplexer (hmark : opdOf (w 1) ≠ fuse4Marker) : fuse4Rows (s.atStep p m n) (s.ctxAt p m st b n) =
    ((ttOf (w 0)).toNat / 16 :: rowsOf (w 0)).map (fun r => (b, r)) ++ (rowsOf (w 1)).map (fun r => (b + 1, r)) ++
      (rowsOf (w 2)).map (fun r => (b + 2, r)) ++ (rowsOf (w 3)).map (fun r => (b + 3, r)) := by
  have h0 : (s.atStep p m n).member (s.ctxAt p m st b n) b = w 0 := hm 0 (by decide)
  unfold fuse4Rows
  dsimp only
  rw [hm 1 (by decide), hm 2 (by decide), hm 3 (by decide), h0, if_neg hmark]
  rfl

end

end Sys2Proof.Machine
end

section
/-!
PROOFS. Store errors (R57, R58): what reporting one does, what a BP that meets one still does, when the event comes; and the obligation about the
ops that stay in their stone.
-/
namespace Sys2Proof.Machine

open Sys2Proof

variable {s t u : State} {p : Nat} {m : Mill} {st : Stone} {n : Step}

/-! ## Reporting an error -/

/-- Marking a turn of p invalid leaves the other partitions alone. -/
theorem State.faultTurn_onlyPart (s : State) (p : Nat) (sticky : Bool) : OnlyPart p s (s.faultTurn p sticky) := by
  intro q hq
  unfold State.faultTurn State.haltCause
  dsimp only
  split
  · split <;> simp [State.haltPulse_part, hq]
  · split <;> simp [hq]

theorem State.faultTurn_storeErr (s : State) (p : Nat) (sticky : Bool) : ((s.faultTurn p sticky).part p).storeErr = (s.part p).storeErr := by
  unfold State.faultTurn State.haltCause
  dsimp only
  split
  · split <;> simp [State.haltPulse_part]
  · split <;> simp

theorem State.faultTurn_stones (s : State) (p : Nat) (sticky : Bool) : (s.faultTurn p sticky).stones = s.stones :=
  (congrArg State.stones (s.faultTurn_only p sticky) :)

/-- MILL_ECC is not where a partition's state stands. -/
theorem State.running_of_regsBut {k : Nat} (h : RegsBut [R.MILL_ECC k] s t) (q : Nat) : t.running q = s.running q := by
  have ha : R.PART_STATE q ∉ [R.MILL_ECC k] := by
    simp only [R.PART_STATE, R.MILL_ECC, List.mem_singleton]
    omega
  exact congrArg (fun w => (F.PART_STATE_state q).of w == stRunning) (h _ ha)

/-- MILL_ECC keeps the first uncorrectable error until cleared (R58). -/
def State.keepUe (s : State) (m st wh : Nat) : State :=
  if s.get (F.MILL_ECC_ue_flag m) = 0 then
    ((s.put (F.MILL_ECC_ue_flag m) 1).put (F.MILL_ECC_ue_where m) wh).put (F.MILL_ECC_ue_stone m) st
  else s

/-- An error at `key` comes before the turn's other errors, of which none has been raised (R57). -/
def State.isFirstUe (s : State) (p key : Nat) : Bool :=
  match (s.part p).storeErr with | some e => decide (key < e.1) | none => !(s.part p).storeUe

/-- The first error of the turn in step, mill, stone and lane order is the one the event will name (R57). -/
def State.firstUe (s : State) (p key : Nat) (data : List Nat) : State :=
  if s.isFirstUe p key then s.modPart p (fun x => { x with storeErr := some (key, data) }) else s

theorem State.storeError_eq (s : State) (p m st wh n b row : Nat) : s.storeError p m st wh n b row =
    ((s.keepUe m st wh).firstUe p (((n * 256 + m) * 16 + st) * 64 + b) [m, st, wh, n, b, row]).faultTurn p false := rfl

theorem State.keepUe_flag (s : State) (m st wh : Nat) : (s.keepUe m st wh).get (F.MILL_ECC_ue_flag m) = 1 := by
  unfold State.keepUe
  split
  · rw [State.get_put_bits, State.get_put_bits, State.get_put_same] <;> simp [F.MILL_ECC_ue_flag, F.MILL_ECC_ue_where, F.MILL_ECC_ue_stone]
  · have h : s.get (F.MILL_ECC_ue_flag m) < 2 ^ 1 := s.get_lt _
    omega

theorem State.keepUe_place (s : State) (m st wh : Nat) (h : s.get (F.MILL_ECC_ue_flag m) = 0) :
    (s.keepUe m st wh).get (F.MILL_ECC_ue_where m) = wh % 8 ∧ (s.keepUe m st wh).get (F.MILL_ECC_ue_stone m) = st % 16 := by
  rw [State.keepUe, if_pos h]
  constructor
  · rw [State.get_put_bits, State.get_put_same] <;> simp [F.MILL_ECC_ue_where, F.MILL_ECC_ue_stone]
  · rw [State.get_put_same] <;> simp [F.MILL_ECC_ue_stone]

theorem State.keepUe_regsBut (s : State) (m st wh : Nat) : RegsBut [R.MILL_ECC m] s (s.keepUe m st wh) := by
  intro a ha
  have h : a ≠ R.MILL_ECC m := List.ne_of_not_mem_cons ha
  unfold State.keepUe
  split
  · rw [State.reg_put_ne _ _ h, State.reg_put_ne _ _ h, State.reg_put_ne _ _ h]
  · rfl

theorem State.keepUe_stones (s : State) (m st wh : Nat) : (s.keepUe m st wh).stones = s.stones := by
  unfold State.keepUe
  split <;> rfl

theorem State.keepUe_part (s : State) (m st wh q : Nat) : (s.keepUe m st wh).part q = s.part q := by
  unfold State.keepUe
  split <;> rfl

section
variable (s : State) (p key : Nat) (data : List Nat)

theorem State.firstUe_regs : (s.firstUe p key data).regs = s.regs := by
  unfold State.firstUe
  split <;> rfl

theorem State.firstUe_stones : (s.firstUe p key data).stones = s.stones := by
  unfold State.firstUe
  split <;> rfl

theorem State.firstUe_onlyPart : OnlyPart p s (s.firstUe p key data) := by
  intro q hq
  unfold State.firstUe
  split
  · simp [hq]
  · rfl

theorem State.firstUe_causes : ((s.firstUe p key data).part p).causes = (s.part p).causes := by
  unfold State.firstUe
  split
  · simp
  · rfl

theorem State.firstUe_storeErr (he : (s.part p).storeErr = none) (hu : (s.part p).storeUe = false) :
    ((s.firstUe p key data).part p).storeErr = some (key, data) := by
  rw [State.firstUe, State.isFirstUe, he, hu, if_pos (by rfl)]
  simp

end

/-- From s to t a BP of mill m of partition p has met uncorrectable store words (R57, R58): MILL_ECC shows an error, the turn is invalid, and a halt
with reason 6 is owed. -/
structure StoreFaulted (p : Nat) (m : Mill) (s t : State) : Prop where
  flag : t.get (F.MILL_ECC_ue_flag m) = 1
  regs : RegsBut [R.MILL_ECC m] s t
  only : OnlyPart p s t
  invalid : (t.part p).invalid = true
  causes : (t.part p).causes = (s.part p).causes ||| 2 ^ 6

namespace StoreFaulted

theorem trans (h : StoreFaulted p m s t) (h' : StoreFaulted p m t u) : StoreFaulted p m s u where
  flag := h'.flag
  regs := fun a ha => (h'.regs a ha).trans (h.regs a ha)
  only := fun q hq => (h'.only q hq).trans (h.only q hq)
  invalid := h'.invalid
  causes := by rw [h'.causes, h.causes, Nat.or_assoc, Nat.or_self]

theorem of_still (h : BpStill p s t) (h' : StoreFaulted p m t u) : StoreFaulted p m s u where
  flag := h'.flag
  regs := fun a ha => (h'.regs a ha).trans (h.regsSame a)
  only := fun q hq => (h'.only q hq).trans (h.onlyPart q hq)
  invalid := h'.invalid
  causes := by rw [h'.causes, h.causes]

theorem still (h : StoreFaulted p m s t) (h' : BpStill p t u) : StoreFaulted p m s u where
  flag := (h'.get _).trans h.flag
  regs := fun a ha => (h'.regsSame a).trans (h.regs a ha)
  only := fun q hq => (h'.onlyPart q hq).trans (h.only q hq)
  invalid := h'.invalid.trans h.invalid
  causes := h'.causes.trans h.causes

end StoreFaulted

section
variable (s : State) (p : Nat) (m : Mill) (st wh k b row : Nat)

theorem State.storeError_stones : (s.storeError p m st wh k b row).stones = s.stones := by
  rw [State.storeError_eq, State.faultTurn_stones, State.firstUe_stones, State.keepUe_stones]

theorem State.storeError_reg (a : Nat) : (s.storeError p m st wh k b row).reg a = (s.keepUe m st wh).reg a := by
  rw [State.storeError_eq, State.faultTurn_reg, State.reg, State.firstUe_regs, ← State.reg]

theorem State.storeError_get (f : Fld) : (s.storeError p m st wh k b row).get f = (s.keepUe m st wh).get f :=
  congrArg f.of (State.storeError_reg ..)

theorem State.storeError_faulted (hr : s.running p = true) : StoreFaulted p m s (s.storeError p m st wh k b row) := by
  have hrun : ((s.keepUe m st wh).firstUe p (((k * 256 + m) * 16 + st) * 64 + b) [m, st, wh, k, b, row]).running p = true := by
    rw [State.running, State.pstate, State.get, State.reg, State.firstUe_regs]
    exact (State.running_of_regsBut (s.keepUe_regsBut m st wh) p).trans hr
  obtain ⟨hinvalid, hcauses⟩ := State.faultTurn_running _ p false hrun
  refine ⟨(s.storeError_get ..).trans (s.keepUe_flag m st wh), fun a ha => (s.storeError_reg ..).trans (s.keepUe_regsBut m st wh a ha),
    fun q hq => ?_, hinvalid, ?_⟩
  · rw [State.storeError_eq, State.faultTurn_onlyPart _ _ _ q hq, State.firstUe_onlyPart _ _ _ _ q hq, State.keepUe_part]
  · rw [State.storeError_eq, hcauses, State.firstUe_causes, State.keepUe_part]

/-- The first store error of a turn waits, as the event's data, until its step has ended. -/
theorem State.storeError_first (he : (s.part p).storeErr = none) (hu : (s.part p).storeUe = false) :
    ((s.storeError p m st wh k b row).part p).storeErr.map Prod.snd = some [m.val, st, wh, k, b, row] := by
  rw [State.storeError_eq, State.faultTurn_storeErr, State.firstUe_storeErr _ _ _ _ (by rw [State.keepUe_part, he]) (by rw [State.keepUe_part, hu])]
  rfl

end

theorem State.reportRow_stones (s : State) (p : Nat) (m : Mill) (st : Stone) (bank : Bool) (r k b : Nat) :
    (s.reportRow p m st bank r k b).stones = s.stones := by
  unfold State.reportRow
  split
  · exact State.storeError_stones ..
  · rfl

theorem State.reportRows_stones (s : State) (c : BpCtx) (rs : List Nat) : (s.reportRows c rs).stones = s.stones :=
  State.each_keeps State.stones _ (fun _ _ => State.reportRow_stones ..) rs s

/-- Operand rows of which one at least is uncorrectable: each such row is reported, in order. -/
theorem State.reportRows_faulted {c : BpCtx} {rs : List Nat} (s : State) (hr : s.running c.p = true)
    (h : ∃ r ∈ rs, (rowStored r && s.rowBad (siteOf c.m c.st) c.bank r c.n) = true) : StoreFaulted c.p c.m s (s.reportRows c rs) := by
  induction rs generalizing s with
  | nil => simp at h
  | cons r rs ih =>
    have hcons : s.reportRows c (r :: rs) = (s.reportRow c.p c.m c.st c.bank r c.n c.b).reportRows c rs := rfl
    rw [hcons]
    by_cases hb : (rowStored r && s.rowBad (siteOf c.m c.st) c.bank r c.n) = true
    · have hf := s.storeError_faulted c.p c.m c.st (whereOf r) c.n c.b r hr
      rw [State.reportRow, if_pos hb]
      by_cases hmore : ∃ r' ∈ rs, (rowStored r' &&
          (s.storeError c.p c.m c.st (whereOf r) c.n c.b r).rowBad (siteOf c.m c.st) c.bank r' c.n) = true
      · exact hf.trans (ih _ ((State.running_of_regsBut hf.regs c.p).trans hr) hmore)
      · rwa [State.reportRows_good _ _ _ (fun r' hr' => eq_false_of_ne_true (fun h' => hmore ⟨r', hr', h'⟩))]
    · rw [State.reportRow, if_neg hb]
      obtain ⟨r', hr', hbad⟩ := h
      rcases List.mem_cons.mp hr' with rfl | hmem
      · exact absurd hbad hb
      · exact ih s hr ⟨r', hmem, hbad⟩

/-! ## Ops that meet an error -/

/-- A BP that executes at all, and whose word names the op: its word's errors come first (R57). -/
theorem State.bpOp_run {b : Bp} {op : Nat} {f : State → BpCtx → IWord → State} {c : BpCtx} (hc : s.bpCtx m st b n = some c)
    (ho : opOf (s.word c.site b n) = op) :
    s.bpOp m st b n {} op f =
      let u := (s.enterStep c.p n).takeEcc m st c.bank n {}
      if u.wordBad c.site b n then u.storeError c.p m st 1 n b 0 else f u c (s.word c.site b n) := by
  unfold State.bpOp
  rw [hc]
  exact if_pos ho

/-- A BP whose instruction word is uncorrectable reports that, and does nothing else (R57). -/
theorem State.bpOp_wordBad {b : Bp} {op : Nat} {f : State → BpCtx → IWord → State} (hx : s.Executes m n p)
    (ho : opOf (s.word (siteOf m st) b n) = op) (hw : s.wordBad (siteOf m st) b n = true) :
    s.bpOp m st b n {} op f = (s.atStep p m n).storeError p m st 1 n b 0 := by
  rw [State.bpOp_run (State.bpCtx_of s st b hx) ho, State.enterStep_of hx.caught]
  exact if_pos ((State.wordBad_congr (s.atStep_stones p m n) ..).trans hw)

/-- An EVAL writes the entry that its operands select, uncorrectable rows read as 0, whatever it reports (R57). -/
theorem State.doEval_stones (b : Nat) (w : IWord) :
    let i := 8 * s.operandAt p m st n (opdOf w) + 4 * s.operandAt p m st n (opcOf w) + 2 * s.operandAt p m st n (opbOf w) +
      s.operandAt p m st n (opaOf w)
    ((s.atStep p m n).doEval (s.ctxAt p m st b n) w).stones =
      { s.stones with writes := ⟨siteOf m st, n, b, n, (ttOf w).getLsbD i⟩ :: s.stones.writes } := by
  intro i
  have hstones : ((s.atStep p m n).reportRows (s.ctxAt p m st b n) (rowsOf w)).stones = s.stones := State.reportRows_stones ..
  obtain ⟨-, hwrite, -⟩ := ((s.atStep p m n).reportRows (s.ctxAt p m st b n) (rowsOf w)).result_spec (s.ctxAt p m st b n) b w
    ((ttOf w).getLsbD i)
  rw [State.doEval, State.index4_eq hstones, hwrite, hstones]
  rfl

/-- An EVAL with an uncorrectable operand row reports it (R57). -/
theorem State.doEval_faulted {b : Nat} {w : IWord} (hx : s.Executes m n p) (h : ∃ r ∈ rowsOf w, s.operandBad p m st n r = true) :
    StoreFaulted p m s ((s.atStep p m n).doEval (s.ctxAt p m st b n) w) := by
  have hat := State.atStep_still m hx.caught
  have hreport : StoreFaulted p m (s.atStep p m n) ((s.atStep p m n).reportRows (s.ctxAt p m st b n) (rowsOf w)) :=
    State.reportRows_faulted (c := s.ctxAt p m st b n) (s.atStep p m n) ((hat.running p).trans hx.running) h
  obtain ⟨hstill, -⟩ := ((s.atStep p m n).reportRows (s.ctxAt p m st b n) (rowsOf w)).result_spec (s.ctxAt p m st b n) b w
    ((ttOf w).getLsbD (State.index4 ((s.atStep p m n).reportRows (s.ctxAt p m st b n) (rowsOf w)) (s.ctxAt p m st b n) w))
  exact (StoreFaulted.of_still hat hreport).still hstill

/-! ## The event of a store error (R57) -/

theorem State.millOwner_lt (h : s.millOwner m = some p) : p < 4 := by
  unfold State.millOwner State.quadOwner at h
  have hmem : p ∈ [0, 1, 2, 3] := List.mem_of_find?_eq_some h
  simp only [List.mem_cons, List.not_mem_nil, or_false] at hmem
  omega

section
variable {e : Nat × List Nat} (he : (s.part p).storeErr = some e)
include he

theorem State.raiseStoreErr_of :
    s.raiseStoreErr p = (s.raise 0x3001 p e.2).modPart p (fun x => { x with storeErr := none, storeUe := true }) := by
  unfold State.raiseStoreErr
  rw [he]

theorem State.raiseStoreErr_part (q : Nat) :
    (s.raiseStoreErr p).part q = if q = p then { s.part p with storeErr := none, storeUe := true } else s.part q := by
  have hraise : ∀ k, (s.raise 0x3001 p e.2).part k = s.part k := fun k => by rw [State.part, State.raise_parts, ← State.part]
  rw [State.raiseStoreErr_of he, State.part_modPart, hraise, hraise]

theorem State.raiseStoreErr_stones : (s.raiseStoreErr p).stones = s.stones := by
  rw [State.raiseStoreErr_of he]
  exact s.raise_stones 0x3001 p e.2

theorem State.raiseStoreErr_raised (hp : p < 4) : RaisedOne s (s.raiseStoreErr p) 0x3001 p e.2 := by
  rw [State.raiseStoreErr_of he]
  exact s.raise_raised 0x3001 p e.2 (by decide) (by omega)

theorem State.raiseStoreErr_caught (hv : (s.part p).votePend = []) (k : Nat) : (s.raiseStoreErr p).Caught p k := by
  have hpart := State.raiseStoreErr_part he p
  rw [if_pos rfl] at hpart
  exact ⟨Or.inr (by rw [hpart]), by rw [hpart]; exact hv⟩

/-- Step n begins, and an error of an earlier step waits: it is raised before the step is noted. -/
theorem State.enterStep_raises {k : Nat} (hn : (s.part p).step ≠ k) (hv : (s.part p).votePend = []) :
    s.enterStep p k = (s.raiseStoreErr p).stepped p k := by
  obtain ⟨-, hpend⟩ := State.raiseStoreErr_caught he hv k
  unfold State.enterStep
  rw [if_neg hn]
  dsimp only
  rw [State.votesDue_none hpend]
  rfl

end

theorem RaisedOne.still {code q : Nat} {data : List Nat} (h : RaisedOne s t code q data) (h' : BpStill p t u) : RaisedOne s u code q data := by
  obtain ⟨hcount, hlast, hhist⟩ := h
  exact ⟨(h'.get _).trans hcount, by rw [h'.regsSame, hlast], by rw [h'.evt]; exact hhist⟩

/-! ## The obligation on imports, state, groups and store errors -/

/-- Settles O2: each clause is the rule for its op, on the state at the step; the clauses on store errors add what reporting one does, and what
has been raised when the next step begins. -/
theorem importStateAndFuse : Obligations.ImportStateAndFuse := by
  refine ⟨?eval3, ?idle, ?crossbar, ?fuse2, ?sixInput, ?multiplexer, ?wordBad, ?operandBad, ?raised⟩
  case eval3 =>
    intro s p m st b n w i r hx ho hr
    obtain ⟨hword, hrows⟩ := hr
    let u := (s.atStep p m n).writeShadow (siteOf m st) (s.part p).bank (rowOf (opdOf w)) (laneOf (opdOf w)) ((ttOf w).getLsbD i)
    have hrun : s.bpOp m st b n {} 2 State.doEval3 = u.tap (s.ctxAt p m st b n) b w ((ttOf w).getLsbD i) := by
      rw [State.bpOp_of hx ho hword, State.doEval3_of hrows]
    obtain ⟨htap, hstones, -⟩ := u.tap_spec (s.ctxAt p m st b n) b w ((ttOf w).getLsbD i)
    have hstill := ((State.atStep_still m hx.caught).trans (State.writeShadow_still _ p _ _ _ _ _)).trans htap
    rw [exec_eval3St, hrun]
    refine ⟨_, rfl, ?_, fun k hk => ?_, ?_, hstill⟩
    · rw [State.baseRow, hstones]
      exact mget_mset_same ..
    · rw [hstones]
      exact mget_mset_ne _ _ _ hk
    · rw [hstones]
      rfl
  case idle =>
    intro s p m st b n w hx ho hr hop
    obtain ⟨hword, -⟩ := hr
    rw [exec_nop, State.bpOp_of hx ho hword, State.doNop_idle _ _ _ hop]
    exact ⟨_, rfl, rfl, State.atStep_still m hx.caught⟩
  case crossbar =>
    intro s p m st b n w src l v hx hn ho hr hop
    obtain ⟨hword, -⟩ := hr
    have h := State.result_atStep hx st b w v
    rw [exec_nop, State.bpOp_of hx ho hword, State.doNop_crossbar _ _ (s.ctxAt p m st b n) hop hn]
    exact ⟨_, rfl, h.writes, h.rows, h.still⟩
  case fuse2 =>
    intro s p m st k n site w0 w1 i v hx ho0 ho1 hr0 hr1
    obtain ⟨hword0, hrows0⟩ := hr0
    obtain ⟨hword1, hrows1⟩ := hr1
    have he := hrows1 _ List.mem_cons_self
    have hm0 : (s.atStep p m n).member (s.ctxAt p m st (2 * k.val) n) (2 * k.val) = w0 := State.member_of (s.atStep_stones p m n) hword0
    have hm1 : (s.atStep p m n).member (s.ctxAt p m st (2 * k.val) n) (2 * k.val + 1) = w1 := State.member_of (s.atStep_stones p m n) hword1
    have hrows : fuse2Rows (s.atStep p m n) (s.ctxAt p m st (2 * k.val) n) =
        (rowsOf w0).map (fun r => (2 * k.val, r)) ++ [(2 * k.val + 1, rowOf (opaOf w1))] := by
      rw [fuse2Rows, hm0, hm1]
    have hgood : ∀ r ∈ fuse2Rows (s.atStep p m n) (s.ctxAt p m st (2 * k.val) n), s.operandBad p m st n r.2 = false := by
      rw [hrows]
      simp only [List.forall_mem_append, List.forall_mem_map, List.forall_mem_singleton]
      exact ⟨hrows0, he⟩
    have h : BpWrites p _ s (s.groupOp m st [2 * k.val, 2 * k.val + 1] n {} 3 fuse2Value fuse2Rows) :=
      State.groupOp_writes hx (by simpa using ⟨ho0, ho1⟩) (by simpa using ⟨hword0, hword1⟩) hgood (fuse2Value_of hm0 hm1 hrows0 he)
    rw [exec_fuse2]
    exact ⟨_, rfl, h.writes, h.rows, h.still⟩
  case sixInput =>
    intro s p m st k n site w i q v hx ho hmark hr0 hr1 hr2 hr3
    obtain ⟨hword0, hrows0⟩ := hr0
    obtain ⟨hword1, hrows1⟩ := hr1
    obtain ⟨hword2, -⟩ := hr2
    obtain ⟨hword3, -⟩ := hr3
    have hwords : ∀ j, j < 4 → s.wordBad (siteOf m st) (4 * k.val + j) n = false := by
      intro j hj
      obtain rfl | rfl | rfl | rfl : j = 0 ∨ j = 1 ∨ j = 2 ∨ j = 3 := by omega
      · exact hword0
      · exact hword1
      · exact hword2
      · exact hword3
    have hm : ∀ j, j < 4 → (s.atStep p m n).member (s.ctxAt p m st (4 * k.val) n) (4 * k.val + j) = w j :=
      fun j hj => State.member_of (s.atStep_stones p m n) (hwords j hj)
    have he := hrows1 _ List.mem_cons_self
    have hf := hrows1 _ (List.mem_cons_of_mem _ List.mem_cons_self)
    have hgood : ∀ r ∈ fuse4Rows (s.atStep p m n) (s.ctxAt p m st (4 * k.val) n), s.operandBad p m st n r.2 = false := by
      rw [fuse4Rows_sixInput hm hmark]
      simp only [List.forall_mem_append, List.forall_mem_map]
      exact ⟨hrows0, hrows1⟩
    have h : BpWrites p _ s (s.groupOp m st [4 * k.val, 4 * k.val + 1, 4 * k.val + 2, 4 * k.val + 3] n {} 4 fuse4Value fuse4Rows) :=
      State.groupOp_writes hx (forall_mem_group ho) (forall_mem_group hwords) hgood (fuse4Value_sixInput hm hmark hrows0 he hf)
    rw [exec_fuse4]
    exact ⟨_, rfl, h.writes, h.rows, h.still⟩
  case multiplexer =>
    intro s p m st k n site w row g lane sel x f v hx ho hmark hr0 hr
    obtain ⟨-, hrows0⟩ := hr0
    have hwords : ∀ j, j < 4 → s.wordBad (siteOf m st) (4 * k.val + j) n = false := fun j hj => (hr j hj).1
    have hrows : ∀ j, j < 4 → ∀ r ∈ rowsOf (w j), s.operandBad p m st n r = false := fun j hj => (hr j hj).2
    have hm : ∀ j, j < 4 → (s.atStep p m n).member (s.ctxAt p m st (4 * k.val) n) (4 * k.val + j) = w j :=
      fun j hj => State.member_of (s.atStep_stones p m n) (hwords j hj)
    have hgood : ∀ r ∈ fuse4Rows (s.atStep p m n) (s.ctxAt p m st (4 * k.val) n), s.operandBad p m st n r.2 = false := by
      rw [fuse4Rows_multiplexer hm hmark]
      simp only [List.forall_mem_append, List.forall_mem_map]
      exact ⟨⟨⟨hrows0, hrows 1 (by decide)⟩, hrows 2 (by decide)⟩, hrows 3 (by decide)⟩
    have h : BpWrites p _ s (s.groupOp m st [4 * k.val, 4 * k.val + 1, 4 * k.val + 2, 4 * k.val + 3] n {} 4 fuse4Value fuse4Rows) :=
      State.groupOp_writes hx (forall_mem_group ho) (forall_mem_group hwords) hgood (fuse4Value_multiplexer hm hmark (hrows0 _ List.mem_cons_self) hrows)
    rw [exec_fuse4]
    exact ⟨_, rfl, h.writes, h.rows, h.still⟩
  case wordBad =>
    intro s p m st b n hx ho hw he hu
    have hat := State.atStep_still m hx.caught
    have hf := State.storeError_faulted (s.atStep p m n) p m st 1 n b 0 ((hat.running p).trans hx.running)
    have h := StoreFaulted.of_still hat hf
    rw [exec_eval, State.bpOp_wordBad hx ho hw]
    refine ⟨_, rfl, State.storeError_stones .., h.flag, fun h0 => ?_, ?_, h.invalid, h.causes, h.regs, h.only⟩
    · obtain ⟨hwhere, hstone⟩ := State.keepUe_place (s.atStep p m n) m st 1 ((hat.get _).trans h0)
      exact ⟨(State.storeError_get ..).trans hwhere, ((State.storeError_get ..).trans hstone).trans (Nat.mod_eq_of_lt st.isLt)⟩
    · exact State.storeError_first _ _ _ _ _ _ _ _ (hat.storeErr.trans he) (hat.storeUe.trans hu)
  case operandBad =>
    intro s p m st b n site w bad v i hx ho hw hbad
    have hex : ∃ r ∈ rowsOf w, s.operandBad p m st n r = true := by
      simpa [rowsOf, or_assoc, bad] using hbad
    have h := State.doEval_faulted (b := b) hx hex
    rw [exec_eval, State.bpOp_of hx ho hw]
    exact ⟨_, rfl, by rw [State.doEval_stones]; rfl, by rw [State.doEval_stones], h.flag, h.invalid, h.causes, h.regs, h.only⟩
  case raised =>
    intro s p m st b n e ho hr hc hh hn he hstep hv hw hb
    have hctx : s.bpCtx m st b n = some (s.ctxAt p m st b n) := by
      rw [State.bpCtx, ho]
      simp [hr, hc, hh, hn]
    have hat := State.atStep_still m (State.raiseStoreErr_caught he hv n)
    have hpart := State.raiseStoreErr_part he p
    rw [if_pos rfl] at hpart
    have hstones : ((s.raiseStoreErr p).atStep p m n).stones = s.stones := State.raiseStoreErr_stones he
    have hrun : s.bpOp m st b n {} 0 (fun s c w => s.doNop {} c w) = (s.raiseStoreErr p).atStep p m n := by
      rw [State.bpOp_run hctx (by rw [State.ctxAt_site, hw]; rfl), State.enterStep_raises he hstep hv]
      refine (if_neg ?_).trans ?_
      · rw [State.takeEcc_none, State.wordBad_congr hstones]
        exact fun h => Bool.false_ne_true (hb.symm.trans h)
      · exact State.doNop_idle _ _ _ (by rw [State.ctxAt_site, hw]; decide)
    rw [exec_nop, hrun]
    refine ⟨_, rfl, (State.raiseStoreErr_raised he (State.millOwner_lt ho)).still hat, ?_, ?_, hstones, fun q hq => ?_⟩
    · rw [hat.storeErr, hpart]
    · rw [hat.storeUe, hpart]
    · rw [hat.onlyPart q hq, State.raiseStoreErr_part he, if_neg hq]

end Sys2Proof.Machine
end

section
/-!
PROOFS. The holding registers (R81): what a read copies and what a read of the copy returns, for the driver and for a debugger, and the obligation
about them.
-/
namespace Sys2Proof.Machine

open Sys2Proof

variable {s : State} {who : Requester} {dbg : Bool} {port a : Nat} {env : RegEnv} {x w : Word}

/-! ## One holding register -/

theorem State.held_setHeld (s : State) (dbg d : Bool) (a b : Nat) (w : Option Word) :
    (s.setHeld dbg a w).held d b = if holdKey d b = holdKey dbg a then w else s.held d b :=
  mget_mset ..

/-- The driver's holding register of an offset below 2^28 is none of a debugger's. -/
theorem holdKey_true_ne (b : Nat) (ha : a < 2 ^ 28) : holdKey true b ≠ holdKey false a := by
  simp [holdKey]; omega

/-! ## The registers of a pair -/

/-- The _LO registers lie in BAR0, 8 bytes or more below the end of their 64 KiB block, and none of these has a read that starts something. -/
theorem loRegs_plain : ∀ a ∈ loRegs, a < 0x4000000 ∧ a % 0x10000 + 8 < 0x10000 ∧ inAuth a = false ∧
    a ≠ R.DBG_RDATA ∧ a ≠ R.FLM_RBDATA ∧ a ≠ R.SCHED_ENQSTAT ∧ a ≠ R.RING_EVLOST := by
  decide +kernel

/-- A read of a _LO register copies the _HI register first. -/
theorem heldBy_lo (h : a ∈ loRegs) : ∃ l, heldBy a = (a + 4) :: l ∧ ∀ x ∈ l, x = a + 8 := by
  refine ⟨_, (if_pos (List.contains_iff_mem.mpr h)).trans rfl, fun x hx => ?_⟩
  split at hx
  · exact List.mem_singleton.mp hx
  · exact absurd hx List.not_mem_nil

/-- Outside the AUTH and DBG blocks every port sees the same. -/
theorem State.peekReg_anyPort (s : State) (port : Nat) (ha : inAuth a = false) (hd : inDbg a = false) : s.peekReg port a w = s.peekReg 0 a w := by
  simp [State.peekReg, ha, hd]

/-! ## The copies of a read -/

/-- What the registers of a list show is copied into the holding registers of one side. -/
def State.copyHeld (s : State) (dbg : Bool) (port : Nat) (x : Word) (l : List Nat) : State :=
  s.each l (fun t h => t.setHeld dbg h (some (t.peekReg port h x)))

theorem State.copyHeld_cons (s : State) (dbg : Bool) (port : Nat) (x : Word) (a : Nat) (l : List Nat) :
    s.copyHeld dbg port x (a :: l) = (s.setHeld dbg a (some (s.peekReg port a x))).copyHeld dbg port x l := rfl

/-- A holding register that none of the registers copied has stays. -/
theorem State.held_copyHeld_ne {d : Bool} {b : Nat} {l : List Nat} (s : State) (hl : ∀ h ∈ l, holdKey d b ≠ holdKey dbg h) :
    (s.copyHeld dbg port x l).held d b = s.held d b := by
  induction l generalizing s with
  | nil => rfl
  | cons h l ih =>
    rw [State.copyHeld_cons, ih _ (fun y hy => hl y (List.mem_cons_of_mem _ hy)), State.held_setHeld, if_neg (hl h List.mem_cons_self)]

/-- Copying changes holding registers alone. -/
theorem State.copyHeld_rest (s : State) (dbg : Bool) (port : Nat) (x : Word) (l : List Nat) :
    { s.copyHeld dbg port x l with dbg := { (s.copyHeld dbg port x l).dbg with hold := s.dbg.hold } } = s :=
  State.each_keeps (fun t : State => { t with dbg := { t.dbg with hold := s.dbg.hold } })
    (fun t h => t.setHeld dbg h (some (t.peekReg port h x))) (fun _ _ => rfl) l s

theorem State.copyHeld_regsSame (s : State) (dbg : Bool) (port : Nat) (x : Word) (l : List Nat) : RegsSame s (s.copyHeld dbg port x l) :=
  fun a => State.each_keeps (fun t : State => t.reg a) _ (fun t h => t.setHeld_reg dbg h _ a) l s

/-- After a read of a _LO register its _HI register's holding register has the copy. -/
theorem State.held_copyHeld_hi (s : State) (dbg : Bool) (port : Nat) (x : Word) (h : a ∈ loRegs) :
    (s.copyHeld dbg port x (heldBy a)).held dbg (a + 4) = some (s.peekReg port (a + 4) x) := by
  obtain ⟨l, hl, h8⟩ := heldBy_lo h
  have hne : ∀ y ∈ l, holdKey dbg (a + 4) ≠ holdKey dbg y := by
    intro y hy
    rw [h8 y hy]
    simp [holdKey]
  rw [hl, State.copyHeld_cons, State.held_copyHeld_ne _ hne, State.held_setHeld, if_pos rfl]

theorem heldBy_lt (h : a ∈ loRegs) {y : Nat} (hy : y ∈ heldBy a) : y < 2 ^ 28 := by
  obtain ⟨hlt, -⟩ := loRegs_plain a h
  obtain ⟨l, hl, h8⟩ := heldBy_lo h
  rw [hl] at hy
  rcases List.mem_cons.mp hy with rfl | hy
  · omega
  · rw [h8 y hy]; omega

/-! ## Reads -/

/-- A read of a _LO register that no holding register answers returns what it shows, and copies; in the DBG block it needs a session, and the
registers of a core and the read that advances an index are others' (R326, R332). -/
theorem State.readAny_lo (h : a ∈ loRegs) (hc : a ∉ coreRegs) (hr : a ≠ R.DBG_SRDATA_LO) (hd : inDbg a = true → s.sessLevel port ≠ 0)
    (hh : s.held dbg a = none) :
    s.readAny who dbg port a env = (s.peekReg port a env.sampled, s.copyHeld dbg port env.sampled (heldBy a)) := by
  obtain ⟨-, -, -, h1, h2, h3, h4⟩ := loRegs_plain a h
  have hs : (inDbg a && s.sessLevel port == 0) = false := by
    cases hb : inDbg a with
    | false => rfl
    | true => simpa using hd hb
  simp [State.readAny, State.copyHeld, hs, hc, hh, hr, h1, h2, h3, h4]

/-- A read outside the DBG block that a holding register answers returns the copy and uses it up. -/
theorem State.readAny_held (hd : inDbg a = false) (hh : s.held dbg a = some w) :
    s.readAny who dbg port a env = (w, s.setHeld dbg a none) := by
  have h1 : a ≠ R.DBG_RDATA := by rintro rfl; exact absurd hd (by decide)
  simp [State.readAny, hd, not_mem_coreRegs hd, hh, h1]

/-- The host and shell firmware reach every register outside the AUTH and DBG blocks as the driver (R325). -/
theorem State.regRead_driver (hw : who = .host ∨ isShell who = true) (ha : inAuth a = false) (hd : inDbg a = false) :
    ∃ port, s.regRead who a env = s.readAny who false port a env := by
  rcases hw with rfl | hw
  · exact ⟨0, State.regRead_host ha hd⟩
  · obtain ⟨k, rfl⟩ : ∃ k, who = .shell k := by cases who <;> simp_all [isShell]
    have h1 : a ≠ R.DBG_RDATA := by rintro rfl; exact absurd hd (by decide)
    exact ⟨s.get F.DBG_CTRL_port, by simp [State.regRead, State.dbgPort, isShell, h1]⟩

theorem exec_dbgRdataRead (hp : s.dbgPort who = some port) :
    exec (.dbgRdataRead who x) s =
      .next { (s.rdataRead who port { sampled := x }).2 with readData := (s.rdataRead who port { sampled := x }).1 } := by
  change execDbgRdataRead who x s = _
  rw [execDbgRdataRead, hp]

/-- With a session in whose scope the register is, the register port peeks at it as a debugger, if the read clears nothing (R326, R332). -/
theorem State.rdataRead_peeks (hl : 1 ≤ s.sessLevel port) (hs : s.inScope port (s.regScope s.raddr) = true) (hr : readClears s.raddr = false) :
    s.rdataRead who port env = s.readAny (asPort who port) true port s.raddr env := by
  have h0 : s.sessLevel port ≠ 0 := by omega
  simp [State.rdataRead, h0, hs, hr]

/-! ## The obligation -/

/-- Settles O54: a read of a _LO register copies, a read that a copy answers returns it and uses it up, and the copies of the two sides stand in
different holding registers. (One holding register for each pair and side is the model's choice, log entry 81.) -/
theorem holdingRegisters : Obligations.HoldingRegisters := by
  refine ⟨?lo, ?hi, ?debugger⟩
  case lo =>
    intro s who a env hw h hd hh
    obtain ⟨-, hblock, ha, -⟩ := loRegs_plain _ h
    have hb : (a.toNat + 4) / 0x10000 = a.toNat / 0x10000 := by omega
    have ha4 : inAuth (a.toNat + 4) = false := by rw [inAuth, hb]; exact ha
    have hd4 : inDbg (a.toNat + 4) = false := by rw [inDbg, hb]; exact hd
    have hr : a.toNat ≠ R.DBG_SRDATA_LO := by intro he; rw [he] at hd; exact absurd hd (by decide)
    obtain ⟨port, hread⟩ := State.regRead_driver (s := s) (env := env) hw ha hd
    have hlo := State.readAny_lo (who := who) (port := port) (env := env) h (not_mem_coreRegs hd) hr (fun hd' => by simp [hd] at hd') hh
    rw [exec_registerRead, hread, hlo]
    refine ⟨_, rfl, s.peekReg_anyPort port ha hd, ?copy, fun b => ?otherSide, s.copyHeld_regsSame false port env.sampled _, ?rest⟩
    case copy => exact (s.held_copyHeld_hi false port env.sampled h).trans (congrArg some (s.peekReg_anyPort port ha4 hd4))
    case otherSide => exact s.held_copyHeld_ne (fun y hy => holdKey_true_ne b (heldBy_lt h hy))
    case rest => exact congrArg (fun v : State => { v with readData := s.readData }) (s.copyHeld_rest false port env.sampled (heldBy a.toNat))
  case hi =>
    intro s who a w env hw ha hd hh
    have hlt : a.toNat < 2 ^ 28 := by have := a.isLt; omega
    obtain ⟨port, hread⟩ := State.regRead_driver (s := s) (env := env) hw ha hd
    rw [exec_registerRead, hread, State.readAny_held hd hh]
    refine ⟨_, rfl, rfl, ?used, fun b hb _ => ?others, fun b _ => ?otherSide, s.setHeld_reg false a.toNat none⟩
    case used => exact (s.held_setHeld ..).trans (if_pos rfl)
    case others => exact (s.held_setHeld ..).trans (if_neg (by simpa [holdKey] using hb))
    case otherSide => exact (s.held_setHeld ..).trans (if_neg (holdKey_true_ne b hlt))
  case debugger =>
    intro s who port x a hp hl hs hr h hc hsr hh
    have hlo := State.readAny_lo (who := asPort who port) (env := { sampled := x }) h hc hsr (fun _ => Nat.one_le_iff_ne_zero.mp hl) hh
    rw [exec_dbgRdataRead hp, State.rdataRead_peeks hl hs hr, hlo]
    refine ⟨_, rfl, rfl, s.held_copyHeld_hi true port x h, fun b hb => ?driver, s.copyHeld_regsSame true port x _⟩
    case driver => exact s.held_copyHeld_ne (fun y _ => (holdKey_true_ne y (by omega)).symm)

end Sys2Proof.Machine
end

section
/-!
PROOFS. PART_QMASK and the turn counters (R79, R82): what a write of the one and a clear of the others do.
-/
namespace Sys2Proof.Machine

open Sys2Proof

variable {s : State} {p : Part}

/-- A refusal that is raised counts and shows its event, and does nothing else. -/
theorem State.raise_refuses (s : State) {code part : Nat} (data : List Nat) (hc : code < 0x10000) (hp : part < 0x10000) :
    RaisedOne s (s.raise code part data) code part data ∧ RegsBut (evtRegs code part) s (s.raise code part data) ∧
      OnlyEvents s (s.raise code part data) :=
  ⟨s.raise_raised code part data hc hp, s.raise_reg code part data, s.raise_only code part data⟩

/-! ## PART_QMASK (R79) -/

/-- The value names a quadrant that the part has not. -/
def State.namesDisabled (s : State) (v : BitVec 4) : Bool := (List.range 4).any (fun q => v.getLsbD q && !s.quadEnabled q)

/-- The value names a quadrant of another partition than p. -/
def State.namesTaken (s : State) (p : Part) (v : BitVec 4) : Bool :=
  (List.range 4).any (fun q => v.getLsbD q && (List.range 4).any (fun p' => p' != p.val && s.ownsQuad p' q))

theorem exec_partQmaskWrite (v : BitVec 4) (hp : s.partExists p = true) :
    exec (.partQmaskWrite p v) s = .next (if s.pstate p ≠ 0 then s.raise 0x100E p [v.toNat, 1]
      else if s.namesDisabled v = true then s.raise 0x100E p [v.toNat, 2]
      else if s.namesTaken p v = true then s.raise 0x100E p [v.toNat, 3]
      else s.put (F.PART_QMASK_qmask p) v.toNat) := by
  change execPartQmaskWrite p v s = _
  rw [execPartQmaskWrite, hp, if_neg (by decide)]
  split
  · rfl
  · rw [State.namesDisabled, State.namesTaken]
    split
    · rfl
    · split <;> rfl

/-! ## The turn counters (R82) -/

/-- The registers that a clear sets to 0 as a whole. -/
def turnCounters (p : Nat) : List Nat :=
  [R.TURN_COUNT_LO p, R.TURN_COUNT_HI p, R.TURN_QUANTA_LO p, R.TURN_QUANTA_HI p, R.TURN_LASTBRAKE p] ++ (List.range 8).map (R.TURN_CAUSE p)

theorem turnCause_mem_turnCounters (p : Nat) {c : Nat} (hc : c < 8) : R.TURN_CAUSE p c ∈ turnCounters p :=
  List.mem_append_right _ (List.mem_map_of_mem (List.mem_range.mpr hc))

/-- TURN_STATUS and TURN_CTRL, which a clear sets by fields, are none of them. -/
theorem ne_of_mem_turnCounters {p a : Nat} (h : a ∈ turnCounters p) : a ≠ R.TURN_STATUS p ∧ a ≠ R.TURN_CTRL p := by
  simp only [turnCounters, List.mem_append, List.mem_cons, List.not_mem_nil, List.mem_map, List.mem_range, or_false] at h
  simp only [R.TURN_COUNT_LO, R.TURN_COUNT_HI, R.TURN_QUANTA_LO, R.TURN_QUANTA_HI, R.TURN_LASTBRAKE, R.TURN_CAUSE] at h
  simp only [R.TURN_STATUS, R.TURN_CTRL]
  rcases h with h | ⟨c, hc, rfl⟩ <;> omega

/-- The registers of a list are set to 0. -/
def State.zeroRegs (s : State) (l : List Nat) : State := s.each l (fun s a => s.setReg a 0)

theorem State.reg_zeroRegs (s : State) (l : List Nat) (b : Nat) : (s.zeroRegs l).reg b = if b ∈ l then 0 else s.reg b := by
  induction l generalizing s with
  | nil => rfl
  | cons a l ih =>
    change ((s.setReg a 0).zeroRegs l).reg b = _
    rw [ih, State.reg_setReg]
    by_cases hl : b ∈ l <;> by_cases ha : b = a <;> simp [hl, ha]

theorem State.zeroRegs_rest (s : State) (l : List Nat) : { s.zeroRegs l with regs := s.regs } = s :=
  State.each_keeps (fun t : State => { t with regs := s.regs }) (fun t a => t.setReg a 0) (fun _ _ => rfl) l s

/-- A clear sets the counters and the count of invalid turns in TURN_STATUS to 0; besides that it changes what the watch units remember. -/
theorem State.zeroCounters_spec (s : State) (p : Nat) : ∃ (u : State) (m : SMap (Option Nat)),
    s.zeroCounters p = { u.put (F.TURN_STATUS_invalid_count p) 0 with watchFirst := m } ∧
      (∀ b, u.reg b = if b ∈ turnCounters p then 0 else s.reg b) ∧ { u with regs := s.regs } = s :=
  ⟨s.zeroRegs (turnCounters p), _, rfl, s.reg_zeroRegs _, s.zeroRegs_rest _⟩

theorem State.zeroCounters_reg (s : State) (p : Nat) {b : Nat} (hb : b ≠ R.TURN_STATUS p) :
    (s.zeroCounters p).reg b = if b ∈ turnCounters p then 0 else s.reg b := by
  obtain ⟨u, m, hm, hu, -⟩ := s.zeroCounters_spec p
  rw [hm, ← hu]
  exact u.reg_put_ne _ hb

theorem State.zeroCounters_invalidCount (s : State) (p : Nat) : (s.zeroCounters p).get (F.TURN_STATUS_invalid_count p) = 0 := by
  obtain ⟨u, m, hm, -, -⟩ := s.zeroCounters_spec p
  rw [hm]
  exact u.get_put_same _ 0 (show 16 + 16 ≤ 32 by decide)

theorem State.clearTurns_rest (s : State) (p : Nat) : { s.clearTurns p with regs := s.regs, watchFirst := s.watchFirst } = s := by
  obtain ⟨u, m, hm, -, hrest⟩ := s.zeroCounters_spec p
  rw [State.clearTurns, hm]
  exact congrArg (fun t : State => { t with watchFirst := s.watchFirst }) hrest

theorem State.clearTurns_counter (s : State) {p a : Nat} (h : a ∈ turnCounters p) : (s.clearTurns p).reg a = 0 := by
  obtain ⟨hs, hc⟩ := ne_of_mem_turnCounters h
  rw [State.clearTurns, State.reg_put_ne _ _ hc, State.zeroCounters_reg _ _ hs, if_pos h]

theorem State.clearTurns_pair (s : State) {p lo hi : Nat} (hlo : lo ∈ turnCounters p) (hhi : hi ∈ turnCounters p) :
    (s.clearTurns p).get64 lo hi = 0 := by
  rw [State.get64, s.clearTurns_counter hlo, s.clearTurns_counter hhi]
  rfl

theorem State.clearTurns_invalidCount (s : State) (p : Nat) : (s.clearTurns p).get (F.TURN_STATUS_invalid_count p) = 0 := by
  have h : R.TURN_STATUS p ≠ R.TURN_CTRL p := by simp only [R.TURN_STATUS, R.TURN_CTRL]; omega
  rw [State.clearTurns, State.get_put_ne _ _ h, State.zeroCounters_invalidCount]

theorem State.clearTurns_clear (s : State) (p : Nat) : (s.clearTurns p).get (F.TURN_CTRL_clear p) = 0 := by
  rw [State.clearTurns, State.get_put_same _ _ _ (show 31 + 1 ≤ 32 by decide)]
  rfl

theorem State.clearTurns_brakeLimit (s : State) (p : Nat) :
    (s.clearTurns p).get (F.TURN_CTRL_brake_limit p) = s.get (F.TURN_CTRL_brake_limit p) := by
  have hs : R.TURN_CTRL p ≠ R.TURN_STATUS p := by simp only [R.TURN_STATUS, R.TURN_CTRL]; omega
  have hc : R.TURN_CTRL p ∉ turnCounters p := fun h => (ne_of_mem_turnCounters h).2 rfl
  have h : (s.zeroCounters p).reg (R.TURN_CTRL p) = s.reg (R.TURN_CTRL p) := by
    rw [State.zeroCounters_reg _ _ hs, if_neg hc]
  rw [State.clearTurns, State.get_put_bits _ _ (show 31 + 1 ≤ 32 by decide) (Or.inr (show 0 + 16 ≤ 31 by decide))]
  exact congrArg (F.TURN_CTRL_brake_limit p).of h

/-- A clear changes no register outside a list that holds TURN_STATUS, TURN_CTRL and the counters. -/
theorem State.clearTurns_regsBut (s : State) (p : Nat) {l : List Nat} (hs : R.TURN_STATUS p ∈ l) (hc : R.TURN_CTRL p ∈ l)
    (hl : ∀ a ∈ turnCounters p, a ∈ l) : RegsBut l s (s.clearTurns p) := by
  intro a ha
  have hctrl : a ≠ R.TURN_CTRL p := fun h => ha (h ▸ hc)
  have hstatus : a ≠ R.TURN_STATUS p := fun h => ha (h ▸ hs)
  have hn : a ∉ turnCounters p := fun h => ha (hl a h)
  rw [State.clearTurns, State.reg_put_ne _ _ hctrl, State.zeroCounters_reg _ _ hstatus, if_neg hn]

theorem exec_turnCtrlClear (p : Part) (s : State) : exec (.turnCtrlClear p) s =
    .next (if s.pstate p = 0 ∨ s.pstate p = 4 then s.clearTurns p else s.put (F.TURN_CTRL_clear p) 1) := by
  change execTurnCtrlClear p s = _
  rw [execTurnCtrlClear]
  split <;> rfl

end Sys2Proof.Machine
end

section
/-!
PROOFS. A change of pace (R63, R434): what a write of CLK_PACE starts or refuses, and what the end of the switch does.
-/
namespace Sys2Proof.Machine

open Sys2Proof

variable {s t u : State}

/-! ## Sets of partitions -/

/-- The mask of the partitions that satisfy f has their bits. -/
theorem partMask_testBit (f : Nat → Bool) (p : Part) : (partMask f).testBit p = f p := by
  have h : ∀ (a b c d : Bool) (p : Part), (partMask (fun i => [a, b, c, d].getD i false)).testBit p = [a, b, c, d].getD p false := by decide
  have hf : ∀ i, i < 4 → f i = [f 0, f 1, f 2, f 3].getD i false := by
    intro i hi
    match i, hi with
    | 0, _ | 1, _ | 2, _ | 3, _ => rfl
  rw [hf p p.isLt, ← h]
  rfl

theorem partMask_ne_zero {f : Nat → Bool} (p : Part) (h : f p = true) : partMask f ≠ 0 := by
  intro h0
  have hb := partMask_testBit f p
  rw [h0, Nat.zero_testBit, h] at hb
  exact Bool.false_ne_true hb

theorem partMask_eq_zero {f : Nat → Bool} (h : ∀ p, p < 4 → f p = false) : partMask f = 0 := by
  simp [partMask, List.range_succ, h]

/-! ## A write of CLK_PACE -/

/-- The partitions that are neither EMPTY nor HALTED. -/
def State.busyParts (s : State) : Nat := partMask (fun p => s.pstate p != 0 && s.pstate p != 4)

/-- The partitions whose loaded image does not allow pace v. -/
def State.unpacedParts (s : State) (v : Nat) : Nat := partMask (fun p => s.pstate p != 0 && !s.bit (F.PART_PROFILE_paces p) v)

/-- A pace change is taken over. -/
def State.startPace (s : State) (v : Nat) : State :=
  if s.pace < v then { s.put F.CLK_PACE_pace v with clk := { s.clk with paceWait := some v } }.setVcore (s.vcoreOf v)
  else (s.put F.CLK_PACE_pace v).switchPace v

theorem State.put_pace (s : State) (v : Nat) : (s.put F.CLK_PACE_pace v).pace = s.pace := s.get_put_ne v (by decide)

theorem State.put_vcoreOf (s : State) (v w : Nat) : (s.put F.CLK_PACE_pace v).vcoreOf w = s.vcoreOf w := by
  have h (f : Fld) (hf : f.addr = R.GLB_VTARGET) : (s.put F.CLK_PACE_pace v).get f = s.get f := s.get_put_ne v (by rw [hf]; decide)
  simp only [State.vcoreOf, h F.GLB_VTARGET_thrift rfl, h F.GLB_VTARGET_standard rfl, h F.GLB_VTARGET_overdrive rfl]

/-- A write of another pace while no change is in progress: it is refused with the first reason that holds, or taken over. -/
theorem exec_paceChange {v : BitVec 2} (h3 : v ≠ 3) (hv : v.toNat ≠ s.pace) (hw : s.clk.paceWait = none) (ht : s.clk.paceTo = none) :
    exec (.paceChange v) s = .next (if s.busyParts ≠ 0 then s.raise 0x2002 0xFF [v.toNat, 1, s.busyParts]
      else if s.loaderBusy = true then s.raise 0x2002 0xFF [v.toNat, 2]
      else if s.unpacedParts v.toNat ≠ 0 then s.raise 0x2002 0xFF [v.toNat, 3, s.unpacedParts v.toNat]
      else s.startPace v.toNat) := by
  have h3' : v.toNat ≠ 3 := fun h => h3 (BitVec.eq_of_toNat_eq h)
  change execPaceChange v s = _
  rw [execPaceChange]
  dsimp only
  rw [if_neg (by simp [h3', hv, hw, ht])]
  change (if s.busyParts ≠ 0 then _ else _) = _
  split
  · rfl
  · split
    · rfl
    · change (if s.unpacedParts v.toNat ≠ 0 then _ else _) = _
      split
      · rfl
      · rw [State.put_pace, State.startPace]
        split
        · rw [State.put_vcoreOf]
          rfl
        · rfl

/-- A slower pace stops the step clocks at once. -/
theorem State.startPace_slower {v : Nat} (h : v < s.pace) : s.startPace v = (s.put F.CLK_PACE_pace v).switchPace v := if_neg (by omega)

/-- A faster one first waits for VCORE. -/
theorem State.startPace_faster {v : Nat} (h : s.pace < v) :
    s.startPace v = { s.put F.CLK_PACE_pace v with clk := { s.clk with paceWait := some v } }.setVcore (s.vcoreOf v) := if_pos h

theorem State.startPace_asked (s : State) {v : Nat} (hv : v < 4) : (s.startPace v).get F.CLK_PACE_pace = v := by
  have h : (s.put F.CLK_PACE_pace v).get F.CLK_PACE_pace = v := (s.get_put_same _ v (by decide)).trans (Nat.mod_eq_of_lt hv)
  rw [State.startPace]
  split
  · exact h
  · exact (State.get_put_ne _ _ (by decide)).trans h

/-- The pace in force stays until the switch is done. -/
theorem State.startPace_pace (s : State) (v : Nat) : (s.startPace v).pace = s.pace := by
  rw [State.startPace]
  split
  · exact s.put_pace v
  · exact (State.get_put_bits (g := F.CLK_STATUS_pace) _ _ (by decide) (by decide)).trans (s.put_pace v)

theorem State.switchPace_switching (s : State) (v : Nat) : (s.switchPace v).get F.CLK_STATUS_switching = 1 :=
  State.get_put_same _ _ _ (by decide)

theorem State.switchPace_regsBut (s : State) (v : Nat) : RegsBut [R.CLK_PACE, R.CLK_STATUS] s ((s.put F.CLK_PACE_pace v).switchPace v) := by
  intro a ha
  simp only [List.mem_cons, List.not_mem_nil, or_false, not_or] at ha
  obtain ⟨hp, hs⟩ := ha
  exact (State.reg_put_ne _ _ hs).trans (State.reg_put_ne _ _ hp)

/-! ## What moves a rail or a spoke keeps the CLK block -/

/-- From s to t nothing but registers outside the CLK block, the governor's record, event records and pending causes of the millers has changed. -/
structure KeepsClk (s t : State) : Prop where
  reg : ∀ a, a / 0x10000 = 1 → t.reg a = s.reg a
  rest : { t with regs := s.regs, gov := s.gov, evt := s.evt, mlipend := s.mlipend } = s

namespace KeepsClk

theorem refl (s : State) : KeepsClk s s := ⟨fun _ _ => rfl, rfl⟩

theorem trans (h : KeepsClk s t) (h' : KeepsClk t u) : KeepsClk s u where
  reg := fun a ha => (h'.reg a ha).trans (h.reg a ha)
  rest := (congrArg (fun v : State => { v with regs := s.regs, gov := s.gov, evt := s.evt, mlipend := s.mlipend }) h'.rest).trans h.rest

theorem put (h : KeepsClk s t) {f : Fld} (v : Nat) (hf : f.addr / 0x10000 ≠ 1) : KeepsClk s (t.put f v) where
  reg := fun a ha => (t.reg_put_ne v (fun he => hf (he ▸ ha))).trans (h.reg a ha)
  rest := h.rest

theorem flag (h : KeepsClk s t) {f : Fld} (b : Bool) (hf : f.addr / 0x10000 ≠ 1) : KeepsClk s (t.flag f b) := h.put _ hf

theorem gov (h : KeepsClk s t) (g : GovSt) : KeepsClk s { t with gov := g } := ⟨h.reg, h.rest⟩

theorem raise (h : KeepsClk s t) (code part : Nat) (data : List Nat) : KeepsClk s (t.raise code part data) where
  reg := by
    intro a ha
    have hn : a ∉ evtRegs code part := by
      simp only [evtRegs, List.mem_cons, List.not_mem_nil, or_false, not_or, R.EVT_RAISED, R.EVT_LAST, R.EVT_FIRST, R.EVT_FIRSTTB_LO,
        R.EVT_FIRSTTB_HI, R.EVT_CLASSCNT, R.EVT_PARTCNT, R.EVT_DEVCNT, R.EVT_MLRCNT, R.EVT_MASKED, R.RING_EVLOST]
      split <;> omega
    exact (t.raise_reg code part data a hn).trans (h.reg a ha)
  rest := (congrArg (fun v : State => { v with regs := s.regs, gov := s.gov, evt := s.evt, mlipend := s.mlipend })
    (t.raise_rest code part data)).trans h.rest

theorem each {α : Type} {f : State → α → State} (h : KeepsClk s t) (l : List α) (hf : ∀ t x, KeepsClk t (f t x)) :
    KeepsClk s (t.each l f) := by
  induction l generalizing t with
  | nil => exact h
  | cons x l ih => exact ih (h.trans (hf t x))

theorem govLog (h : KeepsClk s t) (loop unit before after : Nat) : KeepsClk s (t.govLog loop unit before after) :=
  (((h.put _ (by decide)).put _ (by decide)).gov _).raise _ _ _

theorem setFlumeTarget (h : KeepsClk s t) (q level : Nat) : KeepsClk s (t.setFlumeTarget q level) := by
  have hq : (F.GOV_VFLUME_target q).addr / 0x10000 ≠ 1 := by simp only [F.GOV_VFLUME_target, R.GOV_VFLUME]; omega
  unfold State.setFlumeTarget
  extract_lets mv old _ run moved logged _
  have hrun : KeepsClk s run := by
    unfold run
    repeat' split
    · exact h.gov _
    · exact h
    · exact h
  split
  · exact hrun
  · exact (((hrun.put _ hq).put _ (by decide)).govLog _ _ _ _).gov _

theorem railToCeiling (h : KeepsClk s t) (q : Nat) : KeepsClk s (t.railToCeiling q) := by
  unfold State.railToCeiling
  split
  · exact h
  · exact (h.gov _).setFlumeTarget _ _

theorem holdFoms (h : KeepsClk s t) (sp : Nat) : KeepsClk s (t.holdFoms sp) := h.each _ (fun t _ => (refl t).gov _)

theorem agree (h : KeepsClk s t) (sp : Nat) : KeepsClk s (t.agree sp) := by
  have hpeer : R.SPK_PEER sp / 0x10000 ≠ 1 := by simp only [R.SPK_PEER]; omega
  have hstatus : R.SPK_STATUS sp / 0x10000 ≠ 1 := by simp only [R.SPK_STATUS]; omega
  unfold State.agree
  extract_lets x info build budget pace role shown ok
  have hshown : KeepsClk s shown := (((h.flag _ hpeer).flag _ hpeer).flag _ hpeer).flag _ hpeer
  have hlost : KeepsClk s ((shown.put (F.SPK_STATUS_state sp) 2).holdFoms sp) := (hshown.put _ hstatus).holdFoms sp
  split
  · split
    · exact hshown.put _ hstatus
    · exact hshown
  · split
    · exact hshown
    · exact hlost
  · split
    · exact hshown
    · exact hlost
  · exact hshown

theorem agreeAll (h : KeepsClk s t) : KeepsClk s t.agreeAll := h.each _ (fun t sp => (refl t).agree sp)

theorem get (h : KeepsClk s t) {f : Fld} (hf : f.addr / 0x10000 = 1) : t.get f = s.get f := congrArg f.of (h.reg f.addr hf)

theorem clk (h : KeepsClk s t) : t.clk = s.clk := (congrArg State.clk h.rest :)

theorem part (h : KeepsClk s t) (p : Nat) : t.part p = s.part p := (congrArg (fun v : State => v.part p) h.rest :)

end KeepsClk

/-! ## The end of the switch -/

/-- The registers and the record of the clocks show the new pace, and how long the step clocks stood. -/
def State.showPace (s : State) (v us : Nat) : State :=
  (({ s with clk := { s.clk with paceTo := none } }.put F.CLK_STATUS_switching 0).put F.CLK_STATUS_pace v).put F.CLK_PACETIME_us us

/-- Every partition is to measure again. -/
def State.remeasureAll (s : State) : State := s.each (List.range 4) (fun s p => s.modPart p (fun x => { x with remeasure := true }))

theorem State.showPace_pace (s : State) {v : Nat} (us : Nat) (hv : v < 4) : (s.showPace v us).pace = v := by
  rw [State.pace, State.showPace, State.get_put_ne _ _ (by decide), State.get_put_same _ _ _ (by decide)]
  exact Nat.mod_eq_of_lt hv

theorem State.showPace_switching (s : State) (v us : Nat) : (s.showPace v us).get F.CLK_STATUS_switching = 0 := by
  rw [State.showPace, State.get_put_ne _ _ (by decide), State.get_put_bits _ _ (by decide) (by decide), State.get_put_same _ _ _ (by decide)]
  rfl

theorem State.showPace_time (s : State) (v : Nat) {us : Nat} (hu : us < 2 ^ 16) : (s.showPace v us).get F.CLK_PACETIME_us = us := by
  rw [State.showPace, State.get_put_same _ _ _ (by decide)]
  exact Nat.mod_eq_of_lt hu

theorem State.remeasureAll_rest (s : State) : { s.remeasureAll with parts := s.parts } = s :=
  State.each_keeps (fun t : State => { t with parts := s.parts }) (fun t p => t.modPart p (fun x => { x with remeasure := true }))
    (fun _ _ => rfl) _ s

theorem State.remeasureAll_get (s : State) (f : Fld) : s.remeasureAll.get f = s.get f :=
  (congrArg (fun v : State => v.get f) s.remeasureAll_rest :)

theorem State.remeasureAll_part (s : State) {p : Nat} (hp : p < 4) : (s.remeasureAll.part p).remeasure = true := by
  have h : ∀ (l : List Nat) (t : State), (p ∈ l ∨ (t.part p).remeasure = true) →
      ((t.each l (fun s p => s.modPart p (fun x => { x with remeasure := true }))).part p).remeasure = true := by
    intro l
    induction l with
    | nil => exact fun t ht => ht.resolve_left List.not_mem_nil
    | cons q l ih =>
      intro t ht
      refine ih _ ?_
      by_cases hq : p = q
      · exact Or.inr (by simp [hq])
      · simpa [hq] using ht
  exact h _ s (Or.inl (List.mem_range.mpr hp))

/-- A state with the components that a switch may change taken from s. -/
def State.beforeSwitch (s t : State) : State :=
  { t with regs := s.regs, parts := s.parts, clk := s.clk, gov := s.gov, evt := s.evt, mlipend := s.mlipend }

/-- The state in which only VCORE may still have to follow a slower pace. -/
def State.switched (s : State) (v us : Nat) : State :=
  ((s.showPace v us).remeasureAll.each ((List.range 4).filter (fun q => (s.showPace v us).remeasureAll.quadEnabled q))
    (fun s q => s.railToCeiling q)).agreeAll

theorem State.switched_keepsClk (s : State) (v us : Nat) : KeepsClk (s.showPace v us).remeasureAll (s.switched v us) :=
  ((KeepsClk.refl _).each _ (fun t q => (KeepsClk.refl t).railToCeiling q)).agreeAll

theorem exec_paceSwitchDone (us : BitVec 16) {v : Nat} (ht : s.clk.paceTo = some v) (hd : ∀ p, p < 4 → (s.part p).draining = false) :
    exec (.paceSwitchDone us) s = .next (if v < s.pace then (s.switched v us.toNat).setVcore ((s.switched v us.toNat).vcoreOf v)
      else s.switched v us.toNat) := by
  have hnone : (List.range 4).any (fun p => (s.part p).draining) = false := by
    rw [List.any_eq_false]
    exact fun p hp => Bool.eq_false_iff.mp (hd p (List.mem_range.mp hp))
  change execPaceSwitchDone us s = _
  rw [execPaceSwitchDone, ht]
  dsimp only
  rw [if_neg (Bool.eq_false_iff.mp hnone)]
  rfl

/-- The switch is done, whether VCORE is lowered or not. -/
theorem exec_paceSwitchDone_keepsClk (us : BitVec 16) {v : Nat} (ht : s.clk.paceTo = some v) (hd : ∀ p, p < 4 → (s.part p).draining = false) :
    ∃ t, exec (.paceSwitchDone us) s = .next t ∧ KeepsClk (s.showPace v us.toNat).remeasureAll t := by
  refine ⟨_, exec_paceSwitchDone us ht hd, ?_⟩
  have h := s.switched_keepsClk v us.toNat
  split
  · exact h.gov _
  · exact h

end Sys2Proof.Machine
end

section
/-!
PROOFS. The obligation on PART_QMASK, the turn counters and the pace (R63, R79, R82, R434).
-/
namespace Sys2Proof.Machine

open Sys2Proof

/-- Settles O9: each clause is the rule for its command. (Which refusal of a pace is given first is the model's choice, log entry 66.) -/
theorem partitionRegistersAndPace : Obligations.PartitionRegistersAndPace := by
  refine ⟨?qmask, ?clear, ?taken, ?busy, ?refused, ?done⟩
  case qmask =>
    intro s p v disabled taken hp
    have refuses (r : Nat) := s.raise_refuses (code := 0x100E) (part := p) [v.toNat, r] (by decide) (by omega)
    refine ⟨_, exec_partQmaskWrite v hp, fun he (hd : s.namesDisabled v = false) (ht : s.namesTaken p v = false) => ?set, fun he => ?notEmpty,
      fun he (hd : s.namesDisabled v = true) => ?namesDisabled,
      fun he (hd : s.namesDisabled v = false) (ht : s.namesTaken p v = true) => ?namesTaken⟩
    case set =>
      rw [if_neg (not_not_intro he), if_neg (Bool.eq_false_iff.mp hd), if_neg (Bool.eq_false_iff.mp ht)]
      refine ⟨?value, s.get_put_bits _ (show 0 + 4 ≤ 32 by decide) (Or.inl (show 0 + 4 ≤ 8 by decide)),
        fun a ha => s.reg_put_ne _ (List.ne_of_not_mem_cons ha), s.put_rest _ _⟩
      exact (s.get_put_same _ _ (show 0 + 4 ≤ 32 by decide)).trans (Nat.mod_eq_of_lt v.isLt)
    case notEmpty => rw [if_pos he]; exact refuses 1
    case namesDisabled => rw [if_neg (not_not_intro he), if_pos hd]; exact refuses 2
    case namesTaken => rw [if_neg (not_not_intro he), if_neg (Bool.eq_false_iff.mp hd), if_pos ht]; exact refuses 3
  case clear =>
    intro s p
    refine ⟨_, exec_turnCtrlClear p s, ?rest, fun h => ?cleared, fun h0 h4 => ?waits⟩
    case rest =>
      split
      · exact s.clearTurns_rest p
      · rfl
    case cleared =>
      rw [if_pos h]
      have hmem : ∀ a ∈ [R.TURN_COUNT_LO p, R.TURN_COUNT_HI p, R.TURN_QUANTA_LO p, R.TURN_QUANTA_HI p, R.TURN_LASTBRAKE p], a ∈ turnCounters p :=
        fun a ha => List.mem_append_left _ ha
      refine ⟨s.clearTurns_pair (hmem _ (by simp)) (hmem _ (by simp)), s.clearTurns_pair (hmem _ (by simp)) (hmem _ (by simp)),
        s.clearTurns_counter (hmem _ (by simp)), fun c hc => s.clearTurns_counter (turnCause_mem_turnCounters p hc),
        s.clearTurns_invalidCount p, s.clearTurns_clear p, s.clearTurns_brakeLimit p,
        s.clearTurns_regsBut p (by simp) (by simp) fun a ha => ?counters⟩
      case counters =>
        rcases List.mem_append.mp ha with h | h
        · exact List.mem_append_left _ (List.mem_append_left [R.TURN_STATUS p, R.TURN_CTRL p] h)
        · exact List.mem_append_right _ h
    case waits =>
      rw [if_neg (not_or.mpr ⟨h0, h4⟩)]
      exact ⟨s.get_put_same _ _ (show 31 + 1 ≤ 32 by decide), fun a ha => s.reg_put_ne _ (List.ne_of_not_mem_cons ha), s.put_rest _ _⟩
  case taken =>
    intro s v h3 hv hw ht hload hparts
    have hbusy : s.busyParts = 0 := partMask_eq_zero fun p hp => by
      rcases hparts p hp with h | ⟨h, -⟩ <;> simp [h]
    have hallowed : s.unpacedParts v.toNat = 0 := partMask_eq_zero fun p hp => by
      rcases hparts p hp with h | ⟨-, h⟩ <;> simp [h]
    refine ⟨s.startPace v.toNat, ?_, s.startPace_asked v.isLt, s.startPace_pace _, fun h => ?slower, fun h => ?faster⟩
    · rw [exec_paceChange h3 hv hw ht, if_neg (not_not_intro hbusy), hload, if_neg Bool.false_ne_true, if_neg (not_not_intro hallowed)]
    case slower =>
      rw [State.startPace_slower h]
      exact ⟨State.switchPace_switching _ _, rfl, s.switchPace_regsBut _, rfl⟩
    case faster =>
      rw [State.startPace_faster h]
      exact ⟨rfl, rfl, rfl, fun a ha => s.reg_put_ne _ (List.ne_of_not_mem_cons ha), rfl⟩
  case busy =>
    intro s v p h3 hv hw ht h0 h4 busy
    have hp : (s.pstate p != 0 && s.pstate p != 4) = true := by simp [h0, h4]
    refine ⟨_, exec_paceChange h3 hv hw ht, (partMask_testBit _ p).trans hp, ?_⟩
    have hbusy : s.busyParts ≠ 0 := partMask_ne_zero p hp
    rw [if_pos hbusy]
    exact s.raise_refuses _ (by decide) (by decide)
  case refused =>
    intro s v h3 hv hw ht hparts bad hwhy
    have hbusy : s.busyParts = 0 := partMask_eq_zero fun p hp => by
      rcases hparts p hp with h | h <;> simp [h]
    refine ⟨_, exec_paceChange h3 hv hw ht, ?_⟩
    rw [if_neg (not_not_intro hbusy)]
    by_cases hload : s.loaderBusy = true
    · rw [if_pos hload, if_pos hload]
      exact s.raise_refuses _ (by decide) (by decide)
    · have hbad : s.unpacedParts v.toNat ≠ 0 := hwhy.resolve_left hload
      rw [if_neg hload, if_neg hload, if_pos hbad]
      exact s.raise_refuses _ (by decide) (by decide)
  case done =>
    intro s us v ht hv hd
    obtain ⟨t, hexec, h⟩ := exec_paceSwitchDone_keepsClk us ht hd
    have hget (f : Fld) (hf : f.addr / 0x10000 = 1) : t.get f = (s.showPace v us.toNat).get f := (h.get hf).trans (State.remeasureAll_get _ f)
    have hrest : { t with regs := s.regs, parts := s.parts, clk := s.clk, gov := s.gov, evt := s.evt, mlipend := s.mlipend } = s := by
      have hshown := State.remeasureAll_rest (s.showPace v us.toNat)
      exact (congrArg (State.beforeSwitch s) h.rest :).trans (congrArg (State.beforeSwitch s) hshown :)
    refine ⟨t, hexec, (hget _ (by decide)).trans (s.showPace_pace _ (by omega)), (hget _ (by decide)).trans (s.showPace_switching _ _),
      (hget _ (by decide)).trans (s.showPace_time _ us.isLt), ?paceTo, fun p hp => ?part, (congrArg State.stones hrest :),
      (congrArg State.dm hrest :), hrest⟩
    case paceTo => rw [h.clk]; exact (congrArg (fun v : State => v.clk.paceTo) (State.remeasureAll_rest (s.showPace v us.toNat)) :)
    case part => rw [h.part]; exact State.remeasureAll_part _ hp

end Sys2Proof.Machine
end
